-- ==== Sys2Proof/Word.lean ====
section
/-! DEFINITION. The plain units of the GP-7224: bytes, blocks and the two bounds every chapter uses. -/

namespace Sys2Proof

/-- One byte of a frame (Chapter 12). -/
abbrev Byte := BitVec 8

/-- The contents of one block of 4,096 bytes (0.5), read as ONE number, its first byte the most
significant. The part moves blocks whole and never computes on them, except for the CRC of a data
frame (R156), so the number is only a name for the contents: 0 is the block of zeros. `Block.wf` of
`WellFormed.lean` says that it has 4,096 bytes. -/
abbrev Block := Nat

/-- The block of zeros that an UNMAPPED chunk reads as (R17, R44). -/
def zeroBlock : Block := 0

/-- 268,435,455: the limit value that means "no limit" (R7, R57). -/
def noLimit : Nat := 268435455

/-- 4,294,967,295: the largest value of a 32-bit count, of campus time among them (R168). -/
def max32 : Nat := 4294967295

/-- The value after `n` in a counter of the values 0..`top`, with `top` followed by 0 (R126, R128,
R159). -/
def stepWrap (top n : Nat) : Nat := if n ≥ top then 0 else n + 1

/-- A list of `(key, value)` pairs: the sparse tables of volumes, map entries, accounts, jobs and
slots. `Table.wf` of `Machine/Table.lean` is the one canonical form. -/
abbrev Table (α : Type) := List (Nat × α)

end Sys2Proof
end

