-- ==== Sys2Proof/Config.lean ====
section
/-! DEFINITION. What the part fixes: capacities, ranges and defaults of the manual, and the one value
the manual leaves open (an opaque constant, no body). -/

namespace Sys2Proof.Config

/-- Largest pool, and the logical capacity of the part (R1, R7). -/
def maxPool : Nat := 268435456
/-- Largest volume, in chunks (R7). -/
def maxVolume : Nat := 67108864
/-- Number of volume numbers (1.4). -/
def volumes : Nat := 64
/-- Snapshot slots of a volume (5.1). -/
def snapSlots : Nat := 16
/-- Largest generation G (R7); a create is refused GENLIMIT at it (R77). -/
def maxGen : Nat := 4294967294
/-- Entries of the in-flight table (R21). -/
def inflightSize : Nat := 256
/-- Waiting requests of the control queue (R183). -/
def controlQueueSize : Nat := 8
/-- Notices the notice queue holds (R189). -/
def noticeQueueSize : Nat := 128
/-- Notices one NOTICE FETCH returns at most (R190). -/
def fetchSize : Nat := 8
/-- Entries of the grace expiry queue (R62). -/
def expiryQueueSize : Nat := 4096
/-- Restore job slots (R100). -/
def jobs : Nat := 4
/-- Free chunks above the floor at which PAUSED-POOL jobs resume (R114). -/
def poolResumeMargin : Nat := 64
/-- Shelf command slots (R159). -/
def shelfSlots : Nat := 64
/-- Foreground grants after which a waiting background command is granted (R161). -/
def streakLimit : Nat := 15
/-- Follow-up records of the schedule unit (R174). -/
def followUps : Nat := 48
/-- Entries of a schedule bank (R171). -/
def bankSize : Nat := 48
/-- Longest CHUNK CLEAR run (R131). -/
def maxClearRun : Nat := 65535
/-- Largest run counter; the counter goes from here to 0 (R128). -/
def maxRunCounter : Nat := 65534
/-- Seconds of a day (R170). -/
def daySeconds : Nat := 86400
/-- Seconds a HOLD may last (R153). The hold timer's expiry is a command of its own. -/
def holdLimitSeconds : Nat := 60
/-- Bytes of an offsite frame without payload (R192). -/
def offsiteHeader : Nat := 48
/-- Bytes of a block (0.5). -/
def blockBytes : Nat := 4096

/-- FREE VALUE (log entry 13). The run deadline that RUN START, a RUN action or PLAN forms when NO campus time
later than `now` and within the 32-bit clock has the given minute of day: R125 and R141 name "the
first campus time later than now" and say nothing of the clock's last day. -/
opaque deadlinePastClock (now minute : Nat) : Nat

end Sys2Proof.Config
end

