-- ==== Sys2Proof/Syntax.lean ====
section
/-! DEFINITION. The commands of the block: one constructor of `Instr` for each row of
spec/opcode_table.json, in the table's order, and the control requests (11.3) as the control queue
holds them. -/

namespace Sys2Proof

/-- One schedule entry as SCHEDULE WRITE carries it and a bank stores it (R171, 12.5). `param` is byte
7 of the record: the series of a SNAP or FREEZE, the mode of a RUN, the class of a RATE. -/
structure SchedEntry where
  used : Bool
  action : Nat
  minute : Nat
  weekdays : Nat
  volume : Nat
  snapOpt : Nat
  param : Nat
  keep : Nat
  deadline : Nat
  label : Nat
  deriving DecidableEq, Repr

/-- One range of RESTORE START: source LCN start, count, target LCN start (R100). -/
structure Range where
  src : Nat
  count : Nat
  dst : Nat
  deriving DecidableEq, Repr

/-- The sixteen fields of CONFIG SET, each present or absent, in the order of the table of 11.4 (R185). -/
structure ConfigPatch where
  floor : Option Nat := none
  low : Option Nat := none
  clear : Option Nat := none
  grace : Option Nat := none
  band : Option Nat := none
  drainTimeout : Option Nat := none
  shelfTimeout : Option Nat := none
  yieldHigh : Option Nat := none
  yieldLow : Option Nat := none
  partnerSite : Option Nat := none
  window : Option Nat := none
  ackTimeout : Option Nat := none
  retryLimit : Option Nat := none
  nightRate : Option Nat := none
  dayRate : Option Nat := none
  rateClass : Option Nat := none
  deriving DecidableEq, Repr

/-- A control request (11.3), its name-valued parameters as the numbers they were sent as, since
several rules refuse an unknown number only after earlier checks (R77, R176). -/
inductive Request where
  | format (k pool floor low clear : Nat)
  | configSet (patch : ConfigPatch)
  | configRead
  | timeSet (time : Nat)
  | go
  | reset
  | status
  | volumeCreate (vol size reserve : Nat) (offsite : Bool) (cap : Nat)
  | volumeDelete (vol : Nat)
  | volumeRead (vol : Nat)
  | freeze (vol : Nat)
  | thaw (vol : Nat)
  | setFullScan (vol : Nat)
  | accountSet (owner soft hard : Nat)
  | accountRead (owner : Nat)
  | accountReadNext
  | snapshotCreate (vol kind label : Nat) (series : Option Nat)
  | snapshotDelete (vol slot : Nat)
  | snapshotHold (vol slot : Nat)
  | snapshotRelease (vol slot : Nat)
  | snapshotList (vol : Nat)
  | restoreStart (srcVol srcSlot dstVol owner : Nat) (override : Bool) (ranges : List Range)
  | restoreSuspend (job : Nat)
  | restoreResume (job : Nat)
  | restoreAbort (job : Nat)
  | restoreStatus (job : Nat)
  | restoreClear (job : Nat)
  | runPlanSet (vols : List Nat)
  | runStart (mode minute : Nat)
  | runStop
  | runStatus
  | plan (minute : Nat)
  | scheduleWrite (bank index : Nat) (entry : SchedEntry)
  | scheduleWriteNext (entry : SchedEntry)
  | scheduleRead (bank index : Nat)
  | scheduleSwap
  | scheduleCancel
  | noticeFetch
  /-- A frame with an unknown command number, a wrong length or a flag that is neither 0 nor 1 (R183, R192,
  12.3): answered MALFORMED when it executes. -/
  | malformed (number : Nat)
  deriving DecidableEq, Repr

/-- The command number of a request (12.3). -/
def Request.number : Request → Nat
  | .format .. => 1
  | .configSet .. => 2
  | .configRead => 3
  | .timeSet .. => 4
  | .go => 5
  | .reset => 6
  | .status => 7
  | .volumeCreate .. => 8
  | .volumeDelete .. => 9
  | .volumeRead .. => 10
  | .freeze .. => 11
  | .thaw .. => 12
  | .setFullScan .. => 13
  | .accountSet .. => 14
  | .accountRead .. => 15
  | .accountReadNext => 16
  | .snapshotCreate .. => 17
  | .snapshotDelete .. => 18
  | .snapshotHold .. => 19
  | .snapshotRelease .. => 20
  | .snapshotList .. => 21
  | .restoreStart .. => 22
  | .restoreSuspend .. => 23
  | .restoreResume .. => 24
  | .restoreAbort .. => 25
  | .restoreStatus .. => 26
  | .restoreClear .. => 27
  | .runPlanSet .. => 28
  | .runStart .. => 29
  | .runStop => 30
  | .runStatus => 31
  | .plan .. => 32
  | .scheduleWrite .. => 33
  | .scheduleWriteNext .. => 34
  | .scheduleRead .. => 35
  | .scheduleSwap => 36
  | .scheduleCancel => 37
  | .noticeFetch => 38
  | .malformed n => n

/-- The result a shelf reply carries (R163): DONE with `data` blocks and `extra` bytes beyond whole
blocks, or ERROR with the shelf's reason code 1..239. -/
inductive ShelfResult where
  | done (data : List Block) (extra : Nat)
  | error (reason : Nat)
  deriving DecidableEq, Repr

/-- The commands of the part, one for each row of spec/opcode_table.json. A front or control request
is the arrival of its frame, whole, on the front link; `len` is the length of a front frame in bytes. A control
row is the arrival of that control request, well-formed; `controlRequestArrival` is the arrival of any control
frame, by its bytes. -/
inductive Instr where
  | powerOn
  | mirrorRecordRecovery
  | pendingReturnRecovery
  | restoreJobRecovery
  | runRecovery
  | expiryQueueRebuild
  | frontLinkDown
  | frontLinkUp
  | frontFrameBadAddress (addr kind tag : Nat)
  | shortFrameDiscard (addr len : Nat)
  | read (tag vol view start count owner len : Nat)
  | write (tag vol start count owner len : Nat) (data : List Block)
  | discard (tag vol start count owner len : Nat)
  | drainTimeout (vol : Nat)
  | controlRequestArrival (frame : List Byte)
  | format (tag k pool floor low clear : Nat)
  | formatFillStep
  | configSet (tag : Nat) (patch : ConfigPatch)
  | configRead (tag : Nat)
  | timeSet (tag time : Nat)
  | go (tag : Nat)
  | reset (tag : Nat)
  | status (tag : Nat)
  | volumeCreate (tag vol size reserve : Nat) (offsite : Bool) (cap : Nat)
  | volumeDelete (tag vol : Nat)
  | volumeDeleteWalkStep (vol : Nat)
  | volumeRead (tag vol : Nat)
  | freeze (tag vol : Nat)
  | thaw (tag vol : Nat)
  | setFullScan (tag vol : Nat)
  | accountSet (tag owner soft hard : Nat)
  | accountRead (tag owner : Nat)
  | accountReadNext (tag : Nat)
  | snapshotCreate (tag vol kind label : Nat) (series : Option Nat)
  | snapshotDelete (tag vol slot : Nat)
  | snapshotHold (tag vol slot : Nat)
  | snapshotRelease (tag vol slot : Nat)
  | snapshotList (tag vol : Nat)
  | mergeWalkStep (vol : Nat)
  | restoreStart (tag srcVol srcSlot dstVol owner : Nat) (override : Bool) (ranges : List Range)
  | restoreSuspend (tag job : Nat)
  | restoreResume (tag job : Nat)
  | restoreAbort (tag job : Nat)
  | restoreStatus (tag job : Nat)
  | restoreClear (tag job : Nat)
  | runPlanSet (tag : Nat) (vols : List Nat)
  | runStart (tag mode minute : Nat)
  | runStop (tag : Nat)
  | runStatus (tag : Nat)
  | plan (tag minute : Nat)
  | fullScanStep
  | hello (site : Nat)
  | ack (n runId : Nat)
  | nak (n runId : Nat)
  | hold
  | resume
  | offsiteFrameIgnored (frame : List Byte)
  | offsiteCarrierLoss
  | ackTimerExpiry
  | holdTimerExpiry
  | pacingTimeReached (instant : Nat)
  | shelfReply (slot epoch use : Nat) (isWrite : Bool) (result : ShelfResult)
  | shelfCommandTimeout (slot : Nat)
  | shelfLinkDown
  | shelfLinkUp
  | clockAdvance
  | graceExpiryFire
  | scheduleWrite (tag bank index : Nat) (entry : SchedEntry)
  | scheduleWriteNext (tag : Nat) (entry : SchedEntry)
  | scheduleRead (tag bank index : Nat)
  | scheduleSwap (tag : Nat)
  | scheduleCancel (tag : Nat)
  | noticeFetch (tag : Nat)
  | malformedRequestKind (vol kind tag : Nat)
  deriving DecidableEq, Repr

end Sys2Proof
end

