-- ==== Sys2Proof/Machine/State.lean ====
section
/-! DEFINITION. The state of the part, as plain data, grouped by the blocks of 0.3, with the values it
takes at the first power-on of a new part. Lists and numbers that the manual names twice are stored once
(the free count F is the length of the free FIFO, a retained count the length of the retained set, the
reserve usage and the mapped count are counted): `Machine/Operands.lean` holds those readings. -/

namespace Sys2Proof.Machine

/-! ### Names of Chapter 12 -/

/-- Completion codes (12.6). -/
inductive Code where
  | ok | malformed | notReady | busy | badVol | range | frozen | quota | noSpace | noView | media
  | timeout | held | inUse | noSlot | reserve | overlap | notArmed | active | notSet | genLimit
  | recovering | notFound
  deriving DecidableEq, Repr

/-- Notice kinds in the order of 11.8 (R189). -/
inductive NoticeKind where
  | recovered | formatDone | poolLow | poolRecovered | volumeDeleted | graceStarted | lapsed | over
  | cleared | deleteDone | reserveOver | reserveCleared | rotationBlocked | snapshotTaken
  | snapshotSkipped | freezeSkipped | thawSkipped | runSkipped | scheduleSwapped | restoreEnded
  | changeListOverflow | runVolumeSealed | runVolumeSkipped | runPassDone | runEnded | linkUp
  | linkLost | shelfError
  deriving DecidableEq, Repr

/-- A notice: kind, campus time of its event, subject and two details (R189). -/
structure Notice where
  kind : NoticeKind
  time : Nat
  subject : Nat
  d1 : Nat
  d2 : Nat
  deriving DecidableEq, Repr

/-! ### Map unit: the pool and the volumes -/

/-- Condition of the format record (1.1). -/
inductive FormatCond where
  | none | formatting | valid
  deriving DecidableEq, Repr

/-- The format record: persistent (1.1). -/
structure Format where
  cond : FormatCond
  k : Nat
  pool : Nat
  floor : Nat
  low : Nat
  clear : Nat
  deriving DecidableEq, Repr

/-- The two forms of a map entry (1.6, R15). -/
inductive Form where
  | mapped (pcn born owner : Nat)
  | unmapped (clearedIn : Nat)
  deriving DecidableEq, Repr

/-- A map entry: its form and its logged stamp, `none` for NOT LOGGED (1.6). -/
structure MapEntry where
  form : Form
  stamp : Option Nat
  deriving DecidableEq, Repr

/-- An entry as VOLUME CREATE leaves it (R7, R15). -/
def MapEntry.fresh : MapEntry := { form := .unmapped 0, stamp := none }

/-- An entry of a retained set (R82). -/
structure RetEntry where
  lcn : Nat
  pcn : Nat
  born : Nat
  deriving DecidableEq, Repr

inductive SnapKind where
  | run | user | scheduled | preRestore
  deriving DecidableEq, Repr

inductive SnapState where
  | ready | deletePending | deleting
  deriving DecidableEq, Repr

/-- A snapshot record with its retained set (R76, R82). `freed` counts the PCNs its deletion walk has
freed, for DELETE DONE (R91). -/
structure Snap where
  kind : SnapKind
  series : Option Nat
  gen : Nat
  label : Nat
  created : Nat
  held : Bool
  state : SnapState
  retained : List RetEntry
  inUse : Nat
  freed : Nat
  deriving DecidableEq, Repr

/-- Who asked for a snapshot create, and so receives its answer (R77, R173, R104, R127). -/
inductive CreateAsker where
  | control
  | schedule (index keep : Nat)
  | restore (job : Nat)
  | run
  deriving DecidableEq, Repr

/-- A snapshot create that waits for its drain (R78, R81). -/
structure CreateReq where
  kind : SnapKind
  series : Option Nat
  label : Nat
  asker : CreateAsker
  deriving DecidableEq, Repr

/-- Who asked for a freeze (R12). A FREEZE entry's freeze names the follow-up record made with it, `none` when none
was made (R174). -/
inductive FreezeAsker where
  | control
  | schedule (index : Nat) (record : Option Nat)
  deriving DecidableEq, Repr

/-- What a drain is for: a holding drain creates a snapshot, a refusing drain freezes the volume for all
who joined it (R25, R12). -/
inductive DrainWork where
  | holding (create : CreateReq)
  | refusing (freezers : List FreezeAsker)
  deriving DecidableEq, Repr

/-- The owner of a busy set item, and the member of a drain set (R22, R26). -/
inductive BusyOwner where
  | front (arrival : Nat)
  | restore (job : Nat)
  deriving DecidableEq, Repr

/-- A running drain: its work, its set, and the timeout its timer was started with, in units of 100 ms
(R25, R26). -/
structure Drain where
  work : DrainWork
  members : List BusyOwner
  timeout : Nat
  deriving DecidableEq, Repr

inductive VolState where
  | absent | normal | freezing | frozen | deleting
  deriving DecidableEq, Repr

/-- A volume record (1.4): the map unit's fields, the snapshot unit's, the offsite engine's and the
drain state. `drain`, `waiting` and `holdList` are volatile (R6). `walkFreed` counts the PCNs the delete
walk has freed, for VOLUME DELETED (R10). -/
structure Volume where
  state : VolState
  size : Nat
  map : Table MapEntry
  gen : Nat
  snaps : Table Snap
  deleteQueue : List Nat
  reserveLimit : Nat
  reserveOver : Bool
  offsite : Bool
  cap : Nat
  runCounter : Nat
  fullScan : Bool
  overflow : Bool
  everSealed : Bool
  activeList : List Nat
  activeIncomplete : Bool
  runList : List Nat
  runIncomplete : Bool
  drain : Option Drain
  waiting : List DrainWork
  holdList : List Nat
  deletePos : Nat
  walkFreed : Nat
  deriving DecidableEq, Repr

/-- The record of an ABSENT volume, on a new part and after a delete (R6, R10): every other field, to which no rule gives a
value, at 0, empty or clear. DESIGN CHOICE, log entry 2. -/
def Volume.absent : Volume :=
  { state := .absent, size := 0, map := [], gen := 0, snaps := [], deleteQueue := [], reserveLimit := 0,
    reserveOver := false, offsite := false, cap := 0, runCounter := 0, fullScan := false,
    overflow := false, everSealed := false, activeList := [], activeIncomplete := false,
    runList := [], runIncomplete := false, drain := none, waiting := [], holdList := [],
    deletePos := 0, walkFreed := 0 }

/-! ### Transaction engine -/

inductive FrontKind where
  | read | write | discard
  deriving DecidableEq, Repr

/-- A front request's own fields (R19); `view` is `none` for LIVE. -/
structure FrontReq where
  tag : Nat
  kind : FrontKind
  vol : Nat
  view : Option Nat
  start : Nat
  count : Nat
  owner : Nat
  deriving DecidableEq, Repr

inductive EntryState where
  | held | waiting | active
  deriving DecidableEq, Repr

/-- The classes of R43. -/
inductive ChunkClass where
  | unmapped | shared | inPlace
  deriving DecidableEq, Repr

/-- One chunk of an accepted WRITE's chunk plan (R30, R43): class, old PCN, born-in and owner, the claimed
PCN, the copy reads not yet ended with the blocks they brought, and whether an in-place write has taken a
slot (R37). -/
structure ChunkPlan where
  lcn : Nat
  cls : ChunkClass
  old : Option (Nat × Nat × Nat)
  claimed : Option Nat
  reads : Nat
  copied : List (Nat × List Block)
  slotted : Bool
  deriving DecidableEq, Repr

/-- An entry of the in-flight table (R21). `gen` is g_n of a WRITE or DISCARD (R52) and the snapshot's
generation of a READ (R31); `left` counts the shelf commands not yet ended. -/
structure Entry where
  arrival : Nat
  req : FrontReq
  state : EntryState
  gen : Nat
  plan : List ChunkPlan
  claims : List Nat
  charges : List (Nat × Int)
  left : Nat
  failed : Bool
  data : List Block
  deriving DecidableEq, Repr

/-- An item of the busy set (R22): its owner, volume, chunks, mode, and whether it has proceeded. -/
structure BusyItem where
  owner : BusyOwner
  vol : Nat
  chunks : List Nat
  change : Bool
  proceeded : Bool
  deriving DecidableEq, Repr

/-- A record of the persistent in-flight mirror (R30). -/
structure MirrorRec where
  arrival : Nat
  vol : Nat
  claims : List Nat
  charges : List (Nat × Int)
  inPlace : List Nat
  deriving DecidableEq, Repr

/-! ### Quota unit -/

inductive AcctState where
  | under | grace | lapsed | over
  deriving DecidableEq, Repr

/-- An account record (R57); the owner tag is its key. -/
structure Account where
  charge : Nat
  reserved : Nat
  soft : Nat
  hard : Nat
  expiry : Option Nat
  queued : Bool
  last : AcctState
  deriving DecidableEq, Repr

/-- The record of a tag never used (R57). -/
def Account.fresh : Account :=
  { charge := 0, reserved := 0, soft := noLimit, hard := noLimit, expiry := none, queued := false,
    last := .under }

/-! ### Restore engine -/

/-- Job states (R101). SUSPEND REQUESTED is `running` with the suspend-requested flag set. -/
inductive JobState where
  | starting | running | suspended | yielded | pausedFrozen | pausedPool
  | done | aborted | failedShelf | failedInterrupted
  deriving DecidableEq, Repr

/-- The stage of a copy in flight: its read, then its write (R109). -/
inductive CopyStage where
  | reading | writing
  deriving DecidableEq, Repr

/-- The copy in flight of a job (R100). -/
structure Copy where
  lcn : Nat
  srcPcn : Nat
  pcn : Nat
  gen : Nat
  stage : CopyStage
  deriving DecidableEq, Repr

/-- A restore job record (R100). `waiting` says that a visit's copy waits undecided in the busy set
(R105). -/
structure Job where
  state : JobState
  srcVol : Nat
  srcSlot : Nat
  srcGen : Nat
  dstVol : Nat
  owner : Nat
  override : Bool
  ranges : List Range
  total : Nat
  pre : Option (Nat × Nat)
  rangeIdx : Nat
  offset : Nat
  remaining : Nat
  copied : Nat
  cleared : Nat
  skipped : Nat
  unchanged : Nat
  waiting : Bool
  copy : Option Copy
  suspendReq : Bool
  failedPcn : Option Nat
  deriving DecidableEq, Repr

/-! ### Offsite engine and offsite port -/

inductive RunState where
  | idle | active | stopping | suspendedLink | suspendedShelf | closing
  deriving DecidableEq, Repr

inductive RunResult where
  | none | complete | stopped | deadline | failed | interrupted
  deriving DecidableEq, Repr

inductive RunMode where
  | nightly | continuous
  deriving DecidableEq, Repr

inductive Phase where
  | freeze | send | seal
  deriving DecidableEq, Repr

/-- The kinds of offsite frame the part sends (8.2). -/
inductive FrameKind where
  | runOpen | volumeOpen | chunkData | chunkClear | volumeSeal | runClose
  deriving DecidableEq, Repr

/-- An offsite frame the part sends (12.4). -/
structure Frame where
  kind : FrameKind
  flags : Nat
  vol : Nat
  seq : Nat
  runId : Nat
  lcn : Nat
  count : Nat
  crc : BitVec 32
  gen : Nat
  a : Nat
  b : Nat
  payload : List Block
  deriving DecidableEq, Repr

/-- The shelf read of a frame in preparation: its LCN and whether it has been re-issued (R137). -/
structure Reading where
  lcn : Nat
  reissued : Bool
  deriving DecidableEq, Repr

/-- The run record (R123). `asked` tells, in phase FREEZE, whether the RUN create is asked for (it waits
for a drain) or slot 0 is waited for (R127). `pos` is a run-list index or an LCN; `scanRead` says that the
view at `pos` was found a PCN and its read is still due (R131). `passSealed` and `passSkipped` are the counts
RUN CLOSE carries (R133). `frames` are the frames made and not yet taken, the offered one first (R129). -/
structure Run where
  state : RunState
  result : RunResult
  mode : RunMode
  deadline : Nat
  runId : Nat
  pass : Nat
  planIndex : Nat
  phase : Phase
  asked : Bool
  fullScan : Bool
  reasons : Nat
  keep : Bool
  pos : Nat
  clearStart : Nat
  clearCount : Nat
  scanRead : Bool
  volData : Nat
  volClear : Nat
  passSealed : Nat
  passSkipped : Nat
  sealedVols : Nat
  skippedVols : Nat
  dataFrames : Nat
  clearFrames : Nat
  retries : Nat
  linkMark : Bool
  shelfMark : Bool
  frames : List Frame
  reading : Option Reading
  deriving DecidableEq, Repr

/-- The offsite port (8.1). `seqRun` is the run id of the running sequence, `nextNo` the number the next new
frame receives, `ackTimer` the timeout the running timer was started with (units of 100 ms), `held` the hold
state with its 60 s timer, `nextSend` and `pace` microseconds of the pacing clock (R147). -/
structure Port where
  up : Bool
  site : Option Nat
  seqRun : Option Nat
  nextNo : Nat
  highestAcked : Nat
  outstanding : List Frame
  resendPos : Option Nat
  retry : Nat
  ackTimer : Option Nat
  held : Bool
  nextSend : Nat
  pace : Nat
  ignored : Nat
  resent : Nat
  deriving DecidableEq, Repr

/-! ### Shelf port -/

inductive ShelfKind where
  | read | write
  deriving DecidableEq, Repr

inductive ShelfClass where
  | foreground | restore | offsite
  deriving DecidableEq, Repr

/-- Why a front request issued a command (R32, R33). -/
inductive Purpose where
  | readData | copyRead | chunkWrite | inPlace
  deriving DecidableEq, Repr

/-- The owning work of a shelf command (R159). `abandoned` is the write of an abandoned copy, which
completes the pending return of its PCN (R116); `dropped` is a command whose result nobody wants. -/
inductive CmdOwner where
  | request (arrival lcn : Nat) (why : Purpose)
  | restore (job : Nat)
  | abandoned (pcn : Nat)
  | send
  | dropped
  deriving DecidableEq, Repr

/-- A shelf command (R158). -/
structure ShelfCmd where
  kind : ShelfKind
  cls : ShelfClass
  pcn : Nat
  first : Nat
  count : Nat
  data : List Block
  owner : CmdOwner
  deriving DecidableEq, Repr

/-- An occupied command slot: the command, its identity, and the timeout its timer was started with, in
units of 10 ms (R159, R164). -/
structure SlotRec where
  cmd : ShelfCmd
  epoch : Nat
  use : Nat
  timeout : Nat
  deriving DecidableEq, Repr

/-- The shelf port (9.1). `turnOffsite` is the background turn: `false` RESTORE, `true` OFFSITE. -/
structure Shelf where
  up : Bool
  fgQueue : List ShelfCmd
  restoreQueue : List ShelfCmd
  offsiteQueue : List ShelfCmd
  slots : Table SlotRec
  uses : Table Nat
  epoch : Nat
  streak : Nat
  turnOffsite : Bool
  ignored : Nat
  deriving DecidableEq, Repr

/-! ### Schedule unit and control unit -/

inductive RateClass where
  | night | day
  deriving DecidableEq, Repr

/-- A follow-up record: the snapshot to take when a FREEZE action is answered OK (R174). `number` is the model's own
name for the record, the lowest free one of 0..47, by which its freeze finds it (log entry 45). -/
structure FollowUp where
  number : Nat
  vol : Nat
  index : Nat
  series : Nat
  keep : Nat
  label : Nat
  deriving DecidableEq, Repr

/-- The campus clock, the two banks, the active-bank pointer (`true` for B), the pending swap, the active
rate class and the follow-up records (10.1 to 10.4). -/
structure Schedule where
  clockSet : Bool
  clock : Nat
  bankA : Table SchedEntry
  bankB : Table SchedEntry
  activeB : Bool
  swap : Bool
  rate : RateClass
  followUps : List FollowUp
  deriving DecidableEq, Repr

/-- The configuration record (11.4), the thresholds and the rate class apart. -/
structure Config where
  grace : Nat
  band : Nat
  drainTimeout : Nat
  shelfTimeout : Nat
  yieldHigh : Nat
  yieldLow : Nat
  partnerSite : Nat
  window : Nat
  ackTimeout : Nat
  retryLimit : Nat
  nightRate : Nat
  dayRate : Nat
  deriving DecidableEq, Repr

/-- The defaults of 11.4. -/
def Config.default : Config :=
  { grace := 604800, band := 64, drainTimeout := 20, shelfTimeout := 50, yieldHigh := 192,
    yieldLow := 128, partnerSite := 0, window := 16, ackTimeout := 20, retryLimit := 8,
    nightRate := 16384, dayRate := 2048 }

inductive PartState where
  | recovering | standby | running
  deriving DecidableEq, Repr

/-- A control request with its tag. -/
structure ControlReq where
  tag : Nat
  req : Request
  deriving DecidableEq, Repr

/-- What occupies the executing slot: the tag and command number its reply will carry (R183). -/
structure Executing where
  tag : Nat
  number : Nat
  deriving DecidableEq, Repr

/-- The control unit (11.1 to 11.6). `recStep` is the recovery step in progress, 0 for none;
`recMirror` and `recJobs` are the details RECOVERED will carry (R178). -/
structure Control where
  part : PartState
  recStep : Nat
  recMirror : Nat
  recJobs : Nat
  executing : Option Executing
  queue : List ControlReq
  config : Config
  notices : List Notice
  lost : Bool
  acctCursor : Nat
  schedBankB : Bool
  schedIndex : Nat
  deriving DecidableEq, Repr

/-! ### What the part puts on its links -/

/-- A frame the part transmits: a front reply, a control reply with its two flags and its four-byte
results, a shelf command with its identity and address, or an offsite frame. -/
inductive Output where
  | front (addr kind : Nat) (code : Code) (tag blocks : Nat) (data : List Block)
  | control (noticePending noticeLost : Bool) (number tag : Nat) (code : Code) (result : List Nat)
  | shelf (slot epoch use : Nat) (kind : ShelfKind) (address count : Nat) (data : List Block)
  | offsite (frame : Frame)
  deriving DecidableEq, Repr

/-- THE STATE OF THE PART. The last two fields are the model's own: `out`, what the last command made the
part put on its links, oldest first, and `pending`, the commands that wait, first in, first out. -/
structure State where
  frontUp : Bool
  format : Format
  free : List Nat
  claims : Nat
  poolLow : Bool
  vols : Table Volume
  inflight : List Entry
  busy : List BusyItem
  mirror : List MirrorRec
  nextArrival : Nat
  accounts : Table Account
  expiryQueue : List (Nat × Nat)
  firing : Bool
  jobs : Table Job
  yielding : Bool
  returns : List Nat
  run : Run
  plan : List Nat
  port : Port
  shelf : Shelf
  sched : Schedule
  ctl : Control
  out : List Output
  pending : List Instr
  deriving DecidableEq, Repr

/-- Reasons for a fault. There is NONE: the manual gives every command of the table an effect in every
state, so no command of this part faults. -/
inductive Fault where
  deriving DecidableEq, Repr

/-- Reasons for a refusal. -/
inductive Refusal where
  /-- Raised by an arm of `exec` whose command has no meaning yet; no arm is one. Safe: the model stops. -/
  | notModelled (mnemonic : String)
  deriving DecidableEq, Repr

/-! ### Reset values -/

/-- The format record of a new part (1.1). -/
def Format.none : Format :=
  { cond := .none, k := 0, pool := 0, floor := 0, low := 0, clear := 0 }

/-- The run record of a new part: IDLE, last result none, run id 0 (R123); the other fields, to which
the manual gives no value, at 0 (log entry 2). -/
def Run.fresh : Run :=
  { state := .idle, result := .none, mode := .nightly, deadline := 0, runId := 0, pass := 1,
    planIndex := 0, phase := .freeze, asked := false, fullScan := false, reasons := 0, keep := false,
    pos := 0, clearStart := 0, clearCount := 0, scanRead := false, volData := 0, volClear := 0,
    passSealed := 0, passSkipped := 0, sealedVols := 0, skippedVols := 0, dataFrames := 0,
    clearFrames := 0, retries := 0, linkMark := false, shelfMark := false, frames := [],
    reading := none }

/-- The offsite port after power-on and RESET (R155), at the pacing instant `pace`. R155 names no value of the number
the next new frame receives: 1, as R144 gives it when a pass opens, is the model's choice (log entry 2). -/
def Port.atReset (pace : Nat) : Port :=
  { up := false, site := none, seqRun := none, nextNo := 1, highestAcked := 0, outstanding := [],
    resendPos := none, retry := 0, ackTimer := none, held := false, nextSend := pace, pace := pace,
    ignored := 0, resent := 0 }

/-- The shelf port after power-on and RESET, at reset epoch `epoch` (R167). The model keeps no shelf carrier: the link
is DOWN until the row that brings it UP, a carrier that stayed present through the RESET included (log entry 49). -/
def Shelf.atReset (epoch : Nat) : Shelf :=
  { up := false, fgQueue := [], restoreQueue := [], offsiteQueue := [], slots := [], uses := [],
    epoch := epoch, streak := 0, turnOffsite := false, ignored := 0 }

/-- The schedule unit of a new part: bank A active, every entry unused (R171, R177), the clock NOT SET
(R168). -/
def Schedule.fresh : Schedule :=
  { clockSet := false, clock := 0, bankA := [], bankB := [], activeB := false, swap := false,
    rate := .night, followUps := [] }

/-- The machine right after the first power-on of a new part. The recovery of a new part has nothing
to do, so every step of it completes in the power-on event (R178): the part is in STANDBY, with RECOVERED
queued and the reset epoch stepped from 0 to 1 (R159). -/
def State.reset : State :=
  { frontUp := true, format := Format.none, free := [], claims := 0, poolLow := false, vols := [],
    inflight := [], busy := [], mirror := [], nextArrival := 0, accounts := [], expiryQueue := [],
    firing := false, jobs := [], yielding := false, returns := [], run := Run.fresh, plan := [],
    port := Port.atReset 0, shelf := Shelf.atReset 1, sched := Schedule.fresh,
    ctl :=
      { part := .standby, recStep := 0, recMirror := 0, recJobs := 0, executing := none, queue := [],
        config := Config.default,
        notices := [{ kind := .recovered, time := 0, subject := 0, d1 := 0, d2 := 0 }], lost := false,
        acctCursor := 65535, schedBankB := true, schedIndex := 47 },
    out := [], pending := [] }

end Sys2Proof.Machine
end

