-- ==== Sys2Proof/Machine/Table.lean ====
section
/-! DEFINITION. Reading and writing the sparse tables: entries in strictly rising key order, and (for a
table with a default) no entry equal to what an unlisted key reads as. -/

namespace Sys2Proof.Machine

/-- The value listed for a key. -/
def tfind {α : Type} : Table α → Nat → Option α
  | [], _ => none
  | (k, v) :: t, i => if i = k then some v else tfind t i

/-- Lists `v` for key `i`, in its place. -/
def tput {α : Type} (i : Nat) (v : α) : Table α → Table α
  | [] => [(i, v)]
  | (k, w) :: t =>
    if i < k then (i, v) :: (k, w) :: t else if i = k then (i, v) :: t else (k, w) :: tput i v t

/-- Unlists key `i`. -/
def tdel {α : Type} (i : Nat) : Table α → Table α
  | [] => []
  | (k, w) :: t => if i = k then tdel i t else (k, w) :: tdel i t

/-- The value of a key in a table whose unlisted keys read as `d`. -/
def tget {α : Type} (d : α) (t : Table α) (i : Nat) : α := (tfind t i).getD d

/-- Writes `v` at key `i`: the default is written by unlisting the key. -/
def tset {α : Type} [DecidableEq α] (d : α) (i : Nat) (v : α) (t : Table α) : Table α :=
  if v = d then tdel i t else tput i v t

/-- Changes every listed value by `f`, dropping those that become the default. -/
def tmap {α : Type} [DecidableEq α] (d : α) (f : α → α) : Table α → Table α
  | [] => []
  | (k, v) :: t => if f v = d then tmap d f t else (k, f v) :: tmap d f t

/-- Every key of the table is greater than `k`. -/
def Table.above {α : Type} (k : Nat) (t : Table α) : Bool := t.all fun p => decide (k < p.1)

/-- Keys strictly rising. -/
def Table.sorted {α : Type} : Table α → Bool
  | [] => true
  | (k, _) :: t => Table.above k t && Table.sorted t

/-- The canonical form: keys strictly rising, and no entry equal to the default `d`. -/
def Table.wf {α : Type} [DecidableEq α] (d : α) (t : Table α) : Bool :=
  Table.sorted t && t.all fun p => decide (p.2 ≠ d)

/-- Inserts a number into an ascending list without repeats. -/
def insertAsc (n : Nat) : List Nat → List Nat
  | [] => [n]
  | m :: t => if n < m then n :: m :: t else if n = m then m :: t else m :: insertAsc n t

/-- The numbers of two ascending lists in ascending order, each once. -/
def unionAsc (a b : List Nat) : List Nat := b.foldl (fun acc n => insertAsc n acc) a

/-- The elements of a list in ascending order of `key`, equal keys in list order. -/
def insertByKey {α : Type} (key : α → Nat) (x : α) : List α → List α
  | [] => [x]
  | y :: t => if key x < key y then x :: y :: t else y :: insertByKey key x t

/-- Sorts a list by `key`, ascending. -/
def sortByKey {α : Type} (key : α → Nat) (l : List α) : List α :=
  l.foldl (fun acc x => insertByKey key x acc) []

/-- Replaces the elements of `l` from index `at` on by those of `new`, as far as `l` reaches. -/
def overwriteAt {α : Type} (l : List α) (i : Nat) (new : List α) : List α :=
  l.take i ++ (new.take (l.length - i)) ++ l.drop (i + new.length)

end Sys2Proof.Machine
end

