-- ==== Sys2Proof/Machine/Operands.lean ====
section
/-! DEFINITION. What a command's operands and the records name, read without changing anything: chunk
spans and covered blocks (R42), the classes of R43, days and minutes (R170), the counts of volume records,
sharing generations and the view lookup (R82, R85), and the numbers of 12.6. -/

namespace Sys2Proof.Machine

/-! ### Spans and covered blocks (R42) -/

def firstChunk (k b : Nat) : Nat := b / 2 ^ k

def lastChunk (k b n : Nat) : Nat := (b + n - 1) / 2 ^ k

/-- The chunks a request touches, ascending (span order). -/
def span (k b n : Nat) : List Nat := List.range' (firstChunk k b) (lastChunk k b n - firstChunk k b + 1)

/-- Offset in chunk `c` of its first covered block. -/
def coverFirst (k b c : Nat) : Nat := max b (c * 2 ^ k) - c * 2 ^ k

/-- Offset in chunk `c` just past its last covered block. -/
def coverEnd (k b n c : Nat) : Nat := min (b + n) ((c + 1) * 2 ^ k) - c * 2 ^ k

/-- All 2^k blocks of chunk `c` are covered. -/
def isFull (k b n c : Nat) : Bool := coverFirst k b c == 0 && coverEnd k b n c == 2 ^ k

/-- The chunks a request covers whole, ascending (R22, R45). -/
def fullChunks (k b n : Nat) : List Nat := (span k b n).filter (isFull k b n)

/-- The runs of uncovered offsets of a chunk, each as first offset and count: none, one or two (R44). -/
def uncoveredRuns (k b n c : Nat) : List (Nat × Nat) :=
  let f := coverFirst k b c
  let e := coverEnd k b n c
  (if f = 0 then [] else [(0, f)]) ++ (if e = 2 ^ k then [] else [(e, 2 ^ k - e)])

/-- The request's data in the covered blocks of chunk `c`, in offset order. -/
def coveredData (k b n : Nat) (data : List Block) (c : Nat) : List Block :=
  (data.drop (c * 2 ^ k + coverFirst k b c - b)).take (coverEnd k b n c - coverFirst k b c)

/-- The contents of a whole chunk: the request's data in the covered blocks, the copied blocks where there
are any, zeros elsewhere (R44). -/
def chunkContents (k b n : Nat) (data : List Block) (copied : List (Nat × List Block)) (c : Nat) :
    List Block :=
  let base := copied.foldl (fun acc r => overwriteAt acc r.1 r.2) (List.replicate (2 ^ k) zeroBlock)
  overwriteAt base (coverFirst k b c) (coveredData k b n data c)

/-! ### Campus time (R170) -/

def dayOf (t : Nat) : Nat := t / Config.daySeconds

def minuteOf (t : Nat) : Nat := t % Config.daySeconds / 60

/-- 0 is Monday. -/
def weekdayOf (t : Nat) : Nat := dayOf t % 7

/-- The first campus time later than `now` whose minute of day is `m` (R125). Past the end of the 32-bit
clock there is none: a free value (log entry 13). -/
def nextMinute (now m : Nat) : Nat :=
  let today := dayOf now * Config.daySeconds + m * 60
  let t := if today > now then today else today + Config.daySeconds
  if t ≤ max32 then t else Config.deadlinePastClock now m

/-! ### Volume records -/

/-- The volume record of a number. -/
def State.vol (s : State) (v : Nat) : Volume := tget Volume.absent s.vols v

/-- The map entry of an LCN. -/
def Volume.entry (v : Volume) (lcn : Nat) : MapEntry := tget MapEntry.fresh v.map lcn

/-- The mapped count: the number of MAPPED entries (1.4). -/
def Volume.mappedCount (v : Volume) : Nat :=
  (v.map.filter fun p => match p.2.form with | .mapped .. => true | .unmapped _ => false).length

/-- The retained count of a snapshot (R76). -/
def Snap.retainedCount (s : Snap) : Nat := s.retained.length

/-- The reserve usage: the total of the retained counts (R82). -/
def Volume.reserveUsage (v : Volume) : Nat := (v.snaps.map fun p => p.2.retainedCount).sum

/-- The volume exists and is not being deleted. -/
def Volume.usable (v : Volume) : Bool := v.state != .absent && v.state != .deleting

/-- The free count F: the length of the free FIFO (1.2). -/
def State.freeCount (s : State) : Nat := s.free.length

/-- The occupancy of the in-flight table (R21). -/
def State.occupancy (s : State) : Nat := s.inflight.length

/-- The volumes that are not ABSENT. -/
def State.present (s : State) : Table Volume := s.vols.filter fun p => p.2.state != .absent

/-- The logical capacity not taken by volumes (R7). -/
def State.logicalLeft (s : State) : Nat := Config.maxPool - (s.present.map fun p => p.2.size).sum

/-- The volume numbers in use, ascending. -/
def State.volNumbers (s : State) : List Nat := s.vols.map (·.1)

/-! ### Snapshots -/

/-- READY or DELETE PENDING: the snapshot can share and receive chunks (R82, R83). -/
def Snap.shares (s : Snap) : Bool := s.state != .deleting

/-- The newest snapshot, with its slot, among those that `p` accepts. -/
def newestSnap (p : Snap → Bool) (t : Table Snap) : Option (Nat × Snap) :=
  t.foldl (fun acc x =>
    if p x.2 then
      match acc with
      | none => some x
      | some y => if y.2.gen < x.2.gen then some x else acc
    else acc) none

/-- The sharing generation of R82: that of the newest READY or DELETE PENDING snapshot, 0 if there is none. -/
def Volume.sharingGen (v : Volume) : Nat := ((newestSnap Snap.shares v.snaps).map (·.2.gen)).getD 0

/-- The lowest-numbered empty slot of 1..15 (R80). -/
def Volume.emptySlot (v : Volume) : Option Nat :=
  (List.range' 1 15).find? fun i => (tfind v.snaps i).isNone

/-- The first entry of `lcn` in the retained sets of `l`, in order. -/
def firstRetained (lcn : Nat) : List Snap → Option RetEntry
  | [] => none
  | s :: t =>
    match s.retained.find? (fun r => r.lcn == lcn) with
    | some r => some r
    | none => firstRetained lcn t

/-- The snapshots of generation `g` or greater, of every state, in ascending generation order (R85). -/
def Volume.snapsFrom (v : Volume) (g : Nat) : List Snap :=
  sortByKey Snap.gen ((v.snaps.map (·.2)).filter fun s => g ≤ s.gen)

/-- The view lookup of R85: what the snapshot of generation `g` shows for `lcn`, `none` for UNMAPPED. -/
def viewLookup (v : Volume) (g lcn : Nat) : Option Nat :=
  match firstRetained lcn (v.snapsFrom g) with
  | some r => if r.born ≤ g then some r.pcn else none
  | none =>
    match (v.entry lcn).form with
    | .mapped pcn born _ => if born ≤ g then some pcn else none
    | .unmapped _ => none

/-! ### Classification (R43, R45) and totals (R46) -/

/-- The class of one chunk against the sharing generation `g`. -/
def classify (e : MapEntry) (g : Nat) : ChunkClass :=
  match e.form with
  | .unmapped _ => .unmapped
  | .mapped _ born _ => if g < born then .inPlace else .shared

/-- The plan of one chunk of a WRITE before its claim. -/
def planChunk (v : Volume) (g c : Nat) : ChunkPlan :=
  { lcn := c, cls := classify (v.entry c) g,
    old := match (v.entry c).form with
      | .mapped p b o => some (p, b, o)
      | .unmapped _ => none,
    claimed := none, reads := 0, copied := [], slotted := false }

/-- The chunk needs a new PCN. -/
def ChunkPlan.needsPcn (p : ChunkPlan) : Bool := p.cls != .inPlace

/-- A of R46 for a WRITE. -/
def totalNew (plan : List ChunkPlan) : Nat := (plan.filter ChunkPlan.needsPcn).length

/-- The chunk raises the writer's net charge: U, or S of another owner (R46). -/
def ChunkPlan.raises (o : Nat) (p : ChunkPlan) : Bool :=
  match p.cls, p.old with
  | .unmapped, _ => true
  | .shared, some (_, _, owner) => owner != o
  | .shared, none => true
  | .inPlace, _ => false

/-- Δ of R46 for a WRITE of owner `o`. -/
def netIncrease (o : Nat) (plan : List ChunkPlan) : Nat := (plan.filter (ChunkPlan.raises o)).length

/-- Adds `d` to the figure of account `x`, in tag order. -/
def addCharge (x : Nat) (d : Int) : List (Nat × Int) → List (Nat × Int)
  | [] => [(x, d)]
  | (y, e) :: t =>
    if x < y then (x, d) :: (y, e) :: t
    else if x = y then (y, e + d) :: t else (y, e) :: addCharge x d t

/-- The net change of each account touched by a WRITE of owner `o` (R51). -/
def writeCharges (o : Nat) (plan : List ChunkPlan) : List (Nat × Int) :=
  plan.foldl (fun acc p =>
    match p.cls, p.old with
    | .unmapped, _ => addCharge o 1 acc
    | .shared, some (_, _, x) => addCharge x (-1) (addCharge o 1 acc)
    | .shared, none => addCharge o 1 acc
    | .inPlace, _ => acc) []

/-- The net change of each account touched by a DISCARD of the chunks `cs` (R45, R51). -/
def discardCharges (v : Volume) (cs : List Nat) : List (Nat × Int) :=
  cs.foldl (fun acc c =>
    match (v.entry c).form with
    | .mapped _ _ x => addCharge x (-1) acc
    | .unmapped _ => acc) []

/-- Gives the claimed PCNs to the U and S chunks in span order (R50). -/
def assignClaims : List ChunkPlan → List Nat → List ChunkPlan
  | [], _ => []
  | p :: t, cs =>
    if p.needsPcn then
      match cs with
      | c :: cs' => { p with claimed := some c } :: assignClaims t cs'
      | [] => p :: assignClaims t []
    else p :: assignClaims t cs

/-! ### Numbers of 12.6 -/

def Code.value : Code → Nat
  | .ok => 0
  | .malformed => 1
  | .notReady => 2
  | .busy => 3
  | .badVol => 4
  | .range => 5
  | .frozen => 6
  | .quota => 7
  | .noSpace => 8
  | .noView => 9
  | .media => 10
  | .timeout => 11
  | .held => 12
  | .inUse => 13
  | .noSlot => 14
  | .reserve => 15
  | .overlap => 16
  | .notArmed => 17
  | .active => 18
  | .notSet => 19
  | .genLimit => 20
  | .recovering => 21
  | .notFound => 22

def NoticeKind.value : NoticeKind → Nat
  | .recovered => 1
  | .formatDone => 2
  | .poolLow => 3
  | .poolRecovered => 4
  | .volumeDeleted => 5
  | .graceStarted => 6
  | .lapsed => 7
  | .over => 8
  | .cleared => 9
  | .deleteDone => 10
  | .reserveOver => 11
  | .reserveCleared => 12
  | .rotationBlocked => 13
  | .snapshotTaken => 14
  | .snapshotSkipped => 15
  | .freezeSkipped => 16
  | .thawSkipped => 17
  | .runSkipped => 18
  | .scheduleSwapped => 19
  | .restoreEnded => 20
  | .changeListOverflow => 21
  | .runVolumeSealed => 22
  | .runVolumeSkipped => 23
  | .runPassDone => 24
  | .runEnded => 25
  | .linkUp => 26
  | .linkLost => 27
  | .shelfError => 28

/-- A notice as its five fields in a result block (12.5). -/
def Notice.words (n : Notice) : List Nat := [n.kind.value * 65536, n.time, n.subject, n.d1, n.d2]

def AcctState.value : AcctState → Nat
  | .under => 0
  | .grace => 1
  | .lapsed => 2
  | .over => 3

def PartState.value : PartState → Nat
  | .recovering => 0
  | .standby => 1
  | .running => 2

def FormatCond.value : FormatCond → Nat
  | .none => 0
  | .formatting => 1
  | .valid => 2

def VolState.value : VolState → Nat
  | .absent => 0
  | .normal => 1
  | .freezing => 2
  | .frozen => 3
  | .deleting => 4

def SnapKind.value : SnapKind → Nat
  | .run => 1
  | .user => 2
  | .scheduled => 3
  | .preRestore => 4

def SnapState.value : SnapState → Nat
  | .ready => 1
  | .deletePending => 2
  | .deleting => 3

/-- The state of a job as RESTORE STATUS and STATUS report it: SUSPEND REQUESTED while the
suspend-requested flag is set (R101, R119). -/
def Job.stateValue (j : Job) : Nat :=
  if j.suspendReq then 7
  else match j.state with
    | .done => 1
    | .aborted => 2
    | .failedShelf => 3
    | .failedInterrupted => 4
    | .starting => 5
    | .running => 6
    | .suspended => 8
    | .yielded => 9
    | .pausedFrozen => 10
    | .pausedPool => 11

def RunState.value : RunState → Nat
  | .idle => 0
  | .active => 1
  | .stopping => 2
  | .suspendedLink => 3
  | .suspendedShelf => 4
  | .closing => 5

def RunResult.value : RunResult → Nat
  | .none => 0
  | .complete => 1
  | .stopped => 2
  | .deadline => 3
  | .failed => 4
  | .interrupted => 5

def RunMode.value : RunMode → Nat
  | .nightly => 0
  | .continuous => 1

def Phase.value : Phase → Nat
  | .freeze => 1
  | .send => 2
  | .seal => 3

def RateClass.value : RateClass → Nat
  | .night => 0
  | .day => 1

def FrontKind.value : FrontKind → Nat
  | .read => 1
  | .write => 2
  | .discard => 3

def FrameKind.value : FrameKind → Nat
  | .runOpen => 1
  | .volumeOpen => 2
  | .chunkData => 3
  | .chunkClear => 4
  | .volumeSeal => 5
  | .runClose => 6

def ShelfKind.value : ShelfKind → Nat
  | .read => 0
  | .write => 1

def ShelfClass.value : ShelfClass → Nat
  | .foreground => 0
  | .restore => 1
  | .offsite => 2

/-- A flag as a number. -/
def flag (b : Bool) : Nat := if b then 1 else 0

/-- A result that may be absent: its presence flag and its value, 0 when absent (12.3). -/
def optField (o : Option Nat) : List Nat := [flag o.isSome, o.getD 0]

/-! ### Jobs -/

/-- The job has ended (R101). -/
def JobState.ended : JobState → Bool
  | .done => true
  | .aborted => true
  | .failedShelf => true
  | .failedInterrupted => true
  | _ => false

/-- The target and source chunk of a job's visit position (6.3). -/
def Job.target (j : Job) : Option (Nat × Nat) :=
  (j.ranges[j.rangeIdx]?).map fun r => (r.dst + j.offset, r.src + j.offset)

/-- The visit position after a visit (6.3). Past the last chunk it is the number of ranges with offset 0, a place that
R100 does not name (the model's choice, log entry 53). -/
def Job.advance (j : Job) : Job :=
  match j.ranges[j.rangeIdx]? with
  | none => j
  | some r =>
    if j.offset + 1 < r.count then { j with offset := j.offset + 1 }
    else { j with rangeIdx := j.rangeIdx + 1, offset := 0 }

/-- Two target ranges share a chunk (R102). -/
def rangesMeet (a b : Range) : Bool := a.dst < b.dst + b.count && b.dst < a.dst + a.count

/-- The target ranges of a list are pairwise disjoint. -/
def pairwiseDisjoint : List Range → Bool
  | [] => true
  | r :: t => t.all (fun q => !rangesMeet r q) && pairwiseDisjoint t

/-- The job holds the volume as its source or its target. -/
def Job.names (v : Nat) (j : Job) : Bool := !j.state.ended && (j.srcVol == v || j.dstVol == v)

/-! ### The run -/

/-- The current volume of a run: the plan volume at the plan index (7.4), none past the last. -/
def State.currentVol (s : State) : Option Nat := s.plan[s.run.planIndex]?

end Sys2Proof.Machine
end

