-- ==== Sys2Proof/Machine/Layout.lean ====
section
/-! DEFINITION. Frames and records as bytes (Chapter 12): every number big-endian (R191), the parameters of
control requests, the records of 12.5, the frames the part sends, and the CRC of R156. -/

namespace Sys2Proof.Machine

/-! ### Numbers (R191) -/

/-- The `n` bytes of a number, the most significant first. -/
def be : Nat → Nat → List Byte
  | 0, _ => []
  | n + 1, v => be n (v / 256) ++ [BitVec.ofNat 8 v]

/-- The number of some bytes, the most significant first. -/
def rd (bs : List Byte) : Nat := bs.foldl (fun a b => a * 256 + b.toNat) 0

/-- The four-byte fields of a parameter block. -/
def words : List Byte → List Nat
  | a :: b :: c :: d :: t => rd [a, b, c, d] :: words t
  | _ => []

/-- The bytes of four-byte fields. -/
def wordBytes (ws : List Nat) : List Byte := ws.flatMap (be 4)

/-- The 4,096 bytes of a block. -/
def blockBytes (b : Block) : List Byte := be Config.blockBytes b

/-- The bytes of a run of blocks. -/
def dataBytes (bs : List Block) : List Byte := bs.flatMap blockBytes

/-! ### CRC (R156) -/

/-- The generator polynomial 04C11DB7 in the reflected order of R156. -/
def crcPoly : BitVec 32 := BitVec.reverse 0x04C11DB7#32

/-- One bit of the reflected register. -/
def crcShift (r : BitVec 32) : BitVec 32 := if r.getLsbD 0 then (r >>> 1) ^^^ crcPoly else r >>> 1

/-- One byte, least significant bit first. -/
def crcByte (r : BitVec 32) (b : Byte) : BitVec 32 :=
  crcShift (crcShift (crcShift (crcShift (crcShift (crcShift (crcShift (crcShift
    (r ^^^ b.zeroExtend 32))))))))

/-- The CRC of some bytes: the register starts at all ones and is inverted at the end. -/
def crc32 (bs : List Byte) : BitVec 32 := ~~~(bs.foldl crcByte (BitVec.allOnes 32))

/-! ### Records (12.5), as four-byte fields -/

/-- The account record of a tag. -/
def acctWords (tag : Nat) (a : Account) (derived : AcctState) : List Nat :=
  [tag * 65536 + derived.value * 256 + a.last.value,
   (flag a.expiry.isSome + 2 * flag a.queued) * 16777216,
   a.charge, a.reserved, a.soft, a.hard, a.expiry.getD 0]

def entryWords (e : SchedEntry) : List Nat :=
  [flag e.used * 16777216 + e.action * 65536 + e.minute,
   e.weekdays * 16777216 + e.volume * 65536 + e.snapOpt * 256 + e.param,
   e.keep * 16777216 + e.deadline, e.label]

/-- A flag field: 0 or 1, any other value makes the request MALFORMED (12.3). -/
def flagOf (n : Nat) : Option Bool := if n = 0 then some false else if n = 1 then some true else none

/-- The schedule entry of four fields; the unused byte 9 is not read. -/
def entryOfWords (a b c d : Nat) : Option SchedEntry :=
  (flagOf (a / 16777216)).map fun u =>
    { used := u, action := a / 65536 % 256, minute := a % 65536, weekdays := b / 16777216,
      volume := b / 65536 % 256, snapOpt := b / 256 % 256, param := b % 256, keep := c / 16777216,
      deadline := c % 65536, label := d }

/-! ### Control requests (12.3) -/

/-- The ranges of RESTORE START, three fields each. -/
def rangesOf : Nat → List Nat → Option (List Range)
  | 0, [] => some []
  | n + 1, a :: b :: c :: t => (rangesOf n t).map fun rs => { src := a, count := b, dst := c } :: rs
  | _, _ => none

/-- The fields a presence mask names, lowest bit first; every field given must be named. -/
def presentFields : Nat → Nat → List Nat → Option (List (Option Nat))
  | 0, _, [] => some []
  | 0, _, _ :: _ => none
  | n + 1, m, vs =>
    if m % 2 = 1 then
      match vs with
      | v :: t => (presentFields n (m / 2) t).map fun fs => some v :: fs
      | [] => none
    else (presentFields n (m / 2) vs).map fun fs => none :: fs

/-- The parameter block of CONFIG SET: the mask, then the present fields. A mask with a bit above 15 names no
field and makes the request MALFORMED. -/
def patchOf (mask : Nat) (vs : List Nat) : Option ConfigPatch :=
  if 65536 ≤ mask then none
  else match presentFields 16 mask vs with
    | some [a, b, c, d, e, f, g, h, i, j, k, l, m, n, o, p] =>
      some
        { floor := a, low := b, clear := c, grace := d, band := e, drainTimeout := f,
          shelfTimeout := g, yieldHigh := h, yieldLow := i, partnerSite := j, window := k,
          ackTimeout := l, retryLimit := m, nightRate := n, dayRate := o, rateClass := p }
    | _ => none

/-- The fields of a patch in the order of the table of 11.4. -/
def patchFields (p : ConfigPatch) : List (Option Nat) :=
  [p.floor, p.low, p.clear, p.grace, p.band, p.drainTimeout, p.shelfTimeout, p.yieldHigh, p.yieldLow,
   p.partnerSite, p.window, p.ackTimeout, p.retryLimit, p.nightRate, p.dayRate, p.rateClass]

/-- The presence mask of some fields, the first at bit 0. -/
def maskOf : List (Option Nat) → Nat
  | [] => 0
  | f :: t => flag f.isSome + 2 * maskOf t

/-- The request of a command number and its parameter fields, if the command calls for such fields. A SNAPSHOT CREATE
whose series is absent (presence flag 0) is taken whatever stands in the series field: 12.3 says that it is 0 then, and
not what another value does (the model's choice, log entry 52). -/
def requestOf (number : Nat) (ws : List Nat) : Option Request :=
  match number, ws with
  | 1, [k, p, f, l, c] => some (.format k p f l c)
  | 2, m :: vs => (patchOf m vs).map .configSet
  | 3, [] => some .configRead
  | 4, [t] => some (.timeSet t)
  | 5, [] => some .go
  | 6, [] => some .reset
  | 7, [] => some .status
  | 8, [v, s, r, o, c] => (flagOf o).map fun o => .volumeCreate v s r o c
  | 9, [v] => some (.volumeDelete v)
  | 10, [v] => some (.volumeRead v)
  | 11, [v] => some (.freeze v)
  | 12, [v] => some (.thaw v)
  | 13, [v] => some (.setFullScan v)
  | 14, [o, s, h] => some (.accountSet o s h)
  | 15, [o] => some (.accountRead o)
  | 16, [] => some .accountReadNext
  | 17, [v, k, l, p, q] =>
    (flagOf p).map fun p => .snapshotCreate v k l (if p then some q else none)
  | 18, [v, s] => some (.snapshotDelete v s)
  | 19, [v, s] => some (.snapshotHold v s)
  | 20, [v, s] => some (.snapshotRelease v s)
  | 21, [v] => some (.snapshotList v)
  | 22, a :: b :: c :: d :: o :: n :: rs =>
    (flagOf o).bind fun o => (rangesOf n rs).map fun rs => .restoreStart a b c d o rs
  | 23, [j] => some (.restoreSuspend j)
  | 24, [j] => some (.restoreResume j)
  | 25, [j] => some (.restoreAbort j)
  | 26, [j] => some (.restoreStatus j)
  | 27, [j] => some (.restoreClear j)
  | 28, n :: vs => if vs.length = n then some (.runPlanSet vs) else none
  | 29, [m, d] => some (.runStart m d)
  | 30, [] => some .runStop
  | 31, [] => some .runStatus
  | 32, [d] => some (.plan d)
  | 33, [b, i, w, x, y, z] => (entryOfWords w x y z).map fun e => .scheduleWrite b i e
  | 34, [w, x, y, z] => (entryOfWords w x y z).map .scheduleWriteNext
  | 35, [b, i] => some (.scheduleRead b i)
  | 36, [] => some .scheduleSwap
  | 37, [] => some .scheduleCancel
  | 38, [] => some .noticeFetch
  | _, _ => none

/-- The parameter fields of a request, in the order in which its rule names them. -/
def requestWords : Request → List Nat
  | .format k p f l c => [k, p, f, l, c]
  | .configSet p => maskOf (patchFields p) :: (patchFields p).filterMap id
  | .configRead => []
  | .timeSet t => [t]
  | .go => []
  | .reset => []
  | .status => []
  | .volumeCreate v s r o c => [v, s, r, flag o, c]
  | .volumeDelete v => [v]
  | .volumeRead v => [v]
  | .freeze v => [v]
  | .thaw v => [v]
  | .setFullScan v => [v]
  | .accountSet o s h => [o, s, h]
  | .accountRead o => [o]
  | .accountReadNext => []
  | .snapshotCreate v k l q => [v, k, l, flag q.isSome, q.getD 0]
  | .snapshotDelete v s => [v, s]
  | .snapshotHold v s => [v, s]
  | .snapshotRelease v s => [v, s]
  | .snapshotList v => [v]
  | .restoreStart a b c d o rs =>
    [a, b, c, d, flag o, rs.length] ++ rs.flatMap fun r => [r.src, r.count, r.dst]
  | .restoreSuspend j => [j]
  | .restoreResume j => [j]
  | .restoreAbort j => [j]
  | .restoreStatus j => [j]
  | .restoreClear j => [j]
  | .runPlanSet vs => vs.length :: vs
  | .runStart m d => [m, d]
  | .runStop => []
  | .runStatus => []
  | .plan d => [d]
  | .scheduleWrite b i e => [b, i] ++ entryWords e
  | .scheduleWriteNext e => entryWords e
  | .scheduleRead b i => [b, i]
  | .scheduleSwap => []
  | .scheduleCancel => []
  | .noticeFetch => []
  | .malformed _ => []

/-- The frame of a control request. -/
def controlFrame (tag : Nat) (r : Request) : List Byte :=
  be 1 128 ++ be 1 0 ++ be 2 r.number ++ be 4 tag ++ be 4 (4 * (requestWords r).length) ++ wordBytes (requestWords r)

/-- The request a control frame carries, with its tag: MALFORMED where the length, the command number or a flag
is wrong; `none` for a frame shorter than its header, which is discarded (R183, R192). -/
def controlOf (f : List Byte) : Option ControlReq :=
  if f.length < 12 then none
  else
    let number := rd ((f.drop 2).take 2)
    let tag := rd ((f.drop 4).take 4)
    let len := rd ((f.drop 8).take 4)
    let r :=
      if f.length ≠ 12 + len ∨ len % 4 ≠ 0 then none
      else requestOf number (words (f.drop 12))
    some { tag := tag, req := r.getD (.malformed number) }

/-! ### Offsite frames (12.4) -/

/-- The payload length of a frame the part sends. -/
def Frame.payloadLength (f : Frame) : Nat := f.payload.length * Config.blockBytes

/-- The bytes of an offsite frame. -/
def Frame.bytes (f : Frame) : List Byte :=
  be 1 f.kind.value ++ be 1 f.flags ++ be 2 f.vol ++ be 4 f.seq ++ be 4 f.runId ++ be 4 f.lcn
    ++ be 4 f.count ++ be 4 f.payloadLength ++ be 4 f.crc.toNat ++ be 4 f.gen ++ be 4 f.a ++ be 4 f.b
    ++ be 8 0 ++ dataBytes f.payload

/-- The frames the partner sends (R143). -/
inductive Partner where
  | ack (n runId : Nat)
  | nak (n runId : Nat)
  | hold
  | resume
  | hello (site : Nat)
  deriving DecidableEq, Repr

/-- The partner's frame in some bytes, or `none` for a frame of another length, with a payload, or of a kind
that is not one of the five (R143, R192). -/
def partnerOf (f : List Byte) : Option Partner :=
  if f.length ≠ 48 ∨ rd ((f.drop 20).take 4) ≠ 0 then none
  else
    let n := rd ((f.drop 4).take 4)
    let run := rd ((f.drop 8).take 4)
    match rd (f.take 1) with
    | 17 => some (.ack n run)
    | 18 => some (.nak n run)
    | 19 => some .hold
    | 20 => some .resume
    | 21 => some (.hello (rd ((f.drop 32).take 4)))
    | _ => none

/-! ### What the part transmits, as bytes (12.2 to 12.4) -/

/-- The bytes of an output on the front or the offsite link. Chapter 12 gives no layout of the shelf link. -/
def Output.bytes : Output → Option (List Byte)
  | .front addr kind code tag blocks data =>
    some (be 1 addr ++ be 1 kind ++ be 1 code.value ++ be 1 0 ++ be 4 tag ++ be 2 blocks ++ be 2 0
      ++ dataBytes data)
  | .control pending lost number tag code result =>
    some (be 1 128 ++ be 1 (flag pending + 2 * flag lost) ++ be 2 number ++ be 4 tag
      ++ be 1 code.value ++ be 3 0 ++ be 4 (4 * result.length) ++ wordBytes result)
  | .shelf .. => none
  | .offsite f => some f.bytes

end Sys2Proof.Machine
end

