-- ==== Sys2Proof/WellFormed.lean ====
section
/-! DEFINITION. The operands a command can carry, from the field widths and values of Chapter 12: a
frame holds its numbers in fields of one, two or four bytes, and the lengths agree with the kind. A
request that its rule REFUSES (a volume number of 70, a count of 0) is well-formed: the frame can carry it. -/

namespace Sys2Proof

/-- A value of a four-byte field. -/
def u32 (n : Nat) : Bool := n < 4294967296
/-- A value of a two-byte field. -/
def u16 (n : Nat) : Bool := n < 65536
/-- A value of a one-byte field. -/
def u8 (n : Nat) : Bool := n < 256

/-- A block holds 4,096 bytes. -/
def Block.wf (b : Block) : Bool := b < 2 ^ 32768

/-- An absent value, or one of a four-byte field. -/
def optU32 (o : Option Nat) : Bool := o.all u32

def Range.wf (r : Range) : Bool := u32 r.src && u32 r.count && u32 r.dst

/-- The fields of a schedule entry fit their places in the record of 12.5. -/
def SchedEntry.wf (e : SchedEntry) : Bool :=
  u8 e.action && u16 e.minute && u8 e.weekdays && u8 e.volume && u8 e.snapOpt && u8 e.param
    && u8 e.keep && u16 e.deadline && u32 e.label

def ConfigPatch.wf (p : ConfigPatch) : Bool :=
  optU32 p.floor && optU32 p.low && optU32 p.clear && optU32 p.grace && optU32 p.band
    && optU32 p.drainTimeout && optU32 p.shelfTimeout && optU32 p.yieldHigh && optU32 p.yieldLow
    && optU32 p.partnerSite && optU32 p.window && optU32 p.ackTimeout && optU32 p.retryLimit
    && optU32 p.nightRate && optU32 p.dayRate && optU32 p.rateClass

def ShelfResult.wf : ShelfResult → Bool
  | .done data extra => data.all Block.wf && decide (extra < 4096)
  | .error reason => decide (1 ≤ reason) && decide (reason ≤ 239)

/-- The fields of a control request fit their places (12.3). -/
def Request.wf : Request → Bool
  | .format k p f l c => u32 k && u32 p && u32 f && u32 l && u32 c
  | .configSet p => p.wf
  | .configRead => true
  | .timeSet t => u32 t
  | .go => true
  | .reset => true
  | .status => true
  | .volumeCreate v s r _ c => u32 v && u32 s && u32 r && u32 c
  | .volumeDelete v => u32 v
  | .volumeRead v => u32 v
  | .freeze v => u32 v
  | .thaw v => u32 v
  | .setFullScan v => u32 v
  | .accountSet o s h => u32 o && u32 s && u32 h
  | .accountRead o => u32 o
  | .accountReadNext => true
  | .snapshotCreate v k l s => u32 v && u32 k && u32 l && optU32 s
  | .snapshotDelete v s => u32 v && u32 s
  | .snapshotHold v s => u32 v && u32 s
  | .snapshotRelease v s => u32 v && u32 s
  | .snapshotList v => u32 v
  | .restoreStart a b c d _ rs => u32 a && u32 b && u32 c && u32 d && u32 rs.length && rs.all Range.wf
  | .restoreSuspend j => u32 j
  | .restoreResume j => u32 j
  | .restoreAbort j => u32 j
  | .restoreStatus j => u32 j
  | .restoreClear j => u32 j
  | .runPlanSet vs => u32 vs.length && vs.all u32
  | .runStart m d => u32 m && u32 d
  | .runStop => true
  | .runStatus => true
  | .plan d => u32 d
  | .scheduleWrite b i e => u32 b && u32 i && e.wf
  | .scheduleWriteNext e => e.wf
  | .scheduleRead b i => u32 b && u32 i
  | .scheduleSwap => true
  | .scheduleCancel => true
  | .noticeFetch => true
  | .malformed n => u16 n

/-- The operands a command can carry. -/
def Instr.wf : Instr → Bool
  | .powerOn => true
  | .mirrorRecordRecovery => true
  | .pendingReturnRecovery => true
  | .restoreJobRecovery => true
  | .runRecovery => true
  | .expiryQueueRebuild => true
  | .frontLinkDown => true
  | .frontLinkUp => true
  | .frontFrameBadAddress a k t => u8 a && decide (64 ≤ a) && decide (a ≠ 128) && u8 k && u32 t
  | .shortFrameDiscard a l => u8 a && (if a = 128 then decide (l < 12) else decide (l < 16))
  | .read t v w b n o l => u32 t && decide (v < 64) && u8 w && u32 b && u16 n && u16 o && decide (16 ≤ l)
  | .write t v b n o l d =>
      u32 t && decide (v < 64) && u32 b && u16 n && u16 o && decide (16 ≤ l) && d.all Block.wf
        && decide (d.length = (l - 16) / 4096)
  | .discard t v b n o l => u32 t && decide (v < 64) && u32 b && u16 n && u16 o && decide (16 ≤ l)
  | .drainTimeout v => decide (v < 64)
  | .controlRequestArrival f => decide (12 ≤ f.length) && decide (f.head? = some 128#8)
  | .format t k p f l c => u32 t && (Request.format k p f l c).wf
  | .formatFillStep => true
  | .configSet t p => u32 t && p.wf
  | .configRead t => u32 t
  | .timeSet t x => u32 t && u32 x
  | .go t => u32 t
  | .reset t => u32 t
  | .status t => u32 t
  | .volumeCreate t v s r o c => u32 t && (Request.volumeCreate v s r o c).wf
  | .volumeDelete t v => u32 t && u32 v
  | .volumeDeleteWalkStep v => decide (v < 64)
  | .volumeRead t v => u32 t && u32 v
  | .freeze t v => u32 t && u32 v
  | .thaw t v => u32 t && u32 v
  | .setFullScan t v => u32 t && u32 v
  | .accountSet t o s h => u32 t && (Request.accountSet o s h).wf
  | .accountRead t o => u32 t && u32 o
  | .accountReadNext t => u32 t
  | .snapshotCreate t v k l s => u32 t && (Request.snapshotCreate v k l s).wf
  | .snapshotDelete t v s => u32 t && u32 v && u32 s
  | .snapshotHold t v s => u32 t && u32 v && u32 s
  | .snapshotRelease t v s => u32 t && u32 v && u32 s
  | .snapshotList t v => u32 t && u32 v
  | .mergeWalkStep v => decide (v < 64)
  | .restoreStart t a b c d o rs => u32 t && (Request.restoreStart a b c d o rs).wf
  | .restoreSuspend t j => u32 t && u32 j
  | .restoreResume t j => u32 t && u32 j
  | .restoreAbort t j => u32 t && u32 j
  | .restoreStatus t j => u32 t && u32 j
  | .restoreClear t j => u32 t && u32 j
  | .runPlanSet t vs => u32 t && (Request.runPlanSet vs).wf
  | .runStart t m d => u32 t && u32 m && u32 d
  | .runStop t => u32 t
  | .runStatus t => u32 t
  | .plan t d => u32 t && u32 d
  | .fullScanStep => true
  | .hello s => u32 s
  | .ack n r => u32 n && u32 r
  | .nak n r => u32 n && u32 r
  | .hold => true
  | .resume => true
  | .offsiteFrameIgnored _ => true
  | .offsiteCarrierLoss => true
  | .ackTimerExpiry => true
  | .holdTimerExpiry => true
  | .pacingTimeReached _ => true
  | .shelfReply s e u _ r => decide (s < 64) && u16 e && u16 u && r.wf
  | .shelfCommandTimeout s => decide (s < 64)
  | .shelfLinkDown => true
  | .shelfLinkUp => true
  | .clockAdvance => true
  | .graceExpiryFire => true
  | .scheduleWrite t b i e => u32 t && u32 b && u32 i && e.wf
  | .scheduleWriteNext t e => u32 t && e.wf
  | .scheduleRead t b i => u32 t && u32 b && u32 i
  | .scheduleSwap t => u32 t
  | .scheduleCancel t => u32 t
  | .noticeFetch t => u32 t
  | .malformedRequestKind v k t => decide (v < 64) && u8 k && decide (k = 0 ∨ 3 < k) && u32 t

end Sys2Proof
end

