-- ==== Sys2Proof/Decode.lean ====
section
/-! DEFINITION. Which command a frame on the front link is (R18, R192, 12.2, 12.3), an encoder of the same
layout, and the table words: opcode_table.json gives its rows no bits, so no table word spells a command. -/

namespace Sys2Proof

open Sys2Proof.Machine

/-- The command a table word spells: none, since the table gives no row any bits. -/
def decodeTableWord (_nbits _w : Nat) : Option Instr := none

/-- The first `n` blocks of a payload. -/
def blocksOf : Nat → List Byte → List Block
  | 0, _ => []
  | n + 1, bs => rd (bs.take Config.blockBytes) :: blocksOf n (bs.drop Config.blockBytes)

/-- The command that a request frame to a volume is (R19, 12.2). -/
def decodeVolumeFrame (f : List Byte) : Instr :=
  let vol := rd (f.take 1)
  let kind := rd ((f.drop 1).take 1)
  let view := rd ((f.drop 2).take 1)
  let tag := rd ((f.drop 4).take 4)
  let start := rd ((f.drop 8).take 4)
  let count := rd ((f.drop 12).take 2)
  let owner := rd ((f.drop 14).take 2)
  match kind with
  | 1 => .read tag vol view start count owner f.length
  | 2 =>
    .write tag vol start count owner f.length
      (blocksOf ((f.length - 16) / Config.blockBytes) (f.drop 16))
  | 3 => .discard tag vol start count owner f.length
  | _ => .malformedRequestKind vol kind tag

/-- The command that a frame arriving on the front link is; `none` for no bytes at all. -/
def decodeFrontFrame (f : List Byte) : Option Instr :=
  match f with
  | [] => none
  | a :: _ =>
    if a.toNat = 128 then
      if f.length < 12 then some (.shortFrameDiscard 128 f.length) else some (.controlRequestArrival f)
    else if f.length < 16 then some (.shortFrameDiscard a.toNat f.length)
    else if a.toNat < 64 then some (decodeVolumeFrame f)
    else some (.frontFrameBadAddress a.toNat (rd ((f.drop 1).take 1)) (rd ((f.drop 4).take 4)))

/-- The 16-byte header of a front request (12.2). -/
def frontHeader (vol kind view tag start count owner : Nat) : List Byte :=
  be 1 vol ++ be 1 kind ++ be 1 view ++ be 1 0 ++ be 4 tag ++ be 4 start ++ be 2 count ++ be 2 owner

/-- Zero bytes up to a frame's length. -/
def padTo (len : Nat) (f : List Byte) : List Byte := f ++ List.replicate (len - f.length) 0#8

/-- A frame of a front request, `none` for every other command. -/
def encodeFrontFrame : Instr → Option (List Byte)
  | .read t v w b n o l => some (padTo l (frontHeader v 1 w t b n o))
  | .write t v b n o l d => some (padTo l (frontHeader v 2 0 t b n o ++ dataBytes d))
  | .discard t v b n o l => some (padTo l (frontHeader v 3 0 t b n o))
  | _ => none

end Sys2Proof
end

