-- ==== Sys2Proof/Machine/Flags.lean ====
section
/-! DEFINITION. Every derived state and flag of the manual: the account state and its evaluation
(R58 to R62, R66), the quota, pool and reservation tests (R47 to R49, R70), the pool watermark state
(R5), the reserve-over flag (R84), and the notice queue (R189). -/

namespace Sys2Proof.Machine

/-- The campus time a notice or snapshot carries: 0 while the clock is NOT SET (R80, R189). -/
def State.stamp (s : State) : Nat := if s.sched.clockSet then s.sched.clock else 0

/-- A notice of this event. -/
def State.notice (s : State) (kind : NoticeKind) (subject d1 d2 : Nat) : Notice :=
  { kind := kind, time := s.stamp, subject := subject, d1 := d1, d2 := d2 }

/-- Offers a notice to the queue: kept at the tail, or dropped with the overflow mark set (R189). -/
def offer (c : Control) (n : Notice) : Control :=
  if c.notices.length < Config.noticeQueueSize then { c with notices := c.notices ++ [n] }
  else { c with lost := true }

/-! ### Accounts -/

/-- The account record of an owner tag (R57). -/
def State.acct (s : State) (tag : Nat) : Account := tget Account.fresh s.accounts tag

/-- Writes an account record. -/
def State.setAcct (s : State) (tag : Nat) (a : Account) : State :=
  { s with accounts := tset Account.fresh tag a s.accounts }

/-- Charge plus reserved. -/
def Account.sum (a : Account) : Nat := a.charge + a.reserved

/-- The state rules of R58 on a sum, limits, an expiry and the clock. -/
def stateOf (sum hard : Nat) (expiry : Option Nat) (clockSet : Bool) (now : Nat) : AcctState :=
  if hard ≠ noLimit ∧ sum > hard then .over
  else match expiry with
    | some x => if clockSet ∧ x ≤ now then .lapsed else .grace
    | none => .under

/-- The derived state of an account; tag 0 is UNDER in every case (R58). -/
def State.derived (s : State) (tag : Nat) : AcctState :=
  if tag = 0 then .under
  else stateOf (s.acct tag).sum (s.acct tag).hard (s.acct tag).expiry s.sched.clockSet s.sched.clock

/-- The release threshold of an account: soft less the band, 0 if the band is greater (R59). -/
def releaseThreshold (soft band : Nat) : Nat := soft - band

/-- The expiry after the first step of an evaluation (R59). -/
def settleExpiry (a : Account) (grace band : Nat) (clockSet : Bool) (now : Nat) : Option Nat :=
  match a.expiry with
  | none =>
    if a.sum > a.soft ∧ a.soft ≠ noLimit ∧ clockSet then some (min (now + grace) max32) else none
  | some x => if a.sum ≤ releaseThreshold a.soft band then none else some x

/-- Inserts an account at its place in the grace expiry queue: expiry, then tag (R62). -/
def insertExpiry (x tag : Nat) : List (Nat × Nat) → List (Nat × Nat)
  | [] => [(x, tag)]
  | (y, u) :: t =>
    if x < y ∨ (x = y ∧ tag < u) then (x, tag) :: (y, u) :: t else (y, u) :: insertExpiry x tag t

/-- Takes an account's entry out of the grace expiry queue. -/
def removeExpiry (tag : Nat) (q : List (Nat × Nat)) : List (Nat × Nat) :=
  q.filter fun e => e.2 != tag

/-- Settles an account's expiry and keeps its place in the queue in step (R59, R62, the late insertion
of R66). In RECOVERING nothing is inserted (R74); while the clock is NOT SET no time can be compared with an
expiry, so nothing is inserted either (log entry 16). -/
def settleAccount (s : State) (tag : Nat) : State :=
  let a := s.acct tag
  let x := settleExpiry a s.ctl.config.grace s.ctl.config.band s.sched.clockSet s.sched.clock
  match x with
  | none =>
    { s.setAcct tag { a with expiry := none, queued := false } with
      expiryQueue := if a.queued then removeExpiry tag s.expiryQueue else s.expiryQueue }
  | some t =>
    if ¬ a.queued ∧ s.ctl.part ≠ .recovering ∧ s.sched.clockSet ∧ t > s.sched.clock
        ∧ s.expiryQueue.length < Config.expiryQueueSize then
      { s.setAcct tag { a with expiry := some t, queued := true } with
        expiryQueue := insertExpiry t tag s.expiryQueue }
    else s.setAcct tag { a with expiry := some t }

/-- The notice of R61 for the state an account has arrived at. -/
def stateNotice (s : State) (tag : Nat) : Notice :=
  let a := s.acct tag
  match s.derived tag with
  | .grace => s.notice .graceStarted tag a.sum (a.expiry.getD 0)
  | .lapsed => s.notice .lapsed tag a.sum (a.expiry.getD 0)
  | .over => s.notice .over tag a.sum a.hard
  | .under => s.notice .cleared tag a.sum a.soft

/-- Reports an account's derived state if it differs from the last-reported one (R61, R66). -/
def reportAccount (s : State) (tag : Nat) : State × List Notice :=
  if tag = 0 ∨ s.derived tag = (s.acct tag).last then (s, [])
  else (s.setAcct tag { s.acct tag with last := s.derived tag }, [stateNotice s tag])

/-- The evaluation of an account (R59 to R61); tag 0 is not evaluated (R60). -/
def evaluateAccount (s : State) (tag : Nat) : State × List Notice :=
  if tag = 0 then (s, []) else reportAccount (settleAccount s tag) tag

/-- Moves an account's charge by a net change. -/
def Account.addCharge (a : Account) (d : Int) : Account := { a with charge := ((a.charge : Int) + d).toNat }

/-! ### The tests of a WRITE or DISCARD -/

/-- The answer of the quota unit; `lapsed` is the refusal at step 4 of R47, which reports the account (R66). -/
inductive QuotaAnswer where
  | pass | overHard | lapsed
  deriving DecidableEq, Repr

/-- The trial expiry of R48, cut off at the last campus time as R59 cuts off the expiry that is set. R48 says only "now
plus the grace period": the cut is the model's choice (log entry 47). -/
def trialExpiry (a : Account) (delta grace now : Nat) : Option Nat :=
  match a.expiry with
  | some x => some x
  | none =>
    if a.soft ≠ noLimit ∧ a.sum + delta > a.soft then some (min (now + grace) max32) else none

/-- The quota test of R47. -/
def quotaTest (s : State) (o delta : Nat) : QuotaAnswer :=
  let a := s.acct o
  if o = 0 then .pass
  else if delta = 0 then .pass
  else if a.hard ≠ noLimit ∧ a.sum + delta > a.hard then .overHard
  else if stateOf (a.sum + delta) a.hard
      (trialExpiry a delta s.ctl.config.grace s.sched.clock) true s.sched.clock = .lapsed then .lapsed
  else .pass

/-- The pool test of R49: refuse if A is 1 or more and F − A is less than the floor. -/
def poolTest (s : State) (a : Nat) : Bool := a == 0 || s.format.floor + a ≤ s.freeCount

/-- The reservation test of R70. -/
def reserveTest (s : State) (o t : Nat) (override : Bool) : Bool :=
  override || o == 0 || (s.acct o).hard == noLimit || (s.acct o).sum + t ≤ (s.acct o).hard

/-- The restore pool check of R108. -/
def restorePoolCheck (s : State) (override : Bool) : Bool :=
  if override then 1 ≤ s.freeCount else s.format.floor + 1 ≤ s.freeCount

/-! ### Pool watermark (R5) and reserve-over flag (R84) -/

/-- The evaluation of the pool watermark state on F as it stands. It is not made in RECOVERING or while the
format record is not VALID. -/
def evalPool (s : State) : State × List Notice :=
  if s.ctl.part = .recovering ∨ s.format.cond ≠ .valid then (s, [])
  else if s.poolLow then
    if s.format.clear ≤ s.freeCount then
      ({ s with poolLow := false }, [s.notice .poolRecovered 0 s.freeCount s.format.clear])
    else (s, [])
  else if s.freeCount < s.format.low then
    ({ s with poolLow := true }, [s.notice .poolLow 0 s.freeCount s.format.low])
  else (s, [])

/-- Writes a volume record. -/
def State.setVol (s : State) (v : Nat) (x : Volume) : State :=
  { s with vols := tset Volume.absent v x s.vols }

/-- The reserve notice test of a volume. It is not made in RECOVERING (R99) or for a DELETING volume. -/
def evalReserve (s : State) (v : Nat) : State × List Notice :=
  let x := s.vol v
  if s.ctl.part = .recovering ∨ ¬ x.usable then (s, [])
  else if x.reserveOver then
    if x.reserveUsage ≤ x.reserveLimit - s.ctl.config.band then
      (s.setVol v { x with reserveOver := false },
        [s.notice .reserveCleared v x.reserveUsage x.reserveLimit])
    else (s, [])
  else if x.reserveLimit ≠ noLimit ∧ x.reserveUsage > x.reserveLimit then
    (s.setVol v { x with reserveOver := true },
      [s.notice .reserveOver v x.reserveUsage x.reserveLimit])
  else (s, [])

/-- Runs a test over a list of keys in order, gathering the notices. -/
def evalEach (f : State → Nat → State × List Notice) : List Nat → State → State × List Notice
  | [], s => (s, [])
  | k :: t, s =>
    let r := f s k
    let r' := evalEach f t r.1
    (r'.1, r.2 ++ r'.2)

/-- The head of the grace expiry queue is due (R63). -/
def State.headDue (s : State) : Bool :=
  match s.expiryQueue with
  | [] => false
  | (x, _) :: _ => s.sched.clockSet && x ≤ s.sched.clock

/-- The yield flag after a test against the watermarks (R111). -/
def yieldAfter (s : State) : Bool :=
  if s.ctl.config.yieldHigh ≤ s.occupancy then true
  else if s.occupancy ≤ s.ctl.config.yieldLow then false
  else s.yielding

end Sys2Proof.Machine
end

