-- ==== Sys2Proof/Machine/Ops.lean ====
section
/-! DEFINITION. One event of the part, and the operations over it. A command is one event, whole
and indivisible. `Event` is the state inside it, with the work the event still calls for (`Todo`), the records
whose evaluation is due at its end (R5, R60, R84) and the notices it has offered so far. Nothing of an
`Event` outlives its command: `closeEvent` gives the state back. -/

namespace Sys2Proof.Machine

/-- A control reply that is decided and goes out in this event, after the other effects of its command (R184).
With `job` named, its result is the state of that job after those effects (R112). -/
structure Answer where
  number : Nat
  tag : Nat
  code : Code
  result : List Nat
  job : Option Nat
  deriving DecidableEq, Repr

/-- What an event still has to do, in the order `Machine/Loop.lean` takes it: the busy set test (R23), drain
ends (R27), the yield test (R111), the resumption of PAUSED-POOL jobs (R114), visits (R105), the next waiting
drains by volume (R27), the offsite engine (R129), the offsite port (R146), the decided control reply (R184), the
control queue (R183) and the arbiter (R160). -/
structure Todo where
  retest : Bool := false
  drains : Bool := false
  occupancy : Bool := false
  pool : Bool := false
  jobs : Bool := false
  drainBegin : List Nat := []
  engine : Bool := false
  port : Bool := false
  answer : Option Answer := none
  control : Bool := false
  grant : Bool := false
  deriving DecidableEq, Repr

/-- What the work of an event calls for at its end: `pool` whether F or a mark changed (R5), the accounts to evaluate
(R60) or only to report (R66), the volumes whose reserve usage changed (R84), and the notices it has offered itself, those
of account evaluations already made (in recovery), CHANGE LIST OVERFLOW and the others apart. -/
structure Causes where
  pool : Bool := false
  accts : List Nat := []
  reports : List Nat := []
  reserves : List Nat := []
  acctNotices : List Notice := []
  overflowNotices : List Notice := []
  notices : List Notice := []
  deriving DecidableEq, Repr

/-- An event in progress. `accts` and `reports` are accounts to evaluate (R60) or only to report (R66) at the
event's end, `reserves` the volumes whose reserve usage changed (R84), `poolTouched` whether F or a mark changed
(R5); each is evaluated once, on the values the whole event leaves. The notices are kept in the order in which the rules queue
them: accounts, CHANGE LIST OVERFLOW, the others, and `late` those that stand after everything else (R166). These fields
speak of the work since the last control reply of the event, and `done` of the work up to each of its control replies, in
their order. `sent` holds the frames that went out in this event before a RESET, whole; the control replies among the frames
of `st.out` are completed at the event's end. -/
structure Event where
  st : State
  todo : Todo := {}
  poolTouched : Bool := false
  accts : List Nat := []
  reports : List Nat := []
  reserves : List Nat := []
  acctNotices : List Notice := []
  overflowNotices : List Notice := []
  notices : List Notice := []
  late : List Notice := []
  done : List Causes := []
  sent : List Output := []
  deriving DecidableEq, Repr

/-- An event begins: nothing to do yet, nothing put on the links. -/
def openEvent (s : State) : Event := { st := { s with out := [] } }

/-- Changes the state inside an event. -/
def Event.upd (e : Event) (f : State → State) : Event := { e with st := f e.st }

/-- Changes a volume record. -/
def Event.updVol (e : Event) (v : Nat) (f : Volume → Volume) : Event :=
  e.upd fun s => s.setVol v (f (s.vol v))

/-- Changes an account record. -/
def Event.updAcct (e : Event) (tag : Nat) (f : Account → Account) : Event :=
  e.upd fun s => s.setAcct tag (f (s.acct tag))

/-- Changes the run record. -/
def Event.updRun (e : Event) (f : Run → Run) : Event := e.upd fun s => { s with run := f s.run }

/-- Changes the offsite port. -/
def Event.updPort (e : Event) (f : Port → Port) : Event := e.upd fun s => { s with port := f s.port }

/-- Changes the shelf port. -/
def Event.updShelf (e : Event) (f : Shelf → Shelf) : Event := e.upd fun s => { s with shelf := f s.shelf }

/-- Changes the schedule unit. -/
def Event.updSched (e : Event) (f : Schedule → Schedule) : Event :=
  e.upd fun s => { s with sched := f s.sched }

/-- Changes the control unit. -/
def Event.updCtl (e : Event) (f : Control → Control) : Event := e.upd fun s => { s with ctl := f s.ctl }

/-- Changes a restore job record, if the slot holds one. -/
def Event.updJob (e : Event) (j : Nat) (f : Job → Job) : Event :=
  match tfind e.st.jobs j with
  | none => e
  | some x => e.upd fun s => { s with jobs := tput j (f x) s.jobs }

/-- Queues a notice of this event (R189). Where a waiting TIME SET changes the clock within the event, a notice offered
before it carries the old time and a later one the new: DESIGN CHOICE, log entry 62. -/
def Event.note (e : Event) (kind : NoticeKind) (subject d1 d2 : Nat) : Event :=
  { e with notices := e.notices ++ [e.st.notice kind subject d1 d2] }

/-- An account is evaluated at the end of the event (R60); tag 0 never is. -/
def Event.touchAcct (e : Event) (tag : Nat) : Event :=
  if tag = 0 then e else { e with accts := insertAsc tag e.accts }

/-- An account's lapse is reported at the end of the event without an evaluation (R66). -/
def Event.touchReport (e : Event) (tag : Nat) : Event := { e with reports := insertAsc tag e.reports }

/-- A volume's reserve usage has changed (R84). Where one event changes the usage of several volumes, R84 gives their
notices no order: the model takes them in ascending volume number (log entry 6). -/
def Event.touchReserve (e : Event) (v : Nat) : Event := { e with reserves := insertAsc v e.reserves }

/-- F has changed: the watermark is evaluated at the end of the event (R5), and PAUSED-POOL jobs are tested
(R114). -/
def Event.touchPool (e : Event) : Event :=
  { e with poolTouched := true, todo := { e.todo with pool := true } }

/-! ### The end of an event -/

/-- What the work since the last control reply of the event calls for. -/
def Event.causes (e : Event) : Causes :=
  { pool := e.poolTouched, accts := e.accts, reports := e.reports, reserves := e.reserves,
    acctNotices := e.acctNotices, overflowNotices := e.overflowNotices, notices := e.notices }

/-- The parts of the event's work, one up to each of its control replies and the rest. -/
def Event.parts (e : Event) : List Causes := e.done ++ [e.causes]

/-- What two parts of the work call for together. -/
def Causes.join (a b : Causes) : Causes :=
  { pool := a.pool || b.pool, accts := unionAsc a.accts b.accts,
    reports := unionAsc a.reports b.reports,
    reserves := unionAsc a.reserves b.reserves, acctNotices := a.acctNotices ++ b.acctNotices,
    overflowNotices := a.overflowNotices ++ b.overflowNotices, notices := a.notices ++ b.notices }

/-- What the whole event calls for. -/
def Event.all (e : Event) : Causes := e.done.foldr Causes.join e.causes

/-- The evaluations of accounts due: a touched account is evaluated, one only to be reported is reported, in
ascending tag order (R60, R66). -/
def Causes.evalAccounts (c : Causes) (s : State) : State × List Notice :=
  evalEach (fun s tag => if tag ∈ c.accts then evaluateAccount s tag else reportAccount s tag)
    (unionAsc c.accts c.reports) s

/-- In recovery the accounts of the work so far are evaluated within the event, before the next step (R74, R178). -/
def Event.settleAccounts (e : Event) : Event :=
  let r := e.causes.evalAccounts e.st
  { e with st := r.1, accts := [], reports := [], acctNotices := e.acctNotices ++ r.2 }

/-- The notices of an event's evaluations. -/
structure Verdicts where
  pool : List Notice := []
  accts : List Notice := []
  reserves : List Notice := []
  deriving DecidableEq, Repr

/-- The evaluations due at the end of an event, each made once, on the values the whole event leaves: the pool, the accounts
in tag order, the reserves (R5, R60, R84). -/
def Event.evaluate (e : Event) : State × Verdicts :=
  let c := e.all
  let p := if c.pool then evalPool e.st else (e.st, [])
  let a := c.evalAccounts p.1
  let v := evalEach evalReserve c.reserves a.1
  (v.1, { pool := p.2, accts := a.2, reserves := v.2 })

/-- The state as the evaluations due leave it. -/
def Event.evaluated (e : Event) : State := e.evaluate.1

/-! ### The control replies of an event (R183, R184, R189, R190)

A reply takes its place among the frames of its event when it is decided, and what it shows of the notice queue is filled
in at the event's end. A FETCH takes the notices of the work before it in its event and none of the work of the requests
that execute after it, and each reply shows the queue after the effects of its own command (log entry 6). -/

/-- Of what a part of the work calls for, the evaluations of records that no later part touches: those of the others are
on values that later work leaves, and their notices are that work's. -/
def Causes.lastBefore (c : Causes) (later : List Causes) : Causes :=
  { c with
    pool := c.pool && later.all fun d => !d.pool,
    accts := c.accts.filter fun t => later.all fun d => !(d.accts ++ d.reports).contains t,
    reports := c.reports.filter fun t => later.all fun d => !(d.accts ++ d.reports).contains t,
    reserves := c.reserves.filter fun v => later.all fun d => !d.reserves.contains v }

/-- The notices that a part of the work queues, in the order of the rules: pool, accounts in tag order, reserves, CHANGE
LIST OVERFLOW, then the others (R10, R34, R35, R51, R90, R107). -/
def Verdicts.due (v : Verdicts) (c : Causes) : List Notice :=
  (if c.pool then v.pool else [])
    ++ c.acctNotices ++ v.accts.filter (fun n => (c.accts ++ c.reports).contains n.subject)
    ++ v.reserves.filter (fun n => c.reserves.contains n.subject) ++ c.overflowNotices ++ c.notices

/-- The oldest notices leave the queue, up to 8; the overflow mark is cleared if the queue is empty then (R190). -/
def Control.fetched (c : Control) : Control :=
  { c with notices := c.notices.drop Config.fetchSize,
           lost := c.lost && !(c.notices.drop Config.fetchSize).isEmpty }

/-- What a FETCH returns: the number of notices it takes, and the notices (R190). -/
def Control.fetchWords (c : Control) : List Nat :=
  (c.notices.take Config.fetchSize).length :: (c.notices.take Config.fetchSize).flatMap Notice.words

/-- The reply OK to a NOTICE FETCH. -/
def takes (number : Nat) (code : Code) : Bool := number == 38 && code == .ok

/-- A control reply is completed: the reply OK to a NOTICE FETCH (38) takes the notices it carries,
the reply OK to STATUS (7) shows the queue's length and its overflow mark, and the flags of every control reply show the
queue as it leaves it (R184, R188, R190). -/
def completeReply (c : Control) (number tag : Nat) (code : Code) (result : List Nat) : Control × Output :=
  let d := if takes number code then c.fetched else c
  let words :=
    if takes number code then c.fetchWords
    else if number = 7 ∧ code = .ok then (result.set 3 c.notices.length).set 4 (flag c.lost)
    else result
  (d, .control (!d.notices.isEmpty) d.lost number tag code words)

/-- The frames of an event completed in order, with the parts of its work of which each control reply ends one. The notices
of the parts since the last FETCH stand together in the order of the rules, `due` being what those parts call for; the flags
of a reply count those up to it. A control reply goes on the front link only while it is up (R18): a FETCH whose reply is
dropped has taken its notices (R190). -/
def completeReplies (up : Bool) (v : Verdicts) (c : Control) (due : Causes) :
    List Causes → List Output → Control × List Output
  | parts, [] => ((v.due (parts.foldl Causes.join due)).foldl offer c, [])
  | parts, .control _ _ number tag code result :: t =>
    let now := due.join ((parts.headD {}).lastBefore parts.tail)
    let r := completeReply ((v.due now).foldl offer c) number tag code result
    let q :=
      if takes number code then completeReplies up v r.1 {} parts.tail t
      else completeReplies up v c now parts.tail t
    (q.1, if up then r.2 :: q.2 else q.2)
  | parts, o :: t =>
    let q := completeReplies up v c due parts t
    (q.1, o :: q.2)

/-- The event is over: the evaluations due are made, the notices offered and the control replies completed, a firing pass
ends when no head entry is due (R63), and the state is given back. -/
def closeEvent (e : Event) : State :=
  let s := e.evaluated
  let r := completeReplies s.frontUp e.evaluate.2 s.ctl {} e.parts s.out
  { s with ctl := e.late.foldl offer r.1, out := e.sent ++ r.2, firing := s.firing && s.headDue }

/-! ### Claims and frees (R4) -/

/-- Takes `n` PCNs from the head of the free FIFO. -/
def claimPcns (n : Nat) (e : Event) : List Nat × Event :=
  if n = 0 then ([], e)
  else (e.st.free.take n,
    (e.upd fun s => { s with free := s.free.drop n, claims := s.claims + n }).touchPool)

/-- Appends PCNs to the tail of the free FIFO in the order given. -/
def freePcns (ps : List Nat) (e : Event) : Event :=
  if ps = [] then e else (e.upd fun s => { s with free := s.free ++ ps }).touchPool

/-- Returns claimed PCNs to the tail: the outstanding-claim count falls with them. -/
def returnClaims (ps : List Nat) (e : Event) : Event :=
  freePcns ps (e.upd fun s => { s with claims := s.claims - ps.length })

/-- A commit maps `n` claimed PCNs: they are outstanding no longer. -/
def commitClaims (n : Nat) (e : Event) : Event := e.upd fun s => { s with claims := s.claims - n }

/-! ### Charges (R51, R54, R71) -/

/-- Applies net charge changes; an account with a change other than 0 is evaluated. -/
def applyCharges (sign : Int) : List (Nat × Int) → Event → Event
  | [], e => e
  | (x, d) :: t, e =>
    applyCharges sign t
      (if d = 0 then e else (e.updAcct x fun a => a.addCharge (sign * d)).touchAcct x)

/-- One chunk less is charged to an account. -/
def uncharge (tag : Nat) (e : Event) : Event := applyCharges 1 [(tag, -1)] e

/-- Reserves `n` chunks for an account (R70). -/
def reserveChunks (tag n : Nat) (e : Event) : Event :=
  (e.updAcct tag fun a => { a with reserved := a.reserved + n }).touchAcct tag

/-- Releases `n` reserved chunks (R71); nothing happens for 0. -/
def releaseChunks (tag n : Nat) (e : Event) : Event :=
  if n = 0 then e else (e.updAcct tag fun a => { a with reserved := a.reserved - n }).touchAcct tag

/-- Turns one reserved chunk into charge (R71). -/
def transferChunk (tag : Nat) (e : Event) : Event :=
  (e.updAcct tag fun a => { a with reserved := a.reserved - 1, charge := a.charge + 1 }).touchAcct tag

/-! ### Replies (R18, R184) -/

/-- Puts a frame on the front link, or drops it while the link is down (R18, R39). -/
def emitFront (o : Output) (e : Event) : Event :=
  if e.st.frontUp then e.upd fun s => { s with out := s.out ++ [o] } else e

/-- Puts a frame on the shelf or the offsite link. -/
def emit (o : Output) (e : Event) : Event := e.upd fun s => { s with out := s.out ++ [o] }

/-- A front reply without data. -/
def replyFront (addr kind : Nat) (code : Code) (tag : Nat) (e : Event) : Event :=
  emitFront (.front addr kind code tag 0 []) e

/-- A control reply takes its place among the frames of the event, and ends a part of its work; the event's end completes
it (R184). -/
def emitControl (number tag : Nat) (code : Code) (result : List Nat) (e : Event) : Event :=
  { emit (.control false false number tag code result) e with
    poolTouched := false, accts := [], reports := [], reserves := [], acctNotices := [], overflowNotices := [],
    notices := [], done := e.done ++ [e.causes] }

/-- The executing request is decided: the slot becomes free and its reply goes out in this event (R183). -/
def answerWith (code : Code) (result : List Nat) (job : Option Nat) (e : Event) : Event :=
  match e.st.ctl.executing with
  | none => e
  | some x =>
    let e := e.updCtl fun c => { c with executing := none }
    { e with todo := { e.todo with
        answer := some { number := x.number, tag := x.tag, code := code, result := result, job := job } } }

/-- The executing request is answered with a code and its results. -/
def reply (code : Code) (result : List Nat) (e : Event) : Event := answerWith code result none e

/-! ### Map entries (R15) -/

/-- Changes the map entry of an LCN. -/
def Volume.setEntry (v : Volume) (lcn : Nat) (m : MapEntry) : Volume :=
  { v with map := tset MapEntry.fresh lcn m v.map }

/-- Changes the form of a map entry, its stamp kept. -/
def Volume.setForm (v : Volume) (lcn : Nat) (f : Form) : Volume :=
  v.setEntry lcn { v.entry lcn with form := f }

/-- Maps a PCN into an entry: born-in is G. -/
def mapEntry (v lcn pcn owner : Nat) (e : Event) : Event :=
  e.updVol v fun x => x.setForm lcn (.mapped pcn x.gen owner)

/-- Unmaps an entry: cleared-in is G. -/
def unmapEntry (v lcn : Nat) (e : Event) : Event :=
  e.updVol v fun x => x.setForm lcn (.unmapped x.gen)

/-! ### The change lists (R121) -/

/-- Logs one LCN of a volume in its active list. -/
def logLcn (v lcn : Nat) (e : Event) : Event :=
  let x := e.st.vol v
  if ¬ x.offsite then e
  else if (x.entry lcn).stamp = some x.runCounter then e
  else if x.activeList.length < x.cap then
    e.updVol v fun y =>
      { y.setEntry lcn { y.entry lcn with stamp := some y.runCounter } with
        activeList := y.activeList ++ [lcn] }
  else
    let e' := e.updVol v fun y => { y with activeIncomplete := true, overflow := true }
    if x.overflow then e'
    else { e' with overflowNotices :=
             e'.overflowNotices ++ [e'.st.notice .changeListOverflow v x.cap x.runCounter] }

/-- Logs several LCNs in order. -/
def logLcns (v : Nat) (ls : List Nat) (e : Event) : Event := ls.foldl (fun e l => logLcn v l e) e

/-! ### Filing a displaced chunk (R83) -/

/-- The snapshot that receives a chunk displaced at filing generation `g`: the newest of generation `g` or less
that is READY or DELETE PENDING. -/
def filingSnap (v : Volume) (g : Nat) : Option (Nat × Snap) :=
  newestSnap (fun s => s.shares && decide (s.gen ≤ g)) v.snaps

/-- Changes a snapshot record of a volume. -/
def Volume.setSnap (v : Volume) (slot : Nat) (s : Snap) : Volume := { v with snaps := tput slot s v.snaps }

/-- Files a displaced chunk into a sharing snapshot's retained set, or frees its PCN. -/
def fileDisplaced (v lcn pcn born g : Nat) (e : Event) : Event :=
  match filingSnap (e.st.vol v) g with
  | some (slot, q) =>
    if born ≤ q.gen then
      (e.updVol v fun x => x.setSnap slot
        { q with retained := q.retained ++ [{ lcn := lcn, pcn := pcn, born := born }] }).touchReserve v
    else freePcns [pcn] e
  | none => freePcns [pcn] e

/-! ### The shelf queues (R158, R162) -/

/-- Hands a command to the shelf port: it joins the tail of the queue of its class. -/
def handOver (c : ShelfCmd) (e : Event) : Event :=
  let e := e.updShelf fun p =>
    match c.cls with
    | .foreground => { p with fgQueue := p.fgQueue ++ [c] }
    | .restore => { p with restoreQueue := p.restoreQueue ++ [c] }
    | .offsite => { p with offsiteQueue := p.offsiteQueue ++ [c] }
  { e with todo := { e.todo with grant := true } }

/-- Withdraws the waiting commands of an owner. -/
def withdrawCmds (own : CmdOwner → Bool) (e : Event) : Event :=
  e.updShelf fun p =>
    { p with fgQueue := p.fgQueue.filter fun c => !own c.owner,
             restoreQueue := p.restoreQueue.filter fun c => !own c.owner,
             offsiteQueue := p.offsiteQueue.filter fun c => !own c.owner }

/-- Gives the commands in slots of an owner to another owner. -/
def reownSlots (own : CmdOwner → Bool) (new : CmdOwner) (e : Event) : Event :=
  e.updShelf fun p =>
    { p with slots := p.slots.map fun x =>
        if own x.2.cmd.owner then (x.1, { x.2 with cmd := { x.2.cmd with owner := new } }) else x }

/-- A command of the owner holds a slot. -/
def inSlot (own : CmdOwner → Bool) (p : Shelf) : Bool := p.slots.any fun x => own x.2.cmd.owner

/-- How many commands of the owner hold slots. -/
def countInSlots (own : CmdOwner → Bool) (p : Shelf) : Nat :=
  (p.slots.filter fun x => own x.2.cmd.owner).length

/-- The command belongs to the front request of an arrival number. -/
def ofRequest (arrival : Nat) : CmdOwner → Bool
  | .request a _ _ => a == arrival
  | _ => false

/-- The command belongs to a restore job. -/
def ofJob (job : Nat) : CmdOwner → Bool
  | .restore j => j == job
  | _ => false

/-- The command is the read of the send. -/
def ofSend : CmdOwner → Bool
  | .send => true
  | _ => false

/-! ### The busy set (R22, R23) -/

/-- Two items conflict: a chunk of one volume shared, unless both are in READ mode. -/
def BusyItem.conflicts (a b : BusyItem) : Bool :=
  a.vol == b.vol && (a.change || b.change) && a.chunks.any fun c => b.chunks.contains c

/-- The first waiting item that may proceed, in arrival order: no earlier item conflicts with it. -/
def firstProceed (earlier : List BusyItem) : List BusyItem → Option BusyItem
  | [] => none
  | i :: t =>
    if !i.proceeded && !earlier.any fun p => p.conflicts i then some i
    else firstProceed (earlier ++ [i]) t

/-- An item enters the busy set at the end of the arrival order. -/
def enterBusy (i : BusyItem) (e : Event) : Event :=
  let e := e.upd fun s => { s with busy := s.busy ++ [i] }
  { e with todo := { e.todo with retest := true } }

/-- Marks an item as having proceeded. -/
def markProceeded (o : BusyOwner) (e : Event) : Event :=
  e.upd fun s => { s with busy := s.busy.map fun i =>
    if i.owner = o then { i with proceeded := true } else i }

/-- A work's item leaves the busy set and any drain set (R26): the busy set is tested again and drains
may end. -/
def leaveBusy (o : BusyOwner) (v : Nat) (e : Event) : Event :=
  let e := e.upd fun s => { s with busy := s.busy.filter fun i => i.owner != o }
  let e := e.updVol v fun x =>
    { x with drain := x.drain.map fun d => { d with members := d.members.filter fun m => m != o } }
  { e with todo := { e.todo with retest := true, drains := true } }

/-- The entry of an arrival number in the in-flight table. -/
def State.entryOf (s : State) (arrival : Nat) : Option Entry :=
  s.inflight.find? fun x => x.arrival == arrival

/-- Replaces an entry of the in-flight table. -/
def setEntry (x : Entry) (e : Event) : Event :=
  e.upd fun s => { s with inflight := s.inflight.map fun y => if y.arrival = x.arrival then x else y }

/-- The reply of a front request: its entry is freed and its item leaves the busy set (R21, R22). -/
def finishEntry (x : Entry) (code : Code) (blocks : Nat) (data : List Block) (e : Event) : Event :=
  let e := emitFront (.front x.req.vol x.req.kind.value code x.req.tag blocks data) e
  let e := e.upd fun s => { s with inflight := s.inflight.filter fun y => y.arrival != x.arrival }
  let e := leaveBusy (.front x.arrival) x.req.vol e
  { e with todo := { e.todo with occupancy := true } }

end Sys2Proof.Machine
end

