-- ==== Sys2Proof/Machine/Snapshot.lean ====
section
/-! DEFINITION. The snapshot unit (Chapter 5): the deletion queue and its walks, the create event,
rotation and pins. -/

namespace Sys2Proof.Machine

/-- The walk of a snapshot ends: the record leaves its slot, the queue its head, DELETE DONE is queued, and
the offsite engine is told when slot 0 is empty (R91). -/
def endWalk (v slot : Nat) (e : Event) : Event :=
  let freed := ((tfind (e.st.vol v).snaps slot).map Snap.freed).getD 0
  let e := e.updVol v fun x =>
    { x with snaps := tdel slot x.snaps, deleteQueue := x.deleteQueue.drop 1 }
  let e := e.note .deleteDone v slot freed
  if slot = 0 then { e with todo := { e.todo with engine := true } } else e

/-- The head of a volume's deletion queue is DELETING (R89); while the part is RUNNING a head with an empty
set ends its walk at once and the next becomes the head (R91). The number bounds the heads taken. -/
def startHead (v : Nat) : Nat → Event → Event
  | 0, e => e
  | n + 1, e =>
    match (e.st.vol v).deleteQueue with
    | [] => e
    | slot :: _ =>
      match tfind (e.st.vol v).snaps slot with
      | none => e
      | some d =>
        let e := e.updVol v fun x => x.setSnap slot { d with state := .deleting }
        if d.retained = [] ∧ e.st.ctl.part = .running then startHead v n (endWalk v slot e) else e

/-- A snapshot is queued for deletion: DELETE PENDING at the tail of the queue, and DELETING at once if the
queue was empty (R88, R89). -/
def queueDeletion (v slot : Nat) (e : Event) : Event :=
  match tfind (e.st.vol v).snaps slot with
  | none => e
  | some d =>
    let wasEmpty := (e.st.vol v).deleteQueue.isEmpty
    let e := e.updVol v fun x =>
      { x.setSnap slot { d with state := .deletePending } with deleteQueue := x.deleteQueue ++ [slot] }
    if wasEmpty then startHead v (Config.snapSlots + 1) e else e

/-- One step of the merge walk of a volume (R90), with the end of the walk if it took the last entry (R91).
The walk runs while the part is RUNNING, on a volume that is not DELETING. -/
def mergeStep (v : Nat) (e : Event) : Event :=
  let x := e.st.vol v
  if e.st.ctl.part ≠ .running ∨ ¬ x.usable then e
  else match x.deleteQueue with
    | [] => e
    | slot :: _ =>
      match tfind x.snaps slot with
      | none => e
      | some d =>
        match d.retained with
        | [] => e
        | r :: rest =>
          let older := newestSnap (fun s => s.shares && decide (s.gen < d.gen)) x.snaps
          let e :=
            match older with
            | some (ps, p) =>
              if r.born ≤ p.gen then
                e.updVol v fun y => (y.setSnap slot { d with retained := rest }).setSnap ps
                  { p with retained := p.retained ++ [r] }
              else
                (freePcns [r.pcn] (e.updVol v fun y =>
                  y.setSnap slot { d with retained := rest, freed := d.freed + 1 })).touchReserve v
            | none =>
              (freePcns [r.pcn] (e.updVol v fun y =>
                y.setSnap slot { d with retained := rest, freed := d.freed + 1 })).touchReserve v
          if rest = [] then startHead v (Config.snapSlots + 1) (endWalk v slot e) else e

/-- Checks 5 to 7 of R77 for a kind: a slot, the reserve (USER and SCHEDULED only) and the generation. For a
RUN create the slot is slot 0 (R79). -/
def createCheck (kind : SnapKind) (x : Volume) : Option Code :=
  let slotFree := if kind = .run then (tfind x.snaps 0).isNone else x.emptySlot.isSome
  if ¬ slotFree then some .noSlot
  else if (kind = .user ∨ kind = .scheduled) ∧ x.reserveLimit ≠ noLimit
      ∧ x.reserveLimit ≤ x.reserveUsage then some .reserve
  else if Config.maxGen ≤ x.gen then some .genLimit
  else none

/-- The answer of a create: the slot and the generation, or the code that refuses it. -/
inductive CreateAnswer where
  | made (slot gen : Nat)
  | refused (code : Code)
  deriving DecidableEq, Repr

/-- The create event (R79, R80). -/
def createEvent (v : Nat) (c : CreateReq) (e : Event) : CreateAnswer × Event :=
  let x := e.st.vol v
  match createCheck c.kind x with
  | some code => (.refused code, e)
  | none =>
    let slot := if c.kind = .run then 0 else x.emptySlot.getD 0
    let snap : Snap :=
      { kind := c.kind, series := if c.kind = .scheduled then c.series else none, gen := x.gen,
        label := c.label, created := e.st.stamp, held := false, state := .ready, retained := [],
        inUse := 0, freed := 0 }
    (.made slot x.gen, e.updVol v fun y => { y.setSnap slot snap with gen := y.gen + 1 })

/-- The candidates of a rotation of series `q`, oldest first: SCHEDULED, READY, not the new one (R95). -/
def rotationCandidates (x : Volume) (q slot : Nat) : List (Nat × Snap) :=
  sortByKey (fun p => p.2.gen) (x.snaps.filter fun p =>
    p.2.kind == .scheduled && p.2.series == some q && p.2.state == .ready && p.1 != slot)

/-- Queues candidates for deletion while more than `keep` snapshots count, passing over held and pinned
ones; the count left is returned. -/
def rotateOver (v keep : Nat) : List (Nat × Snap) → Nat → Event → Nat × Event
  | [], n, e => (n, e)
  | (slot, s) :: t, n, e =>
    if n ≤ keep then (n, e)
    else if s.held ∨ s.inUse > 0 then rotateOver v keep t n e
    else rotateOver v keep t (n - 1) (queueDeletion v slot e)

/-- Rotation of a series after a SNAP action has created its snapshot (R95). -/
def rotate (v q keep slot : Nat) (e : Event) : Event :=
  let cands := rotationCandidates (e.st.vol v) q slot
  let r := rotateOver v keep cands (cands.length + 1) e
  if keep < r.1 then r.2.note .rotationBlocked v q (r.1 - keep) else r.2

/-- A pin or an unpin of a snapshot (R94). -/
def pinSnap (v slot : Nat) (up : Bool) (e : Event) : Event :=
  match tfind (e.st.vol v).snaps slot with
  | none => e
  | some s =>
    e.updVol v fun x =>
      x.setSnap slot { s with inUse := if up then s.inUse + 1 else s.inUse - 1 }

end Sys2Proof.Machine
end

