-- ==== Sys2Proof/Machine/Offsite.lean ====
section
/-! DEFINITION. The offsite engine (Chapter 7): the frames it makes, passes and volumes, the freeze of a
send, the seal and the close, and the read of a send. -/

namespace Sys2Proof.Machine

/-! ### Frames (12.4) -/

/-- A frame with every field not listed for its kind at 0; the port writes the sequence number. -/
def Frame.plain (kind : FrameKind) (runId : Nat) : Frame :=
  { kind := kind, flags := 0, vol := 0, seq := 0, runId := runId, lcn := 0, count := 0, crc := 0#32,
    gen := 0, a := 0, b := 0, payload := [] }

def runOpenFrame (s : State) : Frame :=
  { Frame.plain .runOpen s.run.runId with
    flags := flag (s.run.mode == .continuous), a := s.run.pass, b := s.plan.length }

def volumeOpenFrame (s : State) (v gen : Nat) : Frame :=
  { Frame.plain .volumeOpen s.run.runId with
    flags := flag s.run.fullScan + 2 * s.run.reasons, vol := v, count := (s.vol v).size, gen := gen,
    a := s.format.k }

def chunkDataFrame (s : State) (v lcn : Nat) (data : List Block) : Frame :=
  { Frame.plain .chunkData s.run.runId with
    vol := v, lcn := lcn, count := 1, crc := crc32 (dataBytes data), payload := data }

def chunkClearFrame (s : State) (v first count : Nat) : Frame :=
  { Frame.plain .chunkClear s.run.runId with vol := v, lcn := first, count := count }

def volumeSealFrame (s : State) (v : Nat) : Frame :=
  { Frame.plain .volumeSeal s.run.runId with vol := v, a := s.run.volData, b := s.run.volClear }

def runCloseFrame (s : State) : Frame :=
  { Frame.plain .runClose s.run.runId with a := s.run.passSealed, b := s.run.passSkipped }

/-- A frame becomes the next one, behind any still waiting (R128, R129). -/
def readyFrame (f : State → Frame) (e : Event) : Event :=
  let e := e.upd fun s => { s with run := { s.run with frames := s.run.frames ++ [f s] } }
  { e with todo := { e.todo with port := true } }

/-- The engine looks for its next work. -/
def wakeEngine (e : Event) : Event := { e with todo := { e.todo with engine := true } }

/-! ### Passes and volumes -/

/-- The port begins the sequence of a pass (R144). -/
def beginSequence (runId : Nat) (e : Event) : Event :=
  e.updPort fun p =>
    { p with seqRun := some runId, nextNo := 1, highestAcked := 0, retry := 0, resendPos := none }

/-- The port is emptied at the end of a run (R155). -/
def emptyPort (e : Event) : Event :=
  e.updPort fun p =>
    { p with outstanding := [], resendPos := none, ackTimer := none, retry := 0, seqRun := none }

/-- A pass opens (R126). -/
def openPass (e : Event) : Event :=
  let e := e.updRun fun r =>
    { r with runId := stepWrap max32 r.runId, state := .active, planIndex := 0, phase := .freeze,
             asked := false, passSealed := 0, passSkipped := 0 }
  wakeEngine (readyFrame runOpenFrame (beginSequence e.st.run.runId e))

/-- The plan index advances: the next volume's FREEZE, or CLOSING after the last (R127, R132). A run that reads
SUSPENDED-LINK goes on reading so. Past the last volume the index is the length of the plan, which names no volume, and the
phase stands as it was: no rule says what the record then holds (log entry 56). -/
def nextVolume (e : Event) : Event :=
  let e := e.updRun fun r => { r with planIndex := r.planIndex + 1, asked := false }
  if e.st.currentVol.isSome then wakeEngine (e.updRun fun r => { r with phase := .freeze })
  else readyFrame runCloseFrame
    (e.updRun fun r => { r with state := if r.state = .active then .closing else r.state })

/-- The volume of a GENLIMIT is skipped (R127). -/
def skipVolume (v : Nat) (e : Event) : Event :=
  let e := e.note .runVolumeSkipped v Code.genLimit.value 0
  nextVolume (e.updRun fun r =>
    { r with skippedVols := r.skippedVols + 1, passSkipped := r.passSkipped + 1 })

/-- The reasons for a full scan as a mask: the full-scan flag, the overflow flag, never sealed, the counter
stepped to 0 (R128, 12.6). -/
def scanReasons (x : Volume) (counter : Nat) : Nat :=
  flag x.fullScan + 2 * flag x.overflow + 4 * flag (!x.everSealed) + 8 * flag (counter == 0)

/-- The freeze of the current volume, made in the event that creates its RUN snapshot (R128). -/
def volumeFreeze (v gen : Nat) (e : Event) : Event :=
  let x := e.st.vol v
  let c := stepWrap Config.maxRunCounter x.runCounter
  let reasons := scanReasons x c
  let e := e.updVol v fun y =>
    { y with runCounter := c, runList := y.activeList, runIncomplete := y.activeIncomplete,
             activeList := [], activeIncomplete := false, fullScan := y.fullScan || c == 0 }
  let e := e.updRun fun r =>
    { r with phase := .send, fullScan := reasons != 0, reasons := reasons, keep := c == 0, pos := 0,
             clearStart := 0, clearCount := 0, scanRead := false, volData := 0, volClear := 0 }
  wakeEngine (readyFrame (fun s => volumeOpenFrame s v gen) e)

/-- The engine acts on the answer to its RUN create (R127). A NOSLOT answer, which no state of a run gives (R81),
leaves the engine waiting for slot 0. -/
def answerRun (v : Nat) (a : CreateAnswer) (e : Event) : Event :=
  match a with
  | .made _ gen => volumeFreeze v gen e
  | .refused .timeout =>
    wakeEngine (e.updRun fun r => { r with retries := r.retries + 1, asked := false })
  | .refused .genLimit => skipVolume v e
  | .refused _ => e.updRun fun r => { r with asked := false }

/-- The VOLUME SEAL is acknowledged: the volume is sealed and released (R132). -/
def sealAcked (e : Event) : Event :=
  match e.st.currentVol with
  | none => e
  | some v =>
    let r := e.st.run
    let e := e.updVol v fun x =>
      { x with fullScan := x.fullScan && r.keep,
               overflow := x.overflow && !(r.fullScan && !x.activeIncomplete),
               everSealed := true, runList := [], runIncomplete := false }
    let e := e.note .runVolumeSealed v r.volData r.volClear
    let e := e.updRun fun r =>
      { r with sealedVols := r.sealedVols + 1, passSealed := r.passSealed + 1 }
    nextVolume (queueDeletion v 0 e)

/-- RUN CLOSE is acknowledged: the pass is complete (R133). -/
def closeAcked (e : Event) : Event :=
  let r := e.st.run
  match r.mode with
  | .nightly =>
    (emptyPort (e.updRun fun r => { r with state := .idle, result := .complete })).note .runEnded
      r.runId RunResult.complete.value r.sealedVols
  | .continuous =>
    let e := e.note .runPassDone r.runId r.pass r.passSealed
    openPass (e.updRun fun r =>
      { r with result := .complete, pass := if r.pass = 65535 then 1 else r.pass + 1 })

/-! ### The send (R129 to R131, R137) -/

/-- The view of the RUN snapshot of a volume at an LCN (R85). -/
def runView (x : Volume) (lcn : Nat) : Option Nat :=
  viewLookup x (((tfind x.snaps 0).map Snap.gen).getD 0) lcn

/-- The whole-chunk read of a send. -/
def sendRead (k pcn : Nat) : ShelfCmd :=
  { kind := .read, cls := .offsite, pcn := pcn, first := 0, count := 2 ^ k, data := [], owner := .send }

/-- The read of an LCN's view is handed over, or a CHUNK CLEAR of one LCN is made ready (R130). -/
def prepareLcn (v lcn : Nat) (e : Event) : Event :=
  match runView (e.st.vol v) lcn with
  | some pcn =>
    handOver (sendRead e.st.format.k pcn)
      (e.updRun fun r =>
        { r with reading := some { lcn := lcn, reissued := false }, scanRead := false })
  | none => readyFrame (fun s => chunkClearFrame s v lcn 1) e

/-- Every frame of the volume's send has been taken: VOLUME SEAL is made (R132). -/
def toSeal (v : Nat) (e : Event) : Event :=
  readyFrame (fun s => volumeSealFrame s v) (e.updRun fun r => { r with phase := .seal })

/-- The next frame of a send, when none is made or in preparation. A full scan's LCNs are visited one per
event, by `scanStep`. -/
def sendNext (v : Nat) (e : Event) : Event :=
  let r := e.st.run
  let x := e.st.vol v
  if r.fullScan then
    if r.clearCount ≠ 0 then e
    else if r.scanRead then prepareLcn v r.pos e
    else if x.size ≤ r.pos then toSeal v e
    else e
  else
    match x.runList[r.pos]? with
    | some lcn => prepareLcn v lcn e
    | none => toSeal v e

/-- The engine may prepare a frame of the current volume's send. -/
def Run.sending (r : Run) : Bool :=
  r.state != .idle && r.state != .stopping && r.phase == .send && r.frames.isEmpty
    && r.reading.isNone && !r.shelfMark

/-- One LCN of a full scan: the stamp is swept and the view looked up (R131). In RECOVERING the scan waits for the end
that step 3 makes of the run (R139). -/
def scanStep (e : Event) : Event :=
  match e.st.currentVol with
  | none => e
  | some v =>
    let r := e.st.run
    let x := e.st.vol v
    if e.st.ctl.part = .recovering ∨ ¬ r.sending ∨ ¬ r.fullScan ∨ r.scanRead ∨ x.size ≤ r.pos then e
    else
      let m := x.entry r.pos
      let e := if m.stamp = some x.runCounter then e
        else e.updVol v fun y => y.setEntry r.pos { m with stamp := none }
      let gather := e.updRun fun r =>
        { r with clearStart := if r.clearCount = 0 then r.pos else r.clearStart,
                 clearCount := r.clearCount + 1, pos := r.pos + 1 }
      let e := match runView x r.pos with
        | some _ => e.updRun fun r => { r with scanRead := true }
        | none => gather
      let r := e.st.run
      if r.clearCount ≠ 0 ∧ (r.scanRead ∨ Config.maxClearRun ≤ r.clearCount ∨ x.size ≤ r.pos) then
        readyFrame (fun s => chunkClearFrame s v s.run.clearStart s.run.clearCount) e
      else wakeEngine e

/-- The port has taken the offered frame: the counts rise and the send position moves (R129, R130). -/
def frameTaken (f : Frame) (e : Event) : Event :=
  wakeEngine (e.updRun fun r =>
    let r := { r with frames := r.frames.drop 1 }
    match f.kind with
    | .chunkData =>
      { r with volData := r.volData + 1, dataFrames := r.dataFrames + 1, pos := r.pos + 1 }
    | .chunkClear =>
      { r with volClear := r.volClear + 1, clearFrames := r.clearFrames + 1,
               pos := if r.fullScan then r.pos else r.pos + 1, clearCount := 0 }
    | _ => r)

/-- The read of a send ends DONE: the CHUNK DATA frame is ready with its CRC (R130, R156). -/
def sendReadDone (data : List Block) (e : Event) : Event :=
  match e.st.run.reading, e.st.currentVol with
  | some d, some v =>
    readyFrame (fun s => chunkDataFrame s v d.lcn data)
      (e.updRun fun r => { r with reading := none })
  | _, _ => e

/-- The run is suspended on the shelves: the frame in preparation is given up, to be looked up again (R137). -/
def suspendShelf (e : Event) : Event :=
  e.updRun fun r =>
    { r with reading := none, scanRead := r.fullScan, shelfMark := true,
             state := if r.linkMark then .suspendedLink else .suspendedShelf }

/-- The read of a send ends in error: re-issued once, and suspended at the second error or at a shelf link
reset (R137). -/
def sendReadError (cmd : ShelfCmd) (linkReset : Bool) (e : Event) : Event :=
  match e.st.run.reading with
  | none => e
  | some d =>
    if linkReset ∨ d.reissued then suspendShelf e
    else handOver cmd (e.updRun fun r => { r with reading := some { d with reissued := true } })

/-- The shelf link is up: a run suspended on it goes on (R137, R167). -/
def resumeShelf (e : Event) : Event :=
  if e.st.run.shelfMark ∧ e.st.run.state ≠ .idle then
    wakeEngine (e.updRun fun r =>
      { r with shelfMark := false, state := if r.linkMark then .suspendedLink else .active })
  else e

/-! ### The reports of the offsite link (R136) -/

def engineLinkDown (e : Event) : Event :=
  if e.st.run.state = .idle then e
  else e.updRun fun r =>
    { r with linkMark := true,
             state := if r.state = .active ∨ r.state = .closing then .suspendedLink else r.state }

/-- A matching HELLO: the run goes on, as its last volume and the shelf mark say. -/
def engineLinkUp (e : Event) : Event :=
  if e.st.run.state = .idle then e
  else
    let closing := e.st.currentVol.isNone
    wakeEngine (e.updRun fun r =>
      { r with linkMark := false,
               state := if r.state = .stopping then .stopping
                 else if r.shelfMark then .suspendedShelf
                 else if closing then .closing else .active })

/-! ### The checks of a start (R125, R141) -/

/-- Reasons 2 to 4 of R125 against the plan: the reason and the volume it names, 0 for none. Of several volumes that fail
the check the first in plan order is named, of which R125, R141 and R175 say nothing: DESIGN CHOICE, log entry 68. -/
def planCheck (s : State) : Option (Nat × Nat) :=
  if s.plan = [] then some (2, 0)
  else match s.plan.find? fun v => !(s.vol v).usable with
    | some v => some (3, v)
    | none => (s.plan.find? fun v => !(s.vol v).offsite).map fun v => (4, v)

/-- The checks of a start in their order. -/
def startCheck (s : State) : Option (Nat × Nat) :=
  if s.run.state ≠ .idle then some (1, 0)
  else match planCheck s with
    | some r => some r
    | none =>
      if s.port.up ∧ s.port.site = some s.ctl.config.partnerSite then none else some (5, 0)

/-- A start that has passed takes effect (R125). Both suspension marks are cleared, of which R125 says nothing: DESIGN CHOICE,
log entry 61. -/
def startRun (mode : RunMode) (minute : Nat) (e : Event) : Event :=
  openPass (e.upd fun s =>
    { s with run := { s.run with
        mode := mode, deadline := nextMinute s.sched.clock minute, sealedVols := 0,
        skippedVols := 0, dataFrames := 0, clearFrames := 0, retries := 0, pass := 1,
        linkMark := false, shelfMark := false, frames := [], reading := none } })

end Sys2Proof.Machine
end

