-- ==== Sys2Proof/Machine/Front.lean ====
section
/-! DEFINITION. The transaction engine (Chapters 2 and 3): admission, acceptance, the shelf commands of a
request, completion, commit and failure. -/

namespace Sys2Proof.Machine

/-! ### Admission (R19, R20) -/

/-- The view a READ names: `none` LIVE, `some slot`; a value that is neither makes the request malformed
(R19, 12.2). -/
def viewOf (w : Nat) : Option (Option Nat) :=
  if w = 128 then some none else if w < 16 then some (some w) else none

/-- The length a front request calls for (R192). -/
def frontLength (kind : FrontKind) (count : Nat) : Nat :=
  match kind with
  | .write => 16 + count * Config.blockBytes
  | .read => 16
  | .discard => 16

/-- A request is malformed (R19). -/
def malformedFront (kind : FrontKind) (view count len : Nat) : Bool :=
  count == 0 || decide (256 < count) || (kind == .read && (viewOf view).isNone)
    || len != frontLength kind count

/-- The snapshot in a slot is READY. -/
def readySnap (x : Volume) (slot : Nat) : Bool :=
  match tfind x.snaps slot with
  | some s => s.state == .ready
  | none => false

/-- The arrival checks of R20 in their order; `none` when all pass. -/
def admission (s : State) (kind : FrontKind) (vol view start count len : Nat) : Option Code :=
  let x := s.vol vol
  if malformedFront kind view count len then some .malformed
  else if s.ctl.part ≠ .running then some .notReady
  else if Config.inflightSize ≤ s.occupancy then some .busy
  else if ¬ x.usable then some .badVol
  else if x.size * 2 ^ s.format.k < start + count then some .range
  else if kind ≠ .read ∧ (x.state = .freezing ∨ x.state = .frozen) then some .frozen
  else if kind = .read ∧ ((viewOf view).getD none).any (fun slot => !readySnap x slot) then some .noView
  else none

/-- The chunks a front request puts in the busy set (R22). -/
def busyChunks (k : Nat) (r : FrontReq) : List Nat :=
  match r.kind with
  | .read => span k r.start r.count
  | .write => span k r.start r.count
  | .discard => fullChunks k r.start r.count

/-- The busy set item of an entry. -/
def busyItemOf (k : Nat) (x : Entry) : BusyItem :=
  { owner := .front x.arrival, vol := x.req.vol, chunks := busyChunks k x.req,
    change := x.req.kind != .read, proceeded := false }

/-- A request that passed the checks takes an entry: HELD behind a running drain, or in the busy set (R20). -/
def admitRequest (r : FrontReq) (data : List Block) (e : Event) : Event :=
  let s := e.st
  let held := r.kind != .read && (s.vol r.vol).drain.isSome
  let x : Entry :=
    { arrival := s.nextArrival, req := r, state := if held then .held else .waiting, gen := 0,
      plan := [], claims := [], charges := [], left := 0, failed := false, data := data }
  let e := e.upd fun s => { s with inflight := s.inflight ++ [x], nextArrival := s.nextArrival + 1 }
  let e := { e with todo := { e.todo with occupancy := true } }
  if held then e.updVol r.vol fun v => { v with holdList := v.holdList ++ [x.arrival] }
  else enterBusy (busyItemOf s.format.k x) e

/-- A front request arrives (R18, R20). While the link is down no frame arrives (R39); a frame shorter than
its header is discarded (R192). -/
def frontArrive (kind : FrontKind) (tag vol view start count owner len : Nat) (data : List Block)
    (e : Event) : Event :=
  if ¬ e.st.frontUp ∨ len < 16 then e
  else match admission e.st kind vol view start count len with
    | some code => replyFront vol kind.value code tag e
    | none =>
      admitRequest
        { tag := tag, kind := kind, vol := vol,
          view := if kind = .read then (viewOf view).getD none else none, start := start,
          count := count, owner := owner } data e

/-! ### Acceptance of a WRITE (R30, R32, R50, R51) -/

/-- The shelf commands of one chunk of a WRITE that do not wait on a copy read (R32). -/
def writeCmds (k : Nat) (x : Entry) (p : ChunkPlan) : List ShelfCmd :=
  let cmd (kind : ShelfKind) (pcn first count : Nat) (data : List Block) (why : Purpose) : ShelfCmd :=
    { kind := kind, cls := .foreground, pcn := pcn, first := first, count := count, data := data,
      owner := .request x.arrival p.lcn why }
  let oldPcn := (p.old.map (·.1)).getD 0
  let whole := chunkContents k x.req.start x.req.count x.data [] p.lcn
  match p.cls with
  | .unmapped => [cmd .write (p.claimed.getD 0) 0 (2 ^ k) whole .chunkWrite]
  | .shared =>
    if isFull k x.req.start x.req.count p.lcn then
      [cmd .write (p.claimed.getD 0) 0 (2 ^ k) whole .chunkWrite]
    else
      (uncoveredRuns k x.req.start x.req.count p.lcn).map fun r => cmd .read oldPcn r.1 r.2 [] .copyRead
  | .inPlace =>
    let f := coverFirst k x.req.start p.lcn
    [cmd .write oldPcn f (coverEnd k x.req.start x.req.count p.lcn - f)
      (coveredData k x.req.start x.req.count x.data p.lcn) .inPlace]

/-- The copy reads of a partly covered S chunk. -/
def copyReads (k : Nat) (x : Entry) (p : ChunkPlan) : Nat :=
  if p.cls = .shared ∧ ¬ isFull k x.req.start x.req.count p.lcn then
    (uncoveredRuns k x.req.start x.req.count p.lcn).length
  else 0

/-- Inserts a mirror record in its place, ascending arrival order (R40). -/
def addMirror (r : MirrorRec) (e : Event) : Event :=
  e.upd fun s => { s with mirror := insertByKey MirrorRec.arrival r s.mirror }

/-- Erases the mirror record of a request. -/
def eraseMirror (arrival : Nat) (e : Event) : Event :=
  e.upd fun s => { s with mirror := s.mirror.filter fun r => r.arrival != arrival }

/-- A WRITE is accepted, or refused QUOTA or NOSPACE with no claim and no charge (R30). -/
def acceptWrite (x : Entry) (e : Event) : Event :=
  let s := e.st
  let k := s.format.k
  let v := s.vol x.req.vol
  let g := v.sharingGen
  let plan := (span k x.req.start x.req.count).map (planChunk v g)
  let a := totalNew plan
  match quotaTest s x.req.owner (netIncrease x.req.owner plan) with
  | .overHard => finishEntry x .quota 0 [] e
  | .lapsed => finishEntry x .quota 0 [] (e.touchReport x.req.owner)
  | .pass =>
    if ¬ poolTest s a then finishEntry x .noSpace 0 [] e
    else
      let c := claimPcns a e
      let plan := (assignClaims plan c.1).map fun p => { p with reads := copyReads k x p }
      let charges := writeCharges x.req.owner plan
      let e := applyCharges 1 charges c.2
      let cmds := plan.flatMap (writeCmds k x)
      let delayed := (plan.filter fun p => decide (0 < p.reads)).length
      let e := addMirror
        { arrival := x.arrival, vol := x.req.vol, claims := c.1, charges := charges,
          inPlace := (plan.filter fun p => p.cls == .inPlace).map ChunkPlan.lcn } e
      let e := setEntry
        { x with state := .active, gen := g, plan := plan, claims := c.1, charges := charges,
                 left := cmds.length + delayed } e
      cmds.foldl (fun e c => handOver c e) e

/-! ### Acceptance and commit of a DISCARD (R35, R45) -/

/-- One chunk covered whole by a DISCARD: freed or handed to a retained set, unmapped and logged. -/
def discardChunk (v g c : Nat) (e : Event) : Event :=
  match ((e.st.vol v).entry c).form with
  | .unmapped _ => e
  | .mapped pcn born _ =>
    let e := if g < born then freePcns [pcn] e else fileDisplaced v c pcn born g e
    logLcn v c (unmapEntry v c e)

/-- A DISCARD passes both tests (its net increase and its A are 0: R47 step 2, R49) and is committed and
answered OK in its acceptance event. -/
def acceptDiscard (x : Entry) (e : Event) : Event :=
  let v := e.st.vol x.req.vol
  let cs := fullChunks e.st.format.k x.req.start x.req.count
  let e := applyCharges 1 (discardCharges v cs) e
  let e := cs.foldl (fun e c => discardChunk x.req.vol v.sharingGen c e) e
  finishEntry x .ok 0 [] e

/-! ### Acceptance and completion of a READ (R31, R33, R36) -/

/-- The view of one chunk of a READ: a PCN, or `none` for UNMAPPED. `snapGen` is `none` for LIVE. -/
def readView (v : Volume) (snapGen : Option Nat) (c : Nat) : Option Nat :=
  match snapGen with
  | some g => viewLookup v g c
  | none =>
    match (v.entry c).form with
    | .mapped pcn _ _ => some pcn
    | .unmapped _ => none

/-- The shelf reads of a READ, one for each chunk whose view is a PCN (R33). -/
def readCmds (k : Nat) (v : Volume) (snapGen : Option Nat) (x : Entry) : List ShelfCmd :=
  (span k x.req.start x.req.count).filterMap fun c =>
    (readView v snapGen c).map fun pcn =>
      let f := coverFirst k x.req.start c
      { kind := .read, cls := .foreground, pcn := pcn, first := f,
        count := coverEnd k x.req.start x.req.count c - f, data := [],
        owner := .request x.arrival c .readData }

/-- The snapshot a READ names is READY with the generation recorded at acceptance (R36). -/
def viewStands (v : Volume) (r : FrontReq) (gen : Nat) : Bool :=
  match r.view with
  | none => true
  | some slot =>
    match tfind v.snaps slot with
    | some s => s.state == .ready && s.gen == gen
    | none => false

/-- A READ completes: its data, or NOVIEW if its snapshot has changed (R36). -/
def completeRead (x : Entry) (e : Event) : Event :=
  if viewStands (e.st.vol x.req.vol) x.req x.gen then finishEntry x .ok x.req.count x.data e
  else finishEntry x .noView 0 [] e

/-- A READ is accepted: NOVIEW if its snapshot is not READY, else its views are resolved and its reads
handed over; with no read it completes at once (R31, R33). -/
def acceptRead (x : Entry) (e : Event) : Event :=
  let v := e.st.vol x.req.vol
  let zeros := List.replicate x.req.count zeroBlock
  let snap := x.req.view.bind fun slot => tfind v.snaps slot
  if x.req.view.any (fun slot => !readySnap v slot) then finishEntry x .noView 0 [] e
  else
    let cmds := readCmds e.st.format.k v (snap.map Snap.gen) x
    let x := { x with state := .active, gen := (snap.map Snap.gen).getD 0, left := cmds.length, data := zeros }
    let e := setEntry x e
    if cmds = [] then completeRead x e else cmds.foldl (fun e c => handOver c e) e

/-- A front request's item may proceed: it is accepted (R23, R30, R31). -/
def acceptFront (arrival : Nat) (e : Event) : Event :=
  match e.st.entryOf arrival with
  | none => e
  | some x =>
    match x.req.kind with
    | .write => acceptWrite x e
    | .discard => acceptDiscard x e
    | .read => acceptRead x e

/-! ### Commit and failure of a WRITE (R34, R37) -/

/-- The commit of one chunk of a WRITE: its entry takes the claimed PCN, an S chunk's old PCN is filed. -/
def commitChunk (v owner g : Nat) (p : ChunkPlan) (e : Event) : Event :=
  match p.cls, p.claimed with
  | .inPlace, _ => e
  | .unmapped, some pcn => mapEntry v p.lcn pcn owner e
  | .shared, some pcn =>
    match p.old with
    | some (old, born, _) => fileDisplaced v p.lcn old born g (mapEntry v p.lcn pcn owner e)
    | none => mapEntry v p.lcn pcn owner e
  | _, none => e

/-- A WRITE whose commands have all ended DONE commits whole and is answered OK (R34). -/
def commitWrite (x : Entry) (e : Event) : Event :=
  let v := x.req.vol
  let e := x.plan.foldl (fun e p => commitChunk v x.req.owner x.gen p e) e
  let e := commitClaims x.claims.length e
  let e := logLcns v (x.plan.map ChunkPlan.lcn) e
  finishEntry x .ok 0 [] (eraseMirror x.arrival e)

/-- A request fails MEDIA: claims return in claim order, charges are reversed, and the P chunks whose
in-place write had taken a slot are logged (R37, R54). -/
def requestFail (x : Entry) (e : Event) : Event :=
  let e := returnClaims x.claims e
  let e := applyCharges (-1) x.charges e
  let e := logLcns x.req.vol ((x.plan.filter fun p => p.cls == .inPlace && p.slotted).map ChunkPlan.lcn) e
  finishEntry x .media 0 [] (eraseMirror x.arrival e)

/-- The first error of a request's commands: the entry is marked failed and its waiting commands are
withdrawn; only the commands in slots are still to end (R37). -/
def markFailed (x : Entry) (e : Event) : Entry × Event :=
  let e := withdrawCmds (ofRequest x.arrival) e
  let x := { x with failed := true, left := countInSlots (ofRequest x.arrival) e.st.shelf }
  (x, setEntry x e)

/-- The data of a command that ended DONE goes into the entry; the last copy read of an S chunk hands over its
whole-chunk write, unless the request has failed (R32). -/
def takeData (x : Entry) (lcn : Nat) (why : Purpose) (first : Nat) (data : List Block) (e : Event) :
    Entry × Event :=
  let k := e.st.format.k
  match why with
  | .readData => ({ x with data := overwriteAt x.data (lcn * 2 ^ k + first - x.req.start) data }, e)
  | .copyRead =>
    let plan := x.plan.map fun p =>
      if p.lcn = lcn then { p with reads := p.reads - 1, copied := p.copied ++ [(first, data)] } else p
    let x := { x with plan := plan }
    match plan.find? fun p => p.lcn == lcn && p.reads == 0 with
    | some p =>
      if x.failed then (x, e)
      else
        (x, handOver
          { kind := .write, cls := .foreground, pcn := p.claimed.getD 0, first := 0, count := 2 ^ k,
            data := chunkContents k x.req.start x.req.count x.data p.copied lcn,
            owner := .request x.arrival lcn .chunkWrite } e)
    | none => (x, e)
  | .chunkWrite => (x, e)
  | .inPlace => (x, e)

/-- A request with no command left completes or fails. -/
def requestOver (x : Entry) (e : Event) : Event :=
  if x.left = 0 then
    if x.failed then requestFail x e
    else match x.req.kind with
      | .read => completeRead x e
      | .write => commitWrite x e
      | .discard => finishEntry x .ok 0 [] e
  else e

/-- One of a request's shelf commands has ended: `data` is `none` for an error (R34, R36, R37). Its slot is
already free. -/
def requestCmdEnd (arrival lcn : Nat) (why : Purpose) (first : Nat) (data : Option (List Block))
    (e : Event) : Event :=
  match e.st.entryOf arrival with
  | none => e
  | some x =>
    let x := { x with left := x.left - 1 }
    match data with
    | some d =>
      let r := takeData x lcn why first d e
      requestOver r.1 (setEntry r.1 r.2)
    | none =>
      let r := markFailed x e
      requestOver r.1 r.2

end Sys2Proof.Machine
end

