-- ==== Sys2Proof/Machine/Restore.lean ====
section
/-! DEFINITION. The restore engine (Chapter 6): visits, copies, pauses and the end of a job. -/

namespace Sys2Proof.Machine

/-- The jobs may have visits to begin. -/
def wakeJobs (e : Event) : Event := { e with todo := { e.todo with jobs := true } }

/-- A job that may run again: RUNNING, or YIELDED while the yield flag is set (R104, R112 to R114). -/
def runState (s : State) : JobState := if s.yielding then .yielded else .running

/-- The number of visits made (R115). -/
def Job.visits (j : Job) : Nat := j.copied + j.cleared + j.skipped + j.unchanged

/-- A visit is under way: its copy waits in the busy set or is in flight. -/
def Job.visiting (j : Job) : Bool := j.waiting || j.copy.isSome

/-! ### The end of a job (R115 to R117) -/

/-- The end effects common to every end state (R115). -/
def endJob (j : Nat) (end_ : JobState) (e : Event) : Event :=
  match tfind e.st.jobs j with
  | none => e
  | some x =>
    let e := releaseChunks x.owner x.remaining e
    let e := pinSnap x.srcVol x.srcSlot false e
    let e := match x.pre with
      | some (slot, _) => pinSnap x.dstVol slot false e
      | none => e
    let y := { x with state := end_, remaining := 0, suspendReq := false, waiting := false, copy := none }
    let e := e.updJob j fun _ => y
    e.note .restoreEnded j y.stateValue y.visits

/-- A copy in flight is abandoned: its transfer is reversed and its claimed PCN returned, at once or when a
write that holds a slot ends (R116, R117). -/
def abandonCopy (j : Nat) (x : Job) (c : Copy) (e : Event) : Event :=
  let e := leaveBusy (.restore j) x.dstVol e
  let e := uncharge x.owner e
  let e := withdrawCmds (ofJob j) e
  if c.stage = .writing ∧ inSlot (ofJob j) e.st.shelf then
    reownSlots (ofJob j) (.abandoned c.pcn) (e.upd fun s => { s with returns := s.returns ++ [c.pcn] })
  else returnClaims [c.pcn] (reownSlots (ofJob j) .dropped e)

/-- A job ends ABORTED (R116). -/
def abortJob (j : Nat) (e : Event) : Event :=
  match tfind e.st.jobs j with
  | none => e
  | some x =>
    let e := if x.waiting then leaveBusy (.restore j) x.dstVol e else e
    let e := match x.copy with
      | some c => abandonCopy j x c e
      | none => e
    endJob j .aborted e

/-- A shelf command of a copy has ended in error: the job ends FAILED-SHELF with the command's PCN (R117). -/
def failJob (j pcn : Nat) (e : Event) : Event :=
  match tfind e.st.jobs j with
  | none => e
  | some x =>
    match x.copy with
    | none => e
    | some c =>
      let e := abandonCopy j x c e
      endJob j .failedShelf (e.updJob j fun y => { y with failedPcn := some pcn })

/-! ### Visits (R105 to R109) -/

/-- A waiting copy is withdrawn from the busy set (R111, R112). -/
def withdrawVisit (j : Nat) (e : Event) : Event :=
  match tfind e.st.jobs j with
  | none => e
  | some x =>
    if x.waiting then
      leaveBusy (.restore j) x.dstVol (e.updJob j fun y => { y with waiting := false })
    else e

/-- The job can begin a visit now: RUNNING in a RUNNING part, not yielding, no visit under way, a target chunk
named, and no running drain of its target volume (R105). -/
def canVisit (s : State) (x : Job) : Bool :=
  x.state == .running && s.ctl.part == .running && !s.yielding && !x.visiting && x.target.isSome
    && (s.vol x.dstVol).drain.isNone

/-- A visit begins: PAUSED-FROZEN on a FROZEN target, else a copy enters the busy set (R105). -/
def beginVisit (j : Nat) (x : Job) (e : Event) : Event :=
  match x.target with
  | none => e
  | some (dst, _) =>
    if (e.st.vol x.dstVol).state = .frozen then e.updJob j fun y => { y with state := .pausedFrozen }
    else
      enterBusy { owner := .restore j, vol := x.dstVol, chunks := [dst], change := true, proceeded := false }
        (e.updJob j fun y => { y with waiting := true })

/-- The outcomes of a visit (R106). -/
inductive Outcome where
  | skipped | unchanged | cleared
  | copied (srcPcn : Nat)
  deriving DecidableEq, Repr

/-- The live entry has changed after generation `g`. -/
def MapEntry.after (m : MapEntry) (g : Nat) : Bool :=
  match m.form with
  | .mapped _ born _ => g < born
  | .unmapped clearedIn => g < clearedIn

/-- The tests of R106, in their order. -/
def visitOutcome (live : MapEntry) (src : Option Nat) (gPre : Nat) : Outcome :=
  if live.after gPre then .skipped
  else match src, live.form with
    | some p, .mapped q _ _ => if p = q then .unchanged else .copied p
    | some p, .unmapped _ => .copied p
    | none, .mapped .. => .cleared
    | none, .unmapped _ => .unchanged

/-- After a visit: DONE past the last chunk (R115); else SUSPENDED, YIELDED or the next visit (R109). -/
def afterVisit (j : Nat) (e : Event) : Event :=
  match tfind e.st.jobs j with
  | none => e
  | some x =>
    if x.target.isNone then endJob j .done e
    else if x.suspendReq then e.updJob j fun y => { y with suspendReq := false, state := .suspended }
    else if e.st.yielding then e.updJob j fun y => { y with state := .yielded }
    else wakeJobs e

/-- A visit that writes no chunk ends: one reserved chunk is released, the outcome is counted and the position
advances (R107). -/
def closeVisit (j : Nat) (x : Job) (count : Job → Job) (e : Event) : Event :=
  let e := releaseChunks x.owner 1 e
  let e := e.updJob j fun y => (count { y with waiting := false, remaining := y.remaining - 1 }).advance
  afterVisit j (leaveBusy (.restore j) x.dstVol e)

/-- The displaced chunk of a visit: its charge falls and it is filed with filing generation `g` (R107, R109). -/
def displace (v lcn g : Nat) (old : MapEntry) (e : Event) : Event :=
  match old.form with
  | .mapped pcn born owner => fileDisplaced v lcn pcn born g (uncharge owner e)
  | .unmapped _ => e

/-- A CLEARED visit unmaps its chunk as a DISCARD unmaps an S chunk (R107). -/
def clearChunk (v lcn : Nat) (e : Event) : Event :=
  let x := e.st.vol v
  logLcn v lcn (displace v lcn x.sharingGen (x.entry lcn) (unmapEntry v lcn e))

/-- The SHELF READ or SHELF WRITE of a copy (R108, R109). -/
def copyCmd (j k : Nat) (kind : ShelfKind) (pcn : Nat) (data : List Block) : ShelfCmd :=
  { kind := kind, cls := .restore, pcn := pcn, first := 0, count := 2 ^ k, data := data,
    owner := .restore j }

/-- A COPIED visit: the pool check, then the claim, the transfer and the read (R108). -/
def acceptCopy (j : Nat) (x : Job) (dst srcPcn : Nat) (e : Event) : Event :=
  if ¬ restorePoolCheck e.st x.override then
    leaveBusy (.restore j) x.dstVol (e.updJob j fun y =>
      { y with waiting := false, state := .pausedPool })
  else
    let g := (e.st.vol x.dstVol).sharingGen
    let c := claimPcns 1 e
    let e := transferChunk x.owner c.2
    let e := e.updJob j fun y =>
      { y with waiting := false, remaining := y.remaining - 1,
               copy := some { lcn := dst, srcPcn := srcPcn, pcn := c.1.headD 0, gen := g, stage := .reading } }
    handOver (copyCmd j e.st.format.k .read srcPcn []) e

/-- The copy may proceed: the visit is decided (R106). -/
def decideVisit (j : Nat) (e : Event) : Event :=
  match tfind e.st.jobs j with
  | none => e
  | some x =>
    match x.target with
    | none => e
    | some (dst, src) =>
      let live := (e.st.vol x.dstVol).entry dst
      let view := viewLookup (e.st.vol x.srcVol) x.srcGen src
      match visitOutcome live view ((x.pre.map (·.2)).getD 0) with
      | .skipped => closeVisit j x (fun y => { y with skipped := y.skipped + 1 }) e
      | .unchanged => closeVisit j x (fun y => { y with unchanged := y.unchanged + 1 }) e
      | .cleared =>
        closeVisit j x (fun y => { y with cleared := y.cleared + 1 }) (clearChunk x.dstVol dst e)
      | .copied pcn => acceptCopy j x dst pcn e

/-- The write of a copy has ended DONE: the copy commits (R109). -/
def commitCopy (j : Nat) (x : Job) (c : Copy) (e : Event) : Event :=
  let old := (e.st.vol x.dstVol).entry c.lcn
  let e := displace x.dstVol c.lcn c.gen old (mapEntry x.dstVol c.lcn c.pcn x.owner e)
  let e := logLcn x.dstVol c.lcn (commitClaims 1 e)
  let e := e.updJob j fun y => ({ y with copied := y.copied + 1, copy := none }).advance
  afterVisit j (leaveBusy (.restore j) x.dstVol e)

/-- A shelf command of a job's copy has ended (R109, R117). -/
def restoreCmdEnd (j : Nat) (cmd : ShelfCmd) (data : Option (List Block)) (e : Event) : Event :=
  match data with
  | none => failJob j cmd.pcn e
  | some d =>
    match tfind e.st.jobs j with
    | none => e
    | some x =>
      match x.copy with
      | none => e
      | some c =>
        match c.stage with
        | .reading =>
          handOver (copyCmd j e.st.format.k .write c.pcn d)
            (e.updJob j fun y => { y with copy := some { c with stage := .writing } })
        | .writing => commitCopy j x c e

/-- The write of an abandoned copy has ended, DONE or ERROR: its PCN is returned (R116). -/
def completeReturn (pcn : Nat) (e : Event) : Event :=
  returnClaims [pcn] (e.upd fun s => { s with returns := s.returns.erase pcn })

/-! ### Pauses (R111 to R114) -/

/-- Changes the state of every job that `p` accepts. -/
def moveJobs (p : Job → Bool) (to_ : JobState) (e : Event) : Event :=
  e.upd fun s =>
    { s with jobs := s.jobs.map fun x => if p x.2 then (x.1, { x.2 with state := to_ }) else x }

/-- The yield flag has been set: RUNNING jobs with no copy in flight yield, their waiting copies withdrawn
(R111). -/
def yieldJobs (e : Event) : Event :=
  let stops := (e.st.jobs.filter fun x => x.2.state == .running && x.2.copy.isNone).map (·.1)
  stops.foldl (fun e j => (withdrawVisit j e).updJob j fun y => { y with state := .yielded }) e

/-- The occupancy or the watermarks have changed: the yield test and its effects (R111). -/
def testYield (e : Event) : Event :=
  let f := yieldAfter e.st
  if f = e.st.yielding then e
  else
    let e := e.upd fun s => { s with yielding := f }
    if f then yieldJobs e else wakeJobs (moveJobs (fun x => x.state == .yielded) .running e)

/-- F is the floor plus 64 or more: the PAUSED-POOL jobs run again (R114). -/
def resumePool (e : Event) : Event :=
  if e.st.format.floor + Config.poolResumeMargin ≤ e.st.freeCount then
    wakeJobs (moveJobs (fun x => x.state == .pausedPool) (runState e.st) e)
  else e

/-- The target volume has been thawed: its PAUSED-FROZEN jobs run again (R113). -/
def resumeFrozen (v : Nat) (e : Event) : Event :=
  wakeJobs (moveJobs (fun x => x.state == .pausedFrozen && x.dstVol == v) (runState e.st) e)

/-- RESTORE SUSPEND of a job that has not ended (R112). -/
def suspendJob (j : Nat) (x : Job) (e : Event) : Event :=
  match x.state with
  | .running =>
    if x.copy.isSome then e.updJob j fun y => { y with suspendReq := true }
    else (withdrawVisit j e).updJob j fun y => { y with state := .suspended }
  | .yielded => e.updJob j fun y => { y with state := .suspended }
  | .pausedFrozen => e.updJob j fun y => { y with state := .suspended }
  | .pausedPool => e.updJob j fun y => { y with state := .suspended }
  | _ => e

/-- RESTORE RESUME of a job that has not ended (R112). -/
def resumeJob (j : Nat) (x : Job) (e : Event) : Event :=
  match x.state with
  | .running => e.updJob j fun y => { y with suspendReq := false }
  | .suspended => wakeJobs (e.updJob j fun y => { y with state := runState e.st })
  | _ => e

/-! ### The answer to the PRE-RESTORE create (R104) -/

/-- The restore engine acts on the answer, and the start request is answered. -/
def answerRestore (j : Nat) (a : CreateAnswer) (e : Event) : Event :=
  match tfind e.st.jobs j with
  | none => e
  | some x =>
    match a with
    | .made slot gen =>
      let e := pinSnap x.dstVol slot true e
      let e := e.updJob j fun y => { y with pre := some (slot, gen), state := runState e.st }
      reply .ok [j, gen, slot] (wakeJobs e)
    | .refused code =>
      let e := releaseChunks x.owner x.remaining e
      let e := pinSnap x.srcVol x.srcSlot false e
      reply code [] (e.upd fun s => { s with jobs := tdel j s.jobs })

end Sys2Proof.Machine
end

