-- ==== Sys2Proof/Machine/Drain.lean ====
section
/-! DEFINITION. The drain service (R25 to R29) and all that waits on a drain: creates (R78), freezes and
thaws (R12, R13), the SNAP, FREEZE and THAW actions (R173, R174), and the early end of a run (R138). -/

namespace Sys2Proof.Machine

/-! ### Answers -/

/-- A create is answered to whoever asked for it (R77, R104, R127, R173). -/
def answerCreate (v : Nat) (c : CreateReq) (a : CreateAnswer) (e : Event) : Event :=
  match c.asker with
  | .control =>
    match a with
    | .made slot gen => reply .ok [slot, gen] e
    | .refused code => reply code [] e
  | .schedule index keep =>
    match a with
    | .made slot gen => rotate v (c.series.getD 0) keep slot (e.note .snapshotTaken v slot gen)
    | .refused code => e.note .snapshotSkipped v code.value index
  | .restore job => answerRestore job a e
  | .run => answerRun v a e

/-- The create event and its answer (R79, R80). -/
def makeSnapshot (v : Nat) (c : CreateReq) (e : Event) : Event :=
  let r := createEvent v c e
  answerCreate v c r.1 r.2

/-- The follow-up record of a freeze is removed; a freeze with which none was made takes none (R174). -/
def takeFollowUp (record : Option Nat) (e : Event) : Option FollowUp × Event :=
  match record with
  | none => (none, e)
  | some n =>
    let p := fun f : FollowUp => f.number == n
    (e.st.sched.followUps.find? p, e.updSched fun d => { d with followUps := d.followUps.eraseP p })

/-- The SCHEDULED create of a SNAP action or of a follow-up record. -/
def scheduledCreate (series keep label index : Nat) : CreateReq :=
  { kind := .scheduled, series := some series, label := label, asker := .schedule index keep }

/-- A freeze is answered (R12, R174). After OK the volume is FROZEN, so a follow-up snapshot is decided at once:
its checks from step 4 of R77 are those of its create event. -/
def answerFreeze (v : Nat) (code : Code) (a : FreezeAsker) (e : Event) : Event :=
  match a with
  | .control => reply code [] e
  | .schedule index record =>
    let r := takeFollowUp record e
    if code = .ok then
      match r.1 with
      | some f => makeSnapshot v (scheduledCreate f.series f.keep f.label index) r.2
      | none => r.2
    else r.2.note .freezeSkipped v code.value index

/-! ### The end of a drain (R27 to R29) -/

/-- How a drain ends: its set became empty, its timer expired, or it was withdrawn. -/
inductive DrainEnd where
  | taken | timeout | withdrawn
  deriving DecidableEq, Repr

/-- The action or the answers of a drain that ends. A withdrawn freeze is one a THAW withdrew (R13); a withdrawn
create is the offsite engine's own, which wants no answer (R138). The freezes that joined one freeze drain are answered in the
order in which they joined, with their notices and their follow-up snapshots, where R12, R13 and R174 give no order
(log entry 57). -/
def drainAction (v : Nat) (d : Drain) (how : DrainEnd) (e : Event) : Event :=
  match d.work, how with
  | .holding c, .taken => makeSnapshot v c e
  | .holding c, .timeout => answerCreate v c (.refused .timeout) e
  | .holding _, .withdrawn => e
  | .refusing fs, how =>
    let code := match how with
      | .taken => Code.ok
      | .timeout => Code.timeout
      | .withdrawn => Code.active
    let e := e.updVol v fun x => { x with state := if how = .taken then .frozen else .normal }
    fs.foldl (fun e a => answerFreeze v code a e) e

/-- A held request enters the busy set at the end of the arrival order (R27). -/
def releaseHeld (arrival : Nat) (e : Event) : Event :=
  match e.st.entryOf arrival with
  | none => e
  | some x =>
    let y := { x with arrival := e.st.nextArrival, state := .waiting }
    let e := e.upd fun s =>
      { s with inflight := s.inflight.map (fun z => if z.arrival = arrival then y else z),
               nextArrival := s.nextArrival + 1 }
    enterBusy (busyItemOf e.st.format.k y) e

/-- A running drain ends: its action or answer, the release of the hold list, and the next waiting drain of the
volume, in one event. -/
def finishDrain (v : Nat) (how : DrainEnd) (e : Event) : Event :=
  match (e.st.vol v).drain with
  | none => e
  | some d =>
    let e := drainAction v d how e
    let held := (e.st.vol v).holdList
    let e := e.updVol v fun x => { x with drain := none, holdList := [] }
    let e := held.foldl (fun e a => releaseHeld a e) e
    { e with todo := { e.todo with jobs := true, drainBegin := insertAsc v e.todo.drainBegin } }

/-! ### The beginning of a drain (R25, R26) -/

/-- The drain set of a volume: its WRITE and DISCARD entries WAITING or ACTIVE, then its restore copies in the
busy set. -/
def drainSet (s : State) (v : Nat) : List BusyOwner :=
  ((s.inflight.filter fun x =>
      x.req.vol == v && x.req.kind != .read && x.state != .held).map fun x => .front x.arrival)
    ++ ((s.busy.filter fun i =>
      i.vol == v && match i.owner with | .restore _ => true | .front _ => false).map BusyItem.owner)

/-- A drain begins. A refusing drain that finds the volume FROZEN already ends at once (R12). -/
def beginDrain (v : Nat) (w : DrainWork) (e : Event) : Event :=
  let start (e : Event) : Event :=
    let d : Drain :=
      { work := w, members := drainSet e.st v, timeout := e.st.ctl.config.drainTimeout }
    let e := e.updVol v fun x => { x with drain := some d }
    if d.members = [] then finishDrain v .taken e else e
  match w with
  | .holding _ => start e
  | .refusing fs =>
    if (e.st.vol v).state = .frozen then
      let e := fs.foldl (fun e a => answerFreeze v .ok a e) e
      { e with todo := { e.todo with drainBegin := insertAsc v e.todo.drainBegin } }
    else start (e.updVol v fun x => { x with state := .freezing })

/-- A drain is asked for: it begins, or waits behind those asked for before it (R25). -/
def askDrain (v : Nat) (w : DrainWork) (e : Event) : Event :=
  let x := e.st.vol v
  if x.drain = none ∧ x.waiting = [] then beginDrain v w e
  else e.updVol v fun x => { x with waiting := x.waiting ++ [w] }

/-- The next waiting drain of a volume begins. -/
def beginNext (v : Nat) (e : Event) : Event :=
  match (e.st.vol v).waiting with
  | [] => e
  | w :: t => beginDrain v w (e.updVol v fun x => { x with waiting := t })

/-! ### Creates, freezes and thaws -/

/-- A create that has passed its checks (R78). -/
def askCreate (v : Nat) (c : CreateReq) (e : Event) : Event :=
  if (e.st.vol v).state = .frozen then makeSnapshot v c e else askDrain v (.holding c) e

/-- A freeze is taken according to the volume state (R12). -/
def askFreeze (v : Nat) (a : FreezeAsker) (e : Event) : Event :=
  match (e.st.vol v).state with
  | .absent => answerFreeze v .badVol a e
  | .deleting => answerFreeze v .badVol a e
  | .frozen => answerFreeze v .ok a e
  | .freezing =>
    e.updVol v fun x =>
      { x with drain := x.drain.map fun d =>
          { d with work := match d.work with
              | .refusing fs => .refusing (fs ++ [a])
              | .holding c => .holding c } }
  | .normal => askDrain v (.refusing [a]) e

/-- A thaw; the code is BADVOL or OK (R13). -/
def thawVolume (v : Nat) (e : Event) : Code × Event :=
  match (e.st.vol v).state with
  | .absent => (.badVol, e)
  | .deleting => (.badVol, e)
  | .normal => (.ok, e)
  | .frozen => (.ok, resumeFrozen v (e.updVol v fun x => { x with state := .normal }))
  | .freezing => (.ok, finishDrain v .withdrawn e)

/-- The create of a SNAP action: the checks of R77 from step 4 on, then R78 (R173). -/
def snapAction (v : Nat) (c : CreateReq) (e : Event) : Event :=
  let x := e.st.vol v
  if ¬ x.usable then answerCreate v c (.refused .badVol) e
  else match createCheck c.kind x with
    | some code => answerCreate v c (.refused code) e
    | none => askCreate v c e

/-! ### The offsite engine's freeze and the early end of a run (R127, R138) -/

/-- A run's own create. -/
def DrainWork.isRun : DrainWork → Bool
  | .holding c => c.asker == .run
  | .refusing _ => false

/-- In phase FREEZE with slot 0 empty the engine asks for its RUN create (R127). -/
def askRunCreate (v : Nat) (e : Event) : Event :=
  askCreate v { kind := .run, series := none, label := e.st.run.runId, asker := .run }
    (e.updRun fun r => { r with asked := true })

/-- The current volume when its RUN create is to be asked for: in phase FREEZE, not yet asked, slot 0 empty (R127). -/
def State.freezeDue (s : State) : Option Nat :=
  s.currentVol.filter fun v =>
    s.run.state != .idle && s.run.phase == .freeze && !s.run.asked && (tfind (s.vol v).snaps 0).isNone

/-- The RUN create of the current volume is asked for, and of each next one while the answer GENLIMIT skips volumes
(R127); the number bounds them. -/
def beginFreezes : Nat → Event → Event
  | 0, e => e
  | n + 1, e =>
    match e.st.freezeDue with
    | none => e
    | some v => beginFreezes n (askRunCreate v e)

/-- The offsite engine's turn: a RUN create to ask for, or the next frame of a send to prepare. In RECOVERING the run
record waits for step 3 and the engine does nothing with it (R139, R178). -/
def engineTurn (e : Event) : Event :=
  if e.st.ctl.part = .recovering then e
  else match e.st.currentVol with
    | none => e
    | some v =>
      if e.st.freezeDue.isSome then askRunCreate v e
      else if e.st.run.sending then sendNext v e
      else e

/-- The RUN create's drain is withdrawn, running or waiting (R29, R138). -/
def withdrawRunDrain (v : Nat) (e : Event) : Event :=
  match (e.st.vol v).drain with
  | some d =>
    if d.work.isRun then finishDrain v .withdrawn e
    else e.updVol v fun x => { x with waiting := x.waiting.filter fun w => !w.isRun }
  | none => e.updVol v fun x => { x with waiting := x.waiting.filter fun w => !w.isRun }

/-- The run list is merged into the active list and the RUN snapshot is queued for deletion (R138). -/
def mergeBack (v : Nat) (e : Event) : Event :=
  let e := logLcns v (e.st.vol v).runList e
  queueDeletion v 0 (e.updVol v fun x => { x with runList := [], runIncomplete := false })

/-- A run ends early (R138). Both suspension marks are cleared, of which R138 says nothing: DESIGN CHOICE, log entry 61. -/
def endRun (result : RunResult) (e : Event) : Event :=
  let e := match e.st.currentVol with
    | none => e
    | some v => if e.st.run.phase = .freeze then withdrawRunDrain v e else mergeBack v e
  let e := emptyPort (reownSlots ofSend .dropped (withdrawCmds ofSend e))
  let e := e.updRun fun r =>
    { r with state := .idle, result := result, asked := false, linkMark := false, shelfMark := false,
             frames := [], reading := none, scanRead := false }
  e.note .runEnded e.st.run.runId result.value e.st.run.sealedVols

/-- The read of a send has ended: a STOPPING run ends STOPPED (R134), else R130 or R137. -/
def sendCmdEnd (cmd : ShelfCmd) (data : Option (List Block)) (linkReset : Bool) (e : Event) : Event :=
  if e.st.run.state = .stopping then endRun .stopped e
  else match data with
    | some d => sendReadDone d e
    | none => sendReadError cmd linkReset e

end Sys2Proof.Machine
end

