-- ==== Sys2Proof/Machine/Recovery.lean ====
section
/-! DEFINITION. Power-on, RESET and the recovery steps (R178, R181 and the reset rule of every block). -/

namespace Sys2Proof.Machine

/-! ### The values a reset gives (R6, R40, R74, R98, R123, R155, R167, R168) -/

/-- A volume record after a reset: no drain, FREEZING undone, no pin. -/
def resetVolume (x : Volume) : Volume :=
  { x with state := if x.state = .freezing then .normal else x.state,
           snaps := x.snaps.map fun p => (p.1, { p.2 with inUse := 0 }),
           drain := none, waiting := [], holdList := [] }

def resetAccount (a : Account) : Account := { a with reserved := 0, queued := false }

/-- A job record after a reset, its end left to recovery (R118). The stage of a kept copy: DESIGN CHOICE, log entry 59. -/
def resetJob (j : Job) : Job :=
  { j with suspendReq := false, waiting := false,
           copy := j.copy.map fun c => { c with stage := .reading } }

/-- The run record after a reset, its end left to recovery (R139). -/
def resetRun (r : Run) : Run :=
  { r with asked := false, linkMark := false, shelfMark := false, frames := [], reading := none,
           scanRead := false }

/-- FORMATTING is lost (R2). -/
def resetFormat (f : Format) : Format := if f.cond = .formatting then Format.none else f

/-- The schedule unit: power-on loses the clock, RESET keeps it (R168, R175, R174, R177). -/
def resetSched (powerOn : Bool) (d : Schedule) : Schedule :=
  { d with clockSet := d.clockSet && !powerOn, clock := if powerOn then 0 else d.clock,
           swap := false, rate := .night, followUps := [] }

/-- The control unit: RECOVERING from step 1, its queues empty, its cursors at their starting values. -/
def resetControl (d : Schedule) (c : Control) : Control :=
  { c with part := .recovering, recStep := 1, recMirror := 0, recJobs := 0, executing := none,
           queue := [], notices := [], lost := false, acctCursor := 65535,
           schedBankB := !d.activeB, schedIndex := 47 }

/-- Every block takes its reset values; what the part has put on its links and the waiting commands of the
model stand. -/
def resetState (powerOn : Bool) (s : State) : State :=
  { s with
    format := resetFormat s.format,
    free := if s.format.cond = .formatting then [] else s.free,
    poolLow := false,
    vols := tmap Volume.absent resetVolume s.vols,
    inflight := [], busy := [],
    accounts := tmap Account.fresh resetAccount s.accounts,
    expiryQueue := [], firing := false,
    jobs := s.jobs.map fun x => (x.1, resetJob x.2),
    yielding := false,
    run := resetRun s.run,
    port := Port.atReset s.port.pace,
    shelf := Shelf.atReset (stepWrap 65535 s.shelf.epoch),
    sched := resetSched powerOn s.sched,
    ctl := resetControl s.sched s.ctl }

/-! ### The steps (R178) -/

/-- The accounts to queue again: those other than tag 0 with an expiry, in queue order, 4,096 at most (R75). -/
def rebuiltQueue (t : Table Account) : List (Nat × Nat) :=
  let withExpiry := t.filterMap fun p =>
    match p.2.expiry with
    | some x => if p.1 = 0 then none else some (x, p.1)
    | none => none
  (withExpiry.foldl (fun q p => insertExpiry p.1 p.2 q) []).take Config.expiryQueueSize

/-- The lowest slot whose job has not ended. -/
def openJob (s : State) : Option (Nat × Job) := s.jobs.find? fun x => !x.2.state.ended

/-- A recovery step that finds nothing to do. -/
def stepDone (s : State) : Bool :=
  match s.ctl.recStep with
  | 1 => s.mirror.isEmpty
  | 2 => s.returns.isEmpty && (openJob s).isNone
  | 3 => s.run.state == .idle
  | _ => (rebuiltQueue s.accounts).isEmpty

/-- Recovery ends: the watermark state is set from F, the part is in STANDBY and RECOVERED is queued (R5,
R178). -/
def endRecovery (e : Event) : Event :=
  let s := e.st
  let low := s.format.cond == .valid && decide (s.freeCount < s.format.low)
  let e := if low then e.note .poolLow 0 s.freeCount s.format.low else e
  let e := e.upd fun s =>
    { s with poolLow := low, ctl := { s.ctl with part := .standby, recStep := 0 } }
  e.note .recovered 0 s.ctl.recMirror s.ctl.recJobs

/-- Passes the steps that have nothing to do; the number bounds them. The accounts of this event are evaluated
first, since they may leave an expiry for step 4. -/
def advanceRecovery : Nat → Event → Event
  | 0, e => e
  | n + 1, e =>
    let e := e.settleAccounts
    if ¬ stepDone e.st then e
    else if 4 ≤ e.st.ctl.recStep then endRecovery e
    else advanceRecovery n (e.updCtl fun c => { c with recStep := c.recStep + 1 })

/-- After a piece of recovery work. -/
def goOnRecovering (e : Event) : Event := advanceRecovery 4 e

/-- The whole part is reset; the work and the notices of the event up to here are gone with it. -/
def resetPart (powerOn : Bool) (e : Event) : Event :=
  goOnRecovering { st := resetState powerOn e.st }

/-- The part is in a recovery step. -/
def inStep (n : Nat) (s : State) : Bool := s.ctl.part == .recovering && s.ctl.recStep == n

/-- Step 1: one record of the in-flight mirror (R40). -/
def recoverMirror (e : Event) : Event :=
  match e.st.mirror with
  | [] => e
  | r :: rest =>
    if ¬ inStep 1 e.st then e
    else
      let e := returnClaims r.claims e
      let e := applyCharges (-1) r.charges e
      let e := logLcns r.vol r.inPlace e
      let e := e.upd fun s =>
        { s with mirror := rest, ctl := { s.ctl with recMirror := s.ctl.recMirror + 1 } }
      goOnRecovering e

/-- Step 2: one entry of the pending-return list (R118). -/
def recoverReturn (e : Event) : Event :=
  match e.st.returns with
  | [] => e
  | p :: rest =>
    if ¬ inStep 2 e.st then e
    else goOnRecovering (returnClaims [p] (e.upd fun s => { s with returns := rest }))

/-- Step 2: one restore job that had not ended (R118). -/
def recoverJob (e : Event) : Event :=
  if ¬ inStep 2 e.st ∨ e.st.returns ≠ [] then e
  else match openJob e.st with
    | none => e
    | some (j, x) =>
      let e := match x.copy with
        | some c => uncharge x.owner (returnClaims [c.pcn] e)
        | none => e
      let y := { x with state := .failedInterrupted, remaining := 0, copy := none }
      let e := (e.updJob j fun _ => y).note .restoreEnded j y.stateValue y.visits
      goOnRecovering (e.updCtl fun c => { c with recJobs := c.recJobs + 1 })

/-- A run ends early, in any part state (R138). In recovery step 3 the end of the run is all that the step had to do,
whatever ended it, so recovery goes on (log entry 46). -/
def endRunNow (result : RunResult) (e : Event) : Event :=
  let e := endRun result e
  if inStep 3 e.st then goOnRecovering e else e

/-- Step 3: the run that was not IDLE (R139). -/
def recoverRun (e : Event) : Event :=
  if inStep 3 e.st ∧ e.st.run.state ≠ .idle then endRunNow .interrupted e else e

/-- The deadline test of an advance or of TIME SET (R135), in every part state: a run that ends by it in recovery step 3
has the result DEADLINE and completes the step (log entry 46). -/
def testDeadline (e : Event) : Event :=
  if e.st.run.state ≠ .idle ∧ e.st.run.deadline ≤ e.st.sched.clock then endRunNow .deadline e else e

/-- Step 4: the grace expiry queue (R75), and the end of recovery. -/
def rebuildExpiry (e : Event) : Event :=
  if ¬ inStep 4 e.st then e
  else
    let q := rebuiltQueue e.st.accounts
    let e := e.upd fun s => { s with expiryQueue := q }
    endRecovery (q.foldl (fun e p => e.updAcct p.2 fun a => { a with queued := true }) e)

end Sys2Proof.Machine
end

