-- ==== Sys2Proof/Machine/ScheduleUnit.lean ====
section
/-! DEFINITION. The schedule unit (Chapter 10): the clock, the firing of entries and the two banks. -/

namespace Sys2Proof.Machine

/-- An unused entry: its other fields stored as 0 (R171). -/
def unusedEntry : SchedEntry :=
  { used := false, action := 0, minute := 0, weekdays := 0, volume := 0, snapOpt := 0, param := 0,
    keep := 0, deadline := 0, label := 0 }

/-- A bank of the schedule unit. -/
def Schedule.bank (d : Schedule) (b : Bool) : Table SchedEntry := if b then d.bankB else d.bankA

/-- The entry of a bank and an index. -/
def Schedule.entry (d : Schedule) (b : Bool) (i : Nat) : SchedEntry := tget unusedEntry (d.bank b) i

/-- What is stored of an entry (R171): nothing of an unused one, and no series, keep count or label of a
FREEZE without the snap option. -/
def storedEntry (x : SchedEntry) : SchedEntry :=
  if ¬ x.used then unusedEntry
  else if x.action = 2 ∧ x.snapOpt = 0 then { x with param := 0, keep := 0, label := 0 }
  else x

/-- Stores an entry. -/
def Schedule.store (d : Schedule) (b : Bool) (i : Nat) (x : SchedEntry) : Schedule :=
  if b then { d with bankB := tset unusedEntry i (storedEntry x) d.bankB }
  else { d with bankA := tset unusedEntry i (storedEntry x) d.bankA }

/-- Every field the action of a used entry uses lies in its range (R171, check 4 of R176). -/
def entryRange (x : SchedEntry) : Bool :=
  let series := decide (x.param ≤ 7) && decide (1 ≤ x.keep) && decide (x.keep ≤ 15)
  decide (x.minute < 1440) && decide (x.weekdays < 128) &&
    match x.action with
    | 1 => decide (x.volume < 64) && series
    | 2 => decide (x.volume < 64) && decide (x.snapOpt ≤ 1) && (x.snapOpt == 0 || series)
    | 3 => decide (x.volume < 64)
    | 4 => decide (x.param ≤ 1) && decide (x.deadline < 1440)
    | _ => decide (x.param ≤ 1)

/-- Checks 2 to 4 of R176 for a write to a bank. -/
def entryCheck (d : Schedule) (b : Bool) (x : SchedEntry) : Option Code :=
  if b = d.activeB then some .active
  else if x.used ∧ ¬ (1 ≤ x.action ∧ x.action ≤ 5) then some .malformed
  else if x.used ∧ ¬ entryRange x then some .range
  else none

/-- The three conditions of R172. -/
def entryDue (now : Nat) (x : SchedEntry) : Bool :=
  x.used && x.minute == minuteOf now && x.weekdays.testBit (weekdayOf now)

def modeOf (n : Nat) : RunMode := if n = 0 then .nightly else .continuous

def rateOf (n : Nat) : RateClass := if n = 0 then .night else .day

/-- The lowest number that no follow-up record holds. -/
def Schedule.freeRecord (d : Schedule) : Nat :=
  ((List.range Config.followUps).find? fun n => !d.followUps.any fun f => f.number == n).getD 0

/-- A fired FREEZE: the follow-up record, or SNAPSHOT SKIPPED with BUSY when the list is full, then the freeze, which
carries the number of the record made with it (R174). With the list full and the volume ABSENT or DELETING both notices fall
in one event, and R174 does not order them: the model queues SNAPSHOT SKIPPED before FREEZE SKIPPED (DESIGN CHOICE, log
entry 66). -/
def fireFreeze (i : Nat) (x : SchedEntry) (e : Event) : Event :=
  if x.snapOpt = 0 then askFreeze x.volume (.schedule i none) e
  else if e.st.sched.followUps.length < Config.followUps then
    let n := e.st.sched.freeRecord
    askFreeze x.volume (.schedule i (some n)) (e.updSched fun d =>
      { d with followUps := d.followUps ++
          [{ number := n, vol := x.volume, index := i, series := x.param, keep := x.keep, label := x.label }] })
  else
    askFreeze x.volume (.schedule i none) (e.note .snapshotSkipped x.volume Code.busy.value i)

/-- A fired THAW (R174). -/
def fireThaw (i : Nat) (x : SchedEntry) (e : Event) : Event :=
  let r := thawVolume x.volume e
  if r.1 = .ok then r.2 else r.2.note .thawSkipped x.volume r.1.value i

/-- A fired RUN (R175). The freeze of the first volume begins with the start (R126), so its RUN create is asked for
before the later entries of the boundary fire (R172). -/
def fireRun (i : Nat) (x : SchedEntry) (e : Event) : Event :=
  match startCheck e.st with
  | some (reason, v) => e.note .runSkipped i reason v
  | none =>
    let e := startRun (modeOf x.param) x.deadline e
    beginFreezes e.st.plan.length e

/-- A due entry fires (R172). -/
def fireEntry (i : Nat) (x : SchedEntry) (e : Event) : Event :=
  match x.action with
  | 1 => snapAction x.volume (scheduledCreate x.param x.keep x.label i) e
  | 2 => fireFreeze i x e
  | 3 => fireThaw i x e
  | 4 => fireRun i x e
  | 5 => e.updSched fun d => { d with rate := rateOf x.param }
  | _ => e

/-- A pending swap is applied at a midnight boundary (R177). -/
def midnightSwap (e : Event) : Event :=
  if ¬ e.st.sched.swap then e
  else
    let b := !e.st.sched.activeB
    (e.updSched fun d => { d with activeB := b, swap := false }).note .scheduleSwapped (flag b)
      (dayOf e.st.sched.clock) 0

/-- A minute boundary: the swap at midnight in STANDBY and RUNNING, then the due entries of the active bank in
index order while the part is RUNNING (R172, R177). What an entry frees, such as the visits that a THAW resumes (R113) or the
next waiting drain of its volume (R27), goes on after all of them: no rule orders it against the later entries of the
boundary. DESIGN CHOICE, log entry 60. -/
def minuteBoundary (e : Event) : Event :=
  let now := e.st.sched.clock
  let e := if now % Config.daySeconds = 0 ∧ e.st.ctl.part ≠ .recovering then midnightSwap e else e
  if e.st.ctl.part = .running then
    ((e.st.sched.bank e.st.sched.activeB).filter fun p => entryDue now p.2).foldl
      (fun e p => fireEntry p.1 p.2 e) e
  else e

/-- The quota unit begins a firing pass, unless the part is RECOVERING (R63). A pass with no due head ends with
the event. -/
def beginPass (e : Event) : Event :=
  if e.st.ctl.part = .recovering then e else e.upd fun s => { s with firing := true }

/-- One second of the SET clock (R168): the deadline test, the firing pass, then the minute boundary. -/
def advanceClock (e : Event) : Event :=
  if ¬ e.st.sched.clockSet ∨ max32 ≤ e.st.sched.clock then e
  else
    let e := e.updSched fun d => { d with clock := d.clock + 1 }
    let e := beginPass (testDeadline e)
    if e.st.sched.clock % 60 = 0 then minuteBoundary e else e

/-- The clock is set (R169): the firing pass and the deadline test, no minute boundary. -/
def setClock (t : Nat) (e : Event) : Event :=
  testDeadline (beginPass (e.updSched fun d => { d with clockSet := true, clock := t }))

/-- One step of a firing pass: the head entry is removed and its account evaluated, at the event's end (R63, R60). -/
def fireExpiry (e : Event) : Event :=
  match e.st.expiryQueue with
  | [] => e
  | (_, tag) :: rest =>
    if ¬ e.st.firing ∨ ¬ e.st.headDue then e
    else
      let e := e.upd fun s => { s with expiryQueue := rest }
      (e.updAcct tag fun a => { a with queued := false }).touchAcct tag

end Sys2Proof.Machine
end

