-- ==== Sys2Proof/Machine/CtlPart.lean ====
section
/-! DEFINITION. Control requests of the groups format and configuration, clock and state, and notices (R1, R2,
R169, R179, R181, R185, R186, R188, R190). Each is the request as it executes, its reply included. -/

namespace Sys2Proof.Machine

/-- A refusal: the code, no result. -/
def refuse (c : Code) (e : Event) : Event := reply c [] e

/-- Two of the most significant and the least significant 32 bits (12.3). -/
def twoFields (n : Nat) : List Nat := [n / 4294967296, n % 4294967296]

/-! ### FORMAT (R1, R2) -/

/-- The ranges of R1. -/
def formatRange (k p floor low clear : Nat) : Bool :=
  decide (k ≤ 6) && decide (1 ≤ p) && decide (p ≤ Config.maxPool) && decide (floor ≤ p)
    && decide (low < p) && decide (1 ≤ clear) && decide (clear ≤ p) && decide (low < clear)

def doFormat (k p floor low clear : Nat) (e : Event) : Event :=
  let s := e.st
  if s.vols ≠ [] ∨ s.format.cond = .formatting ∨ s.returns ≠ [] then refuse .active e
  else if ¬ formatRange k p floor low clear then refuse .range e
  else
    reply .ok [] (e.upd fun s =>
      { s with format :=
                 { cond := .formatting, k := k, pool := p, floor := floor, low := low, clear := clear },
               free := [], claims := 0, poolLow := false })

/-- One PCN of the fill; the last makes the record VALID (R2). -/
def fillStep (e : Event) : Event :=
  let f := e.st.format
  if f.cond ≠ .formatting then e
  else
    let n := e.st.freeCount
    let e := freePcns [n] e
    if n + 1 < f.pool then e
    else
      let e := e.upd fun s => { s with format := { f with cond := .valid }, poolLow := false }
      e.note .formatDone 0 f.pool f.k

/-! ### CONFIG SET and CONFIG READ (R185, R186) -/

/-- A present field lies in a range. -/
def inRange (o : Option Nat) (lo hi : Nat) : Bool := o.all fun n => decide (lo ≤ n) && decide (n ≤ hi)

/-- Every present field lies in its range (11.4; the thresholds by R1 against the current P). -/
def patchRange (pool : Nat) (p : ConfigPatch) : Bool :=
  inRange p.floor 0 pool && inRange p.low 0 (pool - 1) && inRange p.clear 1 pool
    && inRange p.grace 0 16777215 && inRange p.band 0 65535 && inRange p.drainTimeout 1 255
    && inRange p.shelfTimeout 1 255 && inRange p.yieldHigh 1 256 && inRange p.yieldLow 0 255
    && inRange p.partnerSite 0 max32 && inRange p.window 1 32 && inRange p.ackTimeout 1 255
    && inRange p.retryLimit 1 15 && inRange p.nightRate 64 4194304 && inRange p.dayRate 64 4194304
    && inRange p.rateClass 0 1

/-- A threshold is present. -/
def patchMarks (p : ConfigPatch) : Bool := p.floor.isSome || p.low.isSome || p.clear.isSome

/-- The four checks of R185, after MALFORMED for no field at all. Check 4 of the thresholds is made only if one of them is
present: kept thresholds alone cannot break R1 on a VALID record, and those of a record that is NONE, which are 0, are not
tested (DESIGN CHOICE, log entry 63). -/
def configCheck (s : State) (p : ConfigPatch) : Option Code :=
  let f := s.format
  let low := p.low.getD f.low
  let clear := p.clear.getD f.clear
  if (patchFields p).all Option.isNone then some .malformed
  else if patchMarks p ∧ f.cond ≠ .valid then some .notSet
  else if (p.partnerSite.isSome ∨ p.window.isSome ∨ p.ackTimeout.isSome) ∧ s.run.state ≠ .idle then
    some .active
  else if ¬ patchRange f.pool p then some .range
  else if patchMarks p ∧ ¬ (p.floor.getD f.floor ≤ f.pool ∧ low < clear ∧ clear ≤ f.pool) then some .range
  else if p.yieldHigh.getD s.ctl.config.yieldHigh ≤ p.yieldLow.getD s.ctl.config.yieldLow then
    some .range
  else none

/-- The configuration record with the present fields replaced. -/
def patchConfig (p : ConfigPatch) (c : Config) : Config :=
  { grace := p.grace.getD c.grace, band := p.band.getD c.band,
    drainTimeout := p.drainTimeout.getD c.drainTimeout,
    shelfTimeout := p.shelfTimeout.getD c.shelfTimeout, yieldHigh := p.yieldHigh.getD c.yieldHigh,
    yieldLow := p.yieldLow.getD c.yieldLow, partnerSite := p.partnerSite.getD c.partnerSite,
    window := p.window.getD c.window, ackTimeout := p.ackTimeout.getD c.ackTimeout,
    retryLimit := p.retryLimit.getD c.retryLimit, nightRate := p.nightRate.getD c.nightRate,
    dayRate := p.dayRate.getD c.dayRate }

/-- The state with the present fields replaced. -/
def patchState (p : ConfigPatch) (s : State) : State :=
  { s with
    format := { s.format with
      floor := p.floor.getD s.format.floor, low := p.low.getD s.format.low,
      clear := p.clear.getD s.format.clear },
    sched := { s.sched with rate := (p.rateClass.map rateOf).getD s.sched.rate },
    ctl := { s.ctl with config := patchConfig p s.ctl.config } }

/-- The sixteen fields of the record as stored, in the order of 11.4, as the reply to CONFIG SET carries them (R185). In
FORMATTING the thresholds are those of the FORMAT (R1). -/
def storedFields (s : State) : List Nat :=
  let c := s.ctl.config
  [s.format.floor, s.format.low, s.format.clear, c.grace, c.band, c.drainTimeout,
   c.shelfTimeout, c.yieldHigh, c.yieldLow, c.partnerSite, c.window, c.ackTimeout, c.retryLimit,
   c.nightRate, c.dayRate, s.sched.rate.value]

/-- The sixteen fields as CONFIG READ reports them: the thresholds as 0 while the format record is not VALID (R186). -/
def configFields (s : State) : List Nat :=
  if s.format.cond = .valid then storedFields s else [0, 0, 0] ++ (storedFields s).drop 3

def doConfigSet (p : ConfigPatch) (e : Event) : Event :=
  match configCheck e.st p with
  | some c => refuse c e
  | none =>
    let e := e.upd (patchState p)
    let e := { e with poolTouched := e.poolTouched || patchMarks p,
                      todo := { e.todo with
                        occupancy := e.todo.occupancy || p.yieldHigh.isSome || p.yieldLow.isSome } }
    reply .ok (storedFields e.st) e

def doConfigRead (e : Event) : Event :=
  reply .ok (configFields e.st ++ [e.st.format.cond.value, e.st.format.k, e.st.format.pool]) e

/-! ### TIME SET, GO, RESET (R169, R179, R181) -/

def doTimeSet (t : Nat) (e : Event) : Event := reply .ok [t] (setClock t e)

/-- Walks of snapshots whose set is empty end in the event that makes the part RUNNING (R91). The order among several
volumes, and so of their DELETE DONE notices, which R91 leaves open, is ascending volume number (log entry 48). -/
def wakeWalks (e : Event) : Event :=
  e.st.volNumbers.foldl (fun e v =>
    if (e.st.vol v).usable then startHead v (Config.snapSlots + 1) e else e) e

/-- GO (R179). In RUNNING it is OK with no change, also while the record is FORMATTING: R2 has GO refused with NOTSET until
the fill completes and names no part state, R179 gives NOTSET in STANDBY alone. DESIGN CHOICE, log entry 50. -/
def doGo (e : Event) : Event :=
  if e.st.ctl.part = .running then reply .ok [] e
  else if e.st.format.cond ≠ .valid ∨ ¬ e.st.sched.clockSet then refuse .notSet e
  else reply .ok [] (wakeJobs (wakeWalks (e.updCtl fun c => { c with part := .running })))

/-- The reply OK is handed to the front port, and then the whole part is reset (R181). The frames of the event up to here
go out with the notices offered so far; the accounts of the event are evaluated before the reset (R60), the pool
and the reserves, whose tests the reset cuts off, are not (R99; log entry 58). -/
def doReset (e : Event) : Event :=
  match e.st.ctl.executing with
  | none => e
  | some x =>
    let e := emitControl x.number x.tag .ok [] e
    let a := e.all.evalAccounts e.st
    let r := completeReplies a.1.frontUp { accts := a.2 } a.1.ctl {} e.parts a.1.out
    { resetPart false (e.upd fun _ => { a.1 with out := [] }) with sent := r.2 }

/-! ### STATUS (R188) -/

/-- The number of entries in a state. -/
def countEntries (s : State) (x : EntryState) : Nat :=
  (s.inflight.filter fun y => y.state == x).length

/-- The values of STATUS in the order of its table. The PCNs placed during FORMATTING read 0 while the format record is
not FORMATTING (the model's choice, log entry 19). -/
def statusFields (s : State) : List Nat :=
  [s.ctl.part.value, s.ctl.recStep, s.ctl.queue.length, s.ctl.notices.length, flag s.ctl.lost,
   s.format.cond.value, if s.format.cond = .formatting then s.freeCount else 0, s.freeCount, s.claims,
   flag s.poolLow, s.present.length,
   s.occupancy, countEntries s .held, countEntries s .waiting, countEntries s .active, s.busy.length,
   (s.vols.filter fun p => p.2.drain.isSome).length,
   s.expiryQueue.length]
  ++ (List.range Config.jobs).map (fun j => ((tfind s.jobs j).map Job.stateValue).getD 0)
  ++ [flag s.yielding, s.run.state.value, s.run.result.value, s.run.runId, flag s.port.up]
  ++ optField s.port.site ++ [s.port.outstanding.length]
  ++ optField (s.port.outstanding.head?.map Frame.seq)
  ++ optField (s.port.outstanding.getLast?.map Frame.seq)
  ++ [s.port.highestAcked, s.port.ignored, s.port.resent, flag s.shelf.up, s.shelf.slots.length,
      s.shelf.fgQueue.length, s.shelf.restoreQueue.length, s.shelf.offsiteQueue.length, s.shelf.ignored,
      flag s.sched.clockSet, s.sched.clock, flag s.sched.activeB, flag s.sched.swap, s.sched.rate.value]

def doStatus (e : Event) : Event := reply .ok (statusFields e.evaluated) e

/-! ### NOTICE FETCH (R190) -/

/-- The reply takes its notices when the event's end completes it: those of the work before it, and none of the work of
requests that execute after it in the event (`completeReplies`, log entry 6). -/
def doNoticeFetch (e : Event) : Event := reply .ok [] e

end Sys2Proof.Machine
end

