-- ==== Sys2Proof/Machine/CtlVolumes.lean ====
section
/-! DEFINITION. Control requests on volumes, accounts and snapshots (Chapters 1, 4, 5; SET FULL SCAN of R122),
and the delete walk of R10. -/

namespace Sys2Proof.Machine

/-! ### Volumes -/

/-- The checks of R7. -/
def createVolCheck (s : State) (v size reserve cap : Nat) : Option Code :=
  if s.format.cond ≠ .valid then some .notSet
  else if ¬ v < Config.volumes then some .range
  else if (s.vol v).state ≠ .absent then some .active
  else if ¬ (1 ≤ size ∧ size ≤ Config.maxVolume) then some .range
  else if s.logicalLeft < size then some .range
  else if noLimit < reserve ∨ cap < 1024 ∨ 262144 < cap then some .range
  else none

/-- The record of a new volume (R7). -/
def newVolume (size reserve : Nat) (offsite : Bool) (cap : Nat) : Volume :=
  { Volume.absent with
    state := .normal, size := size, gen := 1, reserveLimit := reserve, offsite := offsite, cap := cap,
    fullScan := true }

def doVolumeCreate (v size reserve : Nat) (offsite : Bool) (cap : Nat) (e : Event) : Event :=
  match createVolCheck e.st v size reserve cap with
  | some c => refuse c e
  | none => reply .ok [] (e.upd fun s => s.setVol v (newVolume size reserve offsite cap))

/-- The checks of R9. -/
def deleteVolCheck (s : State) (v : Nat) : Option Code :=
  let x := s.vol v
  if ¬ v < Config.volumes then some .range
  else if ¬ x.usable then some .badVol
  else if x.state = .freezing ∨ x.state = .frozen then some .frozen
  else if (s.inflight.any fun y => y.req.vol == v) ∨ x.drain.isSome ∨ x.waiting ≠ [] then some .active
  else if x.snaps.any fun p => p.2.held then some .held
  else if (s.jobs.any fun p => p.2.names v) ∨ (s.run.state ≠ .idle ∧ v ∈ s.plan) then some .inUse
  else none

def doVolumeDelete (v : Nat) (e : Event) : Event :=
  match deleteVolCheck e.st v with
  | some c => refuse c e
  | none =>
    reply .ok [] (e.updVol v fun x =>
      { x with state := .deleting, deleteQueue := [], deletePos := 0, walkFreed := 0 })

/-- A PCN freed by the delete walk. -/
def walkFree (v pcn : Nat) (e : Event) : Event :=
  freePcns [pcn] (e.updVol v fun x => { x with walkFreed := x.walkFreed + 1 })

/-- The map part of the walk: one entry (R10). An unmapped entry keeps its stamp and takes G as cleared-in (R15, log
entry 17). -/
def walkEntry (v : Nat) (e : Event) : Event :=
  let x := e.st.vol v
  let next (e : Event) : Event := e.updVol v fun y => { y with deletePos := y.deletePos + 1 }
  match (x.entry x.deletePos).form with
  | .unmapped _ => next e
  | .mapped pcn _ owner =>
    uncharge owner (walkFree v pcn (next (e.updVol v fun y => y.setForm x.deletePos (.unmapped x.gen))))

/-- The snapshot part of the walk: one retained entry of the lowest occupied slot; an emptied set empties its slot.
With no slot occupied the volume becomes ABSENT (R10). -/
def walkSnaps (v : Nat) (e : Event) : Event :=
  let x := e.st.vol v
  match x.snaps with
  | [] =>
    (e.upd fun s => s.setVol v Volume.absent).note .volumeDeleted v x.walkFreed 0
  | (slot, s) :: _ =>
    match s.retained with
    | [] => e.updVol v fun y => { y with snaps := tdel slot y.snaps }
    | r :: rest =>
      walkFree v r.pcn (e.updVol v fun y =>
        if rest = [] then { y with snaps := tdel slot y.snaps }
        else y.setSnap slot { s with retained := rest })

/-- One step of the volume delete walk (R10). -/
def deleteWalkStep (v : Nat) (e : Event) : Event :=
  let x := e.st.vol v
  if e.st.ctl.part ≠ .running ∨ x.state ≠ .deleting then e
  else if x.deletePos < x.size then walkEntry v e
  else walkSnaps v e

/-- The values of VOLUME READ (R8). -/
def volumeFields (x : Volume) : List Nat :=
  [x.state.value, x.size, x.mappedCount, x.gen, x.snaps.length, x.reserveLimit, x.reserveUsage,
   flag x.offsite, x.cap, x.runCounter, flag x.fullScan, flag x.overflow, flag x.everSealed,
   x.activeList.length, x.runList.length, flag (x.drain.isSome || !x.waiting.isEmpty)]
  ++ optField (if x.state = .deleting then some x.deletePos else none)

def doVolumeRead (v : Nat) (e : Event) : Event :=
  if ¬ v < Config.volumes then refuse .range e
  else if (e.st.vol v).state = .absent then refuse .badVol e
  else reply .ok (volumeFields (e.st.vol v)) e

/-- A control FREEZE (R12). -/
def doFreeze (v : Nat) (e : Event) : Event :=
  if ¬ v < Config.volumes then refuse .range e else askFreeze v .control e

def doThaw (v : Nat) (e : Event) : Event :=
  if ¬ v < Config.volumes then refuse .range e
  else
    let r := thawVolume v e
    reply r.1 [] r.2

/-- The volume's send has been frozen and is the current one of a run (R122). -/
def sendFrozen (s : State) (v : Nat) : Bool :=
  s.run.state != .idle && s.currentVol == some v && s.run.phase != .freeze

def doSetFullScan (v : Nat) (e : Event) : Event :=
  if ¬ v < Config.volumes then refuse .range e
  else if ¬ (e.st.vol v).usable then refuse .badVol e
  else
    let frozen := sendFrozen e.st v
    reply .ok [] ((e.updVol v fun x => { x with fullScan := true }).updRun fun r =>
      { r with keep := r.keep || frozen })

/-! ### Accounts (R67, R72, R73) -/

/-- The account record as ACCOUNT READ returns it. -/
def acctFields (s : State) (tag : Nat) : List Nat := acctWords tag (s.acct tag) (s.derived tag)

def doAccountSet (tag soft hard : Nat) (e : Event) : Event :=
  if ¬ tag < 65536 then refuse .range e
  else if tag = 0 then refuse .active e
  else if noLimit < soft ∨ noLimit < hard then refuse .range e
  else
    let e := (e.updAcct tag fun a => { a with soft := min soft hard, hard := hard }).touchAcct tag
    let s := e.evaluated
    let a := s.acct tag
    reply .ok ([a.soft, a.hard] ++ optField a.expiry ++ [(s.derived tag).value]) e

/-- The account is evaluated and read, and the cursor is set to its tag. The reply shows the record as an evaluation at
this point of the event leaves it; the evaluation itself is made once, at the event's end (R60, R72, log entry 6), and one
that earlier work of the event calls for stays that work's. -/
def readAccount (tag : Nat) (e : Event) : Event :=
  let e := if e.all.accts.contains tag then e else e.touchAcct tag
  let e := e.updCtl fun c => { c with acctCursor := tag }
  reply .ok (acctFields e.evaluated tag) e

def doAccountRead (tag : Nat) (e : Event) : Event :=
  if tag < 65536 then readAccount tag e else refuse .range e

def doAccountReadNext (e : Event) : Event := readAccount (stepWrap 65535 e.st.ctl.acctCursor) e

/-! ### Snapshots (R77, R87, R93, R97) -/

/-- The kind a value names (12.6). -/
def kindOf (n : Nat) : Option SnapKind :=
  match n with
  | 1 => some .run
  | 2 => some .user
  | 3 => some .scheduled
  | 4 => some .preRestore
  | _ => none

/-- Checks 1 to 7 of R77, and the kind. A SCHEDULED create without a series is refused as one out of range. -/
def snapCreateCheck (s : State) (v kind : Nat) (series : Option Nat) : Except Code SnapKind :=
  let x := s.vol v
  if ¬ v < Config.volumes then .error .range
  else match kindOf kind with
    | none => .error .malformed
    | some .run => .error .active
    | some .preRestore => .error .active
    | some k =>
      if k = .scheduled ∧ ¬ series.any (fun q => decide (q ≤ 7)) then .error .range
      else if ¬ x.usable then .error .badVol
      else match createCheck k x with
        | some c => .error c
        | none => .ok k

/-- SNAPSHOT CREATE (R77). R77 names a series for the SCHEDULED kind alone and says nothing of a USER create whose frame
carries one: it is taken, and its series is dropped, whatever its value. DESIGN CHOICE, log entry 67. -/
def doSnapshotCreate (v kind label : Nat) (series : Option Nat) (e : Event) : Event :=
  match snapCreateCheck e.st v kind series with
  | .error c => refuse c e
  | .ok k =>
    askCreate v
      { kind := k, series := if k = .scheduled then series else none, label := label, asker := .control } e

/-- Steps 1 to 3 of R87: the snapshot, or the refusing code. -/
def findSnap (s : State) (v slot : Nat) : Except Code Snap :=
  if ¬ v < Config.volumes ∨ ¬ slot < Config.snapSlots then .error .range
  else if ¬ (s.vol v).usable then .error .badVol
  else match tfind (s.vol v).snaps slot with
    | some d => .ok d
    | none => .error .notFound

def doSnapshotDelete (v slot : Nat) (e : Event) : Event :=
  match findSnap e.st v slot with
  | .error c => refuse c e
  | .ok d =>
    if slot = 0 then refuse .active e
    else if d.state ≠ .ready then reply .ok [] e
    else if d.held then refuse .held e
    else if 0 < d.inUse then refuse .inUse e
    else reply .ok [] (queueDeletion v slot e)

/-- The hold flag of a snapshot is written (R93). -/
def setHeld (v slot : Nat) (d : Snap) (held : Bool) (e : Event) : Event :=
  e.updVol v fun x => x.setSnap slot { d with held := held }

def doSnapshotHold (v slot : Nat) (e : Event) : Event :=
  match findSnap e.st v slot with
  | .error c => refuse c e
  | .ok d =>
    if slot = 0 ∨ d.state ≠ .ready then refuse .active e else reply .ok [] (setHeld v slot d true e)

def doSnapshotRelease (v slot : Nat) (e : Event) : Event :=
  match findSnap e.st v slot with
  | .error c => refuse c e
  | .ok d => reply .ok [] (setHeld v slot d false e)

/-- One slot of SNAPSHOT LIST: state 0 and zeros for an empty slot (R97, 12.6). -/
def slotFields (x : Volume) (slot : Nat) : List Nat :=
  match tfind x.snaps slot with
  | none => [0, 0, 0, 0, 0, 0, 0, 0, 0, 0]
  | some d =>
    [d.kind.value] ++ optField d.series ++ [d.gen, d.label, d.created, flag d.held, d.state.value,
      d.retainedCount, d.inUse]

/-- The values of SNAPSHOT LIST. -/
def snapListFields (x : Volume) : List Nat :=
  [x.gen, x.reserveLimit, x.reserveUsage, flag x.reserveOver, x.sharingGen, x.deleteQueue.length]
  ++ x.deleteQueue ++ (List.range Config.snapSlots).flatMap (slotFields x)

/-- The reserve-over flag is read as the event's evaluation leaves it. -/
def doSnapshotList (v : Nat) (e : Event) : Event :=
  if ¬ v < Config.volumes then refuse .range e
  else if ¬ (e.st.vol v).usable then refuse .badVol e
  else reply .ok (snapListFields (e.evaluated.vol v)) e

end Sys2Proof.Machine
end

