-- ==== Sys2Proof/Machine/CtlWork.lean ====
section
/-! DEFINITION. Control requests on restore jobs, the run and the schedule (Chapters 6, 7 and 10). -/

namespace Sys2Proof.Machine

/-! ### Restore jobs (R102, R103, R112, R116, R119) -/

/-- T: the total of the range counts. -/
def totalCount (rs : List Range) : Nat := (rs.map Range.count).sum

/-- The lowest-numbered free job slot. -/
def freeJob (s : State) : Option Nat := (List.range Config.jobs).find? fun j => (tfind s.jobs j).isNone

/-- A target range of the start meets one of a job that has not ended on the same target volume. -/
def overlapsJob (dst : Nat) (rs : List Range) (x : Job) : Bool :=
  !x.state.ended && x.dstVol == dst && x.ranges.any fun q => rs.any fun r => rangesMeet q r

/-- The seven checks of R102, after MALFORMED. A source volume that is DELETING gives NOVIEW by check 2, where R9 says that
restore requests naming such a volume are refused with BADVOL: the model follows R102, and takes BADVOL of R9 for the target
only, behind the checks before it (DESIGN CHOICE, log entry 65). -/
def restoreCheck (s : State) (srcVol srcSlot dstVol owner : Nat) (override : Bool) (rs : List Range) :
    Option Code :=
  let src := s.vol srcVol
  let dst := s.vol dstVol
  if rs = [] ∨ 16 < rs.length ∨ (rs.any fun r => r.count == 0) then some .malformed
  else if (freeJob s).isNone then some .busy
  else if ¬ (srcVol < Config.volumes ∧ src.usable ∧ 1 ≤ srcSlot ∧ srcSlot < Config.snapSlots
      ∧ readySnap src srcSlot) then some .noView
  else if ¬ (dstVol < Config.volumes ∧ dst.usable) then some .badVol
  else if dst.state = .frozen then some .frozen
  else if ¬ owner < 65536 ∨ ¬ rs.all (fun r =>
      decide (r.src + r.count ≤ src.size) && decide (r.dst + r.count ≤ dst.size)) then some .range
  else if ¬ pairwiseDisjoint rs ∨ (s.jobs.any fun p => overlapsJob dstVol rs p.2) then some .overlap
  else if ¬ reserveTest s owner (totalCount rs) override then some .quota
  else if s.freeCount < (if override then 1 else s.format.floor) then some .noSpace
  else none

/-- The record of a start that has passed (R103). -/
def newJob (srcGen srcVol srcSlot dstVol owner : Nat) (override : Bool) (rs : List Range) : Job :=
  { state := .starting, srcVol := srcVol, srcSlot := srcSlot, srcGen := srcGen, dstVol := dstVol,
    owner := owner, override := override, ranges := rs, total := totalCount rs, pre := none,
    rangeIdx := 0, offset := 0, remaining := totalCount rs, copied := 0, cleared := 0, skipped := 0,
    unchanged := 0, waiting := false, copy := none, suspendReq := false, failedPcn := none }

def doRestoreStart (srcVol srcSlot dstVol owner : Nat) (override : Bool) (rs : List Range) (e : Event) :
    Event :=
  match restoreCheck e.st srcVol srcSlot dstVol owner override rs with
  | some c => refuse c e
  | none =>
    let j := (freeJob e.st).getD 0
    let gen := ((tfind (e.st.vol srcVol).snaps srcSlot).map Snap.gen).getD 0
    let e := e.upd fun s =>
      { s with jobs := tput j (newJob gen srcVol srcSlot dstVol owner override rs) s.jobs }
    let e := pinSnap srcVol srcSlot true (reserveChunks owner (totalCount rs) e)
    askCreate dstVol { kind := .preRestore, series := none, label := j, asker := .restore j } e

/-- The job of a number, or the refusing code. -/
def findJob (s : State) (j : Nat) : Except Code Job :=
  if ¬ j < Config.jobs then .error .range
  else match tfind s.jobs j with
    | some x => .ok x
    | none => .error .notFound

/-- A job that has not ended, or the refusing code (R112, R116). -/
def findOpenJob (s : State) (j : Nat) : Except Code Job :=
  match findJob s j with
  | .error c => .error c
  | .ok x => if x.state.ended then .error .active else .ok x

/-- The reply to SUSPEND and RESUME carries the state after the event (R112). -/
def replyJobState (j : Nat) (e : Event) : Event := answerWith .ok [] (some j) e

def doRestoreSuspend (j : Nat) (e : Event) : Event :=
  match findOpenJob e.st j with
  | .error c => refuse c e
  | .ok x => replyJobState j (suspendJob j x e)

def doRestoreResume (j : Nat) (e : Event) : Event :=
  match findOpenJob e.st j with
  | .error c => refuse c e
  | .ok x => replyJobState j (resumeJob j x e)

def doRestoreAbort (j : Nat) (e : Event) : Event :=
  match findOpenJob e.st j with
  | .error c => refuse c e
  | .ok _ => reply .ok [] (abortJob j e)

/-- The values of RESTORE STATUS (R119). -/
def jobFields (x : Job) : List Nat :=
  [x.stateValue, x.srcVol, x.srcSlot, x.srcGen, x.dstVol, x.owner, flag x.override, x.ranges.length]
  ++ (x.ranges.flatMap fun r => [r.src, r.count, r.dst]) ++ [x.total]
  ++ optField (x.pre.map (·.1)) ++ optField (x.pre.map (·.2))
  ++ [x.rangeIdx, x.offset, x.remaining, x.copied, x.cleared, x.skipped, x.unchanged]
  ++ optField (x.copy.map Copy.lcn) ++ optField x.failedPcn

def doRestoreStatus (j : Nat) (e : Event) : Event :=
  match findJob e.st j with
  | .error c => refuse c e
  | .ok x => reply .ok (jobFields x) e

def doRestoreClear (j : Nat) (e : Event) : Event :=
  match findJob e.st j with
  | .error c => refuse c e
  | .ok x =>
    if ¬ x.state.ended then refuse .active e
    else reply .ok [] (e.upd fun s => { s with jobs := tdel j s.jobs })

/-! ### The run (R124, R125, R134, R140, R141) -/

/-- A list with a number twice. -/
def hasRepeat : List Nat → Bool
  | [] => false
  | v :: t => t.contains v || hasRepeat t

def doRunPlanSet (vs : List Nat) (e : Event) : Event :=
  if vs = [] ∨ 64 < vs.length then refuse .malformed e
  else if e.st.run.state ≠ .idle then refuse .active e
  else if (vs.any fun v => !decide (v < Config.volumes)) ∨ hasRepeat vs then refuse .range e
  else reply .ok [] (e.upd fun s => { s with plan := vs })

/-- A NOTARMED refusal carries its reason and the volume number of reasons 3 and 4 (R125). That the refusal of a PLAN names
the volume too, of which R141 says nothing, is a DESIGN CHOICE, log entry 68. -/
def refuseStart (r : Nat × Nat) (e : Event) : Event :=
  reply .notArmed ([r.1] ++ optField (if r.1 = 3 ∨ r.1 = 4 then some r.2 else none)) e

def doRunStart (mode minute : Nat) (e : Event) : Event :=
  if 1 < mode then refuse .malformed e
  else if 1439 < minute then refuse .range e
  else if e.st.ctl.part ≠ .running then refuse .notReady e
  else match startCheck e.st with
    | some r => refuseStart r e
    | none =>
      let e := startRun (modeOf mode) minute e
      reply .ok [e.st.run.runId, e.st.run.deadline] e

def doRunStop (e : Event) : Event :=
  let r := e.st.run
  if r.state = .idle then refuse .notFound e
  else if r.state = .stopping then reply .ok [] e
  else if r.reading.isSome then reply .ok [] (e.updRun fun r => { r with state := .stopping })
  else reply .ok [] (endRun .stopped e)

/-- The engine waits for slot 0 of its current volume. -/
def waitsSlot (s : State) : Bool := s.run.phase == .freeze && !s.run.asked && s.currentVol.isSome

/-- The engine waits for the drain of its create. -/
def waitsDrain (s : State) : Bool :=
  s.run.phase == .freeze && s.run.asked && s.currentVol.isSome

/-- The values of RUN STATUS (R140): those of a run that is not IDLE stand behind a presence flag. Its position is
always three fields (position, first LCN and count of the pending clear run, the first as it last stood while the
count is 0), and its wait two flags, for slot 0 and for the drain: the model's choices (log entry 19). Of a run in CLOSING it
shows the length of the plan as the index, no volume, and the phase as it last stood (log entry 56). -/
def runFields (s : State) : List Nat :=
  let r := s.run
  [r.state.value, r.result.value, r.mode.value, r.deadline, r.runId, r.pass]
  ++ (if r.state = .idle then [0]
      else
        [1, r.planIndex] ++ optField s.currentVol
        ++ [r.phase.value, flag r.fullScan, r.reasons, r.pos, r.clearStart, r.clearCount, r.volData,
            r.volClear, flag (waitsSlot s), flag (waitsDrain s)])
  ++ [r.sealedVols, r.skippedVols, r.dataFrames, r.clearFrames, r.retries]

def doRunStatus (e : Event) : Event := reply .ok (runFields e.st) e

/-- The next send of the volume would be a full scan (R141). -/
def wouldScan (x : Volume) : Bool :=
  x.fullScan || x.overflow || !x.everSealed || x.runCounter == Config.maxRunCounter

/-- n of R141. -/
def planItems (x : Volume) : Nat := if wouldScan x then x.mappedCount else x.activeList.length

/-- The bytes of the next run. -/
def planBytes (s : State) : Nat :=
  (s.plan.map fun v => planItems (s.vol v) * (2 ^ s.format.k * 4096 + 48)).sum
    + s.plan.length * 96 + 96

/-- The seconds it takes at the NIGHT rate. -/
def planSeconds (bytes rate : Nat) : Nat := (bytes + (rate * 1024 - 1)) / (rate * 1024)

/-- The values of PLAN. -/
def planFields (s : State) (minute : Nat) : List Nat :=
  let now := s.sched.clock
  let secs := planSeconds (planBytes s) s.ctl.config.nightRate
  let deadline := nextMinute now minute
  twoFields (planBytes s) ++ [secs, deadline, deadline - now, flag (decide (now + secs ≤ deadline)),
    s.plan.length]
  ++ s.plan.flatMap fun v => [planItems (s.vol v), flag (wouldScan (s.vol v))]

def doPlan (minute : Nat) (e : Event) : Event :=
  if 1439 < minute then refuse .range e
  else if ¬ e.st.sched.clockSet then refuse .notSet e
  else match planCheck e.st with
    | some r => refuseStart r e
    | none => reply .ok (planFields e.st minute) e

/-! ### The schedule (R176, R177) -/

/-- A write that has passed: the entry is stored and the cursor names its place. -/
def writeEntry (bank : Bool) (i : Nat) (x : SchedEntry) (e : Event) : Event :=
  reply .ok [] ((e.updSched fun d => d.store bank i x).updCtl fun c =>
    { c with schedBankB := bank, schedIndex := i })

def doScheduleWrite (bank i : Nat) (x : SchedEntry) (e : Event) : Event :=
  if 1 < bank ∨ ¬ i < Config.bankSize then refuse .range e
  else match entryCheck e.st.sched (bank == 1) x with
    | some c => refuse c e
    | none => writeEntry (bank == 1) i x e

def doScheduleWriteNext (x : SchedEntry) (e : Event) : Event :=
  let b := e.st.ctl.schedBankB
  match entryCheck e.st.sched b x with
  | some c => refuse c e
  | none => writeEntry b (stepWrap 47 e.st.ctl.schedIndex) x e

def doScheduleRead (bank i : Nat) (e : Event) : Event :=
  if 1 < bank ∨ ¬ i < Config.bankSize then refuse .range e
  else
    let d := e.st.sched
    reply .ok (entryWords (d.entry (bank == 1) i) ++ [flag d.activeB, flag d.swap]) e

def doScheduleSwap (e : Event) : Event := reply .ok [] (e.updSched fun d => { d with swap := true })

def doScheduleCancel (e : Event) : Event := reply .ok [] (e.updSched fun d => { d with swap := false })

end Sys2Proof.Machine
end

