-- ==== Sys2Proof/Machine/Control.lean ====
section
/-! DEFINITION. The control unit (R180, R183): the arrival, the queue and the execution of control requests. -/

namespace Sys2Proof.Machine

/-- The status reads, by command number (R180). -/
def statusRead (number : Nat) : Bool := number == 3 || number == 7 || number == 38

/-- A request executes: RECOVERING refuses all but the status reads; else the rule of its command decides. -/
def perform (r : Request) (e : Event) : Event :=
  if e.st.ctl.part = .recovering ∧ ¬ statusRead r.number then refuse .recovering e
  else match r with
    | .format k p f l c => doFormat k p f l c e
    | .configSet p => doConfigSet p e
    | .configRead => doConfigRead e
    | .timeSet t => doTimeSet t e
    | .go => doGo e
    | .reset => doReset e
    | .status => doStatus e
    | .volumeCreate v s r o c => doVolumeCreate v s r o c e
    | .volumeDelete v => doVolumeDelete v e
    | .volumeRead v => doVolumeRead v e
    | .freeze v => doFreeze v e
    | .thaw v => doThaw v e
    | .setFullScan v => doSetFullScan v e
    | .accountSet o s h => doAccountSet o s h e
    | .accountRead o => doAccountRead o e
    | .accountReadNext => doAccountReadNext e
    | .snapshotCreate v k l q => doSnapshotCreate v k l q e
    | .snapshotDelete v s => doSnapshotDelete v s e
    | .snapshotHold v s => doSnapshotHold v s e
    | .snapshotRelease v s => doSnapshotRelease v s e
    | .snapshotList v => doSnapshotList v e
    | .restoreStart a b c d o rs => doRestoreStart a b c d o rs e
    | .restoreSuspend j => doRestoreSuspend j e
    | .restoreResume j => doRestoreResume j e
    | .restoreAbort j => doRestoreAbort j e
    | .restoreStatus j => doRestoreStatus j e
    | .restoreClear j => doRestoreClear j e
    | .runPlanSet vs => doRunPlanSet vs e
    | .runStart m d => doRunStart m d e
    | .runStop => doRunStop e
    | .runStatus => doRunStatus e
    | .plan d => doPlan d e
    | .scheduleWrite b i x => doScheduleWrite b i x e
    | .scheduleWriteNext x => doScheduleWriteNext x e
    | .scheduleRead b i => doScheduleRead b i e
    | .scheduleSwap => doScheduleSwap e
    | .scheduleCancel => doScheduleCancel e
    | .noticeFetch => doNoticeFetch e
    | .malformed _ => refuse .malformed e

/-- A request takes the executing slot and executes. -/
def execute (q : ControlReq) (e : Event) : Event :=
  perform q.req (e.updCtl fun c =>
    { c with executing := some { tag := q.tag, number := q.req.number } })

/-- The head of the control queue executes, the slot being free. -/
def executeHead (e : Event) : Event :=
  match e.st.ctl.queue with
  | [] => e
  | q :: t => execute q (e.updCtl fun c => { c with queue := t })

/-- A control request arrives (R183). While the front link is down no frame arrives (R39). -/
def controlArrive (q : ControlReq) (e : Event) : Event :=
  if ¬ e.st.frontUp then e
  else if e.st.ctl.executing = none ∧ e.st.ctl.queue = [] then execute q e
  else if e.st.ctl.queue.length < Config.controlQueueSize then
    e.updCtl fun c => { c with queue := c.queue ++ [q] }
  else emitControl q.req.number q.tag .busy [] e

/-- A control frame arrives by its bytes; one shorter than its header is discarded (R192). -/
def controlBytes (f : List Byte) (e : Event) : Event :=
  match controlOf f with
  | some q => controlArrive q e
  | none => e

end Sys2Proof.Machine
end

