-- ==== Sys2Proof/Machine/OffsitePort.lean ====
section
/-! DEFINITION. The offsite port (Chapter 8): sending, resending, pacing, the partner's frames and the link. -/

namespace Sys2Proof.Machine

/-! ### Sending (R146, R147, R151) -/

/-- The length of a frame in bytes. -/
def Frame.length (f : Frame) : Nat := Config.offsiteHeader + f.payloadLength

/-- The rate of the active rate class, in KiB/s (R148). -/
def activeRate (s : State) : Nat :=
  match s.sched.rate with
  | .night => s.ctl.config.nightRate
  | .day => s.ctl.config.dayRate

/-- The pacing interval of a frame of `len` bytes at `rate`, in microseconds, rounded up. -/
def paceInterval (len rate : Nat) : Nat := (len * 1000000 + (rate * 1024 - 1)) / (rate * 1024)

/-- The oldest outstanding number. -/
def Port.oldest (p : Port) : Option Nat := p.outstanding.head?.map Frame.seq

/-- The newest number sent. -/
def Port.newest (p : Port) : Nat := p.nextNo - 1

/-- The next-send time after a frame sent now. -/
def pacedAfter (s : State) (f : Frame) : Nat := s.port.pace + paceInterval f.length (activeRate s)

/-- The frame at the resend position goes out again (R151). -/
def resend (n : Nat) (f : Frame) (e : Event) : Event :=
  let next := pacedAfter e.st f
  let timeout := e.st.ctl.config.ackTimeout
  emit (.offsite f) (e.updPort fun p =>
    { p with nextSend := next, resent := p.resent + 1,
             ackTimer := if p.oldest = some n then some timeout else p.ackTimer,
             resendPos := if p.newest ≤ n then none else some (n + 1) })

/-- The engine's ready frame is sent as a new frame (R146). -/
def sendNew (f : Frame) (e : Event) : Event :=
  let f := { f with seq := e.st.port.nextNo }
  let next := pacedAfter e.st f
  let timeout := e.st.ctl.config.ackTimeout
  let e := e.updPort fun p =>
    { p with outstanding := p.outstanding ++ [f], nextNo := p.nextNo + 1, nextSend := next,
             ackTimer := if p.outstanding = [] then some timeout else p.ackTimer }
  frameTaken f (emit (.offsite f) e)

/-- The port may transmit: the link is up, the port not held and the pacing time has come. -/
def Port.clear (p : Port) : Bool := p.up && !p.held && decide (p.nextSend ≤ p.pace)

/-- The port's turn: a pending resend first, else a new frame if the window has room. -/
def portTurn (e : Event) : Event :=
  let p := e.st.port
  if ¬ p.clear then e
  else match p.resendPos with
    | some n =>
      match p.outstanding.find? fun f => f.seq == n with
      | some f => resend n f e
      | none => e
    | none =>
      match e.st.run.frames with
      | f :: _ =>
        if p.seqRun.isSome ∧ p.outstanding.length < e.st.ctl.config.window then sendNew f e else e
      | [] => e

/-- The port may have something to send. -/
def wakePort (e : Event) : Event := { e with todo := { e.todo with port := true } }

/-! ### The link (R142, R154) -/

/-- The link goes DOWN for a reason: 1 CARRIER, 2 RETRY, 3 HOLD. -/
def linkLost (reason : Nat) (e : Event) : Event :=
  let p := e.st.port
  let e := e.note .linkLost (p.site.getD 0) reason p.outstanding.length
  engineLinkDown (e.updPort fun p =>
    { p with up := false, ackTimer := none, held := false, resendPos := none })

/-- The retry counter rises by one and is tested: over the limit the link goes DOWN, else the resend position is
set (R151, R152). -/
def retryFrom (n : Nat) (e : Event) : Event :=
  let e := e.updPort fun p => { p with retry := p.retry + 1 }
  if e.st.ctl.config.retryLimit < e.st.port.retry then linkLost 2 e
  else wakePort (e.updPort fun p => { p with resendPos := some n })

/-- A received frame is ignored and counted (R143). -/
def ignoreFrame (e : Event) : Event := e.updPort fun p => { p with ignored := p.ignored + 1 }

/-- A HELLO (R142, R136, R154). A HELLO that arrives shows the carrier present. A mismatch that ends the run in recovery
step 3 completes the step (log entry 46). -/
def takeHello (site : Nat) (e : Event) : Event :=
  let p := e.st.port
  let ok := site == e.st.ctl.config.partnerSite
  let e := if ¬ p.up ∨ p.site ≠ some site then e.note .linkUp site (flag ok) 0 else e
  let e := e.updPort fun p => { p with up := true, site := some site }
  if ok then
    wakePort (engineLinkUp (e.updPort fun p =>
      { p with retry := 0, held := false, resendPos := p.oldest }))
  else if e.st.run.state = .idle then e
  else endRunNow .failed e

/-- The effects of the acknowledged frames on the engine (R132, R133). -/
def reportAcked (fs : List Frame) (e : Event) : Event :=
  fs.foldl (fun e f =>
    match f.kind with
    | .volumeSeal => sealAcked e
    | .runClose => closeAcked e
    | _ => e) e

/-- The resend position after an ACK of `n`. -/
def resendAfter (p : Port) (n : Nat) : Option Nat :=
  match p.resendPos with
  | none => none
  | some r => if r ≤ n then (if p.newest ≤ n then none else some (n + 1)) else some r

/-- An ACK of the current sequence (R150). -/
def takeAck (n : Nat) (e : Event) : Event :=
  let p := e.st.port
  match p.oldest with
  | none => e
  | some old =>
    if n < old ∨ p.newest < n then e
    else
      let left := p.outstanding.filter fun f => decide (n < f.seq)
      let timeout := e.st.ctl.config.ackTimeout
      let e := e.updPort fun p =>
        { p with outstanding := left, highestAcked := n, retry := 0,
                 ackTimer := if left = [] ∨ p.held then none else some timeout,
                 resendPos := resendAfter p n }
      wakePort (reportAcked (p.outstanding.filter fun f => decide (f.seq ≤ n)) e)

/-- A NAK of the current sequence (R151). -/
def takeNak (n : Nat) (e : Event) : Event :=
  if e.st.port.outstanding.any fun f => f.seq == n then retryFrom n e else e

/-- A HOLD (R153). -/
def takeHold (e : Event) : Event :=
  if e.st.port.held then e else e.updPort fun p => { p with held := true, ackTimer := none }

/-- A RESUME (R153). -/
def takeResume (e : Event) : Event :=
  if e.st.port.held then
    let timeout := e.st.ctl.config.ackTimeout
    wakePort (e.updPort fun p =>
      { p with held := false, ackTimer := if p.outstanding = [] then none else some timeout })
  else e

/-- A partner's frame arrives (R143): only a HELLO is taken while the link is DOWN, and an ACK or NAK only of the
current sequence. -/
def partnerFrame (f : Partner) (e : Event) : Event :=
  let p := e.st.port
  match f with
  | .hello site => takeHello site e
  | .hold => if p.up then takeHold e else ignoreFrame e
  | .resume => if p.up then takeResume e else ignoreFrame e
  | .ack n run => if p.up ∧ p.seqRun = some run then takeAck n e else ignoreFrame e
  | .nak n run => if p.up ∧ p.seqRun = some run then takeNak n e else ignoreFrame e

/-- A frame arrives by its bytes: one that is not a well-formed frame of the five kinds is ignored and counted. -/
def partnerBytes (bytes : List Byte) (e : Event) : Event :=
  match partnerOf bytes with
  | some f => partnerFrame f e
  | none => ignoreFrame e

/-- The offsite carrier is lost (R142). -/
def carrierLost (e : Event) : Event := if e.st.port.up then linkLost 1 e else e

/-- The acknowledgement timer expires, if it runs (R152). -/
def ackTimerIn (e : Event) : Event :=
  match e.st.port.ackTimer, e.st.port.oldest with
  | some _, some n => retryFrom n (e.updPort fun p => { p with ackTimer := none })
  | _, _ => e

/-- The hold timer expires, if it runs (R153). -/
def holdTimerIn (e : Event) : Event := if e.st.port.held then linkLost 3 e else e

/-- The pacing clock reaches an instant; it does not run backward. -/
def paceTo (instant : Nat) (e : Event) : Event :=
  wakePort (e.updPort fun p => { p with pace := max p.pace instant })

end Sys2Proof.Machine
end

