-- ==== Sys2Proof/Machine/ShelfPort.lean ====
section
/-! DEFINITION. The shelf port (Chapter 9): grants, replies, timeouts and the shelf link. -/

namespace Sys2Proof.Machine

/-! ### The arbiter (R160, R161) -/

/-- The lowest-numbered free slot. -/
def Shelf.freeSlot (p : Shelf) : Option Nat :=
  (List.range Config.shelfSlots).find? fun i => (tfind p.slots i).isNone

/-- A background command waits. -/
def Shelf.background (p : Shelf) : Bool := !(p.restoreQueue.isEmpty && p.offsiteQueue.isEmpty)

/-- The class a grant goes to, `none` when no command waits. -/
def Shelf.choose (p : Shelf) : Option ShelfClass :=
  let back : Option ShelfClass :=
    if p.turnOffsite then
      if !p.offsiteQueue.isEmpty then some .offsite
      else if !p.restoreQueue.isEmpty then some .restore else none
    else
      if !p.restoreQueue.isEmpty then some .restore
      else if !p.offsiteQueue.isEmpty then some .offsite else none
  if p.fgQueue.isEmpty then back
  else if p.streak = Config.streakLimit ∧ p.background then back
  else some .foreground

/-- The command at the head of the queue of a class. -/
def Shelf.headOf (p : Shelf) : ShelfClass → Option ShelfCmd
  | .foreground => p.fgQueue.head?
  | .restore => p.restoreQueue.head?
  | .offsite => p.offsiteQueue.head?

/-- The chosen command leaves its queue; the streak count and the turn change (R161). -/
def Shelf.dequeue (p : Shelf) : ShelfClass → Shelf
  | .foreground =>
    { p with fgQueue := p.fgQueue.drop 1, streak := if p.background then p.streak + 1 else 0 }
  | .restore => { p with restoreQueue := p.restoreQueue.drop 1, streak := 0, turnOffsite := true }
  | .offsite => { p with offsiteQueue := p.offsiteQueue.drop 1, streak := 0, turnOffsite := false }

/-- The use count of a slot (R159). -/
def Shelf.useOf (p : Shelf) (slot : Nat) : Nat := tget 0 p.uses slot

/-- A command takes a slot: its identity is formed and its timer starts. -/
def Shelf.occupy (p : Shelf) (slot timeout : Nat) (c : ShelfCmd) : Shelf :=
  let use := stepWrap 65535 (p.useOf slot)
  { p with uses := tset 0 slot use p.uses,
           slots := tput slot { cmd := c, epoch := p.epoch, use := use, timeout := timeout } p.slots }

/-- The in-place write of a P chunk takes a slot: its blocks may hold new data from now on (R37). -/
def markSlotted (c : ShelfCmd) (e : Event) : Event :=
  match c.owner with
  | .request arrival lcn .inPlace =>
    e.upd fun s =>
      { s with inflight := s.inflight.map fun x =>
          if x.arrival = arrival then
            { x with plan := x.plan.map fun p => if p.lcn = lcn then { p with slotted := true } else p }
          else x }
  | _ => e

/-- One grant: the command is transmitted with its identity and its shelf address (R158, R160). -/
def grantTo (slot : Nat) (cls : ShelfClass) (c : ShelfCmd) (e : Event) : Event :=
  let e := e.updShelf fun p => (p.dequeue cls).occupy slot e.st.ctl.config.shelfTimeout c
  let e := markSlotted c e
  emit (.shelf slot e.st.shelf.epoch (e.st.shelf.useOf slot) c.kind
    (c.pcn * 2 ^ e.st.format.k + c.first) c.count c.data) e

/-- The arbiter makes grants one after another while the link is up, a slot is free and a command waits; the
number bounds them. -/
def grants : Nat → Event → Event
  | 0, e => e
  | n + 1, e =>
    let p := e.st.shelf
    if ¬ p.up then e
    else match p.freeSlot, p.choose with
      | some slot, some cls =>
        match p.headOf cls with
        | some c => grants n (grantTo slot cls c e)
        | none => e
      | _, _ => e

/-! ### Results (R163 to R165) -/

/-- SHELF ERROR of one command. -/
def noteShelfError (cmd : ShelfCmd) (reason : Nat) (e : Event) : Event :=
  e.note .shelfError cmd.pcn reason (2 * cmd.cls.value + cmd.kind.value)

/-- The result of a command is handed to its owner: its data, or `none` for an error. -/
def cmdEnd (cmd : ShelfCmd) (data : Option (List Block)) (linkReset : Bool) (e : Event) : Event :=
  match cmd.owner with
  | .request arrival lcn why => requestCmdEnd arrival lcn why cmd.first data e
  | .restore job => restoreCmdEnd job cmd data e
  | .abandoned pcn => completeReturn pcn e
  | .send => sendCmdEnd cmd data linkReset e
  | .dropped => e

/-- What a reply that passes R163 does to its command: data, or the reason of an error. -/
def judgeReply (cmd : ShelfCmd) : ShelfResult → Except Nat (List Block)
  | .error reason => .error reason
  | .done data extra =>
    let wanted := if cmd.kind = .read then cmd.count else 0
    if data.length = wanted ∧ extra = 0 then .ok data else .error 241

/-- A slot's command has ended: the slot is free, the owner is told, and the arbiter may grant it. -/
def endSlot (slot : Nat) (r : SlotRec) (result : Except Nat (List Block)) (e : Event) : Event :=
  let e := e.updShelf fun p => { p with slots := tdel slot p.slots }
  let e := { e with todo := { e.todo with grant := true } }
  match result with
  | .ok data => cmdEnd r.cmd (some data) false e
  | .error reason => cmdEnd r.cmd none false (noteShelfError r.cmd reason e)

/-- A reply names the command its slot now holds. -/
def SlotRec.answers (r : SlotRec) (epoch use : Nat) (isWrite : Bool) : Bool :=
  r.epoch == epoch && r.use == use && (r.cmd.kind == .write) == isWrite

/-- A shelf reply arrives (R163). The count of ignored replies has no width in the spec and rises without bound (log
entry 51). -/
def shelfReplyIn (slot epoch use : Nat) (isWrite : Bool) (result : ShelfResult) (e : Event) : Event :=
  let ignore := e.updShelf fun p => { p with ignored := p.ignored + 1 }
  match tfind e.st.shelf.slots slot with
  | none => ignore
  | some r =>
    if r.answers epoch use isWrite then endSlot slot r (judgeReply r.cmd result) e else ignore

/-- A command timer expires (R164); the timer of a free slot does not run. -/
def shelfTimeoutIn (slot : Nat) (e : Event) : Event :=
  match tfind e.st.shelf.slots slot with
  | none => e
  | some r => endSlot slot r (.error 240) e

/-! ### The shelf link (R166, R167) -/

/-- The command of a slot is the request's, with its arrival number. -/
def arrivalOf (r : SlotRec) : Option Nat :=
  match r.cmd.owner with
  | .request a _ _ => some a
  | _ => none

/-- Tells the owners of the commands that `p` accepts, in list order. -/
def tellOwners (rs : List SlotRec) (e : Event) : Event :=
  rs.foldl (fun e r => cmdEnd r.cmd none true e) e

/-- The commands of restore jobs, in job order. -/
def jobCmds (rs : List SlotRec) : List SlotRec :=
  sortByKey (fun r => match r.cmd.owner with | .restore j => j | _ => 0)
    (rs.filter fun r => match r.cmd.owner with | .restore _ => true | _ => false)

/-- The shelf link goes DOWN: every command in a slot ends with LINK RESET, the owners told in the order of R166;
one SHELF ERROR follows all effects. It stands behind everything in its event (log entry 24), and carries the campus time at
which the link went DOWN: where a waiting TIME SET executes in the event that is the old time, though the notice is offered
after the TIME SET (DESIGN CHOICE, log entry 62). -/
def shelfDown (e : Event) : Event :=
  if ¬ e.st.shelf.up then e
  else
    let rs := e.st.shelf.slots.map (·.2)
    let e := e.updShelf fun p => { p with up := false, slots := [] }
    let e := tellOwners (sortByKey (fun r => (arrivalOf r).getD 0)
      (rs.filter fun r => (arrivalOf r).isSome)) e
    let e := tellOwners (jobCmds rs) e
    let writes := rs.filterMap fun r => match r.cmd.owner with | .abandoned pcn => some pcn | _ => none
    let e := (e.st.returns.filter fun p => writes.contains p).foldl (fun e p => completeReturn p e) e
    let e := tellOwners (rs.filter fun r => r.cmd.owner == .send) e
    { e with late := e.late ++
        [e.st.notice .shelfError ((rs.head?.map fun r => r.cmd.pcn).getD 0) 242 rs.length] }

/-- The shelf link comes UP: a run suspended on it goes on, and the waiting commands take slots (R167). -/
def shelfUp (e : Event) : Event :=
  if e.st.shelf.up then e
  else
    let e := resumeShelf (e.updShelf fun p => { p with up := true })
    { e with todo := { e.todo with grant := true } }

end Sys2Proof.Machine
end

