-- ==== Sys2Proof/Machine/Loop.lean ====
section
/-! DEFINITION. The rest of an event: what a command's own effect calls for, taken in one fixed order until
nothing is left, and the event run as a whole. -/

namespace Sys2Proof.Machine

/-- An item that may proceed is accepted, or its visit decided (R23). -/
def proceed (i : BusyItem) (e : Event) : Event :=
  let e := markProceeded i.owner e
  match i.owner with
  | .front arrival => acceptFront arrival e
  | .restore job => decideVisit job e

/-- One test of the busy set: the first waiting item that may proceed does; with none the test is over. -/
def retestTurn (e : Event) : Event :=
  match firstProceed [] e.st.busy with
  | some i => proceed i e
  | none => { e with todo := { e.todo with retest := false } }

/-- The lowest-numbered volume whose running drain has an empty set. Where one event empties the sets of several volumes, as a
shelf link reset can, no rule orders their drain ends: the model ends the lowest-numbered volume's first, with its
create event or its freeze and the test of the requests it releases, and then the next (log entry 54). -/
def emptyDrain (s : State) : Option Nat :=
  (s.vols.find? fun p => match p.2.drain with | some d => d.members.isEmpty | none => false).map (·.1)

def drainTurn (e : Event) : Event :=
  match emptyDrain e.st with
  | some v => finishDrain v .taken e
  | none => { e with todo := { e.todo with drains := false } }

/-- A job that can begin a visit begins it (R105). Where one event lets several jobs begin, as the end of a drain of
their volume can, no rule orders them: the model takes the lowest job number first (log entry 55). -/
def jobTurn (e : Event) : Event :=
  match e.st.jobs.find? fun p => canVisit e.st p.2 with
  | some (j, x) => beginVisit j x e
  | none => { e with todo := { e.todo with jobs := false } }

/-- The head of the control queue executes when the slot is free; the turn is over while it is occupied or the
queue is empty (R183). -/
def controlTurn (e : Event) : Event :=
  if e.st.ctl.executing = none ∧ e.st.ctl.queue ≠ [] then executeHead e
  else { e with todo := { e.todo with control := false } }

/-- The decided control reply goes out, and the control queue is served (R183, R184). -/
def answerTurn (a : Answer) (e : Event) : Event :=
  let result := match a.job with
    | some j => [((tfind e.st.jobs j).map Job.stateValue).getD 0]
    | none => a.result
  let e := emitControl a.number a.tag a.code result e
  { e with todo := { e.todo with answer := none, control := true } }

/-- The next piece of work of the event, `none` when it has none left. -/
def turn (e : Event) : Option Event :=
  let t := e.todo
  if t.retest then some (retestTurn e)
  else if t.drains then some (drainTurn e)
  else if t.occupancy then some (testYield { e with todo := { t with occupancy := false } })
  else if t.pool then some (resumePool { e with todo := { t with pool := false } })
  else if t.jobs then some (jobTurn e)
  else match t.drainBegin with
    | v :: rest => some (
        let e := { e with todo := { t with drainBegin := rest } }
        if (e.st.vol v).drain = none then beginNext v e else e)
    | [] =>
      if t.engine then some (engineTurn { e with todo := { t with engine := false } })
      else if t.port then some (portTurn { e with todo := { t with port := false } })
      else match t.answer with
        | some a => some (answerTurn a e)
        | none =>
          if t.control then some (controlTurn e)
          else if t.grant then
            some (grants Config.shelfSlots { e with todo := { t with grant := false } })
          else none

/-- Takes turns until none is left; the number bounds them. -/
def runTodo : Nat → Event → Event
  | 0, e => e
  | n + 1, e =>
    match turn e with
    | none => e
    | some e' => runTodo n e'

/-- The bound on the turns of one event. -/
def turnBound : Nat := 18446744073709551616

/-- One event, whole: the command's own effect, all that follows from it, and the evaluations at its end. -/
def runEvent (s : State) (f : Event → Event) : State :=
  closeEvent (runTodo turnBound (f (openEvent s)))

end Sys2Proof.Machine
end

