-- ==== Sys2Proof/Machine/ExecControl.lean ====
section
/-! DEFINITION. Control requests (Chapter 11): the arrival of a frame by its bytes, and of each well-formed request (R183).
Each meaning is one event of the part; none faults or refuses. -/

namespace Sys2Proof.Machine

/-- A control frame arrives (R183, R192). -/
def execControlRequestArrival (frame : List Byte) (s : State) : Host.Outcome State Fault Refusal :=
  .next (runEvent s (controlBytes frame))

/-- FORMAT (R1). -/
def execFormat (tag k pool floor low clear : Nat) (s : State) : Host.Outcome State Fault Refusal :=
  .next (runEvent s (controlArrive { tag := tag, req := .format k pool floor low clear }))

/-- CONFIG SET (R185). -/
def execConfigSet (tag : Nat) (patch : ConfigPatch) (s : State) : Host.Outcome State Fault Refusal :=
  .next (runEvent s (controlArrive { tag := tag, req := .configSet patch }))

/-- CONFIG READ (R186). -/
def execConfigRead (tag : Nat) (s : State) : Host.Outcome State Fault Refusal :=
  .next (runEvent s (controlArrive { tag := tag, req := .configRead }))

/-- TIME SET (R169). -/
def execTimeSet (tag time : Nat) (s : State) : Host.Outcome State Fault Refusal :=
  .next (runEvent s (controlArrive { tag := tag, req := .timeSet time }))

/-- GO (R179). -/
def execGo (tag : Nat) (s : State) : Host.Outcome State Fault Refusal :=
  .next (runEvent s (controlArrive { tag := tag, req := .go }))

/-- RESET (R181). -/
def execReset (tag : Nat) (s : State) : Host.Outcome State Fault Refusal :=
  .next (runEvent s (controlArrive { tag := tag, req := .reset }))

/-- STATUS (R188). -/
def execStatus (tag : Nat) (s : State) : Host.Outcome State Fault Refusal :=
  .next (runEvent s (controlArrive { tag := tag, req := .status }))

/-- VOLUME CREATE (R7). -/
def execVolumeCreate (tag vol size reserve : Nat) (offsite : Bool) (cap : Nat) (s : State) :
    Host.Outcome State Fault Refusal :=
  .next (runEvent s (controlArrive { tag := tag, req := .volumeCreate vol size reserve offsite cap }))

/-- VOLUME DELETE (R9). -/
def execVolumeDelete (tag vol : Nat) (s : State) : Host.Outcome State Fault Refusal :=
  .next (runEvent s (controlArrive { tag := tag, req := .volumeDelete vol }))

/-- VOLUME READ (R8). -/
def execVolumeRead (tag vol : Nat) (s : State) : Host.Outcome State Fault Refusal :=
  .next (runEvent s (controlArrive { tag := tag, req := .volumeRead vol }))

/-- FREEZE (R12). -/
def execFreeze (tag vol : Nat) (s : State) : Host.Outcome State Fault Refusal :=
  .next (runEvent s (controlArrive { tag := tag, req := .freeze vol }))

/-- THAW (R13). -/
def execThaw (tag vol : Nat) (s : State) : Host.Outcome State Fault Refusal :=
  .next (runEvent s (controlArrive { tag := tag, req := .thaw vol }))

/-- SET FULL SCAN (R122). -/
def execSetFullScan (tag vol : Nat) (s : State) : Host.Outcome State Fault Refusal :=
  .next (runEvent s (controlArrive { tag := tag, req := .setFullScan vol }))

/-- ACCOUNT SET (R67). -/
def execAccountSet (tag owner soft hard : Nat) (s : State) : Host.Outcome State Fault Refusal :=
  .next (runEvent s (controlArrive { tag := tag, req := .accountSet owner soft hard }))

/-- ACCOUNT READ (R72). -/
def execAccountRead (tag owner : Nat) (s : State) : Host.Outcome State Fault Refusal :=
  .next (runEvent s (controlArrive { tag := tag, req := .accountRead owner }))

/-- ACCOUNT READ NEXT (R73). -/
def execAccountReadNext (tag : Nat) (s : State) : Host.Outcome State Fault Refusal :=
  .next (runEvent s (controlArrive { tag := tag, req := .accountReadNext }))

/-- SNAPSHOT CREATE (R77). -/
def execSnapshotCreate (tag vol kind label : Nat) (series : Option Nat) (s : State) :
    Host.Outcome State Fault Refusal :=
  .next (runEvent s (controlArrive { tag := tag, req := .snapshotCreate vol kind label series }))

/-- SNAPSHOT DELETE (R87). -/
def execSnapshotDelete (tag vol slot : Nat) (s : State) : Host.Outcome State Fault Refusal :=
  .next (runEvent s (controlArrive { tag := tag, req := .snapshotDelete vol slot }))

/-- SNAPSHOT HOLD (R93). -/
def execSnapshotHold (tag vol slot : Nat) (s : State) : Host.Outcome State Fault Refusal :=
  .next (runEvent s (controlArrive { tag := tag, req := .snapshotHold vol slot }))

/-- SNAPSHOT RELEASE (R93). -/
def execSnapshotRelease (tag vol slot : Nat) (s : State) : Host.Outcome State Fault Refusal :=
  .next (runEvent s (controlArrive { tag := tag, req := .snapshotRelease vol slot }))

/-- SNAPSHOT LIST (R97). -/
def execSnapshotList (tag vol : Nat) (s : State) : Host.Outcome State Fault Refusal :=
  .next (runEvent s (controlArrive { tag := tag, req := .snapshotList vol }))

/-- RESTORE START (R102). -/
def execRestoreStart (tag srcVol srcSlot dstVol owner : Nat) (override : Bool) (ranges : List Range) (s : State) :
    Host.Outcome State Fault Refusal :=
  .next (runEvent s (controlArrive
    { tag := tag, req := .restoreStart srcVol srcSlot dstVol owner override ranges }))

/-- RESTORE SUSPEND (R112). -/
def execRestoreSuspend (tag job : Nat) (s : State) : Host.Outcome State Fault Refusal :=
  .next (runEvent s (controlArrive { tag := tag, req := .restoreSuspend job }))

/-- RESTORE RESUME (R112). -/
def execRestoreResume (tag job : Nat) (s : State) : Host.Outcome State Fault Refusal :=
  .next (runEvent s (controlArrive { tag := tag, req := .restoreResume job }))

/-- RESTORE ABORT (R116). -/
def execRestoreAbort (tag job : Nat) (s : State) : Host.Outcome State Fault Refusal :=
  .next (runEvent s (controlArrive { tag := tag, req := .restoreAbort job }))

/-- RESTORE STATUS (R119). -/
def execRestoreStatus (tag job : Nat) (s : State) : Host.Outcome State Fault Refusal :=
  .next (runEvent s (controlArrive { tag := tag, req := .restoreStatus job }))

/-- RESTORE CLEAR (R119). -/
def execRestoreClear (tag job : Nat) (s : State) : Host.Outcome State Fault Refusal :=
  .next (runEvent s (controlArrive { tag := tag, req := .restoreClear job }))

/-- RUN PLAN SET (R124). -/
def execRunPlanSet (tag : Nat) (vols : List Nat) (s : State) : Host.Outcome State Fault Refusal :=
  .next (runEvent s (controlArrive { tag := tag, req := .runPlanSet vols }))

/-- RUN START (R125). -/
def execRunStart (tag mode minute : Nat) (s : State) : Host.Outcome State Fault Refusal :=
  .next (runEvent s (controlArrive { tag := tag, req := .runStart mode minute }))

/-- RUN STOP (R134). -/
def execRunStop (tag : Nat) (s : State) : Host.Outcome State Fault Refusal :=
  .next (runEvent s (controlArrive { tag := tag, req := .runStop }))

/-- RUN STATUS (R140). -/
def execRunStatus (tag : Nat) (s : State) : Host.Outcome State Fault Refusal :=
  .next (runEvent s (controlArrive { tag := tag, req := .runStatus }))

/-- PLAN (R141). -/
def execPlan (tag minute : Nat) (s : State) : Host.Outcome State Fault Refusal :=
  .next (runEvent s (controlArrive { tag := tag, req := .plan minute }))

/-- SCHEDULE WRITE (R176). -/
def execScheduleWrite (tag bank index : Nat) (entry : SchedEntry) (s : State) :
    Host.Outcome State Fault Refusal :=
  .next (runEvent s (controlArrive { tag := tag, req := .scheduleWrite bank index entry }))

/-- SCHEDULE WRITE NEXT (R176). -/
def execScheduleWriteNext (tag : Nat) (entry : SchedEntry) (s : State) :
    Host.Outcome State Fault Refusal :=
  .next (runEvent s (controlArrive { tag := tag, req := .scheduleWriteNext entry }))

/-- SCHEDULE READ (R176). -/
def execScheduleRead (tag bank index : Nat) (s : State) : Host.Outcome State Fault Refusal :=
  .next (runEvent s (controlArrive { tag := tag, req := .scheduleRead bank index }))

/-- SCHEDULE SWAP (R177). -/
def execScheduleSwap (tag : Nat) (s : State) : Host.Outcome State Fault Refusal :=
  .next (runEvent s (controlArrive { tag := tag, req := .scheduleSwap }))

/-- SCHEDULE CANCEL (R177). -/
def execScheduleCancel (tag : Nat) (s : State) : Host.Outcome State Fault Refusal :=
  .next (runEvent s (controlArrive { tag := tag, req := .scheduleCancel }))

/-- NOTICE FETCH (R190). -/
def execNoticeFetch (tag : Nat) (s : State) : Host.Outcome State Fault Refusal :=
  .next (runEvent s (controlArrive { tag := tag, req := .noticeFetch }))

end Sys2Proof.Machine
end

