-- ==== Sys2Proof/Machine/ExecFront.lean ====
section
/-! DEFINITION. Frames on the front link: requests to volumes (R18 to R20), frames that are not requests (R18, R19, R192), and the drain timer (R28).
Each meaning is one event of the part; none faults or refuses. -/

namespace Sys2Proof.Machine

/-- A frame with no volume's address and not the control address is answered MALFORMED by the front port (R18); the
reply's kind is 0 (12.2). -/
def execFrontFrameBadAddress (addr _kind tag : Nat) (s : State) : Host.Outcome State Fault Refusal :=
  .next (runEvent s (replyFront addr 0 .malformed tag))

/-- A frame shorter than its header is discarded without a reply (R192). -/
def execShortFrameDiscard (_addr _len : Nat) (s : State) : Host.Outcome State Fault Refusal :=
  .next (runEvent s id)

/-- A READ arrives (R20). -/
def execRead (tag vol view start count owner len : Nat) (s : State) : Host.Outcome State Fault Refusal :=
  .next (runEvent s (frontArrive .read tag vol view start count owner len []))

/-- A WRITE arrives (R20). -/
def execWrite (tag vol start count owner len : Nat) (data : List Block) (s : State) :
    Host.Outcome State Fault Refusal :=
  .next (runEvent s (frontArrive .write tag vol 0 start count owner len data))

/-- A DISCARD arrives (R20). -/
def execDiscard (tag vol start count owner len : Nat) (s : State) : Host.Outcome State Fault Refusal :=
  .next (runEvent s (frontArrive .discard tag vol 0 start count owner len []))

/-- The drain timer of a volume expires (R28). -/
def execDrainTimeout (vol : Nat) (s : State) : Host.Outcome State Fault Refusal :=
  .next (runEvent s (finishDrain vol .timeout))

/-- A request to a volume whose kind is not one of the three is answered MALFORMED (R19, R20). -/
def execMalformedRequestKind (vol kind tag : Nat) (s : State) : Host.Outcome State Fault Refusal :=
  .next (runEvent s (replyFront vol kind .malformed tag))

end Sys2Proof.Machine
end

