-- ==== Sys2Proof/Machine/ExecOffsite.lean ====
section
/-! DEFINITION. The offsite engine's scan step and the offsite link (Chapters 7 and 8).
Each meaning is one event of the part; none faults or refuses. -/

namespace Sys2Proof.Machine

/-- One LCN of a full scan (R131). -/
def execFullScanStep (s : State) : Host.Outcome State Fault Refusal :=
  .next (runEvent s scanStep)

/-- A HELLO arrives (R142). -/
def execHello (site : Nat) (s : State) : Host.Outcome State Fault Refusal :=
  .next (runEvent s (partnerFrame (.hello site)))

/-- An ACK arrives (R150). -/
def execAck (n runId : Nat) (s : State) : Host.Outcome State Fault Refusal :=
  .next (runEvent s (partnerFrame (.ack n runId)))

/-- A NAK arrives (R151). -/
def execNak (n runId : Nat) (s : State) : Host.Outcome State Fault Refusal :=
  .next (runEvent s (partnerFrame (.nak n runId)))

/-- A HOLD arrives (R153). -/
def execHold (s : State) : Host.Outcome State Fault Refusal :=
  .next (runEvent s (partnerFrame .hold))

/-- A RESUME arrives (R153). -/
def execResume (s : State) : Host.Outcome State Fault Refusal :=
  .next (runEvent s (partnerFrame .resume))

/-- A frame arrives on the offsite link, by its bytes: the receiver decides whether it is ignored and counted (R143). -/
def execOffsiteFrameIgnored (frame : List Byte) (s : State) : Host.Outcome State Fault Refusal :=
  .next (runEvent s (partnerBytes frame))

/-- The offsite carrier is lost (R142). -/
def execOffsiteCarrierLoss (s : State) : Host.Outcome State Fault Refusal :=
  .next (runEvent s carrierLost)

/-- The acknowledgement timer expires (R152). -/
def execAckTimerExpiry (s : State) : Host.Outcome State Fault Refusal :=
  .next (runEvent s ackTimerIn)

/-- The hold timer expires (R153). -/
def execHoldTimerExpiry (s : State) : Host.Outcome State Fault Refusal :=
  .next (runEvent s holdTimerIn)

/-- The pacing clock reaches an instant (R146, R147). -/
def execPacingTimeReached (instant : Nat) (s : State) : Host.Outcome State Fault Refusal :=
  .next (runEvent s (paceTo instant))

end Sys2Proof.Machine
end

