-- ==== Sys2Proof/Machine/ExecPart.lean ====
section
/-! DEFINITION. The part as a whole: power-on, the recovery steps, the front link, the background steps of FORMAT and of the walks (R178, R39, R2, R10, R90).
Each meaning is one event of the part; none faults or refuses. -/

namespace Sys2Proof.Machine

/-- Power comes on (R178): every block takes its power-on values. -/
def execPowerOn (s : State) : Host.Outcome State Fault Refusal :=
  .next (runEvent s (resetPart true))

/-- Recovery step 1 takes one mirror record (R40). -/
def execMirrorRecordRecovery (s : State) : Host.Outcome State Fault Refusal :=
  .next (runEvent s recoverMirror)

/-- Recovery step 2 returns one abandoned PCN (R118). -/
def execPendingReturnRecovery (s : State) : Host.Outcome State Fault Refusal :=
  .next (runEvent s recoverReturn)

/-- Recovery step 2 ends one restore job (R118). -/
def execRestoreJobRecovery (s : State) : Host.Outcome State Fault Refusal :=
  .next (runEvent s recoverJob)

/-- Recovery step 3 ends the run (R139). -/
def execRunRecovery (s : State) : Host.Outcome State Fault Refusal :=
  .next (runEvent s recoverRun)

/-- Recovery step 4 rebuilds the grace expiry queue and recovery ends (R75, R178). -/
def execExpiryQueueRebuild (s : State) : Host.Outcome State Fault Refusal :=
  .next (runEvent s rebuildExpiry)

/-- The front link goes down (R39). -/
def execFrontLinkDown (s : State) : Host.Outcome State Fault Refusal :=
  .next (runEvent s (fun e => e.upd fun s => { s with frontUp := false }))

/-- The front link comes up (R39). -/
def execFrontLinkUp (s : State) : Host.Outcome State Fault Refusal :=
  .next (runEvent s (fun e => e.upd fun s => { s with frontUp := true }))

/-- One PCN of the fill (R2). -/
def execFormatFillStep (s : State) : Host.Outcome State Fault Refusal :=
  .next (runEvent s fillStep)

/-- One step of the volume delete walk (R10). -/
def execVolumeDeleteWalkStep (vol : Nat) (s : State) : Host.Outcome State Fault Refusal :=
  .next (runEvent s (deleteWalkStep vol))

/-- One step of the merge walk of a volume (R90). -/
def execMergeWalkStep (vol : Nat) (s : State) : Host.Outcome State Fault Refusal :=
  .next (runEvent s (mergeStep vol))

end Sys2Proof.Machine
end

