-- ==== Sys2Proof/Machine/ExecShelf.lean ====
section
/-! DEFINITION. The shelf link (Chapter 9).
Each meaning is one event of the part; none faults or refuses. -/

namespace Sys2Proof.Machine

/-- A shelf reply arrives (R163). -/
def execShelfReply (slot epoch use : Nat) (isWrite : Bool) (result : ShelfResult) (s : State) :
    Host.Outcome State Fault Refusal :=
  .next (runEvent s (shelfReplyIn slot epoch use isWrite result))

/-- A command timer expires (R164). -/
def execShelfCommandTimeout (slot : Nat) (s : State) : Host.Outcome State Fault Refusal :=
  .next (runEvent s (shelfTimeoutIn slot))

/-- The shelf link goes DOWN (R166). -/
def execShelfLinkDown (s : State) : Host.Outcome State Fault Refusal :=
  .next (runEvent s shelfDown)

/-- The shelf link comes UP (R167). -/
def execShelfLinkUp (s : State) : Host.Outcome State Fault Refusal :=
  .next (runEvent s shelfUp)

end Sys2Proof.Machine
end

