-- ==== Sys2Proof/Machine/ExecTime.lean ====
section
/-! DEFINITION. The campus clock and the grace expiry queue (R168, R63).
Each meaning is one event of the part; none faults or refuses. -/

namespace Sys2Proof.Machine

/-- The campus clock advances by a second (R168). -/
def execClockAdvance (s : State) : Host.Outcome State Fault Refusal :=
  .next (runEvent s advanceClock)

/-- One step of a firing pass (R63). -/
def execGraceExpiryFire (s : State) : Host.Outcome State Fault Refusal :=
  .next (runEvent s fireExpiry)

end Sys2Proof.Machine
end

