-- ==== Sys2Proof/Machine/Dispatch.lean ====
section
/-! DEFINITION. One arm for each command of the table. -/

namespace Sys2Proof.Machine

def exec (i : Instr) (s : State) : Host.Outcome State Fault Refusal :=
  match i with
  | .powerOn => Sys2Proof.Machine.execPowerOn s
  | .mirrorRecordRecovery => Sys2Proof.Machine.execMirrorRecordRecovery s
  | .pendingReturnRecovery => Sys2Proof.Machine.execPendingReturnRecovery s
  | .restoreJobRecovery => Sys2Proof.Machine.execRestoreJobRecovery s
  | .runRecovery => Sys2Proof.Machine.execRunRecovery s
  | .expiryQueueRebuild => Sys2Proof.Machine.execExpiryQueueRebuild s
  | .frontLinkDown => Sys2Proof.Machine.execFrontLinkDown s
  | .frontLinkUp => Sys2Proof.Machine.execFrontLinkUp s
  | .frontFrameBadAddress addr kind tag => Sys2Proof.Machine.execFrontFrameBadAddress addr kind tag s
  | .shortFrameDiscard addr len => Sys2Proof.Machine.execShortFrameDiscard addr len s
  | .read tag vol view start count owner len => Sys2Proof.Machine.execRead tag vol view start count owner len s
  | .write tag vol start count owner len data => Sys2Proof.Machine.execWrite tag vol start count owner len data s
  | .discard tag vol start count owner len => Sys2Proof.Machine.execDiscard tag vol start count owner len s
  | .drainTimeout vol => Sys2Proof.Machine.execDrainTimeout vol s
  | .controlRequestArrival frame => Sys2Proof.Machine.execControlRequestArrival frame s
  | .format tag k pool floor low clear => Sys2Proof.Machine.execFormat tag k pool floor low clear s
  | .formatFillStep => Sys2Proof.Machine.execFormatFillStep s
  | .configSet tag patch => Sys2Proof.Machine.execConfigSet tag patch s
  | .configRead tag => Sys2Proof.Machine.execConfigRead tag s
  | .timeSet tag time => Sys2Proof.Machine.execTimeSet tag time s
  | .go tag => Sys2Proof.Machine.execGo tag s
  | .reset tag => Sys2Proof.Machine.execReset tag s
  | .status tag => Sys2Proof.Machine.execStatus tag s
  | .volumeCreate tag vol size reserve offsite cap => Sys2Proof.Machine.execVolumeCreate tag vol size reserve offsite cap s
  | .volumeDelete tag vol => Sys2Proof.Machine.execVolumeDelete tag vol s
  | .volumeDeleteWalkStep vol => Sys2Proof.Machine.execVolumeDeleteWalkStep vol s
  | .volumeRead tag vol => Sys2Proof.Machine.execVolumeRead tag vol s
  | .freeze tag vol => Sys2Proof.Machine.execFreeze tag vol s
  | .thaw tag vol => Sys2Proof.Machine.execThaw tag vol s
  | .setFullScan tag vol => Sys2Proof.Machine.execSetFullScan tag vol s
  | .accountSet tag owner soft hard => Sys2Proof.Machine.execAccountSet tag owner soft hard s
  | .accountRead tag owner => Sys2Proof.Machine.execAccountRead tag owner s
  | .accountReadNext tag => Sys2Proof.Machine.execAccountReadNext tag s
  | .snapshotCreate tag vol kind label series => Sys2Proof.Machine.execSnapshotCreate tag vol kind label series s
  | .snapshotDelete tag vol slot => Sys2Proof.Machine.execSnapshotDelete tag vol slot s
  | .snapshotHold tag vol slot => Sys2Proof.Machine.execSnapshotHold tag vol slot s
  | .snapshotRelease tag vol slot => Sys2Proof.Machine.execSnapshotRelease tag vol slot s
  | .snapshotList tag vol => Sys2Proof.Machine.execSnapshotList tag vol s
  | .mergeWalkStep vol => Sys2Proof.Machine.execMergeWalkStep vol s
  | .restoreStart tag srcVol srcSlot dstVol owner override ranges => Sys2Proof.Machine.execRestoreStart tag srcVol srcSlot dstVol owner override ranges s
  | .restoreSuspend tag job => Sys2Proof.Machine.execRestoreSuspend tag job s
  | .restoreResume tag job => Sys2Proof.Machine.execRestoreResume tag job s
  | .restoreAbort tag job => Sys2Proof.Machine.execRestoreAbort tag job s
  | .restoreStatus tag job => Sys2Proof.Machine.execRestoreStatus tag job s
  | .restoreClear tag job => Sys2Proof.Machine.execRestoreClear tag job s
  | .runPlanSet tag vols => Sys2Proof.Machine.execRunPlanSet tag vols s
  | .runStart tag mode minute => Sys2Proof.Machine.execRunStart tag mode minute s
  | .runStop tag => Sys2Proof.Machine.execRunStop tag s
  | .runStatus tag => Sys2Proof.Machine.execRunStatus tag s
  | .plan tag minute => Sys2Proof.Machine.execPlan tag minute s
  | .fullScanStep => Sys2Proof.Machine.execFullScanStep s
  | .hello site => Sys2Proof.Machine.execHello site s
  | .ack n runId => Sys2Proof.Machine.execAck n runId s
  | .nak n runId => Sys2Proof.Machine.execNak n runId s
  | .hold => Sys2Proof.Machine.execHold s
  | .resume => Sys2Proof.Machine.execResume s
  | .offsiteFrameIgnored frame => Sys2Proof.Machine.execOffsiteFrameIgnored frame s
  | .offsiteCarrierLoss => Sys2Proof.Machine.execOffsiteCarrierLoss s
  | .ackTimerExpiry => Sys2Proof.Machine.execAckTimerExpiry s
  | .holdTimerExpiry => Sys2Proof.Machine.execHoldTimerExpiry s
  | .pacingTimeReached instant => Sys2Proof.Machine.execPacingTimeReached instant s
  | .shelfReply slot epoch use isWrite result => Sys2Proof.Machine.execShelfReply slot epoch use isWrite result s
  | .shelfCommandTimeout slot => Sys2Proof.Machine.execShelfCommandTimeout slot s
  | .shelfLinkDown => Sys2Proof.Machine.execShelfLinkDown s
  | .shelfLinkUp => Sys2Proof.Machine.execShelfLinkUp s
  | .clockAdvance => Sys2Proof.Machine.execClockAdvance s
  | .graceExpiryFire => Sys2Proof.Machine.execGraceExpiryFire s
  | .scheduleWrite tag bank index entry => Sys2Proof.Machine.execScheduleWrite tag bank index entry s
  | .scheduleWriteNext tag entry => Sys2Proof.Machine.execScheduleWriteNext tag entry s
  | .scheduleRead tag bank index => Sys2Proof.Machine.execScheduleRead tag bank index s
  | .scheduleSwap tag => Sys2Proof.Machine.execScheduleSwap tag s
  | .scheduleCancel tag => Sys2Proof.Machine.execScheduleCancel tag s
  | .noticeFetch tag => Sys2Proof.Machine.execNoticeFetch tag s
  | .malformedRequestKind vol kind tag => Sys2Proof.Machine.execMalformedRequestKind vol kind tag s

end Sys2Proof.Machine
end

