-- ==== Sys2Proof/Safety.lean ====
section
/-! DEFINITION. What claims about the part speak of: the canonical form of its tables, the bounds of its
queues, the laws of the manual, and the words in which statements say what a command leaves. -/

namespace Sys2Proof

/-- The row of the table that a control request is, sent with a tag. -/
def Request.row (tag : Nat) : Request → Option Instr
  | .format k p f l c => some (.format tag k p f l c)
  | .configSet p => some (.configSet tag p)
  | .configRead => some (.configRead tag)
  | .timeSet t => some (.timeSet tag t)
  | .go => some (.go tag)
  | .reset => some (.reset tag)
  | .status => some (.status tag)
  | .volumeCreate v s r o c => some (.volumeCreate tag v s r o c)
  | .volumeDelete v => some (.volumeDelete tag v)
  | .volumeRead v => some (.volumeRead tag v)
  | .freeze v => some (.freeze tag v)
  | .thaw v => some (.thaw tag v)
  | .setFullScan v => some (.setFullScan tag v)
  | .accountSet o s h => some (.accountSet tag o s h)
  | .accountRead o => some (.accountRead tag o)
  | .accountReadNext => some (.accountReadNext tag)
  | .snapshotCreate v k l q => some (.snapshotCreate tag v k l q)
  | .snapshotDelete v s => some (.snapshotDelete tag v s)
  | .snapshotHold v s => some (.snapshotHold tag v s)
  | .snapshotRelease v s => some (.snapshotRelease tag v s)
  | .snapshotList v => some (.snapshotList tag v)
  | .restoreStart a b c d o rs => some (.restoreStart tag a b c d o rs)
  | .restoreSuspend j => some (.restoreSuspend tag j)
  | .restoreResume j => some (.restoreResume tag j)
  | .restoreAbort j => some (.restoreAbort tag j)
  | .restoreStatus j => some (.restoreStatus tag j)
  | .restoreClear j => some (.restoreClear tag j)
  | .runPlanSet vs => some (.runPlanSet tag vs)
  | .runStart m d => some (.runStart tag m d)
  | .runStop => some (.runStop tag)
  | .runStatus => some (.runStatus tag)
  | .plan d => some (.plan tag d)
  | .scheduleWrite b i x => some (.scheduleWrite tag b i x)
  | .scheduleWriteNext x => some (.scheduleWriteNext tag x)
  | .scheduleRead b i => some (.scheduleRead tag b i)
  | .scheduleSwap => some (.scheduleSwap tag)
  | .scheduleCancel => some (.scheduleCancel tag)
  | .noticeFetch => some (.noticeFetch tag)
  | .malformed _ => none

namespace Machine

/-- The tables of a volume are in canonical form. -/
def Volume.wf (x : Volume) : Bool := Table.wf MapEntry.fresh x.map && Table.sorted x.snaps

/-- Every table of the state is in canonical form, so that equal contents are equal data. -/
def State.wf (s : State) : Bool :=
  Table.wf Volume.absent s.vols && s.vols.all (fun p => p.2.wf) && Table.wf Account.fresh s.accounts
    && Table.sorted s.jobs && Table.sorted s.shelf.slots && Table.wf 0 s.shelf.uses
    && Table.wf unusedEntry s.sched.bankA && Table.wf unusedEntry s.sched.bankB

/-- The bounds of the control unit's queues: 8 waiting requests and 128 notices (R183, R189). -/
def queuesBounded (s : State) : Prop :=
  s.ctl.queue.length ≤ Config.controlQueueSize ∧ s.ctl.notices.length ≤ Config.noticeQueueSize

/-! ### The laws of the manual

Each law is a property of one state. `workLaw` says what the in-flight work of a state has to do with its volumes,
its jobs and its commands; the laws of the pool and of the charges are kept by every step only from states that
have it, since a claim or a charge whose work names another chunk than the map would be returned twice or never. -/

/-- The PCNs of the MAPPED entries of a volume. -/
def Volume.mappedPcns (x : Volume) : List Nat :=
  x.map.filterMap fun p => match p.2.form with | .mapped pcn _ _ => some pcn | .unmapped _ => none

/-- The PCNs of the retained sets of a volume. -/
def Volume.retainedPcns (x : Volume) : List Nat := x.snaps.flatMap fun p => p.2.retained.map RetEntry.pcn

/-- The claimed PCNs: the claims of accepted requests, of restore copies and of pending returns (R4, R30, R108,
R116). -/
def State.claimedPcns (s : State) : List Nat :=
  s.mirror.flatMap MirrorRec.claims ++ s.jobs.filterMap (fun p => p.2.copy.map Copy.pcn) ++ s.returns

/-- Every PCN a state holds, in all the places R4 names. -/
def State.allPcns (s : State) : List Nat :=
  s.free ++ s.vols.flatMap (fun p => p.2.mappedPcns) ++ s.vols.flatMap (fun p => p.2.retainedPcns) ++ s.claimedPcns

/-- The laws of the pool (R4): the outstanding-claim count is the number of claimed PCNs, and with the format record
VALID the four places hold each PCN from 0 to P - 1 exactly once, so that their lengths make up P. -/
def poolLaw (s : State) : Prop :=
  s.claims = s.claimedPcns.length ∧
    (s.format.cond = .valid → s.allPcns.Perm (List.range s.format.pool) ∧
      s.free.length + (s.vols.map fun p => p.2.mappedCount).sum + (s.vols.map fun p => p.2.reserveUsage).sum + s.claims
        = s.format.pool)

/-- The generation law of a volume (R80), with the bound of the retained-set law (R82): the snapshots' generations are
distinct and less than G, no MAPPED entry is born later than G, and no retained entry later than its snapshot. -/
def Volume.genLaw (x : Volume) : Prop :=
  (x.snaps.map fun p => p.2.gen).Nodup ∧
    (∀ p ∈ x.snaps, p.2.gen < x.gen ∧ ∀ r ∈ p.2.retained, r.born ≤ p.2.gen) ∧
    ∀ p ∈ x.map, match p.2.form with
      | .mapped _ born _ => born ≤ x.gen
      | .unmapped _ => True

/-- The work of a volume's drains, the running one first. -/
def Volume.works (x : Volume) : List DrainWork := (x.drain.map Drain.work).toList ++ x.waiting

/-- The work of all drains, with its volume. -/
def State.works (s : State) : List (Nat × DrainWork) := s.vols.flatMap fun p => p.2.works.map fun w => (p.1, w)

/-- The volumes of which a RUN create waits for its drain. -/
def State.runAsks (s : State) : List Nat := (s.works.filter fun p => p.2.isRun).map Prod.fst

/-- The outstanding-list law (R145): at most the window size of frames, with consecutive sequence numbers from the
highest acknowledged on; and none without a sequence. -/
def outstandingLaw (s : State) : Prop :=
  let p := s.port
  p.outstanding.length ≤ s.ctl.config.window ∧
    if p.seqRun = none then p.outstanding = []
    else p.outstanding.map Frame.seq = List.range' (p.highestAcked + 1) p.outstanding.length ∧
      p.nextNo = p.highestAcked + 1 + p.outstanding.length

/-- The order of a run's frames (R127 to R133), which the outstanding-list law rests on: an IDLE run has no sequence, no
frame and no read; a VOLUME SEAL or RUN CLOSE is the last frame sent or offered, in phase SEAL of a volume and past
the last volume; and a RUN create waits only in phase FREEZE of the current volume. -/
def runLaw (s : State) : Prop :=
  let r := s.run
  let fs := s.port.outstanding ++ r.frames
  (r.state = .idle → s.port.seqRun = none ∧ r.frames = [] ∧ r.reading = none) ∧
    (r.reading ≠ none → r.phase = .send ∧ r.frames = [] ∧ s.currentVol ≠ none) ∧
    (∀ f ∈ fs.dropLast, f.kind ≠ .volumeSeal ∧ f.kind ≠ .runClose) ∧
    (∀ f ∈ fs, f.kind = .volumeSeal → r.phase = .seal ∧ s.currentVol ≠ none) ∧
    (∀ f ∈ fs, f.kind = .runClose → s.currentVol = none) ∧
    s.runAsks.length ≤ 1 ∧
    (∀ v ∈ s.runAsks, r.state ≠ .idle ∧ r.phase = .freeze ∧ r.asked = true ∧ s.currentVol = some v)

/-- An accepted WRITE that is not yet committed. -/
def Entry.writes (x : Entry) : Bool := x.state == .active && x.req.kind == .write

/-- The chunk plan of an accepted WRITE fits the map as it stands, with a claimed PCN for each U and S chunk, and its
charges are those of the plan (R43, R50, R51). -/
def planLaw (s : State) (x : Entry) : Prop :=
  (x.plan.map ChunkPlan.lcn).Nodup ∧
    (∀ p ∈ x.plan, p.lcn ∈ span s.format.k x.req.start x.req.count ∧
      match p.cls, ((s.vol x.req.vol).entry p.lcn).form with
      | .unmapped, .unmapped _ => p.claimed ≠ none
      | .shared, .mapped pcn born o => p.claimed ≠ none ∧ p.old = some (pcn, born, o)
      | .inPlace, .mapped .. => True
      | _, _ => False) ∧
    (x.plan.filter ChunkPlan.needsPcn).filterMap ChunkPlan.claimed = x.claims ∧
    x.charges = writeCharges x.req.owner x.plan

/-- The in-flight table, its mirror and the hold lists (R21, R27, R30, R40). -/
def entryLaw (s : State) : Prop :=
  (s.inflight.map Entry.arrival).Nodup ∧ (s.mirror.map MirrorRec.arrival).Nodup ∧
    (∀ x ∈ s.inflight, x.arrival < s.nextArrival ∧ (s.vol x.req.vol).usable = true ∧ 1 ≤ x.req.count ∧
      x.req.start + x.req.count ≤ (s.vol x.req.vol).size * 2 ^ s.format.k ∧
      if x.writes then
        planLaw s x ∧ ∃ r ∈ s.mirror, r.arrival = x.arrival ∧ r.vol = x.req.vol ∧ r.claims = x.claims ∧
          r.charges = x.charges
      else x.claims = [] ∧ x.charges = [] ∧ x.plan = []) ∧
    (∀ r ∈ s.mirror, (s.vol r.vol).usable = true ∧ (r.charges.map Prod.fst).Nodup ∧
      (s.ctl.part ≠ .recovering → ∃ x ∈ s.inflight, x.writes = true ∧ x.arrival = r.arrival)) ∧
    ∀ p ∈ s.vols, p.2.holdList.Nodup ∧ ∀ a ∈ p.2.holdList, a < s.nextArrival ∧
      ∀ x ∈ s.inflight, x.arrival = a → x.state = .held ∧ x.req.vol = p.1

/-- The busy set (R22, R23): no item has proceeded past an earlier one that it conflicts with, so no two that have
proceeded conflict; and the items are those of the requests that are not HELD and of the jobs' visits. -/
def busyLaw (s : State) : Prop :=
  s.busy.Pairwise (fun a b => b.proceeded = true → a.conflicts b = false) ∧ (s.busy.map BusyItem.owner).Nodup ∧
    (∀ i ∈ s.busy, match i.owner with
      | .front a => ∃ x ∈ s.inflight, x.arrival = a ∧ x.state ≠ .held ∧
          i = { busyItemOf s.format.k x with proceeded := x.state == .active }
      | .restore j => ∃ p ∈ s.jobs, p.1 = j ∧ i.vol = p.2.dstVol ∧ i.change = true ∧
          if i.proceeded then p.2.copy.map (fun c => [c.lcn]) = some i.chunks
          else p.2.waiting = true ∧ p.2.target.map (fun t => [t.1]) = some i.chunks) ∧
    (∀ x ∈ s.inflight, x.writes = true → ∃ i ∈ s.busy, i.owner = .front x.arrival) ∧
    (s.ctl.part ≠ .recovering → ∀ p ∈ s.jobs, p.2.visiting = true → ∃ i ∈ s.busy, i.owner = .restore p.1)

/-- The target chunks of a job from its visit position on. -/
def Job.toVisit (j : Job) : Nat := ((j.ranges.drop j.rangeIdx).map Range.count).sum - j.offset

/-- The restore jobs (R100, R105, R115): a job that has ended holds nothing; the others name volumes that stand, ranges
inside their target, and a remaining reservation of the chunks still to visit, the one in flight apart. -/
def jobLaw (s : State) : Prop :=
  ∀ p ∈ s.jobs, let x := p.2
    (x.copy ≠ none ∨ x.waiting = true → x.state = .running) ∧ (x.waiting = true → x.copy = none) ∧
      (∀ c, x.copy = some c → x.target.map Prod.fst = some c.lcn) ∧
      if x.state.ended then x.remaining = 0
      else (s.vol x.srcVol).usable = true ∧ (s.vol x.dstVol).usable = true ∧
        (∀ r ∈ x.ranges, 1 ≤ r.count ∧ r.dst + r.count ≤ (s.vol x.dstVol).size) ∧
        (match x.ranges[x.rangeIdx]? with | some r => x.offset < r.count | none => x.offset = 0) ∧
        x.remaining + (if x.copy.isSome then 1 else 0) = x.toVisit

/-- The shelf commands of the part, waiting or in a slot. -/
def Shelf.cmds (p : Shelf) : List ShelfCmd :=
  p.fgQueue ++ p.restoreQueue ++ p.offsiteQueue ++ p.slots.map fun q => q.2.cmd

/-- The PCNs whose abandoned write has not ended (R116). -/
def Shelf.abandoned (p : Shelf) : List Nat :=
  p.cmds.filterMap fun c => match c.owner with
    | .abandoned pcn => some pcn
    | _ => none

/-- The shelf commands of restore work (R108, R116): one for each copy in flight, and each abandoned write names a PCN
of the pending-return list. -/
def shelfLaw (s : State) : Prop :=
  (∀ c ∈ s.shelf.cmds, match c.owner with
      | .restore j => (tfind s.jobs j).isSome = true
      | _ => True) ∧
    (s.ctl.part ≠ .recovering → ∀ p ∈ s.jobs,
      (s.shelf.cmds.filter fun c => ofJob p.1 c.owner).length = if p.2.copy.isSome then 1 else 0) ∧
    ∀ n ∈ s.shelf.abandoned, s.shelf.abandoned.count n ≤ s.returns.count n

/-- The work of a freeze (R12). -/
def DrainWork.freezes : DrainWork → Bool
  | .refusing _ => true
  | .holding _ => false

/-- The volumes (R1, R2, R9, R10, R12, R124): none without a VALID format record, each MAPPED entry inside its volume
and not behind the delete walk, FREEZING exactly while a freeze's drain runs, no drain on a DELETING one, and every plan
volume of a run standing. -/
def volumeLaw (s : State) : Prop :=
  (s.format.cond ≠ .valid → s.vols = []) ∧
    (s.format.cond = .formatting → s.free = List.range s.free.length ∧ s.free.length < s.format.pool ∧
      s.returns = []) ∧
    (∀ p ∈ s.vols, p.2.state ≠ .absent ∧ (p.2.state = .deleting → p.2.drain = none ∧ p.2.waiting = []) ∧
      (p.2.state = .freezing ↔ p.2.drain.any (fun d => d.work.freezes) = true) ∧
      ∀ q ∈ p.2.map, match q.2.form with
        | .mapped .. => q.1 < p.2.size ∧ (p.2.state = .deleting → p.2.deletePos ≤ q.1)
        | .unmapped _ => True) ∧
    (s.run.state ≠ .idle → ∀ v ∈ s.plan, (s.vol v).usable = true)

/-- How many of the askers of a drain's work wait for a control reply. -/
def DrainWork.controlAsks : DrainWork → Nat
  | .holding c =>
    match c.asker with
    | .control => 1
    | .restore _ => 1
    | .schedule .. => 0
    | .run => 0
  | .refusing fs => fs.count .control

/-- The jobs whose PRE-RESTORE create waits for its drain, with the volume of the drain. -/
def State.restoreAsks (s : State) : List (Nat × Nat) :=
  s.works.filterMap fun p => match p.2 with
    | .holding c => match c.asker with
      | .restore j => some (p.1, j)
      | _ => none
    | .refusing _ => none

/-- Who waits on the drains (R183, R104): the executing slot is occupied exactly while a drain's work is to be answered
by a control reply, and the STARTING jobs are those whose PRE-RESTORE create waits. -/
def askLaw (s : State) : Prop :=
  (s.works.map fun p => p.2.controlAsks).sum = (if s.ctl.executing.isSome then 1 else 0) ∧
    (∀ a ∈ s.restoreAsks, ∃ p ∈ s.jobs, p.1 = a.2 ∧ p.2.state = .starting ∧ p.2.dstVol = a.1) ∧
    (s.ctl.part ≠ .recovering → ∀ p ∈ s.jobs, p.2.state = .starting → p.1 ∈ s.restoreAsks.map Prod.snd)

/-- What recovery has already done (R178): RECOVERING holds no volatile work, and each step leaves none of its own; the
run is IDLE in STANDBY (R139). -/
def recoveryLaw (s : State) : Prop :=
  (s.ctl.part = .standby → s.run.state = .idle) ∧
    (s.ctl.part = .recovering → s.inflight = [] ∧ s.busy = [] ∧ s.shelf.cmds = [] ∧ s.works = [] ∧
      s.ctl.executing = none ∧ (∀ p ∈ s.jobs, p.2.waiting = false) ∧ 1 ≤ s.ctl.recStep ∧ s.ctl.recStep ≤ 4 ∧
      (2 ≤ s.ctl.recStep → s.mirror = []) ∧
      (3 ≤ s.ctl.recStep → s.returns = [] ∧ ∀ p ∈ s.jobs, p.2.state.ended = true) ∧
      (4 ≤ s.ctl.recStep → s.run.state = .idle))

/-- The in-flight work of the part agrees with its volumes, jobs, commands and drains. -/
def workLaw (s : State) : Prop :=
  entryLaw s ∧ busyLaw s ∧ jobLaw s ∧ shelfLaw s ∧ volumeLaw s ∧ askLaw s ∧ recoveryLaw s

/-- The MAPPED entries of an account. -/
def State.mappedOf (s : State) (o : Nat) : Nat :=
  (s.vols.map fun p => (p.2.map.filter fun q =>
    match q.2.form with | .mapped _ _ x => x == o | .unmapped _ => false).length).sum

/-- The net change of an account that a mirror record holds. -/
def MirrorRec.chargeOf (r : MirrorRec) (o : Nat) : Int := ((r.charges.filter fun p => p.1 == o).map Prod.snd).sum

/-- The charge law (R51): an account's charge is the number of MAPPED entries with its tag and the claims charged to it,
less the entries that accepted requests will release; and no more are to be released than there are. -/
def chargeLaw (s : State) (o : Nat) : Prop :=
  ((s.acct o).charge : Int) =
      s.mappedOf o + (s.mirror.map fun r => r.chargeOf o).sum
        + (s.jobs.filter fun p => p.2.copy.isSome && p.2.owner == o).length ∧
    (s.mirror.map fun r => (- r.chargeOf o).toNat).sum ≤ s.mappedOf o

/-- The law of reservation (R70): an account's reserved count is the sum of the remaining reservations of the open jobs
that carry its tag. In RECOVERING, which ends them, it is 0 (R74). -/
def reservationLaw (s : State) (o : Nat) : Prop :=
  (s.acct o).reserved =
    if s.ctl.part = .recovering then 0
    else ((s.jobs.filter fun p => !p.2.state.ended && p.2.owner == o).map fun p => p.2.remaining).sum

/-- The watermark state is the one that R5 leaves: outside RECOVERING and with the format record VALID, F is not below the
low mark in CLEAR and below the clear mark in LOW. The marks are in the order that R1 and R3 give them. -/
def marksLaw (s : State) : Prop :=
  (s.format.cond ≠ .none → s.format.low < s.format.clear ∧ s.format.clear ≤ s.format.pool) ∧
    (s.ctl.part ≠ .recovering → s.format.cond = .valid →
      if s.poolLow then s.freeCount < s.format.clear else s.format.low ≤ s.freeCount)

/-- The reserve-over flags are those that R84 leaves: a volume with its flag clear is within its reserve limit. A RESET that
cuts off the event in which a RESERVE OVER was due leaves a volume above its limit with the flag clear (R99). -/
def reserveLaw (s : State) : Prop :=
  ∀ p ∈ s.vols, p.2.usable = true → p.2.reserveOver = false →
    p.2.reserveLimit = noLimit ∨ p.2.reserveUsage ≤ p.2.reserveLimit

/-- The laws of the manual, all together. Every step keeps each of them; the law of the reserve-over flags only where no
RESET waits in the control queue (R99). -/
def Safe (s : State) : Prop :=
  s.wf = true ∧ queuesBounded s ∧ (∀ p ∈ s.vols, p.2.genLaw) ∧ marksLaw s ∧ reserveLaw s ∧ outstandingLaw s ∧ runLaw s ∧
    workLaw s ∧ poolLaw s ∧ ∀ o, chargeLaw s o ∧ reservationLaw s o

/-! ### How statements name what a command leaves -/

/-- The control unit is free: the link is up, the executing slot and the queue are empty, so that a request
that arrives executes in its arrival event (R183). -/
def State.ctlFree (s : State) : Prop :=
  s.frontUp = true ∧ s.ctl.executing = none ∧ s.ctl.queue = []

/-- The control unit is free and the part is not RECOVERING: every request makes the checks of its own rule (R180). -/
def State.ctlServes (s : State) : Prop := s.ctlFree ∧ s.ctl.part ≠ .recovering

/-- `s` as an event that changes nothing more leaves it: nothing on the links, and a firing pass with no due
head over (R63). -/
def State.closed (s : State) : State := { s with out := [], firing := s.firing && s.headDue }

/-- `s` after an event whose only output is one control reply, the executing slot free (R183, R184). -/
def State.answered (s : State) (number tag : Nat) (code : Code) (result : List Nat) : State :=
  { s with
    ctl := { s.ctl with executing := none },
    out := [.control (!s.ctl.notices.isEmpty) s.ctl.lost number tag code result],
    firing := s.firing && s.headDue }

/-- `s` after an event whose only output is one front reply without data. -/
def State.replied (s : State) (addr kind : Nat) (code : Code) (tag : Nat) : State :=
  { s with out := [.front addr kind code tag 0 []], firing := s.firing && s.headDue }

/-- `t` is `s` with the LCNs `ls` of a volume logged in one event, in their order (R121): those whose stamp is not the
run counter join the active list while it has room; one that finds it full marks it incomplete and sets the overflow
flag, with CHANGE LIST OVERFLOW if the flag was clear (seen unless a notice was lost). -/
def Logged (s t : State) (v : Nat) (ls : List Nat) : Prop :=
  let x := s.vol v
  let y := t.vol v
  let new := if x.offsite then ls.filter fun c => (x.entry c).stamp != some x.runCounter else []
  let taken := new.take (x.cap - x.activeList.length)
  y.activeList = x.activeList ++ taken ∧
    (∀ c, (y.entry c).stamp = if c ∈ taken then some x.runCounter else (x.entry c).stamp) ∧
    if taken.length < new.length then
      y.activeIncomplete = true ∧ y.overflow = true ∧
        (x.overflow = false → t.ctl.lost = false →
          s.notice .changeListOverflow v x.cap x.runCounter ∈ t.ctl.notices)
    else y.activeIncomplete = x.activeIncomplete ∧ y.overflow = x.overflow

/-- `t` is `s` with the displaced chunks `ds` of a volume filed in one event, in their order, with filing generation
`g` (R83): of the snapshots that are not DELETING and of generation `g` or less the newest takes the chunks born by its
generation at the tail of its retained set; the other PCNs join the tail of the free FIFO. No other set changes. -/
def Filed (s t : State) (v g : Nat) (ds : List RetEntry) : Prop :=
  let kept := fun (x : Volume) (i : Nat) => (tfind x.snaps i).map Snap.retained
  let takes := fun (p : Nat × Snap) => p.2.state ≠ .deleting ∧ p.2.gen ≤ g
  let snaps := (s.vol v).snaps
  ((∀ p ∈ snaps, ¬ takes p) →
    t.free = s.free ++ ds.map RetEntry.pcn ∧ ∀ i, kept (t.vol v) i = kept (s.vol v) i) ∧
  ∀ p ∈ snaps, takes p → (∀ q ∈ snaps, takes q → q.2.gen ≤ p.2.gen) →
    t.free = s.free ++ (ds.filter fun d => decide (p.2.gen < d.born)).map RetEntry.pcn ∧
      kept (t.vol v) p.1 = some (p.2.retained ++ ds.filter fun d => decide (d.born ≤ p.2.gen)) ∧
      ∀ i, i ≠ p.1 → kept (t.vol v) i = kept (s.vol v) i

/-- `t` is `s` after the failure of the request of entry `x` (R37, R54): its claims are at the tail of the free FIFO in
claim order, its charge changes are reversed (said of a request that names each account once), its P chunks whose in-place
write had taken a slot are logged, its mirror record, entry and busy item are gone, and its reply is MEDIA. No map
entry's form and no retained set has changed. -/
def MediaFailed (s t : State) (x : Entry) : Prop :=
  let v := x.req.vol
  let kind := match x.req.kind with | .read => 1 | .write => 2 | .discard => 3
  let touched := x.charges.map Prod.fst
  t.out = [.front v kind .media x.req.tag 0 []] ∧
  t.inflight = (s.inflight.filter fun y => y.arrival != x.arrival) ∧
  t.busy = (s.busy.filter fun i => i.owner != .front x.arrival) ∧
  t.mirror = (s.mirror.filter fun r => r.arrival != x.arrival) ∧
  t.free = s.free ++ x.claims ∧ t.claims = s.claims - x.claims.length ∧
  (touched.Nodup →
    (∀ p ∈ x.charges, (t.acct p.1).charge = (((s.acct p.1).charge : Int) - p.2).toNat) ∧
      ∀ o, o ∉ touched → t.acct o = s.acct o) ∧
  Logged s t v ((x.plan.filter fun p => p.cls == .inPlace && p.slotted).map ChunkPlan.lcn) ∧
  (∀ l, ((t.vol v).entry l).form = ((s.vol v).entry l).form) ∧ (t.vol v).snaps = (s.vol v).snaps ∧
  (t.vol v).gen = (s.vol v).gen ∧ (t.vol v).size = (s.vol v).size ∧ (t.vol v).state = (s.vol v).state ∧
  (∀ w, w ≠ v → t.vol w = s.vol w) ∧ t.jobs = s.jobs ∧ t.run = s.run ∧ t.returns = s.returns

/-- The RUN snapshot in slot 0 of a volume of `s` is queued for deletion in `t` (R88): DELETE PENDING behind others, DELETING
at the head of an empty queue (R89), and gone at once if its set is empty in a RUNNING part (R91). -/
def RunSnapQueued (s t : State) (v : Nat) : Prop :=
  let x := s.vol v
  let y := t.vol v
  (tfind x.snaps 0 = none → y.snaps = x.snaps ∧ y.deleteQueue = x.deleteQueue) ∧
  ∀ d, tfind x.snaps 0 = some d →
    (x.deleteQueue ≠ [] → y.snaps = tput 0 { d with state := .deletePending } x.snaps ∧
      y.deleteQueue = x.deleteQueue ++ [0]) ∧
    (x.deleteQueue = [] → d.retained ≠ [] ∨ s.ctl.part ≠ .running →
      y.snaps = tput 0 { d with state := .deleting } x.snaps ∧ y.deleteQueue = [0]) ∧
    (x.deleteQueue = [] → d.retained = [] → s.ctl.part = .running →
      y.snaps = tdel 0 x.snaps ∧ y.deleteQueue = [])

/-! ### What waits, and goes on within an event -/

/-- The copy of the visit that a job makes next (R22, R105). -/
def Job.visitItem (j : Nat) (x : Job) : BusyItem :=
  { owner := .restore j, vol := x.dstVol, chunks := (x.target.map Prod.fst).toList, change := true, proceeded := false }

/-- A job that runs begins its visit of this target volume at once: it is not FROZEN and no drain of it runs (R105). -/
def Volume.admitsVisit (x : Volume) : Bool := x.drain.isNone && x.state != .frozen

/-- `s` with the jobs that `p` accepts going on (R111, R113, R114), where each visit begun waits behind earlier work: YIELDED
while the yield flag is set; else PAUSED-FROZEN on a FROZEN target, RUNNING while a drain of the target runs, and else
RUNNING with its copy at the end of the busy set, in job number order. -/
def State.jobsGoOn (s : State) (p : Job → Bool) : State :=
  let begins := fun (x : Job) => p x && !s.yielding && (s.vol x.dstVol).admitsVisit
  let to_ := fun (x : Job) =>
    if s.yielding then JobState.yielded
    else if (s.vol x.dstVol).drain = none ∧ (s.vol x.dstVol).state = .frozen then .pausedFrozen else .running
  { s with
    jobs := s.jobs.map fun q =>
      if p q.2 then (q.1, { q.2 with state := to_ q.2, waiting := q.2.waiting || begins q.2 }) else q,
    busy := s.busy ++ (s.jobs.filter fun q => begins q.2).map fun q => q.2.visitItem q.1 }

/-- The case of which `jobsGoOn` speaks: the yield flag is set, or no other job can begin a visit and, where a job goes on, in
a RUNNING part of at most four jobs (R100), every chunk that such a job visits next is in the hands of earlier work. -/
def State.visitsWait (s : State) (p : Job → Bool) : Prop :=
  s.yielding = true ∨
    ((∀ q ∈ s.jobs, q.2.state = .running → q.2.visiting = true ∨ (s.vol q.2.dstVol).drain ≠ none) ∧
    ((∃ q ∈ s.jobs, p q.2 = true) → s.ctl.part = .running ∧ s.jobs.length ≤ 4 ∧ firstProceed [] s.busy = none ∧
      ∀ q ∈ s.jobs, p q.2 = true → q.2.visiting = false ∧ q.2.target ≠ none ∧
        ((s.vol q.2.dstVol).admitsVisit = true → ∃ i ∈ s.busy, i.conflicts (q.2.visitItem q.1) = true)))

/-- `s` with the yield flag set (R111): the RUNNING jobs with no copy in flight are YIELDED, their waiting copies withdrawn
from the busy set; a job with a copy in flight stays RUNNING. -/
def State.jobsYield (s : State) : State :=
  let yields := fun (x : Job) => x.state == .running && x.copy.isNone
  { s with
    yielding := true,
    jobs := s.jobs.map fun q => if yields q.2 then (q.1, { q.2 with state := .yielded, waiting := false }) else q,
    busy := s.busy.filter fun i => !s.jobs.any fun q => yields q.2 && q.2.waiting && i.owner == .restore q.1 }

/-- `s` after the test of the yield flag against the watermarks, with its effects on the jobs (R111). -/
def State.yieldTested (s : State) : State :=
  if yieldAfter s = s.yielding then s
  else if s.yielding then ({ s with yielding := false } : State).jobsGoOn fun x => x.state == .yielded
  else s.jobsYield

/-- The case of which `yieldTested` speaks: the flag keeps its value; or it is set, no drain runs and no work that waits
may proceed once the waiting copies are withdrawn; or it is cleared and the visits begun wait behind earlier work. -/
def State.yieldSettles (s : State) : Prop :=
  yieldAfter s = s.yielding ∨ (s.wf = true ∧
    if s.yielding then ({ s with yielding := false } : State).visitsWait fun x => x.state == .yielded
    else firstProceed [] s.jobsYield.busy = none ∧ ∀ p ∈ s.vols, p.2.drain = none)

/-- `s` with the hold list of a volume released at the end of its drain (R27): each request is WAITING, in hold-list order, and
its item stands at the end of the busy set. The fresh arrival number is the model's: log entry 32. -/
def State.released (s : State) (v : Nat) : State :=
  let x := s.vol v
  let number := fun a => s.nextArrival + x.holdList.idxOf a
  let fresh := fun (z : Entry) => { z with arrival := number z.arrival, state := .waiting }
  { s with
    inflight := s.inflight.map fun z => if x.holdList.contains z.arrival then fresh z else z,
    busy := s.busy ++ x.holdList.filterMap fun a =>
      (s.inflight.find? fun z => z.arrival == a).map fun z => busyItemOf s.format.k (fresh z),
    nextArrival := s.nextArrival + x.holdList.length,
    vols := tset Volume.absent v { x with drain := none, holdList := [] } s.vols }

/-- `s` with the next waiting drain of a volume begun (R25 to R27): its set is the changing work in hand, and a freeze makes the
volume FREEZING. -/
def State.nextDrain (s : State) (v : Nat) : State :=
  let x := s.vol v
  match x.waiting with
  | [] => s
  | w :: rest =>
    let d : Drain := { work := w, members := drainSet s v, timeout := s.ctl.config.drainTimeout }
    let y := { x with waiting := rest, drain := some d, state := if w.freezes then .freezing else x.state }
    { s with vols := tset Volume.absent v y s.vols }

/-- The case of which the end of a drain of a volume is stated: no job can begin a visit, the requests released wait behind
earlier work, and the next waiting drain, if there is one, finds changing work in hand. -/
def State.releaseWaits (s : State) (v : Nat) : Prop :=
  let x := s.vol v
  (∀ q ∈ s.jobs, q.2.state ≠ .running) ∧
  (x.holdList ≠ [] → firstProceed [] (s.released v).busy = none ∧ x.holdList.Nodup ∧
    (s.inflight.map Entry.arrival).Nodup ∧ (∀ z ∈ s.inflight, z.arrival < s.nextArrival) ∧
    ∀ a ∈ x.holdList, ∃ z ∈ s.inflight, z.arrival = a) ∧
  ∀ w ∈ x.waiting.head?, drainSet (s.released v) v ≠ [] ∧ (w.freezes = true → x.state = .normal)

/-- The RUN create of the run's current volume runs its drain (R127). -/
def State.runDrains (s : State) (v : Nat) : Prop :=
  s.currentVol = some v ∧ s.run.phase = .freeze ∧ (s.vol v).drain.any (fun d => d.work.isRun) = true

/-- `t` is `s` after the early end of the run, as the volumes show it (R138). In FREEZE the RUN create is withdrawn and nothing
is merged: where its drain runs the drain ends without its action, the hold list is released and the next waiting drain
begins (R29, stated for requests that then wait); where it waits behind another drain it leaves the queue. From the freeze to
the seal the run list is merged into the active list in order (R121) and emptied, and the RUN snapshot queued for deletion.
No other volume changes. -/
def RunGivenUp (s t : State) : Prop :=
  (∀ w, s.currentVol ≠ some w → t.vol w = s.vol w) ∧
  (∀ v, s.runDrains v →
    let r := (s.released v).nextDrain v
    t.vol v = r.vol v ∧ t.inflight = r.inflight ∧ t.busy = r.busy ∧ t.nextArrival = r.nextArrival) ∧
  ((∀ v, ¬ s.runDrains v) → t.inflight = s.inflight ∧ t.busy = s.busy ∧ t.nextArrival = s.nextArrival) ∧
  (∀ v, s.currentVol = some v → s.run.phase = .freeze → ¬ s.runDrains v →
    t.vol v = { s.vol v with waiting := (s.vol v).waiting.filter fun w => !w.isRun }) ∧
  ∀ v, s.currentVol = some v → s.run.phase ≠ .freeze →
    let x := s.vol v
    let y := t.vol v
    Logged { s with sched := t.sched } t v x.runList.eraseDups ∧ y.runList = [] ∧ y.runIncomplete = false ∧
    (∀ l, (y.entry l).form = (x.entry l).form) ∧ y.gen = x.gen ∧ y.size = x.size ∧ y.state = x.state ∧
    y.runCounter = x.runCounter ∧ y.fullScan = x.fullScan ∧ y.everSealed = x.everSealed ∧
    y.drain = x.drain ∧ y.waiting = x.waiting ∧ y.holdList = x.holdList ∧ RunSnapQueued s t v

/-- `t` is `s` after a run has ended early with result `r` (R138): IDLE with that result, no frame and no mark, the port
emptied, nothing freed, charged or copied, and RUN ENDED queued after all else (outside RECOVERING, where recovery goes on). -/
def RunEnded (s t : State) (r : RunResult) : Prop :=
  t.run.state = .idle ∧ t.run.result = r ∧ t.run.frames = [] ∧ t.run.reading = none ∧ t.run.runId = s.run.runId ∧
  t.run.sealedVols = s.run.sealedVols ∧ t.run.linkMark = false ∧ t.run.shelfMark = false ∧
  t.port.outstanding = [] ∧ t.port.resendPos = none ∧ t.port.ackTimer = none ∧ t.port.seqRun = none ∧
  t.port.retry = 0 ∧ t.plan = s.plan ∧ t.free = s.free ∧ t.accounts = s.accounts ∧ t.jobs = s.jobs ∧
  t.claims = s.claims ∧ RunGivenUp s t ∧
  (s.ctl.part ≠ .recovering → ∃ d, t.ctl = offer d
    { kind := .runEnded, time := if t.sched.clockSet then t.sched.clock else 0, subject := s.run.runId,
      d1 := match r with
        | .none => 0 | .complete => 1 | .stopped => 2 | .deadline => 3 | .failed => 4 | .interrupted => 5,
      d2 := s.run.sealedVols })

/-- The order in which the arbiter grants waiting commands, at most `n` of them, and the port's queues, streak count and turn
after them (R160, R161). -/
def grantOrder : Nat → Shelf → List ShelfCmd × Shelf
  | 0, p => ([], p)
  | n + 1, p =>
    let background := !(p.restoreQueue.isEmpty && p.offsiteQueue.isEmpty)
    let then_ := fun (c : ShelfCmd) (q : Shelf) => let r := grantOrder n q; (c :: r.1, r.2)
    if p.fgQueue ≠ [] ∧ ¬ (p.streak = 15 ∧ background = true) then
      match p.fgQueue with
      | c :: t => then_ c { p with fgQueue := t, streak := if background then p.streak + 1 else 0 }
      | [] => ([], p)
    else if p.restoreQueue ≠ [] ∧ (p.turnOffsite = false ∨ p.offsiteQueue = []) then
      match p.restoreQueue with
      | c :: t => then_ c { p with restoreQueue := t, streak := 0, turnOffsite := true }
      | [] => ([], p)
    else match p.offsiteQueue with
      | c :: t => then_ c { p with offsiteQueue := t, streak := 0, turnOffsite := false }
      | [] => ([], p)

/-- Nothing in the part waits for the work of `o`: no other item may proceed, no drain runs, no shelf command waits, and
the jobs other than `o`'s make no visit and wait for no pool. -/
def State.quietBut (s : State) (o : BusyOwner) : Prop :=
  firstProceed [] (s.busy.filter fun i => i.owner != o) = none ∧ (∀ p ∈ s.vols, p.2.drain = none) ∧
    s.shelf.fgQueue = [] ∧ s.shelf.restoreQueue = [] ∧ s.shelf.offsiteQueue = [] ∧
    ∀ p ∈ s.jobs, .restore p.1 ≠ o → p.2.state ≠ .running ∧ p.2.state ≠ .pausedPool

/-- A request that waits behind a front request in hand proceeds in the event in which that request is answered (R21 to
R23). `q` is `s` with the waiting request in it, `arrive` its arrival, `item` its busy item. The event that ends the work
before it leaves on `q` what it leaves on `s` followed by the arrival of the request: the two go together. Stated for the
ends that `ends` accepts, with nothing else waiting in the part and an occupancy that stays between the watermarks. -/
def ProceedsInTurn (s q : State) (arrive : Instr) (item : BusyItem) (ends : Entry → SlotRec → ShelfResult → Prop) :
    Prop :=
  ∀ (slot lcn : Nat) (c : SlotRec) (x : Entry) (why : Purpose) (result : ShelfResult) (u t : State),
    tfind s.shelf.slots slot = some c → c.cmd.owner = .request x.arrival lcn why →
    s.inflight.find? (fun z => z.arrival == x.arrival) = some x → ends x c result →
    s.quietBut (.front x.arrival) → s.yielding = false → s.inflight.length + 1 < s.ctl.config.yieldHigh →
    (s.firing = true → s.headDue = true) →
    let reply := Instr.shelfReply slot c.epoch c.use (c.cmd.kind == .write) result
    exec reply s = .next u → (∀ i ∈ u.busy, i.conflicts item = false) → exec arrive u = .next t →
    exec reply q = .next { t with out := u.out ++ t.out }

/-- The DONE of a READ's command, which changes nothing but the READ. -/
def endsRead (x : Entry) (c : SlotRec) (result : ShelfResult) : Prop :=
  x.req.kind = .read ∧ x.failed = false ∧ c.cmd.kind = .read ∧
    ∃ data, result = .done data 0 ∧ data.length = c.cmd.count

/-- `s` after a step answers a next state of which `p` holds. -/
def Answers (o : Host.Outcome State Fault Refusal) (p : State → Prop) : Prop := ∃ t, o = .next t ∧ p t

end Machine
end Sys2Proof
end

