-- ==== Sys2Proof/Certificates/Slice0/Obligations.lean ====
section
/-! DEFINITION. The statements for the provers. `s.closed`, `s.answered …` and `s.replied …` (Safety.lean) are `s`
but for what the links carry and the end of a firing pass, so a statement `exec c s = .next (… )` is also the frame of
`c`: everything it does not name stands. -/

open Sys2Proof Sys2Proof.Machine

/-! ### The block as a whole -/

/-- The model's queue of commands: a step runs the command at the front on the state with the queue's rest; with an
empty queue the part idles (the model's choice, log entry 1). -/
def Obligations.StepRunsFrontCommand : Prop :=
  (∀ (s : State) (c : Instr) (rest : List Instr), s.pending = c :: rest →
    step s = exec c { s with pending := rest }) ∧
  ∀ s : State, s.pending = [] → step s = .next s

/-- The machine of a new part right after its first power-on: the values of R57, R100, R123, R155, R167, R168, R171,
R178 and R189, with the reset epoch stepped once; and every law that the statements on steps keep holds there
(`Safe`). The moment, and the run and pacing values no rule gives, are the model's choice: log entries 2 and 4. -/
def Obligations.ResetIsANewPartInStandby : Prop :=
  let s := State.reset
  s.ctl.part = .standby ∧ s.format.cond = .none ∧ s.vols = [] ∧ s.accounts = [] ∧ s.jobs = [] ∧
    s.run.state = .idle ∧ s.run.runId = 0 ∧ s.run.result = .none ∧ s.plan = [] ∧
    s.port.up = false ∧ s.port.site = none ∧ s.port.outstanding = [] ∧
    s.shelf.up = false ∧ s.shelf.epoch = 1 ∧ s.shelf.slots = [] ∧ s.shelf.streak = 0 ∧
    s.shelf.turnOffsite = false ∧ s.sched.clockSet = false ∧ s.sched.activeB = false ∧
    s.sched.rate = .night ∧ s.sched.bankA = [] ∧ s.sched.bankB = [] ∧
    s.ctl.notices = [{ kind := .recovered, time := 0, subject := 0, d1 := 0, d2 := 0 }] ∧
    s.ctl.acctCursor = 65535 ∧ s.pending = [] ∧ Safe s

/-- The bounds of R183 and R189 on the control queue and the notice queue are kept by every step, from every state
that meets them. -/
def Obligations.StepKeepsQueueBounds : Prop :=
  ∀ s t : State, s.ctl.queue.length ≤ 8 ∧ s.ctl.notices.length ≤ 128 → step s = .next t →
    t.ctl.queue.length ≤ 8 ∧ t.ctl.notices.length ≤ 128

/-- The canonical form of every table (`State.wf`: keys strictly rising, no entry equal to what an unlisted key reads
as) is kept by every step, from every state that has it; so equal contents of volumes, maps, accounts, jobs, slots and
banks are equal data. The form is the model's own (log entry 64); no rule of the spec speaks of it. -/
def Obligations.StepKeepsTablesCanonical : Prop :=
  ∀ s t : State, s.wf = true → step s = .next t → t.wf = true

/-! ### The laws of the manual, kept by every step -/

/-- The generation law (R80) of every volume, with the bound of the retained-set law (R82): snapshots of distinct
generations below G, no MAPPED entry born later than G, and no retained entry later than its snapshot. Every step
keeps it, from every state with canonical tables that has it. -/
def Obligations.StepKeepsGenerationLaw : Prop :=
  ∀ s t : State, s.wf = true → (∀ p ∈ s.vols, p.2.genLaw) → step s = .next t → ∀ p ∈ t.vols, p.2.genLaw

/-- The watermark state and the reserve-over flags follow F and the reserve usage (R5, R84): outside RECOVERING a
VALID pool that is CLEAR is not below its low mark and one that is LOW is below its clear mark (`marksLaw`), and a
volume whose reserve-over flag is clear is within its limit (`reserveLaw`). Every step keeps both, whatever F and the
marks do in its event, from every state that has them and in which RECOVERING holds no volatile work (`recoveryLaw`,
part of `workLaw`); the second where no RESET waits in the control queue, since a RESET that cuts its event off leaves
a volume above its limit with the flag clear (R99; log entry 58, the model's reading). -/
def Obligations.StepKeepsWatermarkLaw : Prop :=
  ∀ s t : State, s.wf = true → recoveryLaw s → step s = .next t →
    (marksLaw s → marksLaw t) ∧
    (reserveLaw s → (∀ q ∈ s.ctl.queue, q.req ≠ .reset) → reserveLaw t)

/-- The outstanding-list law (R145): at most the window size of frames, their numbers consecutive from the highest
acknowledged on, and none without a sequence; together with the order of a run's frames (R127 to R133) on which it
rests (`runLaw`). Every step keeps both, from every state that has both. -/
def Obligations.StepKeepsOutstandingLaw : Prop :=
  ∀ s t : State, s.wf = true → outstandingLaw s → runLaw s → step s = .next t → outstandingLaw t ∧ runLaw t

/-- The work in flight agrees with the volumes, the jobs, the shelf commands and the drains (`workLaw`): each accepted
WRITE has the mirror record, the busy item, the claims and the charges of its chunk plan, and its plan fits the map
(R21, R27, R30, R43, R50, R51); no two proceeded items conflict (R22, R23); each restore job has its position, its
remaining reservation and one command for its copy (R100, R105, R108, R115, R116); each volume its drain and its map
within its size (R1, R2, R9, R10, R12, R124); each waiting control request its drain (R183, R104); and RECOVERING no
volatile work (R178). Every step keeps it, from every state that has it with the laws of the outstanding list. -/
def Obligations.StepKeepsWorkLaw : Prop :=
  ∀ s t : State, s.wf = true → outstandingLaw s → runLaw s → workLaw s → step s = .next t → workLaw t

/-- The laws of the pool (R4): the outstanding-claim count is the number of claimed PCNs, and with the format record
VALID the free FIFO, the map entries, the retained sets and the claims hold each PCN from 0 to P - 1 exactly once, so
that their lengths make up P. Every step of every command keeps it, from every state that has it and whose work agrees
with its volumes (`workLaw`, a statement of its own). -/
def Obligations.StepKeepsPoolLaw : Prop :=
  ∀ s t : State, s.wf = true → outstandingLaw s → runLaw s → workLaw s → poolLaw s → step s = .next t → poolLaw t

/-- The law of charges (R51) and the law of reservations (R70), for every account: its charge is the number of MAPPED
entries with its tag and of claims charged to it, less the entries that accepted requests will release; its reserved
count is the sum of the remaining reservations of its open jobs, and 0 in RECOVERING, which ends them (R74). Every
step keeps both, from every state that has both and whose work agrees with its volumes (`workLaw`). -/
def Obligations.StepKeepsChargeLaws : Prop :=
  ∀ s t : State, s.wf = true → outstandingLaw s → runLaw s → workLaw s →
    (∀ o, chargeLaw s o ∧ reservationLaw s o) → step s = .next t → ∀ o, chargeLaw t o ∧ reservationLaw t o

/-! ### Values that other statements name -/

/-- The two tables that an event's end evaluates. The pool (R5), outside RECOVERING and with a VALID record: CLEAR to
LOW with POOL LOW when F is below the low mark, LOW to CLEAR with POOL RECOVERED when F is at the clear mark or above,
and otherwise no change. The reserve of a volume (R84), outside RECOVERING and for a volume that is not DELETING: the
flag is set with RESERVE OVER when the usage is above a limit other than 268,435,455, cleared with RESERVE CLEARED
when the usage is at or below the limit less the band, 0 if the band is greater, and otherwise unchanged. -/
def Obligations.WatermarkAndReserveEvaluations : Prop :=
  ∀ (s : State) (v : Nat),
    let f := s.free.length
    let x := s.vol v
    let usage := (x.snaps.map fun p => p.2.retained.length).sum
    let note := fun (kind : NoticeKind) (subject d1 d2 : Nat) =>
      { kind := kind, time := if s.sched.clockSet then s.sched.clock else 0, subject := subject, d1 := d1, d2 := d2
        : Notice }
    evalPool s = (if s.ctl.part = .recovering ∨ s.format.cond ≠ .valid then (s, [])
      else if s.poolLow = false ∧ f < s.format.low then
        ({ s with poolLow := true }, [note .poolLow 0 f s.format.low])
      else if s.poolLow = true ∧ s.format.clear ≤ f then
        ({ s with poolLow := false }, [note .poolRecovered 0 f s.format.clear])
      else (s, [])) ∧
    evalReserve s v = (if s.ctl.part = .recovering ∨ x.state = .absent ∨ x.state = .deleting then (s, [])
      else if x.reserveOver = false ∧ x.reserveLimit ≠ 268435455 ∧ x.reserveLimit < usage then
        ({ s with vols := tset Volume.absent v { x with reserveOver := true } s.vols },
          [note .reserveOver v usage x.reserveLimit])
      else if x.reserveOver = true ∧
          (if s.ctl.config.band ≤ x.reserveLimit then usage + s.ctl.config.band ≤ x.reserveLimit else usage = 0) then
        ({ s with vols := tset Volume.absent v { x with reserveOver := false } s.vols },
          [note .reserveCleared v usage x.reserveLimit])
      else (s, []))

/-- What four names of other statements stand for. The sharing generation (R82): the greatest generation of the
snapshots that are not DELETING, 0 with none. The view lookup (R85): of the retained sets of snapshots of generation g
or greater, the one of least generation that holds the LCN decides, its PCN if born by g and else UNMAPPED; with none
the live entry decides in the same way. The deadline (R125): the first later campus time of its minute of day, where
the 32-bit clock has one (past its end the value is free, log entry 13). The rebuilt queue (R75): the accounts other
than tag 0 with an expiry, in order of expiry and tag, the first 4,096 of them. -/
def Obligations.DerivedValues : Prop :=
  (∀ x : Volume,
    (∀ p ∈ x.snaps, p.2.state ≠ .deleting → p.2.gen ≤ x.sharingGen) ∧
    ((∃ p ∈ x.snaps, p.2.state ≠ .deleting ∧ p.2.gen = x.sharingGen) ∨
      ((∀ p ∈ x.snaps, p.2.state = .deleting) ∧ x.sharingGen = 0))) ∧
  (∀ (x : Volume) (g lcn : Nat),
    let holds := fun (p : Nat × Snap) => g ≤ p.2.gen ∧ ∃ r ∈ p.2.retained, r.lcn = lcn
    ((∀ p ∈ x.snaps, ¬ holds p) →
      viewLookup x g lcn = match (x.entry lcn).form with
        | .mapped pcn born _ => if born ≤ g then some pcn else none
        | .unmapped _ => none) ∧
    ((x.snaps.map fun p => p.2.gen).Nodup →
      ∀ p ∈ x.snaps, holds p → (∀ q ∈ x.snaps, holds q → p.2.gen ≤ q.2.gen) →
        ∀ r, p.2.retained.find? (fun r => r.lcn == lcn) = some r →
          viewLookup x g lcn = if r.born ≤ g then some r.pcn else none)) ∧
  (∀ now minute t : Nat, minute < 1440 → now < t → t ≤ 4294967295 → t % 86400 = minute * 60 →
    (∀ u, now < u → u % 86400 = minute * 60 → t ≤ u) → nextMinute now minute = t) ∧
  ∀ accounts : Table Account, Table.sorted accounts = true →
    let q := rebuiltQueue accounts
    let before := fun (a b : Nat × Nat) => a.1 < b.1 ∨ (a.1 = b.1 ∧ a.2 < b.2)
    q.length ≤ 4096 ∧ q.Pairwise before ∧
    (∀ p ∈ q, p.2 ≠ 0 ∧ ∃ a, tfind accounts p.2 = some a ∧ a.expiry = some p.1) ∧
    ∀ p ∈ accounts, p.1 ≠ 0 → ∀ x, p.2.expiry = some x →
      (x, p.1) ∈ q ∨ (q.length = 4096 ∧ ∀ a ∈ q, before a (x, p.1))

/-- The evaluation of an account other than tag 0. The expiry is set when the sum is above the soft limit and the
clock is SET, and cleared when the sum is at or below the release threshold (R59). The grace expiry queue follows it
(R62, R66): the entry of a queued account leaves it with the expiry; an account with an expiry later than now and no
entry is inserted at its place in the order of expiry and tag, and its queued flag set, outside RECOVERING and while
fewer than 4,096 entries stand; else the queue is unchanged. The state derived from the sum, the limits, the expiry
and the clock by R58 becomes the last-reported one, with one notice exactly when it differs from the one before: GRACE
STARTED, LAPSED, OVER or CLEARED, with the sum and the expiry, the hard or the soft limit (R61). Tag 0 is not
evaluated (R60). No other account and nothing else changes. That a clock that is NOT SET inserts nothing is the
model's reading: log entry 16. -/
def Obligations.AccountEvaluationSettlesAndReports : Prop :=
  ∀ (s : State) (tag : Nat),
    let a := s.acct tag
    let sum := a.charge + a.reserved
    let now := s.sched.clock
    let r := evaluateAccount s tag
    let b := r.1.acct tag
    let after := fun (p q : Nat × Nat) => p.1 < q.1 ∨ (p.1 = q.1 ∧ p.2 < q.2)
    (tag = 0 → r = (s, [])) ∧
    (tag ≠ 0 →
      b.expiry = (match a.expiry with
        | none =>
          if a.soft < sum ∧ a.soft ≠ 268435455 ∧ s.sched.clockSet = true then
            some (if now + s.ctl.config.grace ≤ 4294967295 then now + s.ctl.config.grace else 4294967295)
          else none
        | some x => if sum + s.ctl.config.band ≤ a.soft ∨ sum = 0 then none else some x) ∧
      b.charge = a.charge ∧ b.reserved = a.reserved ∧ b.soft = a.soft ∧ b.hard = a.hard ∧
      (b.expiry = none →
        b.queued = false ∧ r.1.expiryQueue = if a.queued then s.expiryQueue.filter (fun p => p.2 != tag)
          else s.expiryQueue) ∧
      (∀ x, b.expiry = some x →
        let joins := a.queued = false ∧ s.ctl.part ≠ .recovering ∧ s.sched.clockSet = true ∧ now < x ∧
          s.expiryQueue.length < 4096
        (joins → b.queued = true ∧ ∃ front back, s.expiryQueue = front ++ back ∧
          r.1.expiryQueue = front ++ (x, tag) :: back ∧ (∀ p ∈ front, ¬ after (x, tag) p) ∧
          ∀ p, back.head? = some p → after (x, tag) p) ∧
        (¬ joins → b.queued = a.queued ∧ r.1.expiryQueue = s.expiryQueue)) ∧
      b.last = (if a.hard ≠ 268435455 ∧ a.hard < sum then .over
        else match b.expiry with
          | some x => if s.sched.clockSet = true ∧ x ≤ now then .lapsed else .grace
          | none => .under) ∧
      r.2 = (if b.last = a.last then []
        else
          let details : NoticeKind × Nat := match b.last with
            | .grace => (.graceStarted, b.expiry.getD 0)
            | .lapsed => (.lapsed, b.expiry.getD 0)
            | .over => (.over, a.hard)
            | .under => (.cleared, a.soft)
          [{ kind := details.1, time := if s.sched.clockSet then now else 0, subject := tag, d1 := sum,
             d2 := details.2 }]) ∧
      (∀ o, o ≠ tag → r.1.acct o = s.acct o) ∧
      r.1 = { s with accounts := r.1.accounts, expiryQueue := r.1.expiryQueue })

/-! ### Frames -/

/-- A control request survives its frame: read back from its layout (12.3) it is the request with its tag, every field
at every value its place admits. -/
def Obligations.ControlFrameRoundTrip : Prop :=
  ∀ (tag : Nat) (r : Request), u32 tag = true → r.wf = true → (∀ n, r ≠ .malformed n) →
    (requestWords r).length < 1073741824 →
    controlOf (controlFrame tag r) = some { tag := tag, req := r }

/-- A front request survives its frame (12.2): the part reads back the command with every field and all data. -/
def Obligations.FrontFrameRoundTrip : Prop :=
  ∀ (i : Instr) (f : List Byte), i.wf = true → encodeFrontFrame i = some f → decodeFrontFrame f = some i

/-- The arrival of a request's frame by its bytes is the arrival of that request: the row CONTROL REQUEST ARRIVAL on
an encoded frame does what the row of the request does, in every state (R18, R183, 12.3). That a request's row is its
arrival is the model's reading: log entry 11. The table of R183: a control frame that finds the slot or the queue in
use joins the tail of a queue of fewer than 8, and is answered BUSY with 8 waiting, the queue unchanged. The reply's
flags are those of the moment (R184). A frame that finds the unit free, with an unknown command number or a wrong
length, executes and is answered MALFORMED, or RECOVERING in RECOVERING (R180). RECOVERING before MALFORMED is the
model's reading: log entry 22. RECOVERING refuses every request that is not one of the three status reads, without any
check of its own (R180). The service of the queue (R183): in the event that answers the executing request the head of
the queue executes, and each next one after the reply before it, until one occupies the slot or none waits. Stated for
the drain timer of a control create or freeze, with nothing held or waiting behind its drain, and a queue of CONFIG
READs and of requests that are MALFORMED, which are answered in their order, and then, where there is one more, a
FREEZE of a FREEZING volume, which joins its freeze and occupies the slot, the rest of the queue standing. -/
def Obligations.FrontFramesReachTheirUnits : Prop :=
  (∀ (tag : Nat) (r : Request) (i : Instr) (s : State), u32 tag = true → r.wf = true →
     (requestWords r).length < 1073741824 → r.row tag = some i →
     exec (.controlRequestArrival (controlFrame tag r)) s = exec i s) ∧
  ((∀ (f : List Byte) (q : ControlReq) (s : State), controlOf f = some q → s.frontUp = true →
      (s.ctl.executing ≠ none ∨ s.ctl.queue ≠ [] →
        exec (.controlRequestArrival f) s =
          .next (if s.ctl.queue.length < 8 then
              { s.closed with ctl := { s.ctl with queue := s.ctl.queue ++ [q] } }
            else
              { s.closed with
                out := [.control (!s.ctl.notices.isEmpty) s.ctl.lost q.req.number q.tag .busy []] })) ∧
      (∀ n, s.ctl.executing = none → s.ctl.queue = [] → q.req = .malformed n →
        exec (.controlRequestArrival f) s =
          .next (s.answered n q.tag
            (if s.ctl.part = .recovering ∧ n ≠ 3 ∧ n ≠ 7 ∧ n ≠ 38 then .recovering else .malformed) []))) ∧
   (∀ (s : State) (tag : Nat) (r : Request) (i : Instr), s.ctlFree → s.ctl.part = .recovering →
      r.row tag = some i → r ≠ .status → r ≠ .configRead → r ≠ .noticeFetch →
      exec i s = .next (s.answered r.number tag .recovering [])) ∧
   (∀ (s : State) (v : Nat) (d : Drain) (q : Executing), s.frontUp = true → s.ctl.part ≠ .recovering →
      (s.vol v).drain = some d → (s.vol v).state ≠ .absent → (s.vol v).holdList = [] → (s.vol v).waiting = [] →
      d.work = .refusing [.control] ∨ (∃ c, d.work = .holding c ∧ c.asker = .control) →
      (∀ p ∈ s.jobs, p.2.state ≠ .running) → s.ctl.executing = some q → s.ctl.queue.length ≤ 8 →
      let y := { s.vol v with drain := none, state := if d.work.freezes then .normal else (s.vol v).state }
      let c := s.ctl.config
      let mark := fun n => if s.format.cond = .valid then n else 0
      let reply := fun (n tag : Nat) (code : Code) (result : List Nat) =>
        Output.control (!s.ctl.notices.isEmpty) s.ctl.lost n tag code result
      let answer := fun (r : ControlReq) => match r.req with
        | .malformed n => reply n r.tag .malformed []
        | _ => reply 3 r.tag .ok
          [mark s.format.floor, mark s.format.low, mark s.format.clear, c.grace, c.band, c.drainTimeout,
            c.shelfTimeout, c.yieldHigh, c.yieldLow, c.partnerSite, c.window, c.ackTimeout, c.retryLimit, c.nightRate,
            c.dayRate, s.sched.rate.value, s.format.cond.value, s.format.k, s.format.pool]
      ∀ qs, (∀ r ∈ qs, r.req = .configRead ∨ ∃ n, r.req = .malformed n) →
        let served := fun (waits : Option Executing) (rest : List ControlReq) =>
          { s.closed with
            vols := tset Volume.absent v y s.vols, ctl := { s.ctl with executing := waits, queue := rest },
            out := reply q.number q.tag .timeout [] :: qs.map answer }
        (s.ctl.queue = qs → exec (.drainTimeout v) s = .next (served none [])) ∧
        (∀ tag w more fs m n, s.ctl.queue = qs ++ { tag := tag, req := .freeze w } :: more → w ≤ 63 → w ≠ v →
          (s.vol w).state = .freezing → (s.vol w).drain = some { work := .refusing fs, members := m, timeout := n } →
          let z := { s.vol w with
            drain := some { work := .refusing (fs ++ [.control]), members := m, timeout := n : Drain } }
          let u := served (some { tag := tag, number := 11 }) more
          exec (.drainTimeout v) s = .next { u with vols := tset Volume.absent w z u.vols })))

/-- Frames that are no request: a frame to an address that is neither a volume nor the control address is answered
MALFORMED by the front port with the frame's tag (R18), its reply's kind 0; a frame to a volume with an unknown kind
is answered MALFORMED (R19, R20); a frame shorter than its header is discarded (R192). A link event changes the front
link's state and nothing else; while the link is down no request arrives and no reply goes out (R39). A received
offsite frame that is not one of the partner's five kinds, has a payload or another length than 48 bytes is ignored
and counted, and nothing else changes (R143, R192). Which frames these are is the model's reading: log entry 14. -/
def Obligations.FramesThatAreNoRequestAreAnsweredOrCounted : Prop :=
  (∀ (s : State) (addr kind tag len : Nat),
     exec (.frontFrameBadAddress addr kind tag) s =
       .next (if s.frontUp then s.replied addr 0 .malformed tag else s.closed) ∧
     exec (.malformedRequestKind addr kind tag) s =
       .next (if s.frontUp then s.replied addr kind .malformed tag else s.closed) ∧
     exec (.shortFrameDiscard addr len) s = .next s.closed ∧
     exec .frontLinkDown s = .next { s.closed with frontUp := false } ∧
     exec .frontLinkUp s = .next { s.closed with frontUp := true } ∧
     (s.frontUp = false → ∀ vol view start count owner data f,
       exec (.read tag vol view start count owner len) s = .next s.closed ∧
       exec (.write tag vol start count owner len data) s = .next s.closed ∧
       exec (.discard tag vol start count owner len) s = .next s.closed ∧
       exec (.controlRequestArrival f) s = .next s.closed)) ∧
  (∀ (s : State) (f : List Byte),
     (f.length ≠ 48 ∨ (∃ b ∈ (f.drop 20).take 4, b ≠ 0#8) ∨
       ∀ b, f.head? = some b → b ∉ [17#8, 18#8, 19#8, 20#8, 21#8]) →
     exec (.offsiteFrameIgnored f) s = .next
       ({ s with port := { s.port with ignored := s.port.ignored + 1 } } : State).closed)

/-! ### Control requests: the whole part -/

/-- CONFIG READ, in every part state (R186): the reply OK with the sixteen fields in the order of 11.4, the pool
thresholds as 0 while the format record is not VALID, then the format record's condition, chunk shift and pool size;
nothing changes. -/
def Obligations.ConfigReadReportsTheRecord : Prop :=
  ∀ (s : State) (tag : Nat), s.ctlFree →
    let c := s.ctl.config
    let mark := fun n => if s.format.cond = .valid then n else 0
    exec (.configRead tag) s = .next (s.answered 3 tag .ok
      [mark s.format.floor, mark s.format.low, mark s.format.clear, c.grace, c.band, c.drainTimeout, c.shelfTimeout,
        c.yieldHigh, c.yieldLow, c.partnerSite, c.window, c.ackTimeout, c.retryLimit, c.nightRate, c.dayRate,
        s.sched.rate.value, s.format.cond.value, s.format.k, s.format.pool])

/-- STATUS, in every part state (R188): the values of its table, block by block in the table's order, an absent value
behind a presence flag of 0; nothing changes. 0 for a free job slot and the places of absent values are the model's
reading: log entry 19. RUN STATUS (R140) and PLAN (R141): the run record, with the values of a run that is not IDLE
behind a presence flag; the bytes of the next run in two fields, the seconds at the NIGHT rate, the deadline, the
seconds available, whether the run fits, and each volume's n. Neither changes anything. The presence flags are the
model's reading (log entry 19), and a deadline past the last campus time is a free value (log entry 13). -/
def Obligations.StatusRunStatusAndPlanReport : Prop :=
  (∀ (s : State) (tag : Nat), s.ctlFree →
     let entries := fun x => (s.inflight.filter fun y => y.state == x).length
     let job := fun j => ((tfind s.jobs j).map Job.stateValue).getD 0
     exec (.status tag) s = .next (s.answered 7 tag .ok
       ([s.ctl.part.value, s.ctl.recStep, s.ctl.queue.length, s.ctl.notices.length, flag s.ctl.lost,
         s.format.cond.value, if s.format.cond = .formatting then s.free.length else 0, s.free.length, s.claims,
         flag s.poolLow, (s.vols.filter fun p => p.2.state != .absent).length, s.inflight.length,
         entries .held, entries .waiting, entries .active,
         s.busy.length, (s.vols.filter fun p => p.2.drain.isSome).length, s.expiryQueue.length,
         job 0, job 1, job 2, job 3, flag s.yielding, s.run.state.value, s.run.result.value, s.run.runId,
         flag s.port.up] ++ optField s.port.site ++ [s.port.outstanding.length]
         ++ optField (s.port.outstanding.head?.map Frame.seq) ++ optField (s.port.outstanding.getLast?.map Frame.seq)
         ++ [s.port.highestAcked, s.port.ignored, s.port.resent, flag s.shelf.up, s.shelf.slots.length,
           s.shelf.fgQueue.length, s.shelf.restoreQueue.length, s.shelf.offsiteQueue.length, s.shelf.ignored,
           flag s.sched.clockSet, s.sched.clock, flag s.sched.activeB, flag s.sched.swap, s.sched.rate.value]))) ∧
  (∀ (s : State) (tag minute : Nat), s.ctlServes →
     let r := s.run
     let opt := fun (o : Option Nat) => match o with | some n => [1, n] | none => [0, 0]
     let waits := r.phase = .freeze ∧ s.plan[r.planIndex]? ≠ none
     let scan := fun (x : Volume) =>
       x.fullScan = true ∨ x.overflow = true ∨ x.everSealed = false ∨ x.runCounter = 65534
     let n := fun (x : Volume) => if scan x then x.mappedCount else x.activeList.length
     let bytes := (s.plan.map fun v => n (s.vol v) * (2 ^ s.format.k * 4096 + 48)).sum + s.plan.length * 96 + 96
     let rate := s.ctl.config.nightRate * 1024
     let seconds := (bytes + (rate - 1)) / rate
     let now := s.sched.clock
     let deadline := nextMinute now minute
     exec (.runStatus tag) s = .next (s.answered 31 tag .ok
       ([r.state.value, r.result.value, r.mode.value, r.deadline, r.runId, r.pass]
         ++ (if r.state = .idle then [0]
             else [1, r.planIndex] ++ opt s.plan[r.planIndex]? ++
               [r.phase.value, flag r.fullScan, r.reasons, r.pos, r.clearStart, r.clearCount, r.volData, r.volClear,
                 if waits ∧ r.asked = false then 1 else 0, if waits ∧ r.asked = true then 1 else 0])
         ++ [r.sealedVols, r.skippedVols, r.dataFrames, r.clearFrames, r.retries])) ∧
     (1439 < minute → exec (.plan tag minute) s = .next (s.answered 32 tag .range [])) ∧
     (minute ≤ 1439 → s.sched.clockSet = false → exec (.plan tag minute) s = .next (s.answered 32 tag .notSet [])) ∧
     (minute ≤ 1439 → s.sched.clockSet = true → s.plan = [] →
       exec (.plan tag minute) s = .next (s.answered 32 tag .notArmed [2, 0, 0])) ∧
     (minute ≤ 1439 → s.sched.clockSet = true → s.plan ≠ [] →
       (∀ v ∈ s.plan, (s.vol v).state ≠ .absent ∧ (s.vol v).state ≠ .deleting ∧ (s.vol v).offsite = true) →
       exec (.plan tag minute) s = .next (s.answered 32 tag .ok
         ([bytes / 4294967296, bytes % 4294967296, seconds, deadline, deadline - now,
           if now + seconds ≤ deadline then 1 else 0, s.plan.length]
           ++ s.plan.flatMap fun v => [n (s.vol v), if scan (s.vol v) then 1 else 0]))))

/-- NOTICE FETCH, in every part state (R190): up to 8 notices leave the head of the queue and go out in queue order
behind their number; the overflow mark is cleared if the queue is empty then, and the reply's flags show what the
fetch has left. -/
def Obligations.NoticeFetchTakesTheOldest : Prop :=
  ∀ (s : State) (tag : Nat), s.ctlFree →
    let left := s.ctl.notices.drop 8
    exec (.noticeFetch tag) s = .next
      (({ s with ctl := { s.ctl with notices := left, lost := if left = [] then false else s.ctl.lost } }).answered
        38 tag .ok ((s.ctl.notices.take 8).length :: (s.ctl.notices.take 8).flatMap fun (n : Notice) =>
          [n.kind.value * 65536, n.time, n.subject, n.d1, n.d2]))

/-- FORMAT (R1): ACTIVE with a volume, a fill or a pending return in hand, RANGE outside the table's ranges, and
otherwise FORMATTING with the five values, the free FIFO empty and the outstanding claims and the watermark state
cleared. -/
def Obligations.FormatChecksAndBeginsTheFill : Prop :=
  ∀ (s : State) (tag k p fl lo cl : Nat), s.ctlServes →
    exec (.format tag k p fl lo cl) s = .next
      (if s.vols ≠ [] ∨ s.format.cond = .formatting ∨ s.returns ≠ [] then s.answered 1 tag .active []
       else if k ≤ 6 ∧ 1 ≤ p ∧ p ≤ 268435456 ∧ fl ≤ p ∧ lo ≤ p - 1 ∧ 1 ≤ cl ∧ cl ≤ p ∧ lo < cl then
         ({ s with
            format := { cond := .formatting, k := k, pool := p, floor := fl, low := lo, clear := cl },
            free := [], claims := 0, poolLow := false }).answered 1 tag .ok []
       else s.answered 1 tag .range [])

/-- CONFIG SET (R185): MALFORMED with no field, then the four checks in their order; a request that passes replaces
every present field at once and is answered with the record as stored. The watermark state is evaluated against new
marks (R5) before the reply. New yield watermarks are tested against the occupancy (R111): the flag is set, the
RUNNING jobs with no copy in flight YIELDED and their waiting copies withdrawn; or it is cleared, and each YIELDED job
goes on in job number order; or it keeps its value and no job changes (`yieldTested`). Where the flag changes, stated
for jobs whose next chunk earlier work holds, or whose target is FROZEN or drains, and with no drain in hand and no
work that the withdrawn copies held up (`yieldSettles`). That check 4 tests the pool thresholds only where one is
present, so that a CONFIG SET without one passes on a record that is NONE, where R185 to the letter takes the kept
thresholds, is the model's choice (log entry 63); so is RANGE for a rate class above 1 (log entry 26). -/
def Obligations.ConfigSetChecksAndReplaces : Prop :=
  ∀ (s : State) (tag : Nat) (p : ConfigPatch), s.ctlServes →
    let f := s.format
    let c := s.ctl.config
    let marks := p.floor.isSome = true ∨ p.low.isSome = true ∨ p.clear.isSome = true
    let within := fun (o : Option Nat) lo hi => ∀ n, o = some n → lo ≤ n ∧ n ≤ hi
    let t : State := { s with
      format := { f with floor := p.floor.getD f.floor, low := p.low.getD f.low, clear := p.clear.getD f.clear },
      sched := { s.sched with rate := match p.rateClass with
        | none => s.sched.rate
        | some n => if n = 0 then .night else .day },
      ctl := { s.ctl with config :=
        { grace := p.grace.getD c.grace, band := p.band.getD c.band, drainTimeout := p.drainTimeout.getD c.drainTimeout,
          shelfTimeout := p.shelfTimeout.getD c.shelfTimeout, yieldHigh := p.yieldHigh.getD c.yieldHigh,
          yieldLow := p.yieldLow.getD c.yieldLow, partnerSite := p.partnerSite.getD c.partnerSite,
          window := p.window.getD c.window, ackTimeout := p.ackTimeout.getD c.ackTimeout,
          retryLimit := p.retryLimit.getD c.retryLimit, nightRate := p.nightRate.getD c.nightRate,
          dayRate := p.dayRate.getD c.dayRate } } }
    let refusal : Option Code → Prop := fun r => match r with
      | some code => exec (.configSet tag p) s = .next (s.answered 2 tag code [])
      | none =>
        let watermark := p.yieldHigh.isSome = true ∨ p.yieldLow.isSome = true
        (watermark → t.yieldSettles) →
        let u := if p.yieldHigh.isSome ∨ p.yieldLow.isSome then t.yieldTested else t
        let w := if p.floor.isSome ∨ p.low.isSome ∨ p.clear.isSome then evalPool u else (u, [])
        let n := t.ctl.config
        exec (.configSet tag p) s = .next
          (({ w.1 with ctl := w.2.foldl offer w.1.ctl }).answered 2 tag .ok
            [t.format.floor, t.format.low, t.format.clear, n.grace, n.band, n.drainTimeout, n.shelfTimeout, n.yieldHigh,
              n.yieldLow, n.partnerSite, n.window, n.ackTimeout, n.retryLimit, n.nightRate, n.dayRate,
              t.sched.rate.value])
    ((∀ o ∈ patchFields p, o = none) → refusal (some .malformed)) ∧
    ((∃ o ∈ patchFields p, o ≠ none) →
      (marks ∧ f.cond ≠ .valid → refusal (some .notSet)) ∧
      (¬ (marks ∧ f.cond ≠ .valid) →
        let port := p.partnerSite.isSome = true ∨ p.window.isSome = true ∨ p.ackTimeout.isSome = true
        (port ∧ s.run.state ≠ .idle → refusal (some .active)) ∧
        (¬ (port ∧ s.run.state ≠ .idle) →
          let ranges := within p.floor 0 f.pool ∧ within p.low 0 (f.pool - 1) ∧ within p.clear 1 f.pool ∧
            within p.grace 0 16777215 ∧ within p.band 0 65535 ∧ within p.drainTimeout 1 255 ∧
            within p.shelfTimeout 1 255 ∧ within p.yieldHigh 1 256 ∧ within p.yieldLow 0 255 ∧
            within p.partnerSite 0 4294967295 ∧ within p.window 1 32 ∧ within p.ackTimeout 1 255 ∧
            within p.retryLimit 1 15 ∧ within p.nightRate 64 4194304 ∧ within p.dayRate 64 4194304 ∧
            within p.rateClass 0 1
          let fit := (marks → t.format.floor ≤ f.pool ∧ t.format.low < t.format.clear ∧ t.format.clear ≤ f.pool) ∧
            t.ctl.config.yieldLow < t.ctl.config.yieldHigh
          (¬ (ranges ∧ fit) → refusal (some .range)) ∧ (ranges ∧ fit → refusal none))))

/-- TIME SET (R169): the clock takes the value and is SET, a firing pass begins (R65), and no minute boundary is made;
the reply is OK with the value. The case stated is that no run's deadline has come; for the other, see the deadline
statement. GO (R179): OK with no change in RUNNING, while a fill is in hand too, where R2 says NOTSET and the model's
choice is R179 (log entry 50); in STANDBY NOTSET while the format record is not VALID or the clock NOT SET, and
otherwise the part is RUNNING. The case stated is that no snapshot waits for its walk and every job has ended. -/
def Obligations.TimeSetAndGo : Prop :=
  (∀ (s : State) (tag t : Nat), s.ctlServes → (s.run.state = .idle ∨ t < s.run.deadline) →
     exec (.timeSet tag t) s = .next
       (({ s with sched := { s.sched with clockSet := true, clock := t }, firing := true }).answered 4 tag .ok [t])) ∧
  (∀ (s : State) (tag : Nat), s.ctlServes → (∀ p ∈ s.vols, p.2.deleteQueue = []) →
     (∀ p ∈ s.jobs, p.2.state.ended = true) →
     exec (.go tag) s = .next
       (if s.ctl.part = .running then s.answered 5 tag .ok []
        else if s.format.cond ≠ .valid ∨ s.sched.clockSet = false then s.answered 5 tag .notSet []
        else ({ s with ctl := { s.ctl with part := .running } }).answered 5 tag .ok []))

/-! ### Control requests: volumes, and the background steps of the map -/

/-- VOLUME CREATE (R7): the six checks in their order, and the new record; no other volume, and nothing else, changes.
-/
def Obligations.VolumeCreateChecksAndCreates : Prop :=
  ∀ (s : State) (tag v size reserve : Nat) (offsite : Bool) (cap : Nat), s.ctlServes →
    let x : Volume :=
      { state := .normal, size := size, map := [], gen := 1, snaps := [], deleteQueue := [],
        reserveLimit := reserve, reserveOver := false, offsite := offsite, cap := cap, runCounter := 0,
        fullScan := true, overflow := false, everSealed := false, activeList := [], activeIncomplete := false,
        runList := [], runIncomplete := false, drain := none, waiting := [], holdList := [], deletePos := 0,
        walkFreed := 0 }
    exec (.volumeCreate tag v size reserve offsite cap) s = .next
      (if s.format.cond ≠ .valid then s.answered 8 tag .notSet []
       else if 63 < v then s.answered 8 tag .range []
       else if (s.vol v).state ≠ .absent then s.answered 8 tag .active []
       else if size < 1 ∨ 67108864 < size then s.answered 8 tag .range []
       else if 268435456 - ((s.vols.filter fun p => p.2.state != .absent).map fun p => p.2.size).sum < size
         then s.answered 8 tag .range []
       else if 268435455 < reserve ∨ cap < 1024 ∨ 262144 < cap then s.answered 8 tag .range []
       else ({ s with vols := tset Volume.absent v x s.vols }).answered 8 tag .ok [])

/-- VOLUME DELETE (R9): the checks in their order; a volume that passes them all is DELETING, its walk at the start.
VOLUME READ (R8). The presence flag before the delete position is the model's reading: log entry 19. -/
def Obligations.VolumeDeleteBeginsAndReadReports : Prop :=
  (∀ (s : State) (tag v : Nat), s.ctlServes →
     let x := s.vol v
     let y : Volume := { x with state := .deleting, deleteQueue := [], deletePos := 0, walkFreed := 0 }
     exec (.volumeDelete tag v) s = .next
       (if 63 < v then s.answered 9 tag .range []
        else if x.state = .absent ∨ x.state = .deleting then s.answered 9 tag .badVol []
        else if x.state = .freezing ∨ x.state = .frozen then s.answered 9 tag .frozen []
        else if (∃ y ∈ s.inflight, y.req.vol = v) ∨ x.drain ≠ none ∨ x.waiting ≠ [] then s.answered 9 tag .active []
        else if ∃ p ∈ x.snaps, p.2.held = true then s.answered 9 tag .held []
        else if (∃ p ∈ s.jobs, p.2.state.ended = false ∧ (p.2.srcVol = v ∨ p.2.dstVol = v)) ∨
            (s.run.state ≠ .idle ∧ v ∈ s.plan) then s.answered 9 tag .inUse []
        else ({ s with vols := tset Volume.absent v y s.vols }).answered 9 tag .ok [])) ∧
  (∀ (s : State) (tag v : Nat), s.ctlFree →
     let x := s.vol v
     exec (.volumeRead tag v) s = .next
       (if s.ctl.part = .recovering then s.answered 10 tag .recovering []
        else if 63 < v then s.answered 10 tag .range []
        else if x.state = .absent then s.answered 10 tag .badVol []
        else s.answered 10 tag .ok
          ([x.state.value, x.size,
            (x.map.filter fun p => match p.2.form with | .mapped .. => true | .unmapped _ => false).length,
            x.gen, x.snaps.length, x.reserveLimit, (x.snaps.map fun p => p.2.retained.length).sum, flag x.offsite,
            x.cap, x.runCounter, flag x.fullScan, flag x.overflow, flag x.everSealed, x.activeList.length,
            x.runList.length, flag (x.drain.isSome || x.waiting.length != 0)]
            ++ if x.state = .deleting then [1, x.deletePos] else [0, 0])))

/-- SET FULL SCAN (R122): the flag is set, and the keep mark with it while the volume's frozen send is the run's
current one. RUN PLAN SET (R124): MALFORMED for 0 or more than 64 entries, ACTIVE while the run is not IDLE, RANGE for
a number past 63 or one named twice; otherwise the list replaces the plan. -/
def Obligations.SetFullScanAndRunPlanSet : Prop :=
  (∀ (s : State) (tag v : Nat), s.ctlServes →
     let x := s.vol v
     let sending := s.run.state ≠ .idle ∧ s.plan[s.run.planIndex]? = some v ∧ s.run.phase ≠ .freeze
     exec (.setFullScan tag v) s = .next
       (if 63 < v then s.answered 13 tag .range []
        else if x.state = .absent ∨ x.state = .deleting then s.answered 13 tag .badVol []
        else ({ s with
           vols := tset Volume.absent v { x with fullScan := true } s.vols,
           run := { s.run with keep := if sending then true else s.run.keep } }).answered 13 tag .ok [])) ∧
  (∀ (s : State) (tag : Nat) (vs : List Nat), s.ctlServes →
     exec (.runPlanSet tag vs) s = .next
       (if vs.length = 0 ∨ 64 < vs.length then s.answered 28 tag .malformed []
        else if s.run.state ≠ .idle then s.answered 28 tag .active []
        else if (∃ v ∈ vs, 63 < v) ∨ ¬ vs.Nodup then s.answered 28 tag .range []
        else ({ s with plan := vs }).answered 28 tag .ok []))

/-- The fill (R2), in a part whose jobs have all ended, as FORMAT leaves it: the next PCN joins the tail; the one that
makes F = P makes the record VALID and the watermark CLEAR, and queues FORMAT DONE with P and k; with no fill in hand
the step changes nothing. The step with no fill in hand: log entry 8, the model's choice. The delete walk (R10) waits
outside RUNNING. In RUNNING one step passes an UNMAPPED entry; frees a MAPPED entry's PCN to the tail of the free
FIFO, unmaps it and takes one from its owner's charge; past the last entry it frees one retained entry of the lowest
occupied slot, which is empty with its last entry; and with no slot left the volume is ABSENT and VOLUME DELETED
carries the number of PCNs freed. A step that frees a PCN and brings F to the floor plus 64 or more lets every
PAUSED-POOL job go on (R114): YIELDED while the yield flag is set, else RUNNING, its next visit begun in job number
order, or PAUSED-FROZEN on a FROZEN target (`jobsGoOn`); with F below that figure no job changes. Stated for jobs
whose next chunk earlier work holds, or whose target is FROZEN or drains (`visitsWait`). The step that waits or has no
walk, the steps after the map entries, the cleared-in generation of an entry that the walk unmaps and the kept number
of freed PCNs are the model's reading: log entries 8, 17 and 18. -/
def Obligations.FillAndDeleteWalkStep : Prop :=
  (∀ s : State, (∀ p ∈ s.jobs, p.2.state.ended = true) → s.format.low < s.format.pool →
     exec .formatFillStep s = .next
       (if s.format.cond ≠ .formatting then s.closed
        else if s.free.length + 1 < s.format.pool then { s with free := s.free ++ [s.free.length] }.closed
        else
          { s with
            free := s.free ++ [s.free.length], format := { s.format with cond := .valid }, poolLow := false,
            ctl := offer s.ctl
              { kind := .formatDone, time := if s.sched.clockSet then s.sched.clock else 0, subject := 0,
                d1 := s.format.pool, d2 := s.format.k } }.closed)) ∧
  (∀ (s : State) (v : Nat),
     let x := s.vol v
     let room := s.format.floor + 64 ≤ s.free.length + 1
     let paused := fun (j : Job) => j.state == .pausedPool
     let resumed := if s.format.floor + 64 ≤ s.free.length + 1 then s.jobsGoOn paused else s
     (s.ctl.part ≠ .running ∨ x.state ≠ .deleting → exec (.volumeDeleteWalkStep v) s = .next s.closed) ∧
     (s.ctl.part = .running → x.state = .deleting →
       (x.deletePos < x.size → ∀ g, (x.entry x.deletePos).form = .unmapped g →
         exec (.volumeDeleteWalkStep v) s = .next
           { s with vols := tset Volume.absent v { x with deletePos := x.deletePos + 1 } s.vols }.closed) ∧
       (x.deletePos < x.size → (room → s.visitsWait paused) →
         ∀ pcn born owner, (x.entry x.deletePos).form = .mapped pcn born owner →
         Answers (exec (.volumeDeleteWalkStep v) s) fun t =>
           t.free = s.free ++ [pcn] ∧
             (t.vol v).entry x.deletePos = { x.entry x.deletePos with form := .unmapped x.gen } ∧
           (t.vol v).deletePos = x.deletePos + 1 ∧ (t.vol v).walkFreed = x.walkFreed + 1 ∧
           (t.acct owner).charge = (s.acct owner).charge - 1 ∧
           (∀ o, o ≠ owner → t.acct o = s.acct o) ∧ (∀ w, w ≠ v → t.vol w = s.vol w) ∧
           t.out = [] ∧ t.inflight = s.inflight ∧ t.jobs = resumed.jobs ∧ t.busy = resumed.busy ∧ t.run = s.run ∧
           t.claims = s.claims) ∧
       (x.size ≤ x.deletePos → ∀ p more, x.snaps = p :: more → p.2.retained = [] →
         exec (.volumeDeleteWalkStep v) s = .next
           { s with vols := tset Volume.absent v { x with snaps := tdel p.1 x.snaps } s.vols }.closed) ∧
       (x.size ≤ x.deletePos → (room → s.visitsWait paused) → ∀ p more, x.snaps = p :: more →
         ∀ r rest, p.2.retained = r :: rest →
         Answers (exec (.volumeDeleteWalkStep v) s) fun t =>
           t.free = s.free ++ [r.pcn] ∧
           t.vol v = { x with
             snaps := if rest = [] then tdel p.1 x.snaps else tput p.1 { p.2 with retained := rest } x.snaps,
             walkFreed := x.walkFreed + 1 } ∧
           t.accounts = s.accounts ∧ (∀ w, w ≠ v → t.vol w = s.vol w) ∧ t.out = [] ∧ t.inflight = s.inflight ∧
           t.jobs = resumed.jobs ∧ t.busy = resumed.busy ∧ t.run = s.run ∧ t.claims = s.claims) ∧
       (x.size ≤ x.deletePos → x.snaps = [] →
         exec (.volumeDeleteWalkStep v) s = .next
           { s with
             vols := tset Volume.absent v Volume.absent s.vols,
             ctl := offer s.ctl
               { kind := .volumeDeleted, time := if s.sched.clockSet then s.sched.clock else 0, subject := v,
                 d1 := x.walkFreed, d2 := 0 } }.closed)))

/-- FREEZE (R12) and THAW (R13) by the state of the volume. FREEZE: BADVOL, OK, a place in the freeze in hand, or a
drain; a drain that finds no changing work ends at once, and the volume is FROZEN. THAW: BADVOL, OK, or NORMAL again,
the PAUSED-FROZEN jobs of the volume going on (R113); a FREEZING volume is NORMAL again with its drain ended, and the
freeze that waits is answered ACTIVE, which for a scheduled one is FREEZE SKIPPED, its follow-up record removed (R29,
R174; a waiting control FREEZE holds the executing slot, so a scheduled THAW ends it: see the due entries). The cases
stated are those in which no restore job begins a visit in the event. -/
def Obligations.FreezeAndThawByVolumeState : Prop :=
  ∀ (s : State) (tag v : Nat), s.ctlServes → (∀ p ∈ s.jobs, p.2.state ≠ .running) →
    let x := s.vol v
    let wait : State := { s.closed with ctl := { s.ctl with executing := some { tag := tag, number := 11 } } }
    (63 < v → exec (.freeze tag v) s = .next (s.answered 11 tag .range []) ∧
      exec (.thaw tag v) s = .next (s.answered 12 tag .range [])) ∧
    (v ≤ 63 → x.state = .absent ∨ x.state = .deleting →
      exec (.freeze tag v) s = .next (s.answered 11 tag .badVol []) ∧
      exec (.thaw tag v) s = .next (s.answered 12 tag .badVol [])) ∧
    (v ≤ 63 → x.state = .frozen → exec (.freeze tag v) s = .next (s.answered 11 tag .ok [])) ∧
    (v ≤ 63 → x.state = .freezing → ∀ fs m n, x.drain = some { work := .refusing fs, members := m, timeout := n } →
      exec (.freeze tag v) s = .next
        { wait with
            vols := tset Volume.absent v
              { x with drain := some { work := .refusing (fs ++ [.control]), members := m, timeout := n } } s.vols }) ∧
    (v ≤ 63 → x.state = .normal → x.drain = none → x.waiting = [] → x.holdList = [] →
      drainSet s v = [] →
      exec (.freeze tag v) s = .next
        (({ s with vols := tset Volume.absent v { x with state := .frozen } s.vols }).answered 11 tag .ok [])) ∧
    (v ≤ 63 → x.state = .normal → exec (.thaw tag v) s = .next (s.answered 12 tag .ok [])) ∧
    (v ≤ 63 → x.state = .freezing → x.waiting = [] → x.holdList = [] → ∀ i record m n,
      x.drain = some { work := .refusing [.schedule i record], members := m, timeout := n } →
      exec (.thaw tag v) s = .next
        (({ s with
            vols := tset Volume.absent v { x with state := .normal, drain := none } s.vols,
            sched := { s.sched with followUps := match record with
              | none => s.sched.followUps
              | some k => s.sched.followUps.eraseP fun f => f.number == k },
            ctl := offer s.ctl
              { kind := .freezeSkipped, time := if s.sched.clockSet then s.sched.clock else 0, subject := v, d1 := 18,
                d2 := i } }).answered 12 tag .ok [])) ∧
    (v ≤ 63 → x.state = .frozen → s.yielding = true ∨ (∀ p ∈ s.jobs, p.2.state = .pausedFrozen → p.2.dstVol ≠ v) →
      exec (.thaw tag v) s = .next
        (({ s with
            vols := tset Volume.absent v { x with state := .normal } s.vols,
            jobs := s.jobs.map fun (p : Nat × Job) => if p.2.state = JobState.pausedFrozen ∧ p.2.dstVol = v
              then (p.1, { p.2 with state := .yielded }) else p }).answered 12 tag .ok []))

/-- A drain (R25, R26): a SNAPSHOT CREATE that passes its checks and a FREEZE, of a volume with changing work in hand
or with drains before it. The first begins a drain whose set is that work and whose timer runs for the drain timeout;
the other waits behind those asked for before it. The request goes on occupying the executing slot, and nothing else
changes. The drain timer (R28, R12, R78): the control request that waits is answered TIMEOUT, a FREEZING volume is
NORMAL again and a create takes no slot and steps no generation; with no drain running the timer does not run. At its
end, by the timer or by the departure of its last member, the hold list is released in its order, each request WAITING
with its item at the end of the busy set, and the next waiting drain begins, the requests just released in its set
(R27, R28; `released`, `nextDrain`). The departure (R27): the shelf reply that ends the last member of the set, a
WRITE that commits or fails, or a restore copy that commits or fails, leaves what it leaves without the drain, and in
the same event a freeze makes the volume FROZEN, or a create takes its slot and G or is refused by the checks of R79,
and the control request that waits is answered. Stated with no request behind the executing one, no job that can begin
a visit, released requests that wait behind earlier work, a next drain that finds work in hand, and, for the
departure, nothing else waiting in the part. The timer that does not run is the model's choice (log entry 8); the
fresh arrival numbers of the requests released and the control reply behind the other frames of its event are its
reading (log entries 32 and 30). -/
def Obligations.DrainsBeginAndTimeOut : Prop :=
  (∀ (s : State) (tag v label : Nat), s.ctlServes → v ≤ 63 →
     let x := s.vol v
     let wait := fun (n : Nat) => { s.closed with ctl := { s.ctl with executing := some { tag := tag, number := n } } }
     let c : CreateReq := { kind := .user, series := none, label := label, asker := .control }
     let members : List BusyOwner :=
       ((s.inflight.filter fun y => y.req.vol == v && y.req.kind != .read && y.state != .held).map fun y =>
           BusyOwner.front y.arrival)
         ++ ((s.busy.filter fun i => i.vol == v &&
           match i.owner with | .restore _ => true | .front _ => false).map BusyItem.owner)
     let drain := fun (w : DrainWork) =>
       { work := w, members := members, timeout := s.ctl.config.drainTimeout : Drain }
     x.state = .normal →
     (x.drain = none → x.waiting = [] → members ≠ [] →
       exec (.freeze tag v) s = .next
         { wait 11 with
             vols := tset Volume.absent v
               { x with state := .freezing, drain := some (drain (.refusing [.control])) } s.vols } ∧
       (createCheck .user x = none → exec (.snapshotCreate tag v 2 label none) s = .next
         { wait 17 with vols := tset Volume.absent v { x with drain := some (drain (.holding c)) } s.vols })) ∧
     (x.drain ≠ none ∨ x.waiting ≠ [] →
       exec (.freeze tag v) s = .next
         { wait 11 with
             vols := tset Volume.absent v
               { x with waiting := x.waiting ++ [.refusing [.control]] } s.vols } ∧
       (createCheck .user x = none → exec (.snapshotCreate tag v 2 label none) s = .next
         { wait 17 with vols := tset Volume.absent v { x with waiting := x.waiting ++ [.holding c] } s.vols }))) ∧
  (∀ (s : State) (v : Nat),
     let x := s.vol v
     (x.drain = none → exec (.drainTimeout v) s = .next s.closed) ∧
     (∀ d q, x.drain = some d → s.ctl.executing = some q → s.frontUp = true → s.ctl.queue = [] → x.state ≠ .absent →
       let ends := fun (y : Volume) =>
         let e : State := { s with vols := tset Volume.absent v y s.vols }
         e.releaseWaits v →
         exec (.drainTimeout v) s = .next (((e.released v).nextDrain v).answered q.number q.tag .timeout [])
       (∀ c, d.work = .holding c → c.asker = .control → ends x) ∧
       (d.work = .refusing [.control] → ends { x with state := .normal }))) ∧
  (∀ (s : State) (slot v : Nat) (c : SlotRec) (result : ShelfResult) (m : BusyOwner) (d : Drain) (q : Executing)
      (u : State),
     let x := s.vol v
     let alone : State := { s with
       vols := tset Volume.absent v { x with drain := none, waiting := [], holdList := [] } s.vols }
     let reply := Instr.shelfReply slot c.epoch c.use (c.cmd.kind == .write) result
     let departs := match m with
       | .front a => (∃ z ∈ s.inflight, z.arrival = a ∧ z.req.vol = v) ∧ (∃ lcn why, c.cmd.owner = .request a lcn why) ∧
         ∀ z ∈ u.inflight, z.arrival ≠ a
       | .restore j => c.cmd.owner = .restore j ∧ ∃ y k, tfind s.jobs j = some y ∧ y.dstVol = v ∧ y.waiting = false ∧
         y.copy = some k ∧ ((∃ reason, result = .error reason) ∨
           (k.stage = .writing ∧ c.cmd.kind = .write ∧ result = .done [] 0 ∧
             (y.suspendReq = true ∨ s.yielding = true ∨ ∀ r, y.ranges[y.rangeIdx]? = some r →
               r.count ≤ y.offset + 1 ∧ y.ranges[y.rangeIdx + 1]? = none)))
     s.wf = true → s.frontUp = true → tfind s.shelf.slots slot = some c → x.drain = some d → d.members = [m] →
     x.state ≠ .absent → s.ctl.executing = some q → s.ctl.queue = [] → alone.quietBut m →
     exec reply alone = .next u → u.yielding = s.yielding → departs →
     let y := u.vol v
     let ends := fun (z : Volume) (code : Code) (values : List Nat) =>
       let e : State := { u with
         vols := tset Volume.absent v { z with waiting := x.waiting, holdList := x.holdList } u.vols }
       e.releaseWaits v →
       let r := (e.released v).nextDrain v
       exec reply s = .next { r with
         ctl := { r.ctl with executing := none },
         out := u.out ++ [.control (!u.ctl.notices.isEmpty) u.ctl.lost q.number q.tag code values] }
     (d.work = .refusing [.control] → ends { y with state := .frozen } .ok []) ∧
     (∀ k, d.work = .holding k → k.asker = .control → k.kind = .user ∨ k.kind = .scheduled →
       (∀ code, createCheck k.kind y = some code → ends y code []) ∧
       (createCheck k.kind y = none →
         let n := ((List.range' 1 15).find? fun i => (tfind y.snaps i).isNone).getD 0
         let snap : Snap :=
           { kind := k.kind, series := if k.kind = .scheduled then k.series else none, gen := y.gen, label := k.label,
             created := if u.sched.clockSet then u.sched.clock else 0, held := false, state := .ready, retained := [],
             inUse := 0, freed := 0 }
         ends { y with snaps := tput n snap y.snaps, gen := y.gen + 1 } .ok [n, y.gen])))

/-! ### Control requests: accounts -/

/-- ACCOUNT SET (R67): RANGE for the tag, ACTIVE for tag 0, RANGE for a limit; otherwise both limits are stored, the
soft one no greater than the hard one, the account is evaluated in the same event, and the reply carries the limits as
stored, the expiry and the derived state. ACCOUNT READ (R72) and ACCOUNT READ NEXT (R73): the account, of the tag
named or of the one after the cursor with 65,535 followed by 0, is evaluated, the reply carries the record the
evaluation leaves (12.5), and the cursor names the tag. -/
def Obligations.AccountRequestsStoreAndReport : Prop :=
  (∀ (s : State) (tag o soft hard : Nat), s.ctlServes →
     let a := s.acct o
     let s1 : State := { s with
       accounts := tset Account.fresh o { a with soft := if hard < soft then hard else soft, hard := hard } s.accounts }
     let r := evaluateAccount s1 o
     let b := r.1.acct o
     exec (.accountSet tag o soft hard) s = .next
       (if 65535 < o then s.answered 14 tag .range []
        else if o = 0 then s.answered 14 tag .active []
        else if 268435455 < soft ∨ 268435455 < hard then s.answered 14 tag .range []
        else ({ r.1 with ctl := r.2.foldl offer r.1.ctl }).answered 14 tag .ok
          ([b.soft, b.hard] ++ (match b.expiry with | some t => [1, t] | none => [0, 0]) ++ [(r.1.derived o).value]))) ∧
  (∀ (s : State) (tag o : Nat), s.ctlServes →
     let read := fun (number : Nat) (n : Nat) =>
       let r := evaluateAccount s n
       let a := r.1.acct n
       ({ r.1 with ctl := { r.2.foldl offer r.1.ctl with acctCursor := n } }).answered number tag .ok
         [n * 65536 + (r.1.derived n).value * 256 + a.last.value,
           (flag a.expiry.isSome + 2 * flag a.queued) * 16777216, a.charge, a.reserved, a.soft, a.hard,
           a.expiry.getD 0]
     exec (.accountRead tag o) s = .next (if o ≤ 65535 then read 15 o else s.answered 15 tag .range []) ∧
     exec (.accountReadNext tag) s = .next
       (read 16 (if s.ctl.acctCursor ≥ 65535 then 0 else s.ctl.acctCursor + 1)))

/-! ### Control requests: snapshots -/

/-- SNAPSHOT CREATE (R77 to R80): the seven checks in their order; on a FROZEN volume, or on a NORMAL one with no
changing work in hand, no drain before it and no restore job that could begin a visit, the create event follows at
once: the record stands in the lowest-numbered empty slot with generation G and creation time now, G steps, and the
reply carries slot and generation. RANGE for a SCHEDULED create with no series is the model's choice: log entry 27; so
is a USER create that carries a series, which is taken and its series dropped: log entry 67. -/
def Obligations.SnapshotCreateChecksAndCreates : Prop :=
  ∀ (s : State) (tag v kind label : Nat) (series : Option Nat), s.ctlServes →
    let x := s.vol v
    let slot := ((List.range' 1 15).find? fun i => (tfind x.snaps i).isNone).getD 0
    let d : Snap :=
      { kind := if kind = 2 then .user else .scheduled, series := if kind = 2 then none else series, gen := x.gen,
        label := label, created := if s.sched.clockSet then s.sched.clock else 0, held := false, state := .ready,
        retained := [], inUse := 0, freed := 0 }
    let y : Volume := { x with snaps := tput slot d x.snaps, gen := x.gen + 1 }
    let refused := fun code => exec (.snapshotCreate tag v kind label series) s = .next (s.answered 17 tag code [])
    (63 < v → refused .range) ∧
    (v ≤ 63 →
      (kind = 0 ∨ 4 < kind → refused .malformed) ∧
      (kind = 1 ∨ kind = 4 → refused .active) ∧
      (kind = 3 → (∀ q, series = some q → 7 < q) → refused .range) ∧
      (kind = 2 ∨ (kind = 3 ∧ ∃ q, series = some q ∧ q ≤ 7) →
        (x.state = .absent ∨ x.state = .deleting → refused .badVol) ∧
        (x.state ≠ .absent → x.state ≠ .deleting →
          ((∀ i, 1 ≤ i → i ≤ 15 → tfind x.snaps i ≠ none) → refused .noSlot) ∧
          ((∃ i, 1 ≤ i ∧ i ≤ 15 ∧ tfind x.snaps i = none) →
            let full := x.reserveLimit ≠ 268435455 ∧ x.reserveLimit ≤ (x.snaps.map fun p => p.2.retained.length).sum
            (full → refused .reserve) ∧
            (¬ full → 4294967294 ≤ x.gen → refused .genLimit) ∧
            (¬ full → x.gen < 4294967294 →
              x.state = .frozen ∨ (x.state = .normal ∧ x.drain = none ∧ x.waiting = [] ∧ x.holdList = [] ∧
                drainSet s v = [] ∧ ∀ p ∈ s.jobs, p.2.state ≠ .running) →
              exec (.snapshotCreate tag v kind label series) s = .next
                (({ s with vols := tset Volume.absent v y s.vols }).answered 17 tag .ok [slot, x.gen]))))))

/-- SNAPSHOT DELETE (R87 to R91): the seven checks in their order, then DELETE PENDING at the tail of the deletion
queue; at its head DELETING at once; and an empty set's walk ends in the same event in RUNNING, the slot empty and
DELETE DONE queued. The number DELETE DONE carries is kept with the record: log entry 18, the model's reading. -/
def Obligations.SnapshotDeleteChecksAndQueues : Prop :=
  ∀ (s : State) (tag v slot : Nat), s.ctlServes →
    let x := s.vol v
    let answer := fun code => exec (.snapshotDelete tag v slot) s = .next (s.answered 18 tag code [])
    (63 < v ∨ 15 < slot → answer .range) ∧
    (v ≤ 63 → slot ≤ 15 →
      (x.state = .absent ∨ x.state = .deleting → answer .badVol) ∧
      (x.state ≠ .absent → x.state ≠ .deleting →
        (tfind x.snaps slot = none → answer .notFound) ∧
        ∀ d, tfind x.snaps slot = some d →
          (slot = 0 → answer .active) ∧
          (slot ≠ 0 → d.state ≠ .ready → answer .ok) ∧
          (slot ≠ 0 → d.state = .ready → d.held = true → answer .held) ∧
          (slot ≠ 0 → d.state = .ready → d.held = false → 0 < d.inUse → answer .inUse) ∧
          (slot ≠ 0 → d.state = .ready → d.held = false → d.inUse = 0 →
            let queued := fun (k : SnapState) =>
              { x with
                snaps := tput slot { d with state := k } x.snaps, deleteQueue := x.deleteQueue ++ [slot] : Volume }
            (x.deleteQueue ≠ [] →
              exec (.snapshotDelete tag v slot) s = .next
                (({ s with vols := tset Volume.absent v (queued .deletePending) s.vols }).answered 18 tag .ok [])) ∧
            (x.deleteQueue = [] → d.retained ≠ [] ∨ s.ctl.part ≠ .running →
              exec (.snapshotDelete tag v slot) s = .next
                (({ s with vols := tset Volume.absent v (queued .deleting) s.vols }).answered 18 tag .ok [])) ∧
            (x.deleteQueue = [] → d.retained = [] → s.ctl.part = .running →
              exec (.snapshotDelete tag v slot) s = .next
                (({ s with
                    vols := tset Volume.absent v { x with snaps := tdel slot x.snaps } s.vols,
                    ctl := offer s.ctl
                      { kind := .deleteDone, time := if s.sched.clockSet then s.sched.clock else 0, subject := v,
                        d1 := slot, d2 := d.freed } }).answered 18 tag .ok [])))))

/-- SNAPSHOT HOLD and SNAPSHOT RELEASE (R93): the first three checks of R87; HOLD is refused ACTIVE on slot 0 and on a
snapshot that is not READY, and sets the hold flag; RELEASE clears it, whatever it was. Nothing else changes. SNAPSHOT
LIST (R97): G, the reserve figures, the sharing generation, the deletion queue in its order, and the sixteen slots, an
empty slot as zeros. The ten zeros of an empty slot are the model's reading: log entry 19. -/
def Obligations.HoldReleaseAndSnapshotList : Prop :=
  (∀ (s : State) (tag v slot : Nat), s.ctlServes →
     let x := s.vol v
     let both := fun code =>
       exec (.snapshotHold tag v slot) s = .next (s.answered 19 tag code []) ∧
       exec (.snapshotRelease tag v slot) s = .next (s.answered 20 tag code [])
     let written := fun (d : Snap) (b : Bool) (n : Nat) =>
       ({ s with
           vols := tset Volume.absent v { x with snaps := tput slot { d with held := b } x.snaps } s.vols }).answered
         n tag .ok []
     (63 < v ∨ 15 < slot → both .range) ∧
     (v ≤ 63 → slot ≤ 15 →
       (x.state = .absent ∨ x.state = .deleting → both .badVol) ∧
       (x.state ≠ .absent → x.state ≠ .deleting →
         (tfind x.snaps slot = none → both .notFound) ∧
         ∀ d, tfind x.snaps slot = some d →
           exec (.snapshotHold tag v slot) s = .next
             (if slot = 0 ∨ d.state ≠ .ready then s.answered 19 tag .active [] else written d true 19) ∧
           exec (.snapshotRelease tag v slot) s = .next (written d false 20)))) ∧
  (∀ (s : State) (tag v : Nat), s.ctlFree →
     let x := s.vol v
     let slotOf := fun (i : Nat) => match tfind x.snaps i with
       | none => [0, 0, 0, 0, 0, 0, 0, 0, 0, 0]
       | some d => [d.kind.value] ++ (match d.series with | some q => [1, q] | none => [0, 0]) ++
           [d.gen, d.label, d.created, flag d.held, d.state.value, d.retained.length, d.inUse]
     exec (.snapshotList tag v) s = .next
       (if s.ctl.part = .recovering then s.answered 21 tag .recovering []
        else if 63 < v then s.answered 21 tag .range []
        else if x.state = .absent ∨ x.state = .deleting then s.answered 21 tag .badVol []
        else s.answered 21 tag .ok
          ([x.gen, x.reserveLimit, (x.snaps.map fun p => p.2.retained.length).sum, flag x.reserveOver, x.sharingGen,
            x.deleteQueue.length] ++ x.deleteQueue ++
            (slotOf 0 ++ slotOf 1 ++ slotOf 2 ++ slotOf 3 ++ slotOf 4 ++ slotOf 5 ++ slotOf 6 ++ slotOf 7 ++
             slotOf 8 ++ slotOf 9 ++ slotOf 10 ++ slotOf 11 ++ slotOf 12 ++ slotOf 13 ++ slotOf 14 ++ slotOf 15))))

/-- One step of the merge walk (R90, R91) on the DELETING head `d` of a volume's deletion queue: it waits outside
RUNNING; in RUNNING the first entry of the set goes to the next older sharing snapshot if born by its generation, and
otherwise its PCN joins the tail of the free FIFO, with the evaluations of the pool (R5) and of the reserve (R84). The
entry that empties the set ends the walk: the slot is empty, the next snapshot of the queue is DELETING, and DELETE
DONE is queued with the slot and the number of PCNs freed, after a pool or reserve notice of the step. The step that
frees is stated where no restore job is open; an end of the walk where the engine does not wait for slot 0 and the
next head's set is not empty. The step that waits, and the kept number of freed PCNs: log entries 8 and 18, the
model's choice and reading. -/
def Obligations.MergeWalkMovesOrFreesOneEntry : Prop :=
  ∀ (s : State) (v slot : Nat) (queue : List Nat) (d : Snap) (r : RetEntry) (rest : List RetEntry),
    let x := s.vol v
    let older := newestSnap (fun q => q.state != .deleting && decide (q.gen < d.gen)) x.snaps
    let walked := fun (snaps : Table Snap) => if rest ≠ [] then { x with snaps := snaps } else
      { x with
        snaps := match queue.head?.bind fun n => (tfind snaps n).map fun e => (n, e) with
          | some (n, e) => tput n { e with state := .deleting } (tdel slot snaps)
          | none => tdel slot snaps
        deleteQueue := queue }
    let done := fun (freed : Nat) => if rest ≠ [] then [] else
      [{ kind := .deleteDone, time := if s.sched.clockSet then s.sched.clock else 0, subject := v, d1 := slot,
         d2 := freed : Notice }]
    (s.ctl.part ≠ .running → exec (.mergeWalkStep v) s = .next s.closed) ∧
    (s.ctl.part = .running → x.state ≠ .absent → x.state ≠ .deleting → x.deleteQueue = slot :: queue →
      tfind x.snaps slot = some d → d.retained = r :: rest →
      (rest = [] → slot ≠ 0 ∨ s.run.state = .idle) →
      (rest = [] → ∀ n, queue.head? = some n → n ≠ slot ∧ ∃ e, tfind x.snaps n = some e ∧ e.retained ≠ []) →
      (∀ ps p, older = some (ps, p) → r.born ≤ p.gen → s.wf = true →
        let y := walked (tput ps { p with retained := p.retained ++ [r] }
          (tput slot { d with retained := rest } x.snaps))
        exec (.mergeWalkStep v) s = .next
          ({ s with vols := tset Volume.absent v y s.vols, ctl := (done d.freed).foldl offer s.ctl } : State).closed) ∧
      ((∀ ps p, older = some (ps, p) → p.gen < r.born) → (∀ p ∈ s.jobs, p.2.state.ended = true) →
        let y := walked (tput slot { d with retained := rest, freed := d.freed + 1 } x.snaps)
        let w := evalPool { s with free := s.free ++ [r.pcn], vols := tset Volume.absent v y s.vols }
        let u := evalReserve w.1 v
        exec (.mergeWalkStep v) s = .next
          ({ u.1 with ctl := (w.2 ++ u.2 ++ done (d.freed + 1)).foldl offer s.ctl } : State).closed))

/-! ### Control requests: restore jobs -/

/-- RESTORE START (R102 to R104): MALFORMED, then the checks in their order; a start that passes takes the lowest free
job slot, reserves T chunks for the owner, pins the source and asks for its PRE-RESTORE create. A source volume that
is DELETING gives NOVIEW (R102), where R9 says BADVOL: the model's choice, log entry 65. The source and the target may
be one volume. Behind changing work in hand the job is STARTING and the request waits; with none, and the yield flag
set, the create answers at once: the job is YIELDED, its PRE-RESTORE snapshot pinned, and the reply carries job,
generation and slot. -/
def Obligations.RestoreStartChecksAndStarts : Prop :=
  ∀ (s : State) (tag sv ss dv owner : Nat) (override : Bool) (rs : List Range), s.ctlServes →
    let src := s.vol sv
    let dst := s.vol dv
    let total := (rs.map Range.count).sum
    let meets := fun (a b : Range) => a.dst < b.dst + b.count ∧ b.dst < a.dst + a.count
    let refused := fun code => exec (.restoreStart tag sv ss dv owner override rs) s = .next (s.answered 22 tag code [])
    let malformed := rs = [] ∨ 16 < rs.length ∨ ∃ r ∈ rs, r.count = 0
    let noJob := ∀ j, j ≤ 3 → tfind s.jobs j ≠ none
    let noView := ¬ (sv ≤ 63 ∧ src.state ≠ .absent ∧ src.state ≠ .deleting ∧ 1 ≤ ss ∧ ss ≤ 15 ∧
      ∃ d, tfind src.snaps ss = some d ∧ d.state = .ready)
    let badVol := ¬ (dv ≤ 63 ∧ dst.state ≠ .absent ∧ dst.state ≠ .deleting)
    let range := 65535 < owner ∨ ∃ r ∈ rs, src.size < r.src + r.count ∨ dst.size < r.dst + r.count
    let overlap := ¬ rs.Pairwise (fun a b => ¬ meets a b) ∨
      ∃ p ∈ s.jobs, p.2.state.ended = false ∧ p.2.dstVol = dv ∧ ∃ q ∈ p.2.ranges, ∃ r ∈ rs, meets q r
    let a := s.acct owner
    let quota := override = false ∧ owner ≠ 0 ∧ a.hard ≠ 268435455 ∧ a.hard < a.charge + a.reserved + total
    let noSpace := s.free.length < (if override then 1 else s.format.floor)
    (malformed → refused .malformed) ∧
    (¬ malformed → noJob → refused .busy) ∧
    (¬ malformed → ¬ noJob → noView → refused .noView) ∧
    (¬ malformed → ¬ noJob → ¬ noView → badVol → refused .badVol) ∧
    (¬ malformed → ¬ noJob → ¬ noView → ¬ badVol → dst.state = .frozen → refused .frozen) ∧
    (¬ malformed → ¬ noJob → ¬ noView → ¬ badVol → dst.state ≠ .frozen → range → refused .range) ∧
    (¬ malformed → ¬ noJob → ¬ noView → ¬ badVol → dst.state ≠ .frozen → ¬ range → overlap → refused .overlap) ∧
    (¬ malformed → ¬ noJob → ¬ noView → ¬ badVol → dst.state ≠ .frozen → ¬ range → ¬ overlap →
      (quota → refused .quota) ∧ (¬ quota → noSpace → refused .noSpace) ∧
      (¬ quota → ¬ noSpace → dst.state = .normal → dst.drain = none → dst.waiting = [] → dst.holdList = [] →
        ∀ d j, tfind src.snaps ss = some d → j ≤ 3 → tfind s.jobs j = none → (∀ i, i < j → tfind s.jobs i ≠ none) →
        let job := fun (state : JobState) (pre : Option (Nat × Nat)) =>
          { state := state, srcVol := sv, srcSlot := ss, srcGen := d.gen, dstVol := dv, owner := owner,
            override := override, ranges := rs, total := total, pre := pre, rangeIdx := 0, offset := 0,
            remaining := total, copied := 0, cleared := 0, skipped := 0, unchanged := 0, waiting := false,
            copy := none, suspendReq := false, failedPcn := none : Job }
        let pinned := { src with snaps := tput ss { d with inUse := d.inUse + 1 } src.snaps }
        let target := if sv = dv then pinned else dst
        let reserved := fun (t : State) =>
          (t.acct owner).reserved = a.reserved + total ∧ (t.acct owner).charge = a.charge ∧
          (∀ o, o ≠ owner → t.acct o = s.acct o) ∧ (sv ≠ dv → t.vol sv = pinned) ∧
          (∀ w, w ≠ sv → w ≠ dv → t.vol w = s.vol w) ∧ t.free = s.free ∧ t.claims = s.claims ∧
          t.inflight = s.inflight ∧ t.run = s.run
        (drainSet s dv ≠ [] →
          Answers (exec (.restoreStart tag sv ss dv owner override rs) s) fun t =>
            t.jobs = tput j (job .starting none) s.jobs ∧ reserved t ∧
            t.vol dv = { target with
              drain := some { work := .holding { kind := .preRestore, series := none, label := j, asker := .restore j },
                              members := drainSet s dv, timeout := s.ctl.config.drainTimeout } } ∧
            t.ctl.executing = some { tag := tag, number := 22 } ∧ t.out = []) ∧
        (drainSet s dv = [] → s.yielding = true → dst.gen < 4294967294 → ∀ slot, dst.emptySlot = some slot →
          Answers (exec (.restoreStart tag sv ss dv owner override rs) s) fun t =>
            t.jobs = tput j (job .yielded (some (slot, dst.gen))) s.jobs ∧ reserved t ∧
            t.vol dv = { target with
              gen := dst.gen + 1,
              snaps := tput slot
                { kind := .preRestore, series := none, gen := dst.gen, label := j,
                  created := if s.sched.clockSet then s.sched.clock else 0, held := false, state := .ready,
                  retained := [], inUse := 1, freed := 0 } target.snaps } ∧
            t.ctl.executing = none ∧ ∃ pending lost, t.out = [.control pending lost 22 tag .ok [j, dst.gen, slot]])))

/-- RESTORE SUSPEND and RESTORE RESUME (R112): the refusals, then the table, with the state after the event as the
result (12.6). A waiting copy is withdrawn from the busy set, stated with no drain in hand and no work that it held
up; RESUME of a SUSPENDED job is stated with the yield flag set, where no visit begins. RESTORE STATUS and RESTORE
CLEAR (R119): the refusals; the job record in the order of the rule, and a slot that CLEAR empties for a job that has
ended. -/
def Obligations.SuspendResumeStatusAndClearByJobState : Prop :=
  (∀ (s : State) (tag j : Nat), s.ctlServes →
     let both := fun code =>
       exec (.restoreSuspend tag j) s = .next (s.answered 23 tag code []) ∧
       exec (.restoreResume tag j) s = .next (s.answered 24 tag code [])
     (3 < j → both .range) ∧
     (j ≤ 3 → tfind s.jobs j = none → both .notFound) ∧
     (j ≤ 3 → ∀ x, tfind s.jobs j = some x →
       (x.state = .done ∨ x.state = .aborted ∨ x.state = .failedShelf ∨ x.state = .failedInterrupted → both .active) ∧
       (x.state = .running → x.copy ≠ none →
         exec (.restoreSuspend tag j) s = .next
           (({ s with jobs := tput j { x with suspendReq := true } s.jobs }).answered 23 tag .ok [7]) ∧
         exec (.restoreResume tag j) s = .next
           (({ s with jobs := tput j { x with suspendReq := false } s.jobs }).answered 24 tag .ok [6])) ∧
       (x.state = .running → x.copy = none → x.waiting = false → x.suspendReq = false →
         exec (.restoreSuspend tag j) s = .next
           (({ s with jobs := tput j { x with state := .suspended } s.jobs }).answered 23 tag .ok [8])) ∧
       (x.state = .running → x.copy = none → x.suspendReq = false →
         exec (.restoreResume tag j) s = .next (({ s with jobs := tput j x s.jobs }).answered 24 tag .ok [6])) ∧
       (let others := s.busy.filter fun i => i.owner != .restore j
        x.state = .running → x.copy = none → x.waiting = true → x.suspendReq = false → s.wf = true →
        firstProceed [] others = none → (∀ p ∈ s.vols, p.2.drain = none) →
        exec (.restoreSuspend tag j) s = .next
          (({ s with
              jobs := tput j { x with state := .suspended, waiting := false } s.jobs, busy := others }).answered
            23 tag .ok [8])) ∧
       (x.suspendReq = false → x.state = .yielded ∨ x.state = .pausedFrozen ∨ x.state = .pausedPool →
         exec (.restoreSuspend tag j) s = .next
           (({ s with jobs := tput j { x with state := .suspended } s.jobs }).answered 23 tag .ok [8]) ∧
         exec (.restoreResume tag j) s = .next (s.answered 24 tag .ok
           [if x.state = .yielded then 9 else if x.state = .pausedFrozen then 10 else 11])) ∧
       (x.state = .suspended → x.suspendReq = false →
         exec (.restoreSuspend tag j) s = .next (s.answered 23 tag .ok [8]) ∧
         (s.yielding = true → exec (.restoreResume tag j) s = .next
           (({ s with jobs := tput j { x with state := .yielded } s.jobs }).answered 24 tag .ok [9]))))) ∧
  (∀ (s : State) (tag j : Nat), s.ctlServes →
     let opt := fun (o : Option Nat) => match o with | some n => [1, n] | none => [0, 0]
     (3 < j → exec (.restoreStatus tag j) s = .next (s.answered 26 tag .range []) ∧
       exec (.restoreClear tag j) s = .next (s.answered 27 tag .range [])) ∧
     (j ≤ 3 → tfind s.jobs j = none → exec (.restoreStatus tag j) s = .next (s.answered 26 tag .notFound []) ∧
       exec (.restoreClear tag j) s = .next (s.answered 27 tag .notFound [])) ∧
     (j ≤ 3 → ∀ x, tfind s.jobs j = some x →
       exec (.restoreStatus tag j) s = .next (s.answered 26 tag .ok
         ([if x.suspendReq then 7 else match x.state with
             | .done => 1 | .aborted => 2 | .failedShelf => 3 | .failedInterrupted => 4 | .starting => 5
             | .running => 6 | .suspended => 8 | .yielded => 9 | .pausedFrozen => 10 | .pausedPool => 11,
           x.srcVol, x.srcSlot, x.srcGen, x.dstVol, x.owner, flag x.override, x.ranges.length]
           ++ (x.ranges.flatMap fun r => [r.src, r.count, r.dst]) ++ [x.total]
           ++ opt (x.pre.map Prod.fst) ++ opt (x.pre.map Prod.snd)
           ++ [x.rangeIdx, x.offset, x.remaining, x.copied, x.cleared, x.skipped, x.unchanged]
           ++ opt (x.copy.map Copy.lcn) ++ opt x.failedPcn)) ∧
       exec (.restoreClear tag j) s = .next
         (if x.state = .done ∨ x.state = .aborted ∨ x.state = .failedShelf ∨ x.state = .failedInterrupted then
           ({ s with jobs := tdel j s.jobs }).answered 27 tag .ok []
         else s.answered 27 tag .active [])))

/-- The first visit of a job that RESTORE RESUME makes RUNNING, decided in that event (R105 to R108, R112). On a
FROZEN target the job is PAUSED-FROZEN. Else, by the live entry and the view of the source snapshot: SKIPPED where the
chunk changed after the PRE-RESTORE generation; UNCHANGED where both are absent or the same PCN; CLEARED where the
view is absent, which unmaps the chunk at G, files the old PCN with the sharing generation (R83), logs the LCN (R121)
and lowers its owner's charge; COPIED otherwise, which claims the head of the free FIFO, turns one reserved chunk into
charge and hands over the whole-chunk SHELF READ, or, where the restore pool check fails, leaves the job PAUSED-POOL
with nothing changed. An outcome that writes no chunk counts, releases one reserved chunk and advances: past the last
chunk the job is DONE (R115), and a next chunk that earlier work holds is waited for. Stated with the shelf link DOWN,
nothing else waiting in the part, and a target volume that keeps the generation law. The position past the last chunk
is the model's choice (log entry 53); RESTORE ENDED as the last notice of its event, behind the pool, reserve and
change list notices too, is its reading (log entry 6). -/
def Obligations.RestoreVisitIsDecided : Prop :=
  ∀ (s : State) (tag j slot g : Nat) (x : Job) (r : Range), s.wf = true → s.ctlServes → s.ctl.part = .running → j ≤ 3 →
    tfind s.jobs j = some x → x.state = .suspended → x.copy = none → x.waiting = false → x.suspendReq = false →
    x.ranges[x.rangeIdx]? = some r → x.pre = some (slot, g) → s.yielding = false → s.shelf.up = false →
    s.quietBut (.restore j) → (∀ i ∈ s.busy, i.owner ≠ .restore j) → (s.vol x.dstVol).genLaw →
    let v := x.dstVol
    let y := s.vol v
    let dst := r.dst + x.offset
    let live := (y.entry dst).form
    let view := viewLookup (s.vol x.srcVol) x.srcGen (r.src + x.offset)
    let changed := match live with | .mapped _ born _ => decide (g < born) | .unmapped cleared => decide (g < cleared)
    let same := match live, view with
      | .mapped q _ _, some p => p == q
      | .unmapped _, none => true
      | _, _ => false
    let ownedBy := fun (o : Nat) => match live with | .mapped _ _ p => p == o | .unmapped _ => false
    let item : BusyItem := { owner := .restore j, vol := v, chunks := [dst], change := true, proceeded := false }
    let a := s.acct x.owner
    let place := if x.offset + 1 < r.count then (x.rangeIdx, x.offset + 1) else (x.rangeIdx + 1, 0)
    let next : Job := { x with
      state := .running, remaining := x.remaining - 1, rangeIdx := place.1, offset := place.2 }
    let resume := exec (.restoreResume tag j) s
    let replied := fun (n : Nat) (t : State) => ∃ pending lost, t.out = [.control pending lost 24 tag .ok [n]]
    let ends := fun (n : Job) (kept : Bool) =>
      let common := fun (t : State) =>
        (∀ l, ((t.vol v).entry l).form = if kept = false ∧ l = dst then .unmapped y.gen else (y.entry l).form) ∧
        (∀ o, (t.acct o).charge = (s.acct o).charge - if kept = false ∧ ownedBy o = true then 1 else 0) ∧
        (kept = true → t.free = s.free ∧ (t.vol v).activeList = y.activeList) ∧
        (kept = false → Logged s t v [dst] ∧ Filed s t v y.sharingGen (match live with
          | .mapped pcn born _ => [{ lcn := dst, pcn := pcn, born := born }]
          | .unmapped _ => [])) ∧
        (t.vol v).gen = y.gen ∧ (∀ w, w ≠ v → w ≠ x.srcVol → t.vol w = s.vol w) ∧ t.claims = s.claims ∧
        t.shelf = s.shelf ∧ t.inflight = s.inflight ∧ t.mirror = s.mirror ∧ t.run = s.run ∧ t.returns = s.returns
      (x.ranges[place.1]? = none → Answers resume fun t =>
        common t ∧ t.jobs = tput j { n with state := .done, remaining := 0 } s.jobs ∧ t.busy = s.busy ∧ replied 1 t ∧
        (t.acct x.owner).reserved = a.reserved - 1 - (x.remaining - 1) ∧
        ∃ d, t.ctl = offer d
          { kind := .restoreEnded, time := if s.sched.clockSet then s.sched.clock else 0, subject := j, d1 := 1,
            d2 := x.copied + x.cleared + x.skipped + x.unchanged + 1 }) ∧
      (∀ q, x.ranges[place.1]? = some q → (∃ i ∈ s.busy, i.vol = v ∧ (q.dst + place.2) ∈ i.chunks) →
        Answers resume fun t =>
          common t ∧ t.jobs = tput j { n with waiting := true } s.jobs ∧ replied 6 t ∧
          t.busy = s.busy ++ [{ item with chunks := [q.dst + place.2] }] ∧
          (t.acct x.owner).reserved = a.reserved - 1)
    let room := if x.override = true then 1 ≤ s.free.length else s.format.floor + 1 ≤ s.free.length
    (y.state = .frozen → resume = .next
      (({ s with jobs := tput j { x with state := .pausedFrozen } s.jobs }).answered 24 tag .ok [10])) ∧
    (y.state ≠ .frozen → (∀ i ∈ s.busy, i.conflicts item = false) →
      (changed = true → ends { next with skipped := x.skipped + 1 } true) ∧
      (changed = false → same = true → ends { next with unchanged := x.unchanged + 1 } true) ∧
      (changed = false → same = false → view = none → ends { next with cleared := x.cleared + 1 } false) ∧
      (changed = false → same = false → ∀ p, view = some p →
        (¬ room → resume = .next
          (({ s with jobs := tput j { x with state := .pausedPool } s.jobs }).answered 24 tag .ok [11])) ∧
        (room → Answers resume fun t =>
          t.jobs = tput j { x with
            state := .running, remaining := x.remaining - 1,
            copy := some { lcn := dst, srcPcn := p, pcn := s.free.headD 0, gen := y.sharingGen, stage := .reading } }
            s.jobs ∧
          t.free = s.free.drop 1 ∧ t.claims = s.claims + 1 ∧ t.vols = s.vols ∧ replied 6 t ∧
          (t.acct x.owner).charge = a.charge + 1 ∧ (t.acct x.owner).reserved = a.reserved - 1 ∧
          (∀ o, o ≠ x.owner → t.acct o = s.acct o) ∧ t.busy = s.busy ++ [{ item with proceeded := true }] ∧
          t.shelf = { s.shelf with restoreQueue :=
            [{ kind := .read, cls := .restore, pcn := p, first := 0, count := 2 ^ s.format.k, data := [],
               owner := .restore j }] } ∧
          t.inflight = s.inflight ∧ t.mirror = s.mirror ∧ t.run = s.run ∧ t.returns = s.returns)))

/-- RESTORE ABORT (R115, R116): the refusals, then the end ABORTED: the remaining reservation is released, the source
and the PRE-RESTORE snapshot are unpinned, RESTORE ENDED is queued with the end state and the number of visits, and
the reply is OK. A copy gives its transferred charge up; its claimed PCN goes back to the tail at once, but for a
write that holds a shelf slot, which leaves the PCN on the pending-return list. The volumes' maps do not change.
Stated with no other job RUNNING or PAUSED-POOL, nothing else waiting in the part, and no shelf command waiting but
the job's own. RESTORE ENDED as the last notice of its event, behind the pool notice too, is the model's reading: log
entry 6. -/
def Obligations.RestoreAbortEndsTheJob : Prop :=
  ∀ (s : State) (tag j : Nat), s.ctlServes →
    let refused := fun code => exec (.restoreAbort tag j) s = .next (s.answered 25 tag code [])
    (3 < j → refused .range) ∧
    (j ≤ 3 → tfind s.jobs j = none → refused .notFound) ∧
    (j ≤ 3 → ∀ x, tfind s.jobs j = some x →
      (x.state.ended = true → refused .active) ∧
      (x.state.ended = false → x.waiting = false → s.wf = true →
        (∀ p ∈ s.jobs, p.1 ≠ j → p.2.state ≠ .running ∧ p.2.state ≠ .pausedPool) →
        firstProceed [] (s.busy.filter fun i => i.owner != .restore j) = none → (∀ p ∈ s.vols, p.2.drain = none) →
        s.shelf.fgQueue = [] → s.shelf.offsiteQueue = [] → (∀ c ∈ s.shelf.restoreQueue, c.owner = .restore j) →
        let source := fun (w i : Nat) => w = x.srcVol ∧ i = x.srcSlot
        let before := fun (w i : Nat) => w = x.dstVol ∧ x.pre.map Prod.fst = some i
        let inSlot := ∃ p ∈ s.shelf.slots, p.2.cmd.owner = .restore j
        Answers (exec (.restoreAbort tag j) s) fun t =>
          (∃ y, tfind t.jobs j = some y ∧ y = { x with
            state := .aborted, remaining := 0, suspendReq := false, waiting := false, copy := none }) ∧
          (∀ i, i ≠ j → tfind t.jobs i = tfind s.jobs i) ∧
          (t.acct x.owner).reserved = (s.acct x.owner).reserved - x.remaining ∧
          (∀ o, o ≠ x.owner → t.acct o = s.acct o) ∧
          (∀ w, (t.vol w).map = (s.vol w).map) ∧
          (∀ w i, tfind (t.vol w).snaps i = (tfind (s.vol w).snaps i).map fun d => { d with
            inUse := d.inUse - (if source w i then 1 else 0) - if before w i then 1 else 0 }) ∧
          (x.copy = none → t.free = s.free ∧ t.returns = s.returns ∧ t.claims = s.claims ∧
            (t.acct x.owner).charge = (s.acct x.owner).charge) ∧
          (∀ c, x.copy = some c → (t.acct x.owner).charge = (s.acct x.owner).charge - 1 ∧
            (c.stage = .reading ∨ ¬ inSlot →
              t.free = s.free ++ [c.pcn] ∧ t.claims = s.claims - 1 ∧ t.returns = s.returns) ∧
            (c.stage = .writing → inSlot →
              t.free = s.free ∧ t.claims = s.claims ∧ t.returns = s.returns ++ [c.pcn])) ∧
          (∃ d, t.ctl = offer d
            { kind := .restoreEnded, time := if s.sched.clockSet then s.sched.clock else 0, subject := j, d1 := 2,
              d2 := x.copied + x.cleared + x.skipped + x.unchanged }) ∧
          ∃ pending lost, t.out = [.control pending lost 25 tag .ok []]))

/-! ### Control requests: the run -/

/-- RUN START (R125, R126): MALFORMED, RANGE and NOTREADY, then the five checks with their reason codes and the volume
of reasons 3 and 4; a start that passes opens pass 1 with the next run id, the deadline at the first later time of its
minute, the run counts 0 and RUN OPEN as the next frame, which the port sends at once if its pacing time has come.
Stated where the first volume's slot 0 is still occupied, so that the engine waits (R127). The presence flag before
NOTARMED's volume is the model's reading (log entry 19), the first failing volume in plan order as the one that
reasons 3 and 4 name (log entry 68) and the opened run's suspension marks cleared whatever they were, which neither
rule names (log entry 61), are its choice, and a deadline past the last campus time is a free value (log entry 13). -/
def Obligations.RunStartChecksAndOpensThePass : Prop :=
  ∀ (s : State) (tag mode minute : Nat), s.ctlServes →
    let refused := fun code => exec (.runStart tag mode minute) s = .next (s.answered 29 tag code [])
    let notArmed := fun fields => exec (.runStart tag mode minute) s = .next (s.answered 29 tag .notArmed fields)
    let deleted := fun v => (s.vol v).state = .absent ∨ (s.vol v).state = .deleting
    let linked := s.port.up = true ∧ s.port.site = some s.ctl.config.partnerSite
    let id := if 4294967295 ≤ s.run.runId then 0 else s.run.runId + 1
    let deadline := nextMinute s.sched.clock minute
    let opened : Run := { s.run with
      state := .active, mode := if mode = 0 then .nightly else .continuous, deadline := deadline, runId := id,
      pass := 1,
      planIndex := 0, phase := .freeze, asked := false, passSealed := 0, passSkipped := 0, sealedVols := 0,
      skippedVols := 0, dataFrames := 0, clearFrames := 0, retries := 0, linkMark := false, shelfMark := false,
      frames := [], reading := none }
    let frame : Frame :=
      { kind := .runOpen, flags := if mode = 0 then 0 else 1, vol := 0, seq := 0, runId := id, lcn := 0, count := 0,
        crc := 0#32, gen := 0, a := 1, b := s.plan.length, payload := [] }
    let port : Port := { s.port with
      seqRun := some id, nextNo := 1, highestAcked := 0, retry := 0, resendPos := none }
    let rate := match s.sched.rate with | .night => s.ctl.config.nightRate | .day => s.ctl.config.dayRate
    (1 < mode → refused .malformed) ∧
    (mode ≤ 1 → 1439 < minute → refused .range) ∧
    (mode ≤ 1 → minute ≤ 1439 → s.ctl.part = .standby → refused .notReady) ∧
    (mode ≤ 1 → minute ≤ 1439 → s.ctl.part = .running →
      (s.run.state ≠ .idle → notArmed [1, 0, 0]) ∧
      (s.run.state = .idle → s.plan = [] → notArmed [2, 0, 0]) ∧
      (s.run.state = .idle → ∀ v, s.plan.find? (fun w => decide (deleted w)) = some v → notArmed [3, 1, v]) ∧
      (s.run.state = .idle → (∀ w ∈ s.plan, ¬ deleted w) → ∀ v,
        s.plan.find? (fun w => !(s.vol w).offsite) = some v → notArmed [4, 1, v]) ∧
      (s.run.state = .idle → s.plan ≠ [] → (∀ w ∈ s.plan, ¬ deleted w ∧ (s.vol w).offsite = true) →
        (¬ linked → notArmed [5, 0, 0]) ∧
        (linked → ∀ first, s.plan[0]? = some first → tfind (s.vol first).snaps 0 ≠ none →
          (s.port.held = true ∨ s.port.pace < s.port.nextSend →
            exec (.runStart tag mode minute) s = .next
              (({ s with run := { opened with frames := [frame] }, port := port }).answered
                29 tag .ok [id, deadline])) ∧
          (s.port.held = false → s.port.nextSend ≤ s.port.pace → s.port.outstanding.length < s.ctl.config.window →
            ∃ u : State, u = ({ s with
                run := opened,
                port := { port with
                  outstanding := s.port.outstanding ++ [{ frame with seq := 1 }], nextNo := 2,
                  nextSend := s.port.pace + (48 * 1000000 + (rate * 1024 - 1)) / (rate * 1024),
                  ackTimer := if s.port.outstanding = [] then some s.ctl.config.ackTimeout else s.port.ackTimer } }
                : State).answered 29 tag .ok [id, deadline] ∧
              exec (.runStart tag mode minute) s =
                .next { u with out := .offsite { frame with seq := 1 } :: u.out }))))

/-- The offsite run's own freeze of its current volume, in the event of RUN START (R125 to R128). With slot 0 empty a
RUN create is asked for: on a FROZEN volume, or one with no changing work in hand, the RUN snapshot is created at once
and in the same event the run counter steps, the lists swap, the send kind and its reasons are decided, and VOLUME
OPEN stands behind RUN OPEN; with changing work in hand the create waits on its drain; at the last generation the
volume is skipped (GENLIMIT), with RUN VOLUME SKIPPED, and the only volume of the plan being skipped the pass goes to
CLOSING. The drain timer (TIMEOUT) raises the freeze-retries count and asks again in the same event. Stated with the
port held, no job RUNNING and no drain of the volume waiting. That a skipped last volume leaves the plan's length as
the index and the phase as it stood is the model's choice (log entry 56), and so are the suspension marks that the
opening of the run clears, which no rule among these names (log entry 61). The first LCN 0 of an absent clear run is
its reading (log entry 19), and a deadline past the last campus time is a free value (log entry 13). -/
def Obligations.RunFreezesItsVolume : Prop :=
  ∀ (s : State) (tag minute v : Nat) (rest : List Nat), s.wf = true → (∀ p ∈ s.jobs, p.2.state ≠ .running) →
    let y := s.vol v
    let id := if 4294967295 ≤ s.run.runId then 0 else s.run.runId + 1
    let deadline := nextMinute s.sched.clock minute
    let time := if s.sched.clockSet then s.sched.clock else 0
    let members : List BusyOwner :=
      ((s.inflight.filter fun e => e.req.vol == v && e.req.kind != .read && e.state != .held).map fun e =>
          BusyOwner.front e.arrival)
        ++ ((s.busy.filter fun i =>
          i.vol == v && match i.owner with | .restore _ => true | .front _ => false).map BusyItem.owner)
    let drain := fun (label : Nat) =>
      { work := .holding { kind := .run, series := none, label := label, asker := .run }, members := members,
        timeout := s.ctl.config.drainTimeout : Drain }
    (s.ctlServes → s.ctl.part = .running → minute ≤ 1439 → s.run.state = .idle → s.plan = v :: rest →
      (∀ w ∈ s.plan, (s.vol w).state ≠ .absent ∧ (s.vol w).state ≠ .deleting ∧ (s.vol w).offsite = true) →
      s.port.up = true → s.port.site = some s.ctl.config.partnerSite → s.port.held = true →
      tfind y.snaps 0 = none → y.drain = none → y.waiting = [] → y.holdList = [] →
      let c := if 65534 ≤ y.runCounter then 0 else y.runCounter + 1
      let reasons := (if y.fullScan then 1 else 0) + (if y.overflow then 2 else 0) + (if y.everSealed then 0 else 4)
        + if c = 0 then 8 else 0
      let plain := fun (kind : FrameKind) =>
        { kind := kind, flags := 0, vol := 0, seq := 0, runId := id, lcn := 0, count := 0, crc := 0#32, gen := 0, a := 0,
          b := 0, payload := [] : Frame }
      let runOpen := { plain .runOpen with a := 1, b := s.plan.length }
      let volOpen := { plain .volumeOpen with
        flags := (if reasons = 0 then 0 else 1) + 2 * reasons, vol := v, count := y.size, gen := y.gen, a := s.format.k }
      let opened : Run := { s.run with
        state := .active, mode := .nightly, deadline := deadline, runId := id, pass := 1, planIndex := 0,
        phase := .freeze, asked := true, passSealed := 0, passSkipped := 0, sealedVols := 0, skippedVols := 0,
        dataFrames := 0, clearFrames := 0, retries := 0, linkMark := false, shelfMark := false, frames := [runOpen],
        reading := none }
      let begun := fun (r : Run) (x : Volume) =>
        { s with
          run := r, vols := tset Volume.absent v x s.vols,
          port := { s.port with
            seqRun := some id, nextNo := 1, highestAcked := 0, retry := 0, resendPos := none } : State }
      let start := exec (.runStart tag 0 minute) s
      (y.state = .frozen ∨ members = [] → y.gen < 4294967294 →
        start = .next ((begun
          { opened with
            phase := .send, fullScan := reasons != 0, reasons := reasons, keep := c == 0, pos := 0, clearStart := 0,
            clearCount := 0, scanRead := false, volData := 0, volClear := 0, frames := [runOpen, volOpen] }
          { y with
            snaps := tput 0
              { kind := .run, series := none, gen := y.gen, label := id, created := time, held := false, state := .ready,
                retained := [], inUse := 0, freed := 0 } y.snaps,
            gen := y.gen + 1, runCounter := c, runList := y.activeList, runIncomplete := y.activeIncomplete,
            activeList := [], activeIncomplete := false, fullScan := y.fullScan || c == 0 }).answered
          29 tag .ok [id, deadline])) ∧
      (y.state ≠ .frozen → members ≠ [] →
        start = .next ((begun opened { y with drain := some (drain id) }).answered 29 tag .ok [id, deadline])) ∧
      (y.state = .frozen ∨ members = [] → 4294967294 ≤ y.gen → rest = [] →
        let skipped : Run := { opened with
          state := .closing, planIndex := 1, asked := false, skippedVols := 1, passSkipped := 1,
          frames := [runOpen, { plain .runClose with b := 1 }] }
        start = .next (({ begun skipped y with
          ctl := offer s.ctl { kind := .runVolumeSkipped, time := time, subject := v, d1 := 20, d2 := 0 } } : State).answered
            29 tag .ok [id, deadline]))) ∧
    (s.ctl.part ≠ .recovering → s.currentVol = some v → s.run.state ≠ .idle → s.run.phase = .freeze →
      tfind y.snaps 0 = none → y.state ≠ .frozen → y.holdList = [] → y.waiting = [] → members ≠ [] → ∀ d label,
      y.drain = some d → d.work = .holding { kind := .run, series := none, label := label, asker := .run } →
      exec (.drainTimeout v) s = .next
        ({ s with
          run := { s.run with retries := s.run.retries + 1, asked := true },
          vols := tset Volume.absent v { y with drain := some (drain s.run.runId) } s.vols } : State).closed)

/-- The early end of a run (R134, R135, R138): RUN STOP on a run whose next frame is not in preparation ends it
STOPPED; a TIME SET at or past the deadline, or the advance that reaches it, ends it DEADLINE. The run is IDLE with
that result and no frame, the port is emptied, nothing is freed, charged or copied, and RUN ENDED is queued after all
else (outside RECOVERING, where recovery goes on). A volume frozen and not sealed has its run list merged back into
the active list in order (R121) and emptied, and its RUN snapshot queued for deletion: DELETING where the queue was
empty, and gone at once if its set is empty in a RUNNING part (R88, R89, R91). In FREEZE nothing is merged and the RUN
create is withdrawn: one that waits behind another drain leaves its queue, and one whose drain runs ends it without
its action, the hold list released and the next waiting drain begun (R29; `RunGivenUp`), stated for released requests
that wait behind earlier work, a next drain that finds work in hand and no job that can begin a visit. The suspension
marks are cleared, the model's choice (log entry 61); RUN ENDED as the last notice of its event and the fresh arrival
numbers of the requests released are its reading (log entries 6 and 32). RUN STOP is NOTFOUND on an IDLE run, OK on a
STOPPING one, and leaves STOPPING while a frame's read runs. -/
def Obligations.RunEndsEarly : Prop :=
  ∀ (s : State) (tag now : Nat),
    let ended := fun (r : RunResult) (t : State) => RunEnded s t r ∧ t.port.up = s.port.up
    let quiet := ∀ v, s.runDrains v → s.releaseWaits v
    (s.ctlServes → s.run.state = .idle → exec (.runStop tag) s = .next (s.answered 30 tag .notFound [])) ∧
    (s.ctlServes → s.run.state = .stopping → exec (.runStop tag) s = .next (s.answered 30 tag .ok [])) ∧
    (s.ctlServes → s.run.state ≠ .idle → s.run.state ≠ .stopping → s.run.reading ≠ none →
      exec (.runStop tag) s = .next (({ s with run := { s.run with state := .stopping } }).answered 30 tag .ok [])) ∧
    (s.ctlServes → s.run.state ≠ .idle → s.run.state ≠ .stopping → s.run.reading = none → quiet →
      Answers (exec (.runStop tag) s) fun t =>
        ended .stopped t ∧ ∃ pending lost, t.out = [.control pending lost 30 tag .ok []]) ∧
    (s.ctlServes → s.run.state ≠ .idle → quiet → s.run.deadline ≤ now →
      Answers (exec (.timeSet tag now) s) fun t =>
        ended .deadline t ∧ t.sched.clockSet = true ∧ t.sched.clock = now ∧
          ∃ pending lost, t.out = [.control pending lost 4 tag .ok [now]]) ∧
    (s.sched.clockSet = true → s.run.state ≠ .idle → quiet → s.sched.clock + 1 < 4294967296 →
      s.run.deadline ≤ s.sched.clock + 1 → (s.sched.clock + 1) % 60 ≠ 0 →
      Answers (exec .clockAdvance s) fun t =>
        ended .deadline t ∧ t.sched.clock = s.sched.clock + 1 ∧ t.out = [])

/-- One LCN of a full scan (R131): with no scan in hand, or in RECOVERING, which ends the run (R139), nothing changes;
the stamp is swept; an UNMAPPED view joins the pending clear run, which becomes a ready CHUNK CLEAR with its first LCN
and its count when it reaches 65,535 LCNs, when the scan passes the last LCN, or when a mapped view follows it, whose
read is then due once the frame is taken; a mapped view with no clear run before it has its whole-chunk read handed to
the shelf port, stated with the shelf link DOWN, so that it waits there. A frame made ready is stated where the port
may not send. The step with no scan in hand, and one LCN for each event: log entries 8 and 38, the model's choice and
reading. -/
def Obligations.FullScanStepVisitsOneLcn : Prop :=
  ∀ (s : State) (v : Nat),
    let r := s.run
    let x := s.vol v
    let m := x.entry r.pos
    let y : Volume := if m.stamp = some x.runCounter then x
      else { x with map := tset MapEntry.fresh r.pos { m with stamp := none } x.map }
    let view := viewLookup x (((tfind x.snaps 0).map Snap.gen).getD 0) r.pos
    let scanning := s.ctl.part ≠ .recovering ∧ r.state ≠ .idle ∧ r.state ≠ .stopping ∧ r.phase = .send ∧
      r.frames = [] ∧ r.reading = none ∧
      r.shelfMark = false ∧ r.fullScan = true ∧ r.scanRead = false ∧ r.pos < x.size
    (s.currentVol = none → exec .fullScanStep s = .next s.closed) ∧
    (s.currentVol = some v → ¬ scanning → exec .fullScanStep s = .next s.closed) ∧
    (s.currentVol = some v → scanning → x.state ≠ .absent →
      let vols := if m.stamp = some x.runCounter then s.vols else tset Volume.absent v y s.vols
      let gathered : Run := { r with
        clearStart := if r.clearCount = 0 then r.pos else r.clearStart, clearCount := r.clearCount + 1,
        pos := r.pos + 1 }
      let closed := fun (g : Run) =>
        exec .fullScanStep s = .next
          ({ s with vols := vols, run := { g with frames :=
              [{ kind := .chunkClear, flags := 0, vol := v, seq := 0, runId := r.runId, lcn := g.clearStart,
                 count := g.clearCount, crc := 0#32, gen := 0, a := 0, b := 0, payload := [] }] } } : State).closed
      let waits := s.port.up = false ∨ s.port.held = true ∨ s.port.pace < s.port.nextSend
      (view = none → r.clearCount + 1 < 65535 → r.pos + 1 < x.size →
        exec .fullScanStep s = .next ({ s with vols := vols, run := gathered } : State).closed) ∧
      (view = none → 65535 ≤ r.clearCount + 1 ∨ x.size ≤ r.pos + 1 → waits → closed gathered) ∧
      (∀ pcn, view = some pcn → r.clearCount ≠ 0 → waits → closed { r with scanRead := true }) ∧
      (∀ pcn, view = some pcn → r.clearCount = 0 → s.shelf.up = false →
        exec .fullScanStep s = .next
          ({ s with
            vols := vols,
            run := { r with reading := some { lcn := r.pos, reissued := false } },
            shelf := { s.shelf with offsiteQueue := s.shelf.offsiteQueue ++
              [{ kind := .read, cls := .offsite, pcn := pcn, first := 0, count := 2 ^ s.format.k, data := [],
                 owner := .send }] } } : State).closed))

/-! ### The offsite link -/

/-- HELLO (R142, R136, R154): the link is UP at the announced site, with LINK UP queued when it was DOWN or at another
site; a site that is not the partner's ends a run FAILED as R138 ends it, with its RUN ENDED (`RunEnded`,
`RunGivenUp`; a withdrawn RUN create's drain as in the statement of the early end). A matching site clears the link
suspension mark: a STOPPING run stays STOPPING, a run with the shelf mark is SUSPENDED-SHELF, any other CLOSING past
its last volume and else ACTIVE; the port's retry counter is 0, a hold ends, and the resend position is the oldest
outstanding frame, which goes out again at once where the pacing time has come. Stated for an engine with nothing to
ask for or prepare, and where no new frame can go out. The suspension marks cleared at the run's end are the model's
choice (log entry 61), the place of RUN ENDED among the notices and the arrival numbers of released requests its
reading (log entries 6 and 32). That a HELLO shows the carrier is the model's reading: log entry 12. HOLD and RESUME
(R153), the hold timer and the loss of the carrier (R142): HOLD stops the acknowledgement timer and the sending;
RESUME starts the timer again for what is outstanding; the timer's expiry and the carrier's loss take the link DOWN
with LINK LOST and their reasons, 3 HOLD and 1 CARRIER, a run suspended (R136). Stated, for RESUME, with nothing
offered and no resend pending. That a HOLD while held and a RESUME while not held are not counted (R143, R153) is the
model's reading (log entry 14), as is the run's state beside the link mark (log entry 34); the events that do not
happen are its choice (log entry 8). -/
def Obligations.OffsiteLinkComesUpAndIsHeldOrLost : Prop :=
  (∀ (s : State) (site : Nat),
     let ok := site = s.ctl.config.partnerSite
     let news := s.port.up = false ∨ s.port.site ≠ some site
     let notice : Notice :=
       { kind := .linkUp, time := if s.sched.clockSet then s.sched.clock else 0, subject := site,
         d1 := if ok then 1 else 0, d2 := 0 }
     let ctl := if news then offer s.ctl notice else s.ctl
     (s.run.state = .idle → s.run.frames = [] → s.port.outstanding = [] →
       exec (.hello site) s = .next
         ({ s with
           port := { s.port with
             up := true, site := some site,
             retry := if ok then 0 else s.port.retry, held := if ok then false else s.port.held,
             resendPos := if ok then none else s.port.resendPos },
           ctl := ctl } : State).closed) ∧
     (s.run.state ≠ .idle → ¬ ok → (∀ v, s.runDrains v → s.releaseWaits v) →
       Answers (exec (.hello site) s) fun t =>
         RunEnded s t .failed ∧ t.port.up = true ∧ t.port.site = some site ∧ t.out = [] ∧
           (news → t.ctl.lost = false → notice ∈ t.ctl.notices)) ∧
     (ok →
       (s.run.state ≠ .idle → s.ctl.part ≠ .recovering → ∀ v, s.currentVol = some v →
         (s.run.phase = .freeze → s.run.asked = true ∨ tfind (s.vol v).snaps 0 ≠ none) ∧
         (s.run.phase = .send →
           s.run.state = .stopping ∨ s.run.frames ≠ [] ∨ s.run.reading ≠ none ∨ s.run.shelfMark = true)) →
       let rate := match s.sched.rate with | .night => s.ctl.config.nightRate | .day => s.ctl.config.dayRate
       let port : Port := { s.port with
         up := true, site := some site, retry := 0, held := false,
         resendPos := s.port.outstanding.head?.map Frame.seq }
       let up : State := { s with
         port := port, ctl := ctl,
         run := if s.run.state = .idle then s.run
           else { s.run with
             linkMark := false,
             state := if s.run.state = .stopping then .stopping
               else if s.run.shelfMark then .suspendedShelf
               else if s.currentVol = none then .closing else .active } }
       (s.port.pace < s.port.nextSend ∨ (s.port.outstanding = [] ∧ s.run.frames = []) →
         exec (.hello site) s = .next up.closed) ∧
       (s.port.nextSend ≤ s.port.pace → ∀ f more, s.port.outstanding = f :: more →
         exec (.hello site) s = .next
           { ({ up with port := { port with
                 nextSend := s.port.pace +
                   ((48 + f.payload.length * 4096) * 1000000 + (rate * 1024 - 1)) / (rate * 1024),
                 resent := s.port.resent + 1, ackTimer := some s.ctl.config.ackTimeout,
                 resendPos := if s.port.nextNo - 1 ≤ f.seq then none else some (f.seq + 1) } } : State).closed with
             out := [.offsite f] }))) ∧
  (∀ s : State,
     let p := s.port
     let ignored : State := ({ s with port := { p with ignored := p.ignored + 1 } } : State).closed
     let lost := fun (reason : Nat) =>
       ({ s with
         port := { p with up := false, ackTimer := none, held := false, resendPos := none },
         run := if s.run.state = .idle then s.run
           else { s.run with
             linkMark := true,
             state := if s.run.state = .active ∨ s.run.state = .closing then .suspendedLink else s.run.state },
         ctl := offer s.ctl
           { kind := .linkLost, time := if s.sched.clockSet then s.sched.clock else 0, subject := p.site.getD 0,
             d1 := reason, d2 := p.outstanding.length } } : State).closed
     exec .hold s = .next
       (if p.up = false then ignored
        else if p.held then s.closed
        else ({ s with port := { p with held := true, ackTimer := none } } : State).closed) ∧
     (s.run.frames = [] → p.resendPos = none →
       exec .resume s = .next
         (if p.up = false then ignored
          else if p.held then
            ({ s with port := { p with
                held := false,
                ackTimer := if p.outstanding = [] then none else some s.ctl.config.ackTimeout } } : State).closed
          else s.closed)) ∧
     exec .holdTimerExpiry s = .next (if p.held then lost 3 else s.closed) ∧
     exec .offsiteCarrierLoss s = .next (if p.up then lost 1 else s.closed))

/-- ACK (R150): of the current sequence, every outstanding frame up to its number leaves the list, the highest
acknowledged number is that number, the retry counter is 0 and the timer starts again for what is left; a number
outside the list changes nothing and is not counted, which is the model's reading of R143 and R150 (log entry 14); of
another sequence, or with the link DOWN, it is ignored and counted (R143). With a VOLUME SEAL acknowledged the volume
is sealed and released (R132): its flags and lists as R132 says, RUN VOLUME SEALED queued with the send's counts, its
RUN snapshot queued for deletion; after the plan's last volume RUN CLOSE is the next frame, else the next volume
enters FREEZE (R127): it waits for slot 0, or behind a running drain, or is frozen at once on a FROZEN volume. With
RUN CLOSE acknowledged (R133) a NIGHTLY run is IDLE and COMPLETE, the port emptied and RUN ENDED queued; a CONTINUOUS
run queues RUN PASS DONE and opens its next pass, with a new run id and sequence and RUN OPEN as the next frame,
stated where slot 0 of the first volume is occupied. Its count of volumes sealed is the pass's own, the model's
reading (log entry 23). The next frame is stated where the port may not send. Stated with no resend pending and no
frame offered. -/
def Obligations.AckTakesFramesOffTheList : Prop :=
  ∀ (s : State) (n run : Nat),
    let p := s.port
    let current := p.up = true ∧ p.seqRun = some run
    let left := p.outstanding.filter fun f => decide (n < f.seq)
    let outside := ∀ f, p.outstanding.head? = some f → n < f.seq ∨ p.nextNo ≤ n
    (¬ current → exec (.ack n run) s = .next ({ s with port := { p with ignored := p.ignored + 1 } } : State).closed) ∧
    (current → 1 ≤ p.nextNo → outside → exec (.ack n run) s = .next s.closed) ∧
    (current → 1 ≤ p.nextNo → ¬ outside → s.run.frames = [] → p.resendPos = none →
      ((∀ f ∈ p.outstanding, f.seq ≤ n → f.kind ≠ .volumeSeal ∧ f.kind ≠ .runClose) →
        exec (.ack n run) s = .next
          ({ s with port := { p with
              outstanding := left, highestAcked := n, retry := 0,
              ackTimer := if left = [] ∨ p.held = true then none else some s.ctl.config.ackTimeout } }
                : State).closed) ∧
      (∀ f v, p.outstanding = [f] → f.kind = .volumeSeal → s.currentVol = some v → s.run.state ≠ .idle →
        let x := s.vol v
        let i := s.run.planIndex + 1
        let waits := p.held = true ∨ p.pace < p.nextSend
        let note : Notice :=
          { kind := .runVolumeSealed, time := if s.sched.clockSet then s.sched.clock else 0, subject := v,
            d1 := s.run.volData, d2 := s.run.volClear }
        let released := fun (t : State) =>
          (t.vol v).everSealed = true ∧ (t.vol v).runList = [] ∧ (t.vol v).runIncomplete = false ∧
          (t.vol v).fullScan = (x.fullScan && s.run.keep) ∧
          (t.vol v).overflow = (x.overflow && !(s.run.fullScan && !x.activeIncomplete)) ∧
          (t.vol v).map = x.map ∧ (t.vol v).activeList = x.activeList ∧ (t.vol v).state = x.state ∧
          (t.vol v).gen = x.gen ∧ (t.vol v).runCounter = x.runCounter ∧ RunSnapQueued s t v ∧
          t.ctl.notices.take (s.ctl.notices.length + 1) = (offer s.ctl note).notices ∧
          t.run.sealedVols = s.run.sealedVols + 1 ∧ t.run.passSealed = s.run.passSealed + 1 ∧
          t.run.planIndex = i ∧ t.port.highestAcked = n ∧ t.free = s.free ∧
          t.accounts = s.accounts ∧ t.jobs = s.jobs ∧ t.inflight = s.inflight
        (i = s.plan.length → Answers (exec (.ack n run) s) fun t =>
          released t ∧ t.run.state = (if s.run.state = .active then .closing else s.run.state) ∧
          (∀ w, w ≠ v → t.vol w = s.vol w) ∧
          (waits → t.port.outstanding = [] ∧ t.run.frames =
            [{ kind := .runClose, flags := 0, vol := 0, seq := 0, runId := s.run.runId, lcn := 0, count := 0,
               crc := 0#32, gen := 0, a := s.run.passSealed + 1, b := s.run.passSkipped, payload := [] }])) ∧
        (∀ w, s.plan[i]? = some w → w ≠ v → waits →
          let y := s.vol w
          let stays := fun (t : State) => ∀ u, u ≠ v → u ≠ w → t.vol u = s.vol u
          (s.ctl.part = .recovering ∨ tfind y.snaps 0 ≠ none → Answers (exec (.ack n run) s) fun t =>
            released t ∧ t.run.state = s.run.state ∧ t.run.phase = .freeze ∧ t.run.asked = false ∧ t.run.frames = [] ∧
            stays t ∧ t.vol w = y) ∧
          (s.ctl.part ≠ .recovering → tfind y.snaps 0 = none → y.state ≠ .frozen → y.drain ≠ none →
            Answers (exec (.ack n run) s) fun t =>
              released t ∧ t.run.state = s.run.state ∧ t.run.phase = .freeze ∧ t.run.asked = true ∧ t.run.frames = [] ∧
              stays t ∧ t.vol w = { y with waiting := y.waiting ++
                [.holding { kind := .run, series := none, label := s.run.runId, asker := .run }] }) ∧
          (s.ctl.part ≠ .recovering → tfind y.snaps 0 = none → y.state = .frozen → y.gen < 4294967294 →
            Answers (exec (.ack n run) s) fun t =>
              released t ∧ t.run.state = s.run.state ∧ t.run.phase = .send ∧
              t.run.frames.map Frame.kind = [.volumeOpen] ∧ stays t ∧ (t.vol w).gen = y.gen + 1 ∧
              (t.vol w).runList = y.activeList ∧ (t.vol w).activeList = [] ∧
              (tfind (t.vol w).snaps 0).map Snap.gen = some y.gen))) ∧
      (∀ f, p.outstanding = [f] → f.kind = .runClose →
        let time := if s.sched.clockSet then s.sched.clock else 0
        let id := if 4294967295 ≤ s.run.runId then 0 else s.run.runId + 1
        let pass := if s.run.pass = 65535 then 1 else s.run.pass + 1
        (s.run.mode = .nightly → exec (.ack n run) s = .next
          ({ s with
            run := { s.run with state := .idle, result := .complete },
            port := { p with
              outstanding := [], highestAcked := n, retry := 0, ackTimer := none, seqRun := none },
            ctl := offer s.ctl
              { kind := .runEnded, time := time, subject := s.run.runId, d1 := 1, d2 := s.run.sealedVols } }
                : State).closed) ∧
        (s.run.mode = .continuous → p.held = true ∨ p.pace < p.nextSend →
          (∀ v, s.plan[0]? = some v → tfind (s.vol v).snaps 0 ≠ none) → exec (.ack n run) s = .next
          ({ s with
            run := { s.run with
              state := .active, result := .complete, runId := id, pass := pass, planIndex := 0, phase := .freeze,
              asked := false, passSealed := 0, passSkipped := 0,
              frames := [{ kind := .runOpen, flags := 1, vol := 0, seq := 0, runId := id, lcn := 0, count := 0,
                           crc := 0#32, gen := 0, a := pass, b := s.plan.length, payload := [] }] },
            port := { p with
              outstanding := [], highestAcked := 0, nextNo := 1, retry := 0, ackTimer := none, seqRun := some id },
            ctl := offer s.ctl
              { kind := .runPassDone, time := time, subject := s.run.runId, d1 := s.run.pass, d2 := s.run.passSealed } }
                : State).closed)))

/-- NAK (R151) of an outstanding number, and the expiry of the acknowledgement timer (R152): the retry counter rises
by one; within the retry limit the resend position is set, and past it the link goes DOWN with LINK LOST RETRY and a
run is suspended (R136). A timer that does not run does nothing, and neither does a NAK of a number not outstanding.
Stated while the pacing time has not come. That such a NAK is not counted (R143, R151) is the model's reading (log
entry 14), as is the run's state beside the link mark (log entry 34); the timer that does not run is its choice (log
entry 8). -/
def Obligations.NakAndAckTimerRetry : Prop :=
  ∀ (s : State) (n run : Nat), s.port.pace < s.port.nextSend →
    let p := s.port
    let lost : Notice :=
      { kind := .linkLost, time := if s.sched.clockSet then s.sched.clock else 0, subject := p.site.getD 0, d1 := 2,
        d2 := p.outstanding.length }
    let down : Run := if s.run.state = .idle then s.run
      else { s.run with
        linkMark := true,
        state := if s.run.state = .active ∨ s.run.state = .closing then .suspendedLink else s.run.state }
    let after := fun (m : Nat) (timer : Option Nat) =>
      if s.ctl.config.retryLimit < p.retry + 1 then
        ({ s with
          port := { p with
            retry := p.retry + 1, up := false, ackTimer := none, held := false, resendPos := none },
          run := down, ctl := offer s.ctl lost } : State).closed
      else ({ s with port := { p with retry := p.retry + 1, ackTimer := timer, resendPos := some m } } : State).closed
    (p.up = true → p.seqRun = some run →
      exec (.nak n run) s = .next (if ∃ f ∈ p.outstanding, f.seq = n then after n p.ackTimer else s.closed)) ∧
    (¬ (p.up = true ∧ p.seqRun = some run) →
      exec (.nak n run) s = .next ({ s with port := { p with ignored := p.ignored + 1 } } : State).closed) ∧
    (p.ackTimer = none ∨ p.outstanding = [] → exec .ackTimerExpiry s = .next s.closed) ∧
    (∀ k f, p.ackTimer = some k → p.outstanding.head? = some f →
      exec .ackTimerExpiry s = .next (after f.seq none))

/-- The pacing clock (R146, R147, R151): while the port may not transmit only its pacing clock moves on; when it may,
a pending resend goes out first, with the next send one frame time later at the active rate, rounded up, and the
resend position on the next number. With none pending and room in the window the engine's ready frame is sent (R146):
it takes the next number, joins the outstanding list, starts the timer of an empty list, and the engine's counts and
position move (R129, R130); stated where no freeze falls due. In that event the engine prepares the next frame of the
send (R129), stated with the shelf link DOWN, so that a read waits in its queue: an incremental send takes the next
LCN of the run list, by an OFFSITE read of the whole chunk its view names, or as a ready CHUNK CLEAR of count 1 where
the view is UNMAPPED (R130), and past the tail of the list makes VOLUME SEAL with the volume's counts (R132); a full
scan, its clear run taken, hands over the read of the mapped view behind it, goes on scanning, or past the last LCN
makes VOLUME SEAL (R131, R132). The pacing clock as an instant in microseconds is the model's choice: log entry 10. -/
def Obligations.PacedPortResendsFirst : Prop :=
  ∀ (s : State) (instant : Nat),
    let p := s.port
    let now := if p.pace < instant then instant else p.pace
    let rate := match s.sched.rate with | .night => s.ctl.config.nightRate | .day => s.ctl.config.dayRate
    (p.up = false ∨ p.held = true ∨ now < p.nextSend →
      exec (.pacingTimeReached instant) s = .next ({ s with port := { p with pace := now } } : State).closed) ∧
    (p.up = true → p.held = false → p.nextSend ≤ now → ∀ n f, p.resendPos = some n →
      p.outstanding.find? (fun g => g.seq == n) = some f →
      exec (.pacingTimeReached instant) s = .next
        { ({ s with port := { p with
              pace := now,
              nextSend := now + ((48 + f.payload.length * 4096) * 1000000 + (rate * 1024 - 1)) / (rate * 1024),
              resent := p.resent + 1,
              ackTimer := if p.outstanding.head?.map Frame.seq = some n then some s.ctl.config.ackTimeout
                else p.ackTimer,
              resendPos := if p.nextNo - 1 ≤ n then none else some (n + 1) } } : State).closed with
          out := [.offsite f] }) ∧
    (p.up = true → p.held = false → p.nextSend ≤ now → p.resendPos = none → p.seqRun ≠ none →
      p.outstanding.length < s.ctl.config.window → 0 < rate → ∀ f more, s.run.frames = f :: more →
      (s.run.phase = .freeze → ∀ v, s.currentVol = some v → tfind (s.vol v).snaps 0 ≠ none) →
      let sent := { f with seq := p.nextNo }
      let data := if f.kind = .chunkData then 1 else 0
      let clear := if f.kind = .chunkClear then 1 else 0
      Answers (exec (.pacingTimeReached instant) s) fun t =>
        t.port = { p with
          pace := now,
          nextSend := now + ((48 + f.payload.length * 4096) * 1000000 + (rate * 1024 - 1)) / (rate * 1024),
          outstanding := p.outstanding ++ [sent], nextNo := p.nextNo + 1,
          ackTimer := if p.outstanding = [] then some s.ctl.config.ackTimeout else p.ackTimer } ∧
        t.out.head? = some (.offsite sent) ∧ t.run.state = s.run.state ∧
        t.run.dataFrames = s.run.dataFrames + data ∧ t.run.volData = s.run.volData + data ∧
        t.run.clearFrames = s.run.clearFrames + clear ∧ t.run.volClear = s.run.volClear + clear ∧
        t.run.pos = s.run.pos + data + (if s.run.fullScan then 0 else clear) ∧ t.vols = s.vols ∧ t.free = s.free ∧
        t.accounts = s.accounts ∧ t.jobs = s.jobs ∧ t.ctl = s.ctl ∧
        (s.ctl.part ≠ .recovering → more = [] → s.run.state ≠ .idle → s.run.state ≠ .stopping → s.run.phase = .send →
          s.run.reading = none → s.run.shelfMark = false → s.shelf.up = false → ∀ v, s.currentVol = some v →
          let x := s.vol v
          let r : Run := { s.run with
            frames := [], volData := s.run.volData + data, dataFrames := s.run.dataFrames + data,
            volClear := s.run.volClear + clear, clearFrames := s.run.clearFrames + clear,
            pos := s.run.pos + data + (if s.run.fullScan then 0 else clear),
            clearCount := if f.kind = .chunkClear then 0 else s.run.clearCount }
          let view := fun (l : Nat) => viewLookup x (((tfind x.snaps 0).map Snap.gen).getD 0) l
          let plain := fun (kind : FrameKind) =>
            { kind := kind, flags := 0, vol := v, seq := 0, runId := s.run.runId, lcn := 0, count := 0, crc := 0#32,
              gen := 0, a := 0, b := 0, payload := [] : Frame }
          let reads := fun (l : Nat) => ∀ pcn, view l = some pcn →
            t.run = { r with reading := some { lcn := l, reissued := false }, scanRead := false } ∧
            t.shelf = { s.shelf with offsiteQueue := s.shelf.offsiteQueue ++
              [{ kind := .read, cls := .offsite, pcn := pcn, first := 0, count := 2 ^ s.format.k, data := [],
                 owner := .send }] }
          let seals := t.shelf = s.shelf ∧ t.run = { r with
            phase := .seal, frames := [{ plain .volumeSeal with a := r.volData, b := r.volClear }] }
          (s.run.fullScan = false →
            (∀ l, x.runList[r.pos]? = some l → reads l ∧
              (view l = none → t.shelf = s.shelf ∧
                t.run = { r with frames := [{ plain .chunkClear with lcn := l, count := 1 }] })) ∧
            (x.runList.length ≤ r.pos → seals)) ∧
          (s.run.fullScan = true → r.clearCount = 0 →
            (s.run.scanRead = true → reads r.pos) ∧
            (s.run.scanRead = false → x.size ≤ r.pos → seals) ∧
            (s.run.scanRead = false → r.pos < x.size → t.shelf = s.shelf ∧ t.run = r))))

/-! ### The shelf link -/

/-- The shelf arbiter's choice among the three queues (R158, R160, R161), at the freeing of the one free slot by a
command that nobody waits for. The head of the FOREGROUND queue is granted, unless the streak count is 15 and
background work waits; a background grant goes to the queue the turn names, or to the other where that is empty. A
foreground grant steps the streak count while background work waits and clears it otherwise; a background grant clears
it and gives the turn to the other class. The granted command is transmitted with the slot, the epoch, the slot's next
use count and its shelf address, its timer starts, and an in-place write's blocks count as changed (R37). While the
link is DOWN, and with no command waiting, nothing is granted. -/
def Obligations.ShelfArbiterChoosesTheGrant : Prop :=
  ∀ (s : State) (slot : Nat) (c : SlotRec) (data : List Block),
    let p := s.shelf
    let background := p.restoreQueue ≠ [] ∨ p.offsiteQueue ≠ []
    let freed := tdel slot p.slots
    let use := if 65535 ≤ tget 0 p.uses slot then 0 else tget 0 p.uses slot + 1
    let reply := exec (.shelfReply slot c.epoch c.use (c.cmd.kind == .write) (.done data 0)) s
    let granted := fun (d : ShelfCmd) (q : Shelf) => reply = .next
      { ({ s with
          inflight := match d.owner with
            | .request a l .inPlace => s.inflight.map fun x =>
              if x.arrival = a then
                { x with plan := x.plan.map fun m => if m.lcn = l then { m with slotted := true } else m }
              else x
            | _ => s.inflight,
          shelf := { q with
            slots := tput slot { cmd := d, epoch := p.epoch, use := use, timeout := s.ctl.config.shelfTimeout } freed,
            uses := tset 0 slot use p.uses } } : State).closed with
        out := [.shelf slot p.epoch use d.kind (d.pcn * 2 ^ s.format.k + d.first) d.count d.data] }
    tfind p.slots slot = some c → slot ≤ 63 → c.cmd.owner = .dropped → (∀ n, n ≤ 63 → tfind p.slots n ≠ none) →
    data.length = (if c.cmd.kind = .read then c.cmd.count else 0) →
    (p.up = false ∨ (p.fgQueue = [] ∧ ¬ background) →
      reply = .next ({ s with shelf := { p with slots := freed } } : State).closed) ∧
    (p.up = true → ∀ d t, p.fgQueue = d :: t → p.streak ≠ 15 ∨ ¬ background →
      granted d { p with fgQueue := t, streak := if background then p.streak + 1 else 0 }) ∧
    (p.up = true → p.fgQueue = [] ∨ (p.streak = 15 ∧ background) →
      (∀ d t, p.restoreQueue = d :: t → p.turnOffsite = false ∨ p.offsiteQueue = [] →
        granted d { p with restoreQueue := t, streak := 0, turnOffsite := true }) ∧
      (∀ d t, p.offsiteQueue = d :: t → p.turnOffsite = true ∨ p.restoreQueue = [] →
        granted d { p with offsiteQueue := t, streak := 0, turnOffsite := false }))

/-- A shelf reply (R163). One that names a free slot, another epoch, use count or kind than the slot's is counted and
changes nothing else. One that ends the last read of a READ frees the slot, its data goes to its place and the READ is
answered OK with its data, or NOVIEW if the snapshot it reads is not READY with the generation of its acceptance (R36,
R21); one that ends it with an error is answered MEDIA, with SHELF ERROR queued (R37, R165); the occupancy that falls
with it is tested against the watermarks, and where it clears the yield flag the YIELDED jobs go on (R111,
`yieldTested`, stated as `yieldSettles` says). The DONE of a send's read makes the ready CHUNK DATA frame with its
data and CRC (R130), and on a STOPPING run ends the run STOPPED (R134). The end of an abandoned copy's write, DONE or
ERROR, returns its PCN from the pending-return list to the tail of the free FIFO (R116), stated where F crosses no
mark. A DONE with commands of its request left takes its data, lowers the count of commands left and answers nothing;
the last copy read of a chunk hands over the write of the whole chunk, with the request's data in the covered blocks
and the copied blocks elsewhere (R32), which takes the lowest free slot. Stated with nothing else waiting in the part,
with the shelf link so that no other command is granted, and, for a send, with the port's pacing time not come. The
structured shelf reply is the model's choice: log entry 40. -/
def Obligations.ShelfReplyEndsItsCommand : Prop :=
  ∀ (s : State) (slot epoch use : Nat) (isWrite : Bool) (result : ShelfResult),
    (tfind s.shelf.slots slot = none →
      exec (.shelfReply slot epoch use isWrite result) s =
        .next ({ s with shelf := { s.shelf with ignored := s.shelf.ignored + 1 } } : State).closed) ∧
    (∀ c, tfind s.shelf.slots slot = some c →
      ¬ (c.epoch = epoch ∧ c.use = use ∧ (isWrite = true ↔ c.cmd.kind = .write)) →
      exec (.shelfReply slot epoch use isWrite result) s =
        .next ({ s with shelf := { s.shelf with ignored := s.shelf.ignored + 1 } } : State).closed) ∧
    (∀ c x lcn, tfind s.shelf.slots slot = some c → c.epoch = epoch → c.use = use →
      isWrite = false → c.cmd.kind = .read → c.cmd.owner = .request x.arrival lcn .readData →
      s.wf = true → s.inflight.find? (fun y => y.arrival == x.arrival) = some x → x.req.kind = .read →
      x.left = 1 → x.failed = false → s.frontUp = true →
      firstProceed [] (s.busy.filter fun i => i.owner != .front x.arrival) = none →
      (∀ p ∈ s.vols, p.2.drain = none) → s.shelf.fgQueue = [] → s.shelf.restoreQueue = [] →
      s.shelf.offsiteQueue = [] →
      let left : State := { s with
        shelf := { s.shelf with slots := tdel slot s.shelf.slots },
        inflight := s.inflight.filter fun y => y.arrival != x.arrival,
        busy := s.busy.filter fun i => i.owner != .front x.arrival }
      left.yieldSettles →
      let after := left.yieldTested
      let stands := ∀ w ∈ x.req.view, ∃ d ∈ tfind (s.vol x.req.vol).snaps w, d.state = .ready ∧ d.gen = x.gen
      (∀ data, result = .done data 0 → data.length = c.cmd.count → ¬ stands →
        exec (.shelfReply slot epoch use isWrite result) s = .next
          { after.closed with
            out := [.front x.req.vol 1 .noView x.req.tag 0 []] }) ∧
      (∀ data, result = .done data 0 → data.length = c.cmd.count → stands →
        exec (.shelfReply slot epoch use isWrite result) s = .next
          { after.closed with
            out := [.front x.req.vol 1 .ok x.req.tag x.req.count
              (overwriteAt x.data (lcn * 2 ^ s.format.k + c.cmd.first - x.req.start) data)] }) ∧
      (∀ reason, result = .error reason → (∀ p ∈ s.shelf.slots, p.1 ≠ slot → p.2.cmd.owner = .dropped) →
        x.claims = [] → x.charges = [] → x.plan = [] → (∀ m ∈ s.mirror, m.arrival ≠ x.arrival) →
        exec (.shelfReply slot epoch use isWrite result) s = .next
          { ({ after with
              ctl := offer s.ctl
                { kind := .shelfError, time := if s.sched.clockSet then s.sched.clock else 0, subject := c.cmd.pcn,
                  d1 := reason, d2 := 2 * c.cmd.cls.value } } : State).closed with
            out := [.front x.req.vol 1 .media x.req.tag 0 []] })) ∧
    (∀ c, tfind s.shelf.slots slot = some c → c.epoch = epoch → c.use = use → isWrite = false → c.cmd.kind = .read →
      c.cmd.owner = .send → s.shelf.fgQueue = [] → s.shelf.restoreQueue = [] → s.shelf.offsiteQueue = [] →
      s.port.pace < s.port.nextSend → ∀ d v, s.run.reading = some d → s.currentVol = some v →
      ∀ data, result = .done data 0 → data.length = c.cmd.count →
      (s.run.state ≠ .stopping →
        exec (.shelfReply slot epoch use isWrite result) s = .next
          ({ s with
            shelf := { s.shelf with slots := tdel slot s.shelf.slots },
            run := { s.run with
              reading := none,
              frames := s.run.frames ++
                [{ kind := .chunkData, flags := 0, vol := v, seq := 0, runId := s.run.runId, lcn := d.lcn, count := 1,
                   crc := crc32 (dataBytes data), gen := 0, a := 0, b := 0, payload := data }] } } : State).closed) ∧
      (s.run.state = .stopping → (s.vol v).drain = none →
        Answers (exec (.shelfReply slot epoch use isWrite result) s) fun t =>
          t.run.state = .idle ∧ t.run.result = .stopped ∧ t.run.reading = none ∧ t.run.frames = [] ∧
          t.port.outstanding = [] ∧ t.port.seqRun = none ∧ t.free = s.free ∧ t.accounts = s.accounts ∧
          t.inflight = s.inflight ∧ t.jobs = s.jobs)) ∧
    (∀ c pcn, tfind s.shelf.slots slot = some c → c.epoch = epoch → c.use = use →
      (isWrite = true ↔ c.cmd.kind = .write) → c.cmd.owner = .abandoned pcn →
      s.shelf.fgQueue = [] → s.shelf.restoreQueue = [] → s.shelf.offsiteQueue = [] →
      (∀ p ∈ s.jobs, p.2.state ≠ .running ∧ p.2.state ≠ .pausedPool) →
      (s.poolLow = false → s.format.low ≤ s.free.length + 1) →
      (s.poolLow = true → s.free.length + 1 < s.format.clear) →
      let returned := fun (c : Control) => exec (.shelfReply slot epoch use isWrite result) s = .next
        ({ s with
          shelf := { s.shelf with slots := tdel slot s.shelf.slots },
          free := s.free ++ [pcn], returns := s.returns.erase pcn, claims := s.claims - 1, ctl := c } : State).closed
      (∀ data, result = .done data 0 → data.length = (if isWrite then 0 else c.cmd.count) → returned s.ctl) ∧
      (∀ reason, result = .error reason → returned (offer s.ctl
        { kind := .shelfError, time := if s.sched.clockSet then s.sched.clock else 0, subject := c.cmd.pcn,
          d1 := reason, d2 := 2 * c.cmd.cls.value + c.cmd.kind.value }))) ∧
    (∀ c x lcn why, tfind s.shelf.slots slot = some c → c.epoch = epoch → c.use = use →
      (isWrite = true ↔ c.cmd.kind = .write) → c.cmd.owner = .request x.arrival lcn why →
      s.inflight.find? (fun y => y.arrival == x.arrival) = some x → 1 < x.left →
      s.shelf.fgQueue = [] → s.shelf.restoreQueue = [] → s.shelf.offsiteQueue = [] →
      ∀ data, result = .done data 0 → data.length = (if isWrite then 0 else c.cmd.count) →
      let blocks := 2 ^ s.format.k
      let slots := tdel slot s.shelf.slots
      let rest := fun (y : Entry) => { s with
        shelf := { s.shelf with slots := slots },
        inflight := s.inflight.map fun (z : Entry) =>
          if z.arrival = x.arrival then { y with left := x.left - 1 } else z }
      let next := exec (.shelfReply slot epoch use isWrite result) s
      let plan := x.plan.map fun p =>
        if p.lcn = lcn then { p with reads := p.reads - 1, copied := p.copied ++ [(c.cmd.first, data)] } else p
      (why = .readData → next = .next (rest { x with
        data := overwriteAt x.data (lcn * blocks + c.cmd.first - x.req.start) data }).closed) ∧
      (why = .chunkWrite ∨ why = .inPlace → next = .next (rest x).closed) ∧
      (why = .copyRead → x.failed = true ∨ (∀ p ∈ x.plan, p.lcn = lcn → 1 < p.reads) →
        next = .next (rest { x with plan := plan }).closed) ∧
      (why = .copyRead → x.failed = false → s.shelf.up = true → x.data.length = x.req.count →
        x.req.start < (lcn + 1) * blocks → lcn * blocks < x.req.start + x.req.count →
        ∀ p n, x.plan.find? (fun q => q.lcn == lcn) = some p → p.reads = 1 →
        n ≤ 63 → tfind slots n = none → (∀ i, i < n → tfind slots i ≠ none) →
        let copied := p.copied ++ [(c.cmd.first, data)]
        (∀ q ∈ copied, q.1 + q.2.length ≤ blocks) →
        let block := fun (b : Nat) =>
          let g := lcn * blocks + b
          if x.req.start ≤ g ∧ g < x.req.start + x.req.count then x.data[g - x.req.start]?.getD zeroBlock
          else match copied.reverse.find? fun q => decide (q.1 ≤ b ∧ b < q.1 + q.2.length) with
            | some q => q.2[b - q.1]?.getD zeroBlock
            | none => zeroBlock
        let whole := (List.range blocks).map block
        let use' := if 65535 ≤ tget 0 s.shelf.uses n then 0 else tget 0 s.shelf.uses n + 1
        let write : ShelfCmd :=
          { kind := .write, cls := .foreground, pcn := p.claimed.getD 0, first := 0, count := blocks, data := whole,
            owner := .request x.arrival lcn .chunkWrite }
        let granted : SlotRec :=
          { cmd := write, epoch := s.shelf.epoch, use := use', timeout := s.ctl.config.shelfTimeout }
        next = .next { ({ rest { x with plan := plan } with
            shelf := { s.shelf with
              slots := tput n granted slots, uses := tset 0 n use' s.shelf.uses, streak := 0 } } : State).closed with
          out := [.shelf n s.shelf.epoch use' .write (p.claimed.getD 0 * blocks) blocks whole] }))

/-- The end of a WRITE. The DONE that ends its last shelf command, none having failed, commits it whole in that event
(R34): each U and S chunk is MAPPED with its claimed PCN, born-in G and the request's owner, and no other entry's form
changes; the old PCN of each S chunk is filed with the chunk plan's filing generation (R83); the claims fall by those
of the request; every chunk of the span is logged in span order (R121); the mirror record is erased, the entry and its
busy item leave, and the reply is OK. No charge changes. An ERROR while other commands of the request hold slots marks
the entry failed, with SHELF ERROR and no more; the end of the last command of a failed WRITE, and an ERROR with none
other in a slot, fail it in that event (`MediaFailed`: R37, R54). Stated for an accepted WRITE whose plan fits the map
(`planLaw`, kept by every step as part of `workLaw`) on a volume that keeps the generation law, with nothing else
waiting in the part. That SHELF ERROR is the last notice of the event that fails the WRITE, behind the pool, account
and overflow notices of the failure, is the model's reading: log entries 6 and 24. -/
def Obligations.WriteEndsAtItsLastReply : Prop :=
  ∀ (s : State) (slot lcn : Nat) (c : SlotRec) (x : Entry) (why : Purpose),
    let v := x.req.vol
    let y := s.vol v
    let displaced := x.plan.filterMap fun p => match p.cls, p.old with
      | .shared, some (pcn, born, _) => some { lcn := p.lcn, pcn := pcn, born := born : RetEntry }
      | _, _ => none
    let body := fun (d : Snap) => { d with retained := [] }
    let shelf : Shelf := { s.shelf with slots := tdel slot s.shelf.slots }
    let others := shelf.slots.filter fun p => match p.2.cmd.owner with
      | .request a _ _ => a == x.arrival
      | _ => false
    let error := fun (reason : Nat) =>
      { kind := .shelfError, time := if s.sched.clockSet then s.sched.clock else 0, subject := c.cmd.pcn, d1 := reason,
        d2 := 2 * c.cmd.cls.value + c.cmd.kind.value : Notice }
    tfind s.shelf.slots slot = some c → c.cmd.owner = .request x.arrival lcn why →
    s.inflight.find? (fun z => z.arrival == x.arrival) = some x →
    x.writes = true → s.wf = true → s.frontUp = true →
    s.quietBut (.front x.arrival) → s.yielding = false → s.inflight.length ≤ s.ctl.config.yieldHigh →
    (c.cmd.kind = .write → why = .chunkWrite ∨ why = .inPlace → x.left = 1 → x.failed = false → planLaw s x → y.genLaw →
      Answers (exec (.shelfReply slot c.epoch c.use true (.done [] 0)) s) fun t =>
        t.out = [.front v 2 .ok x.req.tag 0 []] ∧
        t.inflight = (s.inflight.filter fun z => z.arrival != x.arrival) ∧
        t.busy = (s.busy.filter fun i => i.owner != .front x.arrival) ∧
        t.mirror = (s.mirror.filter fun r => r.arrival != x.arrival) ∧ t.claims = s.claims - x.claims.length ∧
        (∀ p ∈ x.plan, ((t.vol v).entry p.lcn).form =
          if p.cls = .inPlace then (y.entry p.lcn).form else .mapped (p.claimed.getD 0) y.gen x.req.owner) ∧
        (∀ l, (∀ p ∈ x.plan, p.lcn ≠ l) → ((t.vol v).entry l).form = (y.entry l).form) ∧
        Filed s t v x.gen displaced ∧ Logged s t v (x.plan.map ChunkPlan.lcn) ∧
        (∀ i, (tfind (t.vol v).snaps i).map body = (tfind y.snaps i).map body) ∧
        (t.vol v).gen = y.gen ∧ (t.vol v).size = y.size ∧ (t.vol v).state = y.state ∧
        (∀ w, w ≠ v → t.vol w = s.vol w) ∧ t.accounts = s.accounts ∧ t.jobs = s.jobs ∧ t.run = s.run ∧
        t.returns = s.returns ∧ t.shelf = shelf) ∧
    (∀ isWrite reason, (isWrite = true ↔ c.cmd.kind = .write) →
      (others ≠ [] → exec (.shelfReply slot c.epoch c.use isWrite (.error reason)) s = .next
        ({ s with
          shelf := shelf, ctl := offer s.ctl (error reason),
          inflight := s.inflight.map fun z =>
            if z.arrival = x.arrival then { x with failed := true, left := others.length } else z } : State).closed) ∧
      (others = [] → Answers (exec (.shelfReply slot c.epoch c.use isWrite (.error reason)) s) fun t =>
        MediaFailed s t x ∧ t.shelf = shelf ∧ ∃ d, t.ctl = offer d (error reason))) ∧
    (c.cmd.kind = .write → x.left = 1 → x.failed = true →
      Answers (exec (.shelfReply slot c.epoch c.use true (.done [] 0)) s) fun t => MediaFailed s t x ∧ t.shelf = shelf)

/-- The two shelf commands of a restore copy (R109). The read's DONE hands over the write of the claimed PCN with the
data read, and the write's DONE commits the copy: the target entry is MAPPED with the claimed PCN, born-in G and the
job's owner; a MAPPED entry's old PCN is filed with the copy's filing generation (R83) and its owner's charge falls by
one; the claims fall by one, the LCN is logged (R121), COPIED rises by one and the position advances. Past the last
chunk the job ends DONE, with a suspend request pending too: its remaining reservation is released and RESTORE ENDED
queued (R115). Else it is SUSPENDED if that was requested, or YIELDED with the yield flag set. Stated, for the read,
with no other command waiting and a free slot; for the write, where the job ends or stops there, with nothing else
waiting in the part, on a target that keeps the generation law. DONE before SUSPENDED, and RESTORE ENDED as the last
notice of its event, behind the pool, reserve and change list notices too, are the model's reading (log entries 31 and
6), the position past the last chunk its choice (log entry 53). -/
def Obligations.RestoreCopyReadsThenCommits : Prop :=
  ∀ (s : State) (slot j : Nat) (c : SlotRec) (x : Job) (k : Copy),
    tfind s.shelf.slots slot = some c → c.cmd.owner = .restore j → tfind s.jobs j = some x → x.state = .running →
    x.waiting = false → x.copy = some k → s.wf = true →
    let blocks := 2 ^ s.format.k
    let slots := tdel slot s.shelf.slots
    (k.stage = .reading → c.cmd.kind = .read → s.shelf.up = true → s.shelf.fgQueue = [] →
      s.shelf.restoreQueue = [] → s.shelf.offsiteQueue = [] → ∀ n data, data.length = c.cmd.count → n ≤ 63 →
      tfind slots n = none → (∀ i, i < n → tfind slots i ≠ none) →
      let use := if 65535 ≤ tget 0 s.shelf.uses n then 0 else tget 0 s.shelf.uses n + 1
      let write : ShelfCmd :=
        { kind := .write, cls := .restore, pcn := k.pcn, first := 0, count := blocks, data := data,
          owner := .restore j }
      let granted : SlotRec :=
        { cmd := write, epoch := s.shelf.epoch, use := use, timeout := s.ctl.config.shelfTimeout }
      exec (.shelfReply slot c.epoch c.use false (.done data 0)) s = .next
        { ({ s with
            jobs := tput j { x with copy := some { k with stage := .writing } } s.jobs,
            shelf := { s.shelf with
              slots := tput n granted slots, uses := tset 0 n use s.shelf.uses, streak := 0, turnOffsite := true } }
            : State).closed with
          out := [.shelf n s.shelf.epoch use .write (k.pcn * blocks) blocks data] }) ∧
    (k.stage = .writing → c.cmd.kind = .write → s.quietBut (.restore j) → (s.vol x.dstVol).genLaw →
      ∀ r, x.ranges[x.rangeIdx]? = some r →
      let v := x.dstVol
      let y := s.vol v
      let old := (y.entry k.lcn).form
      let ownedBy := fun (o : Nat) => match old with | .mapped _ _ p => p == o | .unmapped _ => false
      let place := if x.offset + 1 < r.count then (x.rangeIdx, x.offset + 1) else (x.rangeIdx + 1, 0)
      let next : Job := { x with copied := x.copied + 1, copy := none, rangeIdx := place.1, offset := place.2 }
      let last := x.ranges[place.1]? = none
      last ∨ x.suspendReq = true ∨ s.yielding = true →
      Answers (exec (.shelfReply slot c.epoch c.use true (.done [] 0)) s) fun t =>
        (∀ l, ((t.vol v).entry l).form = if l = k.lcn then .mapped k.pcn y.gen x.owner else (y.entry l).form) ∧
        Filed s t v k.gen (match old with
          | .mapped pcn born _ => [{ lcn := k.lcn, pcn := pcn, born := born }]
          | .unmapped _ => []) ∧
        Logged s t v [k.lcn] ∧ t.claims = s.claims - 1 ∧
        (∀ o, (t.acct o).charge = (s.acct o).charge - if ownedBy o then 1 else 0) ∧
        t.busy = (s.busy.filter fun i => i.owner != .restore j) ∧ (t.vol v).gen = y.gen ∧
        (∀ w, w ≠ v → w ≠ x.srcVol → t.vol w = s.vol w) ∧ t.inflight = s.inflight ∧ t.mirror = s.mirror ∧
        t.run = s.run ∧ t.returns = s.returns ∧ t.out = [] ∧
        (last →
          t.jobs = tput j { next with state := .done, remaining := 0, suspendReq := false } s.jobs ∧
          (t.acct x.owner).reserved = (s.acct x.owner).reserved - x.remaining ∧
          ∃ d, t.ctl = offer d
            { kind := .restoreEnded, time := if s.sched.clockSet then s.sched.clock else 0, subject := j, d1 := 1,
              d2 := x.copied + 1 + x.cleared + x.skipped + x.unchanged }) ∧
        (¬ last → x.suspendReq = true →
          t.jobs = tput j { next with state := .suspended, suspendReq := false } s.jobs) ∧
        (¬ last → x.suspendReq = false → s.yielding = true → t.jobs = tput j { next with state := .yielded } s.jobs))

/-- The command timers and the shelf link (R164, R166, R167). A timer that expires ends its command with reason 240,
the link going DOWN every command in a slot with reason 242 and one SHELF ERROR after all else; the link coming UP
grants the slots, which its fall left free, to the waiting commands in the order of the arbiter, the lowest slot
first, at most 64 (`grantOrder`: R160, R161, R167), and a run suspended on it goes on in that event, ACTIVE, or
SUSPENDED-LINK under that mark: the view of its send position is looked up again and its read joins the OFFSITE queue
before the grants (R137). What the ended command's owner does: a request with no other command in a slot fails
(`MediaFailed`: R37, R54); a restore copy's job is FAILED-SHELF with the command's PCN, its claim returned, its charge
reversed, its reservation released and its pins dropped (R117); the read of a send is handed again once, and after its
second error, or at a link reset, the run is SUSPENDED-SHELF, or reads SUSPENDED-LINK under that mark (R137); the send
of a STOPPING run ends the run STOPPED (R134). Stated, for the timers and the link's fall, with no command waiting for
a grant, and for the link reset with the commands of one owner in the slots beside those nobody waits for; a free
slot's timer does not run, and a link that is DOWN does not go DOWN. The events that do not happen: log entry 8, the
model's choice; the places of SHELF ERROR and RESTORE ENDED among the notices: log entries 6 and 24, its reading. -/
def Obligations.ShelfTimersAndLink : Prop :=
  (∀ (s : State) (slot : Nat), s.shelf.fgQueue = [] → s.shelf.restoreQueue = [] → s.shelf.offsiteQueue = [] →
    let time := if s.sched.clockSet then s.sched.clock else 0
    let freed : Shelf := { s.shelf with slots := tdel slot s.shelf.slots }
    let down : Shelf := { s.shelf with up := false, slots := [] }
    let error := fun (c : SlotRec) =>
      { kind := .shelfError, time := time, subject := c.cmd.pcn, d1 := 240,
        d2 := 2 * c.cmd.cls.value + c.cmd.kind.value : Notice }
    let linkError : Notice :=
      { kind := .shelfError, time := time, subject := (s.shelf.slots.head?.map fun p => p.2.cmd.pcn).getD 0,
        d1 := 242, d2 := s.shelf.slots.length }
    let timeout := exec (.shelfCommandTimeout slot) s
    let linkDown := exec .shelfLinkDown s
    let ofOne := fun (p : SlotRec → Bool) =>
      (∀ r ∈ freed.slots, p r.2 = false) ∧ (∀ r ∈ s.shelf.slots, p r.2 = true ∨ r.2.cmd.owner = .dropped)
    (tfind s.shelf.slots slot = none → timeout = .next s.closed) ∧
    (s.shelf.up = false → linkDown = .next s.closed) ∧
    (s.shelf.up = true → (∀ p ∈ s.shelf.slots, p.2.cmd.owner = .dropped) →
      linkDown = .next ({ s with shelf := down, ctl := offer s.ctl linkError } : State).closed) ∧
    (s.run.shelfMark = false →
      exec .shelfLinkUp s = .next ({ s with shelf := { s.shelf with up := true } } : State).closed) ∧
    ∀ c, tfind s.shelf.slots slot = some c →
      (c.cmd.owner = .dropped →
        timeout = .next ({ s with shelf := freed, ctl := offer s.ctl (error c) } : State).closed) ∧
      (∀ x lcn why, c.cmd.owner = .request x.arrival lcn why →
        s.inflight.find? (fun z => z.arrival == x.arrival) = some x → s.wf = true → s.frontUp = true →
        s.quietBut (.front x.arrival) → s.yielding = false → s.inflight.length ≤ s.ctl.config.yieldHigh →
        let mine := fun (r : SlotRec) => match r.cmd.owner with | .request a _ _ => a == x.arrival | _ => false
        ((∀ r ∈ freed.slots, mine r.2 = false) → Answers timeout fun t =>
          MediaFailed s t x ∧ t.shelf = freed ∧ ∃ d, t.ctl = offer d (error c)) ∧
        (s.shelf.up = true → (∀ r ∈ s.shelf.slots, mine r.2 = true ∨ r.2.cmd.owner = .dropped) → Answers linkDown fun t =>
          MediaFailed s t x ∧ t.shelf = down ∧ ∃ d, t.ctl = offer d linkError)) ∧
      (∀ j x k, c.cmd.owner = .restore j → tfind s.jobs j = some x → x.state = .running → x.waiting = false →
        x.copy = some k → s.wf = true → s.quietBut (.restore j) → ofOne (fun r => r.cmd.owner == .restore j) →
        let ended : Notice :=
          { kind := .restoreEnded, time := time, subject := j, d1 := 3,
            d2 := x.copied + x.cleared + x.skipped + x.unchanged }
        let failed := fun (t : State) =>
          t.jobs = tput j { x with
            state := .failedShelf, failedPcn := some c.cmd.pcn, remaining := 0, suspendReq := false, copy := none }
            s.jobs ∧
          t.free = s.free ++ [k.pcn] ∧ t.claims = s.claims - 1 ∧ t.returns = s.returns ∧ t.mirror = s.mirror ∧
          (∀ o, (t.acct o).charge = (s.acct o).charge - (if o = x.owner then 1 else 0) ∧
            (t.acct o).reserved = (s.acct o).reserved - if o = x.owner then x.remaining else 0) ∧
          t.busy = (s.busy.filter fun i => i.owner != .restore j) ∧ t.inflight = s.inflight ∧ t.run = s.run ∧ t.out = [] ∧
          ∀ w, (t.vol w).map = (s.vol w).map ∧ (t.vol w).gen = (s.vol w).gen ∧
            ∀ i, tfind (t.vol w).snaps i = (tfind (s.vol w).snaps i).map fun d => { d with
              inUse := d.inUse - (if w = x.srcVol ∧ i = x.srcSlot then 1 else 0)
                - if w = x.dstVol ∧ x.pre.map Prod.fst = some i then 1 else 0 }
        Answers timeout (fun t => failed t ∧ t.shelf = freed ∧ ∃ d, t.ctl = offer (offer d (error c)) ended) ∧
        (s.shelf.up = true → Answers linkDown fun t =>
          failed t ∧ t.shelf = down ∧ ∃ d, t.ctl = offer (offer d ended) linkError)) ∧
      (∀ d, c.cmd.owner = .send → s.run.reading = some d → ofOne (fun r => r.cmd.owner == .send) →
        let suspended : Run := { s.run with
          reading := none, scanRead := s.run.fullScan, shelfMark := true,
          state := if s.run.linkMark then .suspendedLink else .suspendedShelf }
        let stopped := fun (t : State) =>
          t.run.state = .idle ∧ t.run.result = .stopped ∧ t.run.reading = none ∧ t.free = s.free ∧
          t.accounts = s.accounts ∧ t.inflight = s.inflight ∧ t.jobs = s.jobs ∧ t.port.outstanding = []
        (s.run.state = .stopping → (∀ v, s.currentVol = some v → (s.vol v).drain = none) →
          Answers timeout (fun t => stopped t ∧ t.shelf = freed) ∧
          (s.shelf.up = true → Answers linkDown fun t => stopped t ∧ t.shelf = down)) ∧
        (s.run.state ≠ .stopping → d.reissued = true → timeout = .next
          ({ s with shelf := freed, run := suspended, ctl := offer s.ctl (error c) } : State).closed) ∧
        (s.run.state ≠ .stopping → s.shelf.up = true → linkDown = .next
          ({ s with shelf := down, run := suspended, ctl := offer s.ctl linkError } : State).closed) ∧
        (s.run.state ≠ .stopping → d.reissued = false → c.cmd.cls = .offsite → s.shelf.up = true → ∀ n, n ≤ 63 →
          tfind freed.slots n = none → (∀ i, i < n → tfind freed.slots i ≠ none) →
          let use := if 65535 ≤ tget 0 s.shelf.uses n then 0 else tget 0 s.shelf.uses n + 1
          timeout = .next
            { ({ s with
                run := { s.run with reading := some { d with reissued := true } },
                ctl := offer s.ctl (error c),
                shelf := { freed with
                  slots := tput n
                    { cmd := c.cmd, epoch := s.shelf.epoch, use := use, timeout := s.ctl.config.shelfTimeout } freed.slots,
                  uses := tset 0 n use s.shelf.uses, streak := 0, turnOffsite := false } } : State).closed with
              out := [.shelf n s.shelf.epoch use c.cmd.kind (c.cmd.pcn * 2 ^ s.format.k + c.cmd.first) c.cmd.count
                c.cmd.data] }))) ∧
  (∀ s : State, s.shelf.up = false → s.shelf.slots = [] → s.wf = true →
    let r := s.run
    let resumes := r.shelfMark = true ∧ r.state ≠ .idle
    let going : Run := { r with shelfMark := false, state := if r.linkMark then .suspendedLink else .active }
    let up := fun (run : Run) (queue : List ShelfCmd) =>
      let g := grantOrder 64 { s.shelf with up := true, offsiteQueue := queue }
      let use := fun n => if 65535 ≤ tget 0 s.shelf.uses n then 0 else tget 0 s.shelf.uses n + 1
      let taken := fun (a l : Nat) => g.1.any fun c => c.owner == .request a l .inPlace
      Answers (exec .shelfLinkUp s) fun t =>
        t.shelf = { g.2 with slots := t.shelf.slots, uses := t.shelf.uses } ∧
        t.shelf.slots = (g.1.zipIdx.map fun p =>
          (p.2, { cmd := p.1, epoch := s.shelf.epoch, use := use p.2, timeout := s.ctl.config.shelfTimeout })) ∧
        (∀ n, tget 0 t.shelf.uses n = if n < g.1.length then use n else tget 0 s.shelf.uses n) ∧
        t.out = (g.1.zipIdx.map fun p =>
          .shelf p.2 s.shelf.epoch (use p.2) p.1.kind (p.1.pcn * 2 ^ s.format.k + p.1.first) p.1.count p.1.data) ∧
        t.inflight = (s.inflight.map fun x =>
          { x with plan := x.plan.map fun m => { m with slotted := m.slotted || taken x.arrival m.lcn } }) ∧
        t.run = run ∧ t.vols = s.vols ∧ t.busy = s.busy ∧ t.jobs = s.jobs ∧ t.free = s.free ∧ t.claims = s.claims ∧
        t.accounts = s.accounts ∧ t.mirror = s.mirror ∧ t.port = s.port ∧ t.ctl = s.ctl
    (¬ resumes → up r s.shelf.offsiteQueue) ∧
    (resumes → s.ctl.part ≠ .recovering → r.phase = .send → r.frames = [] → r.reading = none →
      ∀ v lcn pcn, s.currentVol = some v →
      (if r.fullScan then r.scanRead = true ∧ r.clearCount = 0 ∧ lcn = r.pos
        else (s.vol v).runList[r.pos]? = some lcn) →
      viewLookup (s.vol v) (((tfind (s.vol v).snaps 0).map Snap.gen).getD 0) lcn = some pcn →
      up { going with reading := some { lcn := lcn, reissued := false }, scanRead := false }
        (s.shelf.offsiteQueue ++
          [{ kind := .read, cls := .offsite, pcn := pcn, first := 0, count := 2 ^ s.format.k, data := [],
             owner := .send }])))

/-! ### Campus time and the schedule -/

/-- The campus clock (R168, R177): NOT SET or at its last value it does not advance; a second that is no minute
boundary advances it and begins a firing pass outside RECOVERING; a midnight boundary in STANDBY applies a pending
swap, with SCHEDULE SWAPPED, and fires nothing; a boundary in RUNNING with no due entry fires nothing, and one whose
only due entry of the active bank is a RATE entry sets the active rate class (R172, R175). Stated where no run's
deadline has come. The firing pass (R63). One step: with no pass or no due head nothing changes; otherwise the head
leaves the grace expiry queue, its account's queued flag is cleared and the account is evaluated, its notice queued.
After every command a pass stands only while the head is due: it ends when none is. The step with no pass: log entry
8, the model's choice. -/
def Obligations.ClockAdvancesAndFiringPassTakesTheHead : Prop :=
  (∀ s : State,
     let now := s.sched.clock + 1
     let firing := if s.ctl.part = .recovering then s.firing else true
     let plain : State := { s with sched := { s.sched with clock := now }, firing := firing }
     let due := fun (e : SchedEntry) =>
       e.used = true ∧ e.minute = now % 86400 / 60 ∧ e.weekdays.testBit (now / 86400 % 7) = true
     let bank := if s.sched.activeB then s.sched.bankB else s.sched.bankA
     (s.sched.clockSet = false ∨ 4294967295 ≤ s.sched.clock → exec .clockAdvance s = .next s.closed) ∧
     (s.sched.clockSet = true → s.sched.clock < 4294967295 → s.run.state = .idle ∨ now < s.run.deadline →
       (now % 60 ≠ 0 → exec .clockAdvance s = .next plain.closed) ∧
       (now % 86400 = 0 → s.ctl.part = .standby → s.sched.swap = true →
         exec .clockAdvance s = .next
           ({ plain with
             sched := { s.sched with clock := now, activeB := !s.sched.activeB, swap := false },
             ctl := offer s.ctl
               { kind := .scheduleSwapped, time := now, subject := if s.sched.activeB then 0 else 1, d1 := now / 86400,
                 d2 := 0 } } : State).closed) ∧
       (now % 60 = 0 → now % 86400 ≠ 0 ∨ s.sched.swap = false → s.ctl.part = .running →
         ((∀ p ∈ bank, ¬ due p.2) → exec .clockAdvance s = .next plain.closed) ∧
         (∀ i x, bank.filter (fun p => decide (due p.2)) = [(i, x)] → x.action = 5 →
           exec .clockAdvance s = .next
             ({ plain with
               sched := { s.sched with clock := now, rate := if x.param = 0 then .night else .day } } : State).closed)))) ∧
  ((∀ (c : Instr) (s t : State), exec c s = .next t → t.firing = true →
     ∃ x tag rest, t.expiryQueue = (x, tag) :: rest ∧ t.sched.clockSet = true ∧ x ≤ t.sched.clock) ∧
   ∀ s : State,
     (s.firing = false → exec .graceExpiryFire s = .next s.closed) ∧
     (∀ x tag rest, s.expiryQueue = (x, tag) :: rest →
       (s.sched.clockSet = false ∨ s.sched.clock < x → exec .graceExpiryFire s = .next s.closed) ∧
       (s.firing = true → s.sched.clockSet = true → x ≤ s.sched.clock →
         let u : State := { s with
           expiryQueue := rest, accounts := tset Account.fresh tag { s.acct tag with queued := false } s.accounts }
         let r := evaluateAccount u tag
         exec .graceExpiryFire s = .next ({ r.1 with ctl := r.2.foldl offer r.1.ctl } : State).closed)))

/-- A due entry of the active bank fires in its boundary event in RUNNING (R172). SNAP (R173): refused, SNAPSHOT
SKIPPED with the code; else the SCHEDULED snapshot with SNAPSHOT TAKEN and its rotation (R95), the oldest of the
series that is neither held nor pinned queued for deletion, or ROTATION BLOCKED; behind changing work it waits for its
drain. FREEZE (R174): FREEZE SKIPPED with BADVOL, nothing on a FROZEN volume, FROZEN at once with the follow-up
snapshot, or FREEZING with the follow-up record kept, SNAPSHOT SKIPPED with BUSY when 48 are. THAW: THAW SKIPPED,
NORMAL again, or the freeze in hand ended, who waits for it answered ACTIVE (R13). RUN (R175): RUN SKIPPED with the
reason of R125 and the volume of reasons 3 and 4, or the start. Stated for the one due entry of a boundary, with no
deadline come and no job RUNNING, and, for the start, where the first volume's slot 0 is occupied and the port's
pacing time has not come. Of several plan volumes that fail a check the first in plan order is named, the model's
choice (log entry 68); the number of the follow-up record is its own (log entry 45), and a deadline past the last
campus time is a free value (log entry 13). -/
def Obligations.DueEntriesFire : Prop :=
  ∀ (s : State) (i : Nat) (x : SchedEntry),
    let now := s.sched.clock + 1
    let due := fun (e : SchedEntry) =>
      e.used = true ∧ e.minute = now % 86400 / 60 ∧ e.weekdays.testBit (now / 86400 % 7) = true
    let bank := if s.sched.activeB then s.sched.bankB else s.sched.bankA
    let v := x.volume
    let y := s.vol v
    let plain : State := { s with sched := { s.sched with clock := now }, firing := true }
    let note := fun (c : Control) (kind : NoticeKind) (subject d1 d2 : Nat) =>
      offer c { kind := kind, time := now, subject := subject, d1 := d1, d2 := d2 }
    let volIs := fun (y : Volume) => tset Volume.absent v y s.vols
    let fires := fun (t : State) => exec .clockAdvance s = .next t.closed
    let gone := y.state = .absent ∨ y.state = .deleting
    let quiet := y.state = .normal ∧ y.drain = none ∧ y.waiting = [] ∧ y.holdList = [] ∧ drainSet s v = []
    let busy := y.state = .normal ∧ y.drain = none ∧ y.waiting = [] ∧ drainSet s v ≠ []
    let drain := fun (w : DrainWork) =>
      { work := w, members := drainSet s v, timeout := s.ctl.config.drainTimeout : Drain }
    let d : Snap :=
      { kind := .scheduled, series := some x.param, gen := y.gen, label := x.label, created := now, held := false,
        state := .ready, retained := [], inUse := 0, freed := 0 }
    let made := fun (slot : Nat) => { y with snaps := tput slot d y.snaps, gen := y.gen + 1 : Volume }
    let series := y.snaps.filter fun p =>
      p.2.kind == .scheduled && p.2.series == some x.param && p.2.state == .ready
    s.sched.clockSet = true → s.sched.clock < 4294967295 → s.run.state = .idle ∨ now < s.run.deadline →
    now % 60 = 0 → now % 86400 ≠ 0 ∨ s.sched.swap = false → s.ctl.part = .running →
    bank.filter (fun p => decide (due p.2)) = [(i, x)] → (∀ p ∈ s.jobs, p.2.state ≠ .running) →
    (x.action = 1 →
      (gone → fires { plain with ctl := note s.ctl .snapshotSkipped v 4 i }) ∧
      (¬ gone → ∀ code, createCheck .scheduled y = some code →
        fires { plain with ctl := note s.ctl .snapshotSkipped v code.value i }) ∧
      (createCheck .scheduled y = none → busy →
        fires { plain with vols := volIs { y with drain := some (drain (.holding
          { kind := .scheduled, series := some x.param, label := x.label, asker := .schedule i x.keep })) } }) ∧
      (createCheck .scheduled y = none → y.state = .frozen ∨ quiet → ∀ slot, y.emptySlot = some slot →
        let taken := note s.ctl .snapshotTaken v slot y.gen
        (series.length < x.keep → fires { plain with vols := volIs (made slot), ctl := taken }) ∧
        (x.keep ≤ series.length → (∀ p ∈ series, p.2.held = true ∨ 0 < p.2.inUse) →
          fires { plain with
            vols := volIs (made slot),
            ctl := note taken .rotationBlocked v x.param (series.length + 1 - x.keep) }) ∧
        (x.keep = series.length → y.deleteQueue ≠ [] → s.wf = true → (y.snaps.map fun p => p.2.gen).Nodup →
          ∀ o ∈ series, o.2.held = false → o.2.inUse = 0 →
          (∀ p ∈ series, p.2.held = false → p.2.inUse = 0 → o.2.gen ≤ p.2.gen) →
          fires { plain with
            vols := volIs { made slot with
              snaps := tput o.1 { o.2 with state := .deletePending } (made slot).snaps,
              deleteQueue := y.deleteQueue ++ [o.1] },
            ctl := taken }))) ∧
    (x.action = 2 →
      (gone → x.snapOpt = 0 → fires { plain with ctl := note s.ctl .freezeSkipped v 4 i }) ∧
      (y.state = .frozen → x.snapOpt = 0 → fires plain) ∧
      (quiet → x.snapOpt = 0 → fires { plain with vols := volIs { y with state := .frozen } }) ∧
      (quiet → x.snapOpt ≠ 0 → s.sched.followUps = [] → createCheck .scheduled y = none →
        series.length < x.keep → ∀ slot, y.emptySlot = some slot →
        fires { plain with
          vols := volIs { made slot with state := .frozen }, ctl := note s.ctl .snapshotTaken v slot y.gen }) ∧
      (busy → x.snapOpt ≠ 0 → s.sched.followUps.length < 48 → ∀ n, n < 48 →
        (∀ f ∈ s.sched.followUps, f.number ≠ n) → (∀ m, m < n → ∃ f ∈ s.sched.followUps, f.number = m) →
        fires { plain with
          vols := volIs { y with state := .freezing, drain := some (drain (.refusing [.schedule i (some n)])) },
          sched := { s.sched with
            clock := now,
            followUps := s.sched.followUps ++
              [{ number := n, vol := v, index := i, series := x.param, keep := x.keep, label := x.label }] } }) ∧
      (busy → x.snapOpt ≠ 0 → 48 ≤ s.sched.followUps.length →
        fires { plain with
          vols := volIs { y with state := .freezing, drain := some (drain (.refusing [.schedule i none])) },
          ctl := note s.ctl .snapshotSkipped v 3 i })) ∧
    (x.action = 3 →
      (gone → fires { plain with ctl := note s.ctl .thawSkipped v 4 i }) ∧
      (y.state = .normal → fires plain) ∧
      (y.state = .frozen → (∀ p ∈ s.jobs, p.2.state = .pausedFrozen → p.2.dstVol ≠ v) →
        fires { plain with vols := volIs { y with state := .normal } }) ∧
      (y.state = .freezing → y.waiting = [] → y.holdList = [] → s.frontUp = true → s.ctl.queue = [] →
        ∀ m n q, y.drain = some { work := .refusing [.control], members := m, timeout := n } →
        s.ctl.executing = some q →
        exec .clockAdvance s = .next
          (({ plain with vols := volIs { y with state := .normal, drain := none } }).answered
            q.number q.tag .active []))) ∧
    (x.action = 4 →
      let skipped := fun (reason vol : Nat) => fires { plain with ctl := note s.ctl .runSkipped i reason vol }
      let usable := fun (w : Nat) => decide ((s.vol w).state ≠ .absent ∧ (s.vol w).state ≠ .deleting)
      let linked := s.port.up = true ∧ s.port.site = some s.ctl.config.partnerSite
      (s.run.state ≠ .idle → skipped 1 0) ∧
      (s.run.state = .idle →
        (s.plan = [] → skipped 2 0) ∧
        (∀ w, s.plan.find? (fun w => !usable w) = some w → skipped 3 w) ∧
        ((∀ w ∈ s.plan, usable w = true) → ∀ w, s.plan.find? (fun w => !(s.vol w).offsite) = some w → skipped 4 w) ∧
        (s.plan ≠ [] → (∀ w ∈ s.plan, usable w = true ∧ (s.vol w).offsite = true) →
          (¬ linked → skipped 5 0) ∧
          (linked → ∀ first, s.plan[0]? = some first → tfind (s.vol first).snaps 0 ≠ none →
            s.port.pace < s.port.nextSend →
            Answers (exec .clockAdvance s) fun t =>
              t.run.state = .active ∧ t.run.mode = (if x.param = 0 then .nightly else .continuous) ∧
              t.run.deadline = nextMinute now x.deadline ∧
              t.run.runId = (if 4294967295 ≤ s.run.runId then 0 else s.run.runId + 1) ∧ t.run.pass = 1 ∧
              t.run.planIndex = 0 ∧ t.run.phase = .freeze ∧ t.run.asked = false ∧ t.run.sealedVols = 0 ∧
              t.run.dataFrames = 0 ∧ t.run.frames.map Frame.kind = [.runOpen] ∧ t.port.seqRun = some t.run.runId ∧
              t.port.nextNo = 1 ∧ t.ctl = s.ctl ∧ t.vols = s.vols ∧ t.out = []))))

/-- SCHEDULE WRITE, WRITE NEXT, READ (R176), SWAP and CANCEL (R177): the checks in their order; a write that passes
stores the entry, an unused one as zeros and a FREEZE without the snap option without series, keep count and label
(R171), and the cursor names its place. WRITE NEXT writes at the cursor's bank and the index after the cursor's, 47
followed by 0. RANGE for a snap option above 1 and an eighth weekday flag is the model's choice: log entry 25. -/
def Obligations.ScheduleRequestsActOnTheBanks : Prop :=
  ∀ (s : State) (tag bank i : Nat) (x : SchedEntry), s.ctlServes →
    let d := s.sched
    let bankOf := fun (b : Bool) => if b then d.bankB else d.bankA
    let series := x.param ≤ 7 ∧ 1 ≤ x.keep ∧ x.keep ≤ 15
    let ranges := x.minute < 1440 ∧ x.weekdays < 128 ∧
      ((x.action = 1 → x.volume < 64 ∧ series) ∧
       (x.action = 2 → x.volume < 64 ∧ x.snapOpt ≤ 1 ∧ (x.snapOpt = 1 → series)) ∧
       (x.action = 3 → x.volume < 64) ∧
       (x.action = 4 → x.param ≤ 1 ∧ x.deadline < 1440) ∧
       (x.action = 5 → x.param ≤ 1))
    let stored : SchedEntry :=
      if x.used = false then unusedEntry
      else if x.action = 2 ∧ x.snapOpt = 0 then { x with param := 0, keep := 0, label := 0 } else x
    let write := fun (number : Nat) (b : Bool) (k : Nat) =>
      if b = d.activeB then s.answered number tag .active []
      else if x.used = true ∧ (x.action = 0 ∨ 5 < x.action) then s.answered number tag .malformed []
      else if x.used = true ∧ ¬ ranges then s.answered number tag .range []
      else
        let bank := tset unusedEntry k stored (bankOf b)
        ({ s with
          sched := { d with bankA := if b then d.bankA else bank, bankB := if b then bank else d.bankB },
          ctl := { s.ctl with schedBankB := b, schedIndex := k } } : State).answered number tag .ok []
    exec (.scheduleWrite tag bank i x) s = .next
      (if 1 < bank ∨ 47 < i then s.answered 33 tag .range [] else write 33 (bank == 1) i) ∧
    exec (.scheduleWriteNext tag x) s = .next
      (write 34 s.ctl.schedBankB (if s.ctl.schedIndex ≥ 47 then 0 else s.ctl.schedIndex + 1)) ∧
    exec (.scheduleRead tag bank i) s = .next
      (if 1 < bank ∨ 47 < i then s.answered 35 tag .range []
       else
         let e := tget unusedEntry (bankOf (bank == 1)) i
         s.answered 35 tag .ok
           [flag e.used * 16777216 + e.action * 65536 + e.minute,
             e.weekdays * 16777216 + e.volume * 65536 + e.snapOpt * 256 + e.param, e.keep * 16777216 + e.deadline,
             e.label, flag d.activeB, flag d.swap]) ∧
    exec (.scheduleSwap tag) s = .next (({ s with sched := { d with swap := true } } : State).answered 36 tag .ok []) ∧
    exec (.scheduleCancel tag) s = .next (({ s with sched := { d with swap := false } } : State).answered 37 tag .ok [])

/-! ### Front requests -/

/-- The arrival checks of R20 in their order, for a READ, a WRITE and a DISCARD: the first that fails gives the code
of the reply, and the request leaves no trace. -/
def Obligations.FrontRefusalsInOrder : Prop :=
  ∀ (s : State) (tag vol view start count owner len : Nat) (data : List Block), s.frontUp = true → 16 ≤ len →
    let x := s.vol vol
    let first := fun (malformed frozen noView : Prop) (k : Code → Prop) =>
      (malformed → k .malformed) ∧
      (¬ malformed → s.ctl.part ≠ .running → k .notReady) ∧
      (¬ malformed → s.ctl.part = .running →
        (256 ≤ s.inflight.length → k .busy) ∧
        (s.inflight.length < 256 →
          (x.state = .absent ∨ x.state = .deleting → k .badVol) ∧
          (x.state ≠ .absent → x.state ≠ .deleting →
            (x.size * 2 ^ s.format.k < start + count → k .range) ∧
            (start + count ≤ x.size * 2 ^ s.format.k → (frozen → k .frozen) ∧ (¬ frozen → noView → k .noView)))))
    let counts := count = 0 ∨ 256 < count
    let frozen := x.state = .freezing ∨ x.state = .frozen
    first (counts ∨ (view ≠ 128 ∧ 15 < view) ∨ len ≠ 16) False
      (view ≠ 128 ∧ ∀ d, tfind x.snaps view = some d → d.state ≠ .ready)
      (fun c => exec (.read tag vol view start count owner len) s = .next (s.replied vol 1 c tag)) ∧
    first (counts ∨ len ≠ 16 + count * 4096) frozen False
      (fun c => exec (.write tag vol start count owner len data) s = .next (s.replied vol 2 c tag)) ∧
    first (counts ∨ len ≠ 16) frozen False
      (fun c => exec (.discard tag vol start count owner len) s = .next (s.replied vol 3 c tag))

/-- A READ that passes the arrival checks (R20, R31, R33), of the live view or of a READY snapshot (its chunks by the
view lookup of R85), with no earlier work on its chunks: its shelf reads, one for each chunk whose view is a PCN, go
to the foreground queue and the entry stands ACTIVE with the snapshot's generation; with none it is answered OK with
zeros at once and leaves nothing behind but the arrival number it took. Stated with nothing else waiting in the part
and the shelf link DOWN. Behind earlier work on its chunks it WAITS (R20 to R23): its entry and its item stand at the
end, and an occupancy that it brings to the high watermark sets the yield flag, with its effects on the jobs (R111,
`yieldTested`); and it proceeds in the event in which that work leaves, as if it arrived behind it (`ProceedsInTurn`:
R23), stated for the end of a WRITE or of another front request and nothing else waiting in the part. That the frames
of such an event stand in this order is the model's reading: log entry 7. -/
def Obligations.ReadIsAcceptedAndServed : Prop :=
  ∀ (s : State) (tag vol view start count owner : Nat), s.wf = true → s.frontUp = true → s.ctl.part = .running →
    s.inflight.length < 255 → 1 ≤ count → count ≤ 256 →
    let x := s.vol vol
    let k := s.format.k
    let chunks := List.range' (start / 2 ^ k) ((start + count - 1) / 2 ^ k - start / 2 ^ k + 1)
    let snap := if view = 128 then none else tfind x.snaps view
    let viewed := fun (c : Nat) => match snap, (x.entry c).form with
      | some d, _ => viewLookup x d.gen c
      | none, .mapped pcn _ _ => some pcn
      | none, .unmapped _ => none
    let req : FrontReq :=
      { tag := tag, kind := .read, vol := vol, view := if view = 128 then none else some view,
        start := start, count := count, owner := owner }
    let item : BusyItem :=
      { owner := .front s.nextArrival, vol := vol, chunks := chunks, change := false, proceeded := false }
    let cmds := chunks.filterMap fun c => match viewed c with
      | none => none
      | some pcn =>
        let f := max start (c * 2 ^ k) - c * 2 ^ k
        some { kind := .read, cls := .foreground, pcn := pcn, first := f,
               count := min (start + count) ((c + 1) * 2 ^ k) - c * 2 ^ k - f, data := [],
               owner := .request s.nextArrival c .readData : ShelfCmd }
    view = 128 ∨ (view ≤ 15 ∧ ∃ d ∈ snap, d.state = .ready) →
    x.state ≠ .absent → x.state ≠ .deleting → start + count ≤ x.size * 2 ^ k →
    (∀ y ∈ s.inflight, y.arrival < s.nextArrival) → (∀ i ∈ s.busy, i.owner ≠ .front s.nextArrival) →
    firstProceed [] s.busy = none →
    let read := Instr.read tag vol view start count owner 16
    let waits : State := { s with
      nextArrival := s.nextArrival + 1,
      inflight := s.inflight ++
        [{ arrival := s.nextArrival, req := req, state := .waiting, gen := 0, plan := [], claims := [], charges := [],
           left := 0, failed := false, data := [] }],
      busy := s.busy ++ [item] }
    ((∃ i ∈ s.busy, i.conflicts item = true) →
      (waits.yieldSettles → exec read s = .next waits.yieldTested.closed) ∧
      ProceedsInTurn s waits read item fun _ _ _ => True) ∧
    ((∀ i ∈ s.busy, i.conflicts item = false) → (∀ p ∈ s.vols, p.2.drain = none) →
     s.yielding = false → s.inflight.length + 1 < s.ctl.config.yieldHigh → s.shelf.up = false →
    (cmds = [] →
      exec read s = .next
        { ({ s with nextArrival := s.nextArrival + 1 } : State).closed with
          out := [.front vol 1 .ok tag count (List.replicate count zeroBlock)] }) ∧
    (cmds ≠ [] →
      exec read s = .next
        ({ s with
          nextArrival := s.nextArrival + 1,
          inflight := s.inflight ++
            [{ arrival := s.nextArrival, req := req, state := .active, gen := (snap.map Snap.gen).getD 0, plan := [],
               claims := [],
               charges := [], left := cmds.length, failed := false, data := List.replicate count zeroBlock }],
          busy := s.busy ++ [{ item with proceeded := true }],
          shelf := { s.shelf with fgQueue := s.shelf.fgQueue ++ cmds } } : State).closed))

/-- A WRITE that passes the arrival checks and whose turn has come (R30, R46 to R51). Refused QUOTA above the hard
limit, or where its owner is LAPSED with the sum it would reach, by its expiry or by the trial expiry (R47, R48),
which reports the account's state if it differs from the last reported (R66); refused NOSPACE below the floor; with no
trace but its arrival number. Accepted, its new PCNs leave the head of the free FIFO as outstanding claims, the net
charge moves at once, the mirror and the in-flight table hold it, no map entry changes, and the commands of its chunk
plan that wait on no copy read join the foreground queue in span order (R32): a whole-chunk write for a U chunk and a
full S chunk, the copy reads of a partly covered S chunk, the write in place of a P chunk. Behind a running drain it
is HELD (R20). Behind earlier work on its chunks it WAITS (R20 to R23): its entry and its item stand at the end, and
an occupancy that it brings to the high watermark sets the yield flag, with its effects on the jobs (R111,
`yieldTested`); and it proceeds in the event in which that work leaves, as if it arrived behind it (`ProceedsInTurn`:
R23), stated for the end of a READ and nothing else waiting in the part. That the frames of such an event stand in
this order is the model's reading: log entry 7. The rest is stated with nothing else waiting in the part, no job open
and the shelf link DOWN. The cut of the trial expiry at the last campus time is the model's choice: log entry 47. -/
def Obligations.WriteIsAcceptedRefusedOrHeld : Prop :=
  ∀ (s : State) (tag vol start count owner : Nat) (data : List Block), s.wf = true →
    s.frontUp = true → s.ctl.part = .running →
    s.inflight.length < 255 → 1 ≤ count → count ≤ 256 →
    let x := s.vol vol
    let k := s.format.k
    let chunks := List.range' (start / 2 ^ k) ((start + count - 1) / 2 ^ k - start / 2 ^ k + 1)
    let req : FrontReq :=
      { tag := tag, kind := .write, vol := vol, view := none, start := start, count := count, owner := owner }
    let item : BusyItem :=
      { owner := .front s.nextArrival, vol := vol, chunks := chunks, change := true, proceeded := false }
    let g := x.sharingGen
    let shared := fun (m : MapEntry) => match m.form with | .mapped _ born _ => decide (born ≤ g) | .unmapped _ => false
    let unmapped := fun (m : MapEntry) => match m.form with | .mapped .. => false | .unmapped _ => true
    let ownedBy := fun (m : MapEntry) => match m.form with | .mapped _ _ o => some o | .unmapped _ => none
    let new := (chunks.filter fun c => unmapped (x.entry c) || shared (x.entry c)).length
    let net := (chunks.filter fun c =>
      unmapped (x.entry c) || (shared (x.entry c) && ownedBy (x.entry c) != some owner)).length
    let a := s.acct owner
    let sum := a.charge + a.reserved + net
    let limited := owner ≠ 0 ∧ net ≠ 0
    let above := a.hard ≠ 268435455 ∧ a.hard < sum
    let trial : Option Nat := match a.expiry with
      | some e => some e
      | none =>
        if a.soft ≠ 268435455 ∧ a.soft < sum then some (min (s.sched.clock + s.ctl.config.grace) 4294967295) else none
    let lapsed := ∃ e ∈ trial, e ≤ s.sched.clock
    let derived := s.derived owner
    let report : Notice :=
      { kind := match derived with
          | .under => .cleared | .grace => .graceStarted | .lapsed => .lapsed | .over => .over,
        time := if s.sched.clockSet then s.sched.clock else 0, subject := owner, d1 := a.charge + a.reserved,
        d2 := match derived with
          | .under => a.soft | .grace => a.expiry.getD 0 | .lapsed => a.expiry.getD 0 | .over => a.hard }
    let passes := ¬ limited ∨ (¬ above ∧ ¬ lapsed)
    let block := fun (c : Nat) => c * 2 ^ k
    let from_ := fun (c : Nat) => max start (block c) - block c
    let to_ := fun (c : Nat) => min (start + count) (block (c + 1)) - block c
    let piece := fun (c : Nat) => (data.drop (block c + from_ c - start)).take (to_ c - from_ c)
    let isNew := fun (c : Nat) => unmapped (x.entry c) || shared (x.entry c)
    let claim := fun (c : Nat) => s.free.getD (chunks.filter fun d => decide (d < c) && isNew d).length 0
    let cmd := fun (kind : ShelfKind) (why : Purpose) (c pcn first n : Nat) (d : List Block) =>
      { kind := kind, cls := .foreground, pcn := pcn, first := first, count := n, data := d,
        owner := .request s.nextArrival c why : ShelfCmd }
    let whole := fun (c : Nat) => cmd .write .chunkWrite c (claim c) 0 (2 ^ k)
      (List.replicate (from_ c) zeroBlock ++ piece c ++ List.replicate (2 ^ k - to_ c) zeroBlock)
    let cmds := chunks.flatMap fun c => match (x.entry c).form with
      | .unmapped _ => [whole c]
      | .mapped pcn born _ =>
        if g < born then [cmd .write .inPlace c pcn (from_ c) (to_ c - from_ c) (piece c)]
        else if from_ c = 0 ∧ to_ c = 2 ^ k then [whole c]
        else (if from_ c = 0 then [] else [cmd .read .copyRead c pcn 0 (from_ c) []])
          ++ if to_ c = 2 ^ k then [] else [cmd .read .copyRead c pcn (to_ c) (2 ^ k - to_ c) []]
    let delayed := (chunks.filter fun c =>
      shared (x.entry c) && !decide (from_ c = 0 ∧ to_ c = 2 ^ k)).length
    let write := exec (.write tag vol start count owner (16 + count * 4096) data) s
    x.state = .normal → start + count ≤ x.size * 2 ^ k →
    (∀ y ∈ s.inflight, y.arrival < s.nextArrival) → (∀ i ∈ s.busy, i.owner ≠ .front s.nextArrival) →
    (∀ m ∈ s.mirror, m.arrival < s.nextArrival) →
    firstProceed [] s.busy = none →
    let waits : State := { s with
      nextArrival := s.nextArrival + 1,
      inflight := s.inflight ++
        [{ arrival := s.nextArrival, req := req, state := .waiting, gen := 0, plan := [], claims := [], charges := [],
           left := 0, failed := false, data := data }],
      busy := s.busy ++ [item] }
    (x.drain = none → (∃ i ∈ s.busy, i.conflicts item = true) →
      (waits.yieldSettles → write = .next waits.yieldTested.closed) ∧
      ProceedsInTurn s waits (.write tag vol start count owner (16 + count * 4096) data) item endsRead) ∧
    ((∀ i ∈ s.busy, i.conflicts item = false) →
     s.yielding = false → s.inflight.length + 1 < s.ctl.config.yieldHigh → s.shelf.up = false →
    (∀ p ∈ s.jobs, p.2.state.ended = true) →
    ((∀ p ∈ s.vols, p.2.drain = none) →
      (limited → above →
        write = .next (({ s with nextArrival := s.nextArrival + 1 } : State).replied vol 2 .quota tag)) ∧
      (limited → ¬ above → lapsed →
        write = .next ((if derived = a.last then { s with nextArrival := s.nextArrival + 1 }
          else { s with
            nextArrival := s.nextArrival + 1, ctl := offer s.ctl report,
            accounts := tset Account.fresh owner { a with last := derived } s.accounts } : State).replied
              vol 2 .quota tag)) ∧
      (passes → new ≠ 0 → s.free.length < s.format.floor + new →
        write = .next (({ s with nextArrival := s.nextArrival + 1 } : State).replied vol 2 .noSpace tag)) ∧
      (passes → new = 0 ∨ s.format.floor + new ≤ s.free.length →
        Answers write fun t =>
          t.free = s.free.drop new ∧ t.claims = s.claims + new ∧
          (∃ r, t.mirror = s.mirror ++ [r] ∧ r.arrival = s.nextArrival ∧ r.vol = vol ∧ r.claims = s.free.take new) ∧
          (∃ e, t.inflight = s.inflight ++ [e] ∧ e.arrival = s.nextArrival ∧ e.req = req ∧ e.state = .active ∧
            e.gen = g ∧ e.claims = s.free.take new ∧ e.data = data ∧ e.plan.map ChunkPlan.lcn = chunks) ∧
          t.busy = s.busy ++ [{ item with proceeded := true }] ∧ t.nextArrival = s.nextArrival + 1 ∧
          (data.length = count →
            t.shelf = { s.shelf with fgQueue := s.shelf.fgQueue ++ cmds } ∧
              ∃ e ∈ t.inflight, e.arrival = s.nextArrival ∧ e.left = cmds.length + delayed) ∧
          t.vols = s.vols ∧ t.shelf.slots = s.shelf.slots ∧ t.out = [] ∧ t.run = s.run ∧ t.jobs = s.jobs ∧
          ((∀ c ∈ chunks, unmapped (x.entry c) = true ∨ ownedBy (x.entry c) = some owner) →
            (t.acct owner).charge = a.charge + net ∧ ∀ o, o ≠ owner → t.acct o = s.acct o))) ∧
    (x.drain ≠ none →
      write = .next
        ({ s with
          nextArrival := s.nextArrival + 1,
          inflight := s.inflight ++
            [{ arrival := s.nextArrival, req := req, state := .held, gen := 0, plan := [], claims := [], charges := [],
               left := 0, failed := false, data := data }],
          vols := tset Volume.absent vol { x with holdList := x.holdList ++ [s.nextArrival] } s.vols } : State).closed))

/-- A DISCARD that passes the arrival checks and whose turn has come (R35, R45): in its one event every chunk it
covers whole is UNMAPPED at the volume's generation, an UNMAPPED one and every other chunk stands, each displaced PCN
goes to the retained set of the sharing snapshot or to the tail of the free FIFO (R83) and its chunk is logged, in
span order (R121), the charge of each owner falls by the chunks it loses, and the reply is OK; the in-flight table is
as before. That is stated with nothing else waiting in the part, no job open and the shelf link DOWN, on a volume that
keeps the generation law. Behind earlier work on its chunks it WAITS (R20 to R23): its entry and its item stand at the
end, and an occupancy that it brings to the high watermark sets the yield flag, with its effects on the jobs (R111,
`yieldTested`); and it proceeds in the event in which that work leaves, as if it arrived behind it (`ProceedsInTurn`:
R23), stated for the end of a READ and nothing else waiting in the part. That the frames of such an event stand in
this order is the model's reading: log entry 7. -/
def Obligations.DiscardUnmapsTheChunksItCovers : Prop :=
  ∀ (s : State) (tag vol start count owner : Nat), s.frontUp = true → s.ctl.part = .running →
    s.inflight.length < 255 → 1 ≤ count → count ≤ 256 →
    let x := s.vol vol
    let k := s.format.k
    let covered := fun (c : Nat) => start ≤ c * 2 ^ k ∧ (c + 1) * 2 ^ k ≤ start + count
    let item : BusyItem :=
      { owner := .front s.nextArrival, vol := vol, chunks := fullChunks k start count, change := true,
        proceeded := false }
    let displaced := (fullChunks k start count).filterMap fun c => match (x.entry c).form with
      | .mapped pcn born _ => some { lcn := c, pcn := pcn, born := born : RetEntry }
      | .unmapped _ => none
    let body := fun (d : Snap) => { d with retained := [] }
    x.state = .normal → start + count ≤ x.size * 2 ^ k → s.wf = true → x.genLaw →
    (∀ y ∈ s.inflight, y.arrival < s.nextArrival) → (∀ i ∈ s.busy, i.owner ≠ .front s.nextArrival) →
    firstProceed [] s.busy = none →
    let discard := Instr.discard tag vol start count owner 16
    let waits : State := { s with
      nextArrival := s.nextArrival + 1,
      inflight := s.inflight ++
        [{ arrival := s.nextArrival,
           req := { tag := tag, kind := .discard, vol := vol, view := none, start := start, count := count,
                    owner := owner },
           state := .waiting, gen := 0, plan := [], claims := [], charges := [], left := 0, failed := false,
           data := [] }],
      busy := s.busy ++ [item] }
    (x.drain = none → (∃ i ∈ s.busy, i.conflicts item = true) →
      (waits.yieldSettles → exec discard s = .next waits.yieldTested.closed) ∧
      ProceedsInTurn s waits discard item endsRead) ∧
    ((∀ i ∈ s.busy, i.conflicts item = false) → (∀ p ∈ s.vols, p.2.drain = none) →
     s.yielding = false → s.inflight.length + 1 < s.ctl.config.yieldHigh → s.shelf.up = false →
    (∀ p ∈ s.jobs, p.2.state.ended = true) →
    Answers (exec discard s) fun t =>
      t.out = [.front vol 3 .ok tag 0 []] ∧ t.inflight = s.inflight ∧ t.busy = s.busy ∧
      t.nextArrival = s.nextArrival + 1 ∧
      (∀ c, covered c → ∀ pcn born o, (x.entry c).form = .mapped pcn born o →
        ((t.vol vol).entry c).form = .unmapped x.gen) ∧
      (∀ c, ¬ covered c ∨ (∃ g, (x.entry c).form = .unmapped g) → (t.vol vol).entry c = x.entry c) ∧
      Filed s t vol x.sharingGen displaced ∧ Logged s t vol (displaced.map RetEntry.lcn) ∧
      (∀ i, (tfind (t.vol vol).snaps i).map body = (tfind x.snaps i).map body) ∧ (t.vol vol).gen = x.gen ∧
      (t.vol vol).size = x.size ∧ (t.vol vol).state = .normal ∧
      (∀ w, w ≠ vol → t.vol w = s.vol w) ∧ t.claims = s.claims ∧ t.mirror = s.mirror ∧ t.jobs = s.jobs ∧
      t.run = s.run ∧
      (∀ o, (t.acct o).charge = (s.acct o).charge - ((fullChunks k start count).filter fun c =>
        match (x.entry c).form with | .mapped _ _ p => p == o | .unmapped _ => false).length))

/-! ### Power-on, RESET and recovery -/

/-- What power-on (R178) and RESET (R181) leave, from every state. Each volume record stays but for its drain, hold
list and pins, and FREEZING is NORMAL: map, size, generation, snapshot records with their retained sets, deletion
queue, change lists and run counter (R40, R94, R98, R123); account records but for reserved count and queued flag
(R74); job and run records but for what was in hand (R118, R123); format, pool, mirror, plan, banks and configuration.
Queues, timers, links, epoch, cursors and the notice queue take their starting values. Recovery stands at its first
step with work, or is over with POOL LOW if F is below the low mark (R5) and RECOVERED (R178). Power-on loses the
clock, RESET keeps it and answers OK first. The model's choices: the values of a record that becomes NONE (log entry
35), the front link and the pacing instant kept (log entry 33), the shelf link DOWN with its carrier present (log
entry 49), the arrival number kept and the next frame number 1 (log entry 2), the stage of a kept copy (log entry 59),
RECOVERED's counts begun again at 0 (log entry 15), the freed counts of the walks kept (log entry 18). -/
def Obligations.PowerOnAndResetClearTheVolatileState : Prop :=
  ∀ (s : State) (tag : Nat), s.wf = true →
    let cleared := fun (t : State) =>
      t.inflight = [] ∧ t.busy = [] ∧ t.expiryQueue = [] ∧ t.firing = false ∧ t.yielding = false ∧
      t.mirror = s.mirror ∧ t.returns = s.returns ∧ t.plan = s.plan ∧ t.claims = s.claims ∧
      t.nextArrival = s.nextArrival ∧ t.frontUp = s.frontUp ∧
      t.format = (if s.format.cond = .formatting then Format.none else s.format) ∧
      t.free = (if s.format.cond = .formatting then [] else s.free) ∧
      (∀ v, t.vol v = { s.vol v with
        state := if (s.vol v).state = .freezing then .normal else (s.vol v).state,
        snaps := (s.vol v).snaps.map fun p => (p.1, { p.2 with inUse := 0 }),
        drain := none, waiting := [], holdList := [] }) ∧
      (∀ o, t.acct o = { s.acct o with reserved := 0, queued := false }) ∧
      t.jobs = (s.jobs.map fun p => (p.1, { p.2 with
        suspendReq := false, waiting := false, copy := p.2.copy.map fun c => { c with stage := .reading } })) ∧
      t.run = { s.run with
        asked := false, linkMark := false, shelfMark := false, frames := [], reading := none, scanRead := false } ∧
      t.port =
        { up := false, site := none, seqRun := none, nextNo := 1, highestAcked := 0, outstanding := [],
          resendPos := none, retry := 0, ackTimer := none, held := false, nextSend := s.port.pace, pace := s.port.pace,
          ignored := 0, resent := 0 } ∧
      t.shelf =
        { up := false, fgQueue := [], restoreQueue := [], offsiteQueue := [], slots := [], uses := [],
          epoch := if 65535 ≤ s.shelf.epoch then 0 else s.shelf.epoch + 1,
          streak := 0, turnOffsite := false, ignored := 0 } ∧
      t.sched.bankA = s.sched.bankA ∧ t.sched.bankB = s.sched.bankB ∧ t.sched.activeB = s.sched.activeB ∧
      t.sched.swap = false ∧ t.sched.rate = .night ∧ t.sched.followUps = [] ∧
      t.ctl.executing = none ∧ t.ctl.queue = [] ∧ t.ctl.lost = false ∧ t.ctl.config = s.ctl.config ∧
      t.ctl.acctCursor = 65535 ∧ t.ctl.schedBankB = (!s.sched.activeB) ∧ t.ctl.schedIndex = 47 ∧
      t.ctl.recMirror = 0 ∧ t.ctl.recJobs = 0 ∧
      (let step := if s.mirror ≠ [] then 1 else if s.returns ≠ [] ∨ ∃ p ∈ s.jobs, p.2.state.ended = false then 2
        else if s.run.state ≠ .idle then 3 else if ∃ p ∈ s.accounts, p.1 ≠ 0 ∧ p.2.expiry ≠ none then 4 else 0
      let low := t.format.cond = .valid ∧ t.free.length < t.format.low
      let time := if t.sched.clockSet then t.sched.clock else 0
      t.ctl.recStep = step ∧
      (step ≠ 0 → t.ctl.part = .recovering ∧ t.ctl.notices = [] ∧ t.poolLow = false) ∧
      (step = 0 → t.ctl.part = .standby ∧ t.poolLow = decide low ∧
        t.ctl.notices =
          (if low then
            [{ kind := .poolLow, time := time, subject := 0, d1 := t.free.length, d2 := t.format.low : Notice }]
          else []) ++ [{ kind := .recovered, time := time, subject := 0, d1 := 0, d2 := 0 }]))
    Answers (exec .powerOn s) (fun t => cleared t ∧ t.sched.clockSet = false ∧ t.sched.clock = 0 ∧ t.out = []) ∧
    (s.ctlServes → Answers (exec (.reset tag) s) fun t =>
      cleared t ∧ t.sched.clockSet = s.sched.clockSet ∧ t.sched.clock = s.sched.clock ∧
      t.out = [.control (!s.ctl.notices.isEmpty) s.ctl.lost 6 tag .ok []])

/-- The recovery steps (R40, R118, R139, R75, R178), each on the piece of work it takes, in a part as the reset leaves
it: the claims of a mirror record and the PCN of a pending return go back to the tail of the free FIFO, the record's
charge changes are reversed (stated for a record that names each account once) and its in-place LCNs logged as a
commit logs them (R121), no map entry's form changing; an open job ends FAILED-INTERRUPTED; a run that was not IDLE
ends INTERRUPTED, its current volume's run list merged back and its RUN snapshot queued for deletion if it was frozen
and not sealed (R138, `RunGivenUp`), with RUN ENDED, and the recovery goes on to step 4 or its end, as it does when a
deadline or a HELLO of another site ends the run while step 3 waits (log entry 46, the model's choice); and the
rebuilt grace expiry queue ends the recovery in STANDBY. Outside RECOVERING each of these commands changes nothing.
One piece for each command is the model's reading, the steps outside RECOVERING its choice: log entries 15, 8 and 36.
-/
def Obligations.RecoveryStepsTakeOnePiece : Prop :=
  ∀ s : State,
    let noted := fun (result : Nat) (t : State) => t.ctl.lost = false →
      { kind := .runEnded, time := if t.sched.clockSet then t.sched.clock else 0, subject := s.run.runId, d1 := result,
        d2 := s.run.sealedVols : Notice } ∈ t.ctl.notices
    (s.ctl.part ≠ .recovering →
      exec .mirrorRecordRecovery s = .next s.closed ∧ exec .pendingReturnRecovery s = .next s.closed ∧
      exec .restoreJobRecovery s = .next s.closed ∧ exec .runRecovery s = .next s.closed ∧
      exec .expiryQueueRebuild s = .next s.closed) ∧
    (s.ctl.part = .recovering → s.inflight = [] → s.busy = [] → (∀ p ∈ s.vols, p.2.drain = none) →
      s.yielding = false → 1 ≤ s.ctl.config.yieldHigh → s.shelf.up = false → s.port.up = false →
      (∀ p ∈ s.jobs, p.2.state ≠ .pausedPool) →
      (s.ctl.recStep = 1 → ∀ r rest, s.mirror = r :: rest → (r.charges.map Prod.fst).Nodup →
        Answers (exec .mirrorRecordRecovery s) fun t =>
          t.mirror = rest ∧ t.free = s.free ++ r.claims ∧ t.claims = s.claims - r.claims.length ∧
          (∀ p ∈ r.charges, (t.acct p.1).charge = (((s.acct p.1).charge : Int) - p.2).toNat) ∧
          (∀ o, o ∉ r.charges.map Prod.fst → t.acct o = s.acct o) ∧
          Logged s t r.vol r.inPlace.eraseDups ∧
          (let x := s.vol r.vol
          let y := t.vol r.vol
          y = { x with
            map := y.map, activeList := y.activeList, activeIncomplete := y.activeIncomplete, overflow := y.overflow } ∧
          ∀ l, (y.entry l).form = (x.entry l).form) ∧
          (r.inPlace = [] → t.vols = s.vols) ∧ (∀ v, v ≠ r.vol → t.vol v = s.vol v) ∧
          t.jobs = s.jobs ∧ t.returns = s.returns ∧ t.run = s.run) ∧
      (s.ctl.recStep = 2 → ∀ p rest, s.returns = p :: rest →
        Answers (exec .pendingReturnRecovery s) fun t =>
          t.returns = rest ∧ t.free = s.free ++ [p] ∧ t.claims = s.claims - 1 ∧ t.vols = s.vols ∧
          t.accounts = s.accounts ∧ t.jobs = s.jobs ∧ t.mirror = s.mirror ∧ t.run = s.run) ∧
      (s.ctl.recStep = 2 → s.returns = [] → ∀ j x, s.jobs.find? (fun p => !p.2.state.ended) = some (j, x) →
        tfind s.jobs j = some x →
        Answers (exec .restoreJobRecovery s) fun t =>
          t.jobs = tput j { x with state := .failedInterrupted, remaining := 0, copy := none } s.jobs ∧
          t.vols = s.vols ∧ t.run = s.run ∧ t.mirror = s.mirror ∧
          (x.copy = none → t.free = s.free ∧ t.claims = s.claims ∧ t.accounts = s.accounts) ∧
          (∀ c, x.copy = some c → t.free = s.free ++ [c.pcn] ∧ t.claims = s.claims - 1 ∧
            (t.acct x.owner).charge = (s.acct x.owner).charge - 1)) ∧
      (s.ctl.recStep = 3 → s.run.state ≠ .idle →
        Answers (exec .runRecovery s) fun t =>
          t.run.state = .idle ∧ t.run.result = .interrupted ∧ t.run.frames = [] ∧ t.run.runId = s.run.runId ∧
          RunGivenUp s t ∧ t.port.outstanding = [] ∧ t.port.seqRun = none ∧ noted 5 t ∧
          t.free = s.free ∧ t.accounts = s.accounts ∧ t.claims = s.claims ∧ t.jobs = s.jobs ∧
          (t.ctl.recStep = 4 ∨ t.ctl.part = .standby)) ∧
      (s.ctl.recStep = 3 → s.run.state ≠ .idle →
        (∀ site, site ≠ s.ctl.config.partnerSite →
          Answers (exec (.hello site) s) fun t =>
            t.run.state = .idle ∧ t.run.result = .failed ∧ RunGivenUp s t ∧ noted 4 t ∧
              (t.ctl.recStep = 4 ∨ t.ctl.part = .standby)) ∧
        (s.sched.clockSet = true → s.sched.clock < 4294967295 → s.run.deadline ≤ s.sched.clock + 1 →
          Answers (exec .clockAdvance s) fun t =>
            t.run.state = .idle ∧ t.run.result = .deadline ∧ RunGivenUp s t ∧ noted 3 t ∧
              (t.ctl.recStep = 4 ∨ t.ctl.part = .standby))) ∧
      (s.ctl.recStep = 4 →
        Answers (exec .expiryQueueRebuild s) fun t =>
          t.ctl.part = .standby ∧ t.ctl.recStep = 0 ∧ t.expiryQueue = rebuiltQueue s.accounts ∧
          (∀ p ∈ t.expiryQueue, (t.acct p.2).queued = true) ∧
          t.poolLow = (s.format.cond == .valid && decide (s.free.length < s.format.low)) ∧ t.free = s.free ∧
          t.claims = s.claims ∧ t.vols = s.vols ∧ t.jobs = s.jobs ∧ t.run = s.run))
end

