-- ==== Sys2Proof/Laws/State.lean ====
section
/-! SUPPORT. One lemma for each field and each update, true by definition: no later proof unfolds a record
update. The lists follow the order of the fields in `Machine/State.lean` and `Machine/Ops.lean`. -/

namespace Sys2Proof.Machine

/-! ### State updates -/

@[simp] theorem State.setVol_frontUp (s : State) (v : Nat) (x : Volume) :
    (s.setVol v x).frontUp = s.frontUp := rfl
@[simp] theorem State.setVol_format (s : State) (v : Nat) (x : Volume) :
    (s.setVol v x).format = s.format := rfl
@[simp] theorem State.setVol_free (s : State) (v : Nat) (x : Volume) : (s.setVol v x).free = s.free := rfl
@[simp] theorem State.setVol_claims (s : State) (v : Nat) (x : Volume) :
    (s.setVol v x).claims = s.claims := rfl
@[simp] theorem State.setVol_poolLow (s : State) (v : Nat) (x : Volume) :
    (s.setVol v x).poolLow = s.poolLow := rfl
@[simp] theorem State.setVol_vols (s : State) (v : Nat) (x : Volume) :
    (s.setVol v x).vols = tset Volume.absent v x s.vols := rfl
@[simp] theorem State.setVol_inflight (s : State) (v : Nat) (x : Volume) :
    (s.setVol v x).inflight = s.inflight := rfl
@[simp] theorem State.setVol_busy (s : State) (v : Nat) (x : Volume) : (s.setVol v x).busy = s.busy := rfl
@[simp] theorem State.setVol_mirror (s : State) (v : Nat) (x : Volume) :
    (s.setVol v x).mirror = s.mirror := rfl
@[simp] theorem State.setVol_nextArrival (s : State) (v : Nat) (x : Volume) :
    (s.setVol v x).nextArrival = s.nextArrival := rfl
@[simp] theorem State.setVol_accounts (s : State) (v : Nat) (x : Volume) :
    (s.setVol v x).accounts = s.accounts := rfl
@[simp] theorem State.setVol_expiryQueue (s : State) (v : Nat) (x : Volume) :
    (s.setVol v x).expiryQueue = s.expiryQueue := rfl
@[simp] theorem State.setVol_firing (s : State) (v : Nat) (x : Volume) :
    (s.setVol v x).firing = s.firing := rfl
@[simp] theorem State.setVol_jobs (s : State) (v : Nat) (x : Volume) : (s.setVol v x).jobs = s.jobs := rfl
@[simp] theorem State.setVol_yielding (s : State) (v : Nat) (x : Volume) :
    (s.setVol v x).yielding = s.yielding := rfl
@[simp] theorem State.setVol_returns (s : State) (v : Nat) (x : Volume) :
    (s.setVol v x).returns = s.returns := rfl
@[simp] theorem State.setVol_run (s : State) (v : Nat) (x : Volume) : (s.setVol v x).run = s.run := rfl
@[simp] theorem State.setVol_plan (s : State) (v : Nat) (x : Volume) : (s.setVol v x).plan = s.plan := rfl
@[simp] theorem State.setVol_port (s : State) (v : Nat) (x : Volume) : (s.setVol v x).port = s.port := rfl
@[simp] theorem State.setVol_shelf (s : State) (v : Nat) (x : Volume) : (s.setVol v x).shelf = s.shelf := rfl
@[simp] theorem State.setVol_sched (s : State) (v : Nat) (x : Volume) : (s.setVol v x).sched = s.sched := rfl
@[simp] theorem State.setVol_ctl (s : State) (v : Nat) (x : Volume) : (s.setVol v x).ctl = s.ctl := rfl
@[simp] theorem State.setVol_out (s : State) (v : Nat) (x : Volume) : (s.setVol v x).out = s.out := rfl
@[simp] theorem State.setVol_pending (s : State) (v : Nat) (x : Volume) :
    (s.setVol v x).pending = s.pending := rfl

@[simp] theorem State.setAcct_frontUp (s : State) (t : Nat) (a : Account) :
    (s.setAcct t a).frontUp = s.frontUp := rfl
@[simp] theorem State.setAcct_format (s : State) (t : Nat) (a : Account) :
    (s.setAcct t a).format = s.format := rfl
@[simp] theorem State.setAcct_free (s : State) (t : Nat) (a : Account) : (s.setAcct t a).free = s.free := rfl
@[simp] theorem State.setAcct_claims (s : State) (t : Nat) (a : Account) :
    (s.setAcct t a).claims = s.claims := rfl
@[simp] theorem State.setAcct_poolLow (s : State) (t : Nat) (a : Account) :
    (s.setAcct t a).poolLow = s.poolLow := rfl
@[simp] theorem State.setAcct_vols (s : State) (t : Nat) (a : Account) : (s.setAcct t a).vols = s.vols := rfl
@[simp] theorem State.setAcct_inflight (s : State) (t : Nat) (a : Account) :
    (s.setAcct t a).inflight = s.inflight := rfl
@[simp] theorem State.setAcct_busy (s : State) (t : Nat) (a : Account) : (s.setAcct t a).busy = s.busy := rfl
@[simp] theorem State.setAcct_mirror (s : State) (t : Nat) (a : Account) :
    (s.setAcct t a).mirror = s.mirror := rfl
@[simp] theorem State.setAcct_nextArrival (s : State) (t : Nat) (a : Account) :
    (s.setAcct t a).nextArrival = s.nextArrival := rfl
@[simp] theorem State.setAcct_accounts (s : State) (t : Nat) (a : Account) :
    (s.setAcct t a).accounts = tset Account.fresh t a s.accounts := rfl
@[simp] theorem State.setAcct_expiryQueue (s : State) (t : Nat) (a : Account) :
    (s.setAcct t a).expiryQueue = s.expiryQueue := rfl
@[simp] theorem State.setAcct_firing (s : State) (t : Nat) (a : Account) :
    (s.setAcct t a).firing = s.firing := rfl
@[simp] theorem State.setAcct_jobs (s : State) (t : Nat) (a : Account) : (s.setAcct t a).jobs = s.jobs := rfl
@[simp] theorem State.setAcct_yielding (s : State) (t : Nat) (a : Account) :
    (s.setAcct t a).yielding = s.yielding := rfl
@[simp] theorem State.setAcct_returns (s : State) (t : Nat) (a : Account) :
    (s.setAcct t a).returns = s.returns := rfl
@[simp] theorem State.setAcct_run (s : State) (t : Nat) (a : Account) : (s.setAcct t a).run = s.run := rfl
@[simp] theorem State.setAcct_plan (s : State) (t : Nat) (a : Account) : (s.setAcct t a).plan = s.plan := rfl
@[simp] theorem State.setAcct_port (s : State) (t : Nat) (a : Account) : (s.setAcct t a).port = s.port := rfl
@[simp] theorem State.setAcct_shelf (s : State) (t : Nat) (a : Account) :
    (s.setAcct t a).shelf = s.shelf := rfl
@[simp] theorem State.setAcct_sched (s : State) (t : Nat) (a : Account) :
    (s.setAcct t a).sched = s.sched := rfl
@[simp] theorem State.setAcct_ctl (s : State) (t : Nat) (a : Account) : (s.setAcct t a).ctl = s.ctl := rfl
@[simp] theorem State.setAcct_out (s : State) (t : Nat) (a : Account) : (s.setAcct t a).out = s.out := rfl
@[simp] theorem State.setAcct_pending (s : State) (t : Nat) (a : Account) :
    (s.setAcct t a).pending = s.pending := rfl

/-! ### Volume updates -/

@[simp] theorem Volume.setEntry_state (x : Volume) (l : Nat) (m : MapEntry) :
    (x.setEntry l m).state = x.state := rfl
@[simp] theorem Volume.setEntry_size (x : Volume) (l : Nat) (m : MapEntry) :
    (x.setEntry l m).size = x.size := rfl
@[simp] theorem Volume.setEntry_map (x : Volume) (l : Nat) (m : MapEntry) :
    (x.setEntry l m).map = tset MapEntry.fresh l m x.map := rfl
@[simp] theorem Volume.setEntry_gen (x : Volume) (l : Nat) (m : MapEntry) :
    (x.setEntry l m).gen = x.gen := rfl
@[simp] theorem Volume.setEntry_snaps (x : Volume) (l : Nat) (m : MapEntry) :
    (x.setEntry l m).snaps = x.snaps := rfl
@[simp] theorem Volume.setEntry_deleteQueue (x : Volume) (l : Nat) (m : MapEntry) :
    (x.setEntry l m).deleteQueue = x.deleteQueue := rfl
@[simp] theorem Volume.setEntry_reserveLimit (x : Volume) (l : Nat) (m : MapEntry) :
    (x.setEntry l m).reserveLimit = x.reserveLimit := rfl
@[simp] theorem Volume.setEntry_reserveOver (x : Volume) (l : Nat) (m : MapEntry) :
    (x.setEntry l m).reserveOver = x.reserveOver := rfl
@[simp] theorem Volume.setEntry_offsite (x : Volume) (l : Nat) (m : MapEntry) :
    (x.setEntry l m).offsite = x.offsite := rfl
@[simp] theorem Volume.setEntry_cap (x : Volume) (l : Nat) (m : MapEntry) :
    (x.setEntry l m).cap = x.cap := rfl
@[simp] theorem Volume.setEntry_runCounter (x : Volume) (l : Nat) (m : MapEntry) :
    (x.setEntry l m).runCounter = x.runCounter := rfl
@[simp] theorem Volume.setEntry_fullScan (x : Volume) (l : Nat) (m : MapEntry) :
    (x.setEntry l m).fullScan = x.fullScan := rfl
@[simp] theorem Volume.setEntry_overflow (x : Volume) (l : Nat) (m : MapEntry) :
    (x.setEntry l m).overflow = x.overflow := rfl
@[simp] theorem Volume.setEntry_everSealed (x : Volume) (l : Nat) (m : MapEntry) :
    (x.setEntry l m).everSealed = x.everSealed := rfl
@[simp] theorem Volume.setEntry_activeList (x : Volume) (l : Nat) (m : MapEntry) :
    (x.setEntry l m).activeList = x.activeList := rfl
@[simp] theorem Volume.setEntry_activeIncomplete (x : Volume) (l : Nat) (m : MapEntry) :
    (x.setEntry l m).activeIncomplete = x.activeIncomplete := rfl
@[simp] theorem Volume.setEntry_runList (x : Volume) (l : Nat) (m : MapEntry) :
    (x.setEntry l m).runList = x.runList := rfl
@[simp] theorem Volume.setEntry_runIncomplete (x : Volume) (l : Nat) (m : MapEntry) :
    (x.setEntry l m).runIncomplete = x.runIncomplete := rfl
@[simp] theorem Volume.setEntry_drain (x : Volume) (l : Nat) (m : MapEntry) :
    (x.setEntry l m).drain = x.drain := rfl
@[simp] theorem Volume.setEntry_waiting (x : Volume) (l : Nat) (m : MapEntry) :
    (x.setEntry l m).waiting = x.waiting := rfl
@[simp] theorem Volume.setEntry_holdList (x : Volume) (l : Nat) (m : MapEntry) :
    (x.setEntry l m).holdList = x.holdList := rfl
@[simp] theorem Volume.setEntry_deletePos (x : Volume) (l : Nat) (m : MapEntry) :
    (x.setEntry l m).deletePos = x.deletePos := rfl
@[simp] theorem Volume.setEntry_walkFreed (x : Volume) (l : Nat) (m : MapEntry) :
    (x.setEntry l m).walkFreed = x.walkFreed := rfl

@[simp] theorem Volume.setForm_state (x : Volume) (l : Nat) (m : Form) :
    (x.setForm l m).state = x.state := rfl
@[simp] theorem Volume.setForm_size (x : Volume) (l : Nat) (m : Form) : (x.setForm l m).size = x.size := rfl
@[simp] theorem Volume.setForm_gen (x : Volume) (l : Nat) (m : Form) : (x.setForm l m).gen = x.gen := rfl
@[simp] theorem Volume.setForm_snaps (x : Volume) (l : Nat) (m : Form) :
    (x.setForm l m).snaps = x.snaps := rfl
@[simp] theorem Volume.setForm_deleteQueue (x : Volume) (l : Nat) (m : Form) :
    (x.setForm l m).deleteQueue = x.deleteQueue := rfl
@[simp] theorem Volume.setForm_reserveLimit (x : Volume) (l : Nat) (m : Form) :
    (x.setForm l m).reserveLimit = x.reserveLimit := rfl
@[simp] theorem Volume.setForm_reserveOver (x : Volume) (l : Nat) (m : Form) :
    (x.setForm l m).reserveOver = x.reserveOver := rfl
@[simp] theorem Volume.setForm_offsite (x : Volume) (l : Nat) (m : Form) :
    (x.setForm l m).offsite = x.offsite := rfl
@[simp] theorem Volume.setForm_cap (x : Volume) (l : Nat) (m : Form) : (x.setForm l m).cap = x.cap := rfl
@[simp] theorem Volume.setForm_runCounter (x : Volume) (l : Nat) (m : Form) :
    (x.setForm l m).runCounter = x.runCounter := rfl
@[simp] theorem Volume.setForm_fullScan (x : Volume) (l : Nat) (m : Form) :
    (x.setForm l m).fullScan = x.fullScan := rfl
@[simp] theorem Volume.setForm_overflow (x : Volume) (l : Nat) (m : Form) :
    (x.setForm l m).overflow = x.overflow := rfl
@[simp] theorem Volume.setForm_everSealed (x : Volume) (l : Nat) (m : Form) :
    (x.setForm l m).everSealed = x.everSealed := rfl
@[simp] theorem Volume.setForm_activeList (x : Volume) (l : Nat) (m : Form) :
    (x.setForm l m).activeList = x.activeList := rfl
@[simp] theorem Volume.setForm_activeIncomplete (x : Volume) (l : Nat) (m : Form) :
    (x.setForm l m).activeIncomplete = x.activeIncomplete := rfl
@[simp] theorem Volume.setForm_runList (x : Volume) (l : Nat) (m : Form) :
    (x.setForm l m).runList = x.runList := rfl
@[simp] theorem Volume.setForm_runIncomplete (x : Volume) (l : Nat) (m : Form) :
    (x.setForm l m).runIncomplete = x.runIncomplete := rfl
@[simp] theorem Volume.setForm_drain (x : Volume) (l : Nat) (m : Form) :
    (x.setForm l m).drain = x.drain := rfl
@[simp] theorem Volume.setForm_waiting (x : Volume) (l : Nat) (m : Form) :
    (x.setForm l m).waiting = x.waiting := rfl
@[simp] theorem Volume.setForm_holdList (x : Volume) (l : Nat) (m : Form) :
    (x.setForm l m).holdList = x.holdList := rfl
@[simp] theorem Volume.setForm_deletePos (x : Volume) (l : Nat) (m : Form) :
    (x.setForm l m).deletePos = x.deletePos := rfl
@[simp] theorem Volume.setForm_walkFreed (x : Volume) (l : Nat) (m : Form) :
    (x.setForm l m).walkFreed = x.walkFreed := rfl

@[simp] theorem Volume.setSnap_state (x : Volume) (l : Nat) (d : Snap) :
    (x.setSnap l d).state = x.state := rfl
@[simp] theorem Volume.setSnap_size (x : Volume) (l : Nat) (d : Snap) : (x.setSnap l d).size = x.size := rfl
@[simp] theorem Volume.setSnap_map (x : Volume) (l : Nat) (d : Snap) : (x.setSnap l d).map = x.map := rfl
@[simp] theorem Volume.setSnap_gen (x : Volume) (l : Nat) (d : Snap) : (x.setSnap l d).gen = x.gen := rfl
@[simp] theorem Volume.setSnap_snaps (x : Volume) (l : Nat) (d : Snap) :
    (x.setSnap l d).snaps = tput l d x.snaps := rfl
@[simp] theorem Volume.setSnap_deleteQueue (x : Volume) (l : Nat) (d : Snap) :
    (x.setSnap l d).deleteQueue = x.deleteQueue := rfl
@[simp] theorem Volume.setSnap_reserveLimit (x : Volume) (l : Nat) (d : Snap) :
    (x.setSnap l d).reserveLimit = x.reserveLimit := rfl
@[simp] theorem Volume.setSnap_reserveOver (x : Volume) (l : Nat) (d : Snap) :
    (x.setSnap l d).reserveOver = x.reserveOver := rfl
@[simp] theorem Volume.setSnap_offsite (x : Volume) (l : Nat) (d : Snap) :
    (x.setSnap l d).offsite = x.offsite := rfl
@[simp] theorem Volume.setSnap_cap (x : Volume) (l : Nat) (d : Snap) : (x.setSnap l d).cap = x.cap := rfl
@[simp] theorem Volume.setSnap_runCounter (x : Volume) (l : Nat) (d : Snap) :
    (x.setSnap l d).runCounter = x.runCounter := rfl
@[simp] theorem Volume.setSnap_fullScan (x : Volume) (l : Nat) (d : Snap) :
    (x.setSnap l d).fullScan = x.fullScan := rfl
@[simp] theorem Volume.setSnap_overflow (x : Volume) (l : Nat) (d : Snap) :
    (x.setSnap l d).overflow = x.overflow := rfl
@[simp] theorem Volume.setSnap_everSealed (x : Volume) (l : Nat) (d : Snap) :
    (x.setSnap l d).everSealed = x.everSealed := rfl
@[simp] theorem Volume.setSnap_activeList (x : Volume) (l : Nat) (d : Snap) :
    (x.setSnap l d).activeList = x.activeList := rfl
@[simp] theorem Volume.setSnap_activeIncomplete (x : Volume) (l : Nat) (d : Snap) :
    (x.setSnap l d).activeIncomplete = x.activeIncomplete := rfl
@[simp] theorem Volume.setSnap_runList (x : Volume) (l : Nat) (d : Snap) :
    (x.setSnap l d).runList = x.runList := rfl
@[simp] theorem Volume.setSnap_runIncomplete (x : Volume) (l : Nat) (d : Snap) :
    (x.setSnap l d).runIncomplete = x.runIncomplete := rfl
@[simp] theorem Volume.setSnap_drain (x : Volume) (l : Nat) (d : Snap) :
    (x.setSnap l d).drain = x.drain := rfl
@[simp] theorem Volume.setSnap_waiting (x : Volume) (l : Nat) (d : Snap) :
    (x.setSnap l d).waiting = x.waiting := rfl
@[simp] theorem Volume.setSnap_holdList (x : Volume) (l : Nat) (d : Snap) :
    (x.setSnap l d).holdList = x.holdList := rfl
@[simp] theorem Volume.setSnap_deletePos (x : Volume) (l : Nat) (d : Snap) :
    (x.setSnap l d).deletePos = x.deletePos := rfl
@[simp] theorem Volume.setSnap_walkFreed (x : Volume) (l : Nat) (d : Snap) :
    (x.setSnap l d).walkFreed = x.walkFreed := rfl

/-! ### The event a command opens -/

@[simp] theorem openEvent_st (s : State) : (openEvent s).st = { s with out := [] } := rfl
@[simp] theorem openEvent_todo (s : State) : (openEvent s).todo = ({} : Todo) := rfl
@[simp] theorem openEvent_poolTouched (s : State) : (openEvent s).poolTouched = false := rfl
@[simp] theorem openEvent_accts (s : State) : (openEvent s).accts = [] := rfl
@[simp] theorem openEvent_reports (s : State) : (openEvent s).reports = [] := rfl
@[simp] theorem openEvent_reserves (s : State) : (openEvent s).reserves = [] := rfl
@[simp] theorem openEvent_acctNotices (s : State) : (openEvent s).acctNotices = [] := rfl
@[simp] theorem openEvent_overflowNotices (s : State) : (openEvent s).overflowNotices = [] := rfl
@[simp] theorem openEvent_notices (s : State) : (openEvent s).notices = [] := rfl
@[simp] theorem openEvent_late (s : State) : (openEvent s).late = [] := rfl
@[simp] theorem openEvent_done (s : State) : (openEvent s).done = [] := rfl

/-! ### Event updates -/

@[simp] theorem Event.upd_st (e : Event) (f : State → State) : (e.upd f).st = f e.st := rfl
@[simp] theorem Event.upd_todo (e : Event) (f : State → State) : (e.upd f).todo = e.todo := rfl
@[simp] theorem Event.upd_poolTouched (e : Event) (f : State → State) :
    (e.upd f).poolTouched = e.poolTouched := rfl
@[simp] theorem Event.upd_accts (e : Event) (f : State → State) : (e.upd f).accts = e.accts := rfl
@[simp] theorem Event.upd_reports (e : Event) (f : State → State) : (e.upd f).reports = e.reports := rfl
@[simp] theorem Event.upd_reserves (e : Event) (f : State → State) : (e.upd f).reserves = e.reserves := rfl
@[simp] theorem Event.upd_acctNotices (e : Event) (f : State → State) :
    (e.upd f).acctNotices = e.acctNotices := rfl
@[simp] theorem Event.upd_overflowNotices (e : Event) (f : State → State) :
    (e.upd f).overflowNotices = e.overflowNotices := rfl
@[simp] theorem Event.upd_notices (e : Event) (f : State → State) : (e.upd f).notices = e.notices := rfl
@[simp] theorem Event.upd_late (e : Event) (f : State → State) : (e.upd f).late = e.late := rfl
@[simp] theorem Event.upd_done (e : Event) (f : State → State) : (e.upd f).done = e.done := rfl

@[simp] theorem Event.updVol_st (e : Event) (v : Nat) (f : Volume → Volume) :
    (e.updVol v f).st = e.st.setVol v (f (e.st.vol v)) := rfl
@[simp] theorem Event.updVol_todo (e : Event) (v : Nat) (f : Volume → Volume) :
    (e.updVol v f).todo = e.todo := rfl
@[simp] theorem Event.updVol_poolTouched (e : Event) (v : Nat) (f : Volume → Volume) :
    (e.updVol v f).poolTouched = e.poolTouched := rfl
@[simp] theorem Event.updVol_accts (e : Event) (v : Nat) (f : Volume → Volume) :
    (e.updVol v f).accts = e.accts := rfl
@[simp] theorem Event.updVol_reports (e : Event) (v : Nat) (f : Volume → Volume) :
    (e.updVol v f).reports = e.reports := rfl
@[simp] theorem Event.updVol_reserves (e : Event) (v : Nat) (f : Volume → Volume) :
    (e.updVol v f).reserves = e.reserves := rfl
@[simp] theorem Event.updVol_acctNotices (e : Event) (v : Nat) (f : Volume → Volume) :
    (e.updVol v f).acctNotices = e.acctNotices := rfl
@[simp] theorem Event.updVol_overflowNotices (e : Event) (v : Nat) (f : Volume → Volume) :
    (e.updVol v f).overflowNotices = e.overflowNotices := rfl
@[simp] theorem Event.updVol_notices (e : Event) (v : Nat) (f : Volume → Volume) :
    (e.updVol v f).notices = e.notices := rfl
@[simp] theorem Event.updVol_late (e : Event) (v : Nat) (f : Volume → Volume) :
    (e.updVol v f).late = e.late := rfl
@[simp] theorem Event.updVol_done (e : Event) (v : Nat) (f : Volume → Volume) :
    (e.updVol v f).done = e.done := rfl

@[simp] theorem Event.updAcct_st (e : Event) (t : Nat) (f : Account → Account) :
    (e.updAcct t f).st = e.st.setAcct t (f (e.st.acct t)) := rfl
@[simp] theorem Event.updAcct_todo (e : Event) (t : Nat) (f : Account → Account) :
    (e.updAcct t f).todo = e.todo := rfl
@[simp] theorem Event.updAcct_poolTouched (e : Event) (t : Nat) (f : Account → Account) :
    (e.updAcct t f).poolTouched = e.poolTouched := rfl
@[simp] theorem Event.updAcct_accts (e : Event) (t : Nat) (f : Account → Account) :
    (e.updAcct t f).accts = e.accts := rfl
@[simp] theorem Event.updAcct_reports (e : Event) (t : Nat) (f : Account → Account) :
    (e.updAcct t f).reports = e.reports := rfl
@[simp] theorem Event.updAcct_reserves (e : Event) (t : Nat) (f : Account → Account) :
    (e.updAcct t f).reserves = e.reserves := rfl
@[simp] theorem Event.updAcct_acctNotices (e : Event) (t : Nat) (f : Account → Account) :
    (e.updAcct t f).acctNotices = e.acctNotices := rfl
@[simp] theorem Event.updAcct_overflowNotices (e : Event) (t : Nat) (f : Account → Account) :
    (e.updAcct t f).overflowNotices = e.overflowNotices := rfl
@[simp] theorem Event.updAcct_notices (e : Event) (t : Nat) (f : Account → Account) :
    (e.updAcct t f).notices = e.notices := rfl
@[simp] theorem Event.updAcct_late (e : Event) (t : Nat) (f : Account → Account) :
    (e.updAcct t f).late = e.late := rfl
@[simp] theorem Event.updAcct_done (e : Event) (t : Nat) (f : Account → Account) :
    (e.updAcct t f).done = e.done := rfl

@[simp] theorem Event.updRun_st (e : Event) (f : Run → Run) :
    (e.updRun f).st = { e.st with run := f e.st.run } := rfl
@[simp] theorem Event.updRun_todo (e : Event) (f : Run → Run) : (e.updRun f).todo = e.todo := rfl
@[simp] theorem Event.updRun_poolTouched (e : Event) (f : Run → Run) :
    (e.updRun f).poolTouched = e.poolTouched := rfl
@[simp] theorem Event.updRun_accts (e : Event) (f : Run → Run) : (e.updRun f).accts = e.accts := rfl
@[simp] theorem Event.updRun_reports (e : Event) (f : Run → Run) : (e.updRun f).reports = e.reports := rfl
@[simp] theorem Event.updRun_reserves (e : Event) (f : Run → Run) : (e.updRun f).reserves = e.reserves := rfl
@[simp] theorem Event.updRun_acctNotices (e : Event) (f : Run → Run) :
    (e.updRun f).acctNotices = e.acctNotices := rfl
@[simp] theorem Event.updRun_overflowNotices (e : Event) (f : Run → Run) :
    (e.updRun f).overflowNotices = e.overflowNotices := rfl
@[simp] theorem Event.updRun_notices (e : Event) (f : Run → Run) : (e.updRun f).notices = e.notices := rfl
@[simp] theorem Event.updRun_late (e : Event) (f : Run → Run) : (e.updRun f).late = e.late := rfl
@[simp] theorem Event.updRun_done (e : Event) (f : Run → Run) : (e.updRun f).done = e.done := rfl

@[simp] theorem Event.updPort_st (e : Event) (f : Port → Port) :
    (e.updPort f).st = { e.st with port := f e.st.port } := rfl
@[simp] theorem Event.updPort_todo (e : Event) (f : Port → Port) : (e.updPort f).todo = e.todo := rfl
@[simp] theorem Event.updPort_poolTouched (e : Event) (f : Port → Port) :
    (e.updPort f).poolTouched = e.poolTouched := rfl
@[simp] theorem Event.updPort_accts (e : Event) (f : Port → Port) : (e.updPort f).accts = e.accts := rfl
@[simp] theorem Event.updPort_reports (e : Event) (f : Port → Port) : (e.updPort f).reports = e.reports := rfl
@[simp] theorem Event.updPort_reserves (e : Event) (f : Port → Port) :
    (e.updPort f).reserves = e.reserves := rfl
@[simp] theorem Event.updPort_acctNotices (e : Event) (f : Port → Port) :
    (e.updPort f).acctNotices = e.acctNotices := rfl
@[simp] theorem Event.updPort_overflowNotices (e : Event) (f : Port → Port) :
    (e.updPort f).overflowNotices = e.overflowNotices := rfl
@[simp] theorem Event.updPort_notices (e : Event) (f : Port → Port) : (e.updPort f).notices = e.notices := rfl
@[simp] theorem Event.updPort_late (e : Event) (f : Port → Port) : (e.updPort f).late = e.late := rfl
@[simp] theorem Event.updPort_done (e : Event) (f : Port → Port) : (e.updPort f).done = e.done := rfl

@[simp] theorem Event.updShelf_st (e : Event) (f : Shelf → Shelf) :
    (e.updShelf f).st = { e.st with shelf := f e.st.shelf } := rfl
@[simp] theorem Event.updShelf_todo (e : Event) (f : Shelf → Shelf) : (e.updShelf f).todo = e.todo := rfl
@[simp] theorem Event.updShelf_poolTouched (e : Event) (f : Shelf → Shelf) :
    (e.updShelf f).poolTouched = e.poolTouched := rfl
@[simp] theorem Event.updShelf_accts (e : Event) (f : Shelf → Shelf) : (e.updShelf f).accts = e.accts := rfl
@[simp] theorem Event.updShelf_reports (e : Event) (f : Shelf → Shelf) :
    (e.updShelf f).reports = e.reports := rfl
@[simp] theorem Event.updShelf_reserves (e : Event) (f : Shelf → Shelf) :
    (e.updShelf f).reserves = e.reserves := rfl
@[simp] theorem Event.updShelf_acctNotices (e : Event) (f : Shelf → Shelf) :
    (e.updShelf f).acctNotices = e.acctNotices := rfl
@[simp] theorem Event.updShelf_overflowNotices (e : Event) (f : Shelf → Shelf) :
    (e.updShelf f).overflowNotices = e.overflowNotices := rfl
@[simp] theorem Event.updShelf_notices (e : Event) (f : Shelf → Shelf) :
    (e.updShelf f).notices = e.notices := rfl
@[simp] theorem Event.updShelf_late (e : Event) (f : Shelf → Shelf) : (e.updShelf f).late = e.late := rfl
@[simp] theorem Event.updShelf_done (e : Event) (f : Shelf → Shelf) : (e.updShelf f).done = e.done := rfl

@[simp] theorem Event.updSched_st (e : Event) (f : Schedule → Schedule) :
    (e.updSched f).st = { e.st with sched := f e.st.sched } := rfl
@[simp] theorem Event.updSched_todo (e : Event) (f : Schedule → Schedule) :
    (e.updSched f).todo = e.todo := rfl
@[simp] theorem Event.updSched_poolTouched (e : Event) (f : Schedule → Schedule) :
    (e.updSched f).poolTouched = e.poolTouched := rfl
@[simp] theorem Event.updSched_accts (e : Event) (f : Schedule → Schedule) :
    (e.updSched f).accts = e.accts := rfl
@[simp] theorem Event.updSched_reports (e : Event) (f : Schedule → Schedule) :
    (e.updSched f).reports = e.reports := rfl
@[simp] theorem Event.updSched_reserves (e : Event) (f : Schedule → Schedule) :
    (e.updSched f).reserves = e.reserves := rfl
@[simp] theorem Event.updSched_acctNotices (e : Event) (f : Schedule → Schedule) :
    (e.updSched f).acctNotices = e.acctNotices := rfl
@[simp] theorem Event.updSched_overflowNotices (e : Event) (f : Schedule → Schedule) :
    (e.updSched f).overflowNotices = e.overflowNotices := rfl
@[simp] theorem Event.updSched_notices (e : Event) (f : Schedule → Schedule) :
    (e.updSched f).notices = e.notices := rfl
@[simp] theorem Event.updSched_late (e : Event) (f : Schedule → Schedule) :
    (e.updSched f).late = e.late := rfl
@[simp] theorem Event.updSched_done (e : Event) (f : Schedule → Schedule) :
    (e.updSched f).done = e.done := rfl

@[simp] theorem Event.updCtl_st (e : Event) (f : Control → Control) :
    (e.updCtl f).st = { e.st with ctl := f e.st.ctl } := rfl
@[simp] theorem Event.updCtl_todo (e : Event) (f : Control → Control) : (e.updCtl f).todo = e.todo := rfl
@[simp] theorem Event.updCtl_poolTouched (e : Event) (f : Control → Control) :
    (e.updCtl f).poolTouched = e.poolTouched := rfl
@[simp] theorem Event.updCtl_accts (e : Event) (f : Control → Control) : (e.updCtl f).accts = e.accts := rfl
@[simp] theorem Event.updCtl_reports (e : Event) (f : Control → Control) :
    (e.updCtl f).reports = e.reports := rfl
@[simp] theorem Event.updCtl_reserves (e : Event) (f : Control → Control) :
    (e.updCtl f).reserves = e.reserves := rfl
@[simp] theorem Event.updCtl_acctNotices (e : Event) (f : Control → Control) :
    (e.updCtl f).acctNotices = e.acctNotices := rfl
@[simp] theorem Event.updCtl_overflowNotices (e : Event) (f : Control → Control) :
    (e.updCtl f).overflowNotices = e.overflowNotices := rfl
@[simp] theorem Event.updCtl_notices (e : Event) (f : Control → Control) :
    (e.updCtl f).notices = e.notices := rfl
@[simp] theorem Event.updCtl_late (e : Event) (f : Control → Control) : (e.updCtl f).late = e.late := rfl
@[simp] theorem Event.updCtl_done (e : Event) (f : Control → Control) : (e.updCtl f).done = e.done := rfl

@[simp] theorem Event.note_st (e : Event) (k : NoticeKind) (a b c : Nat) : (e.note k a b c).st = e.st := rfl
@[simp] theorem Event.note_todo (e : Event) (k : NoticeKind) (a b c : Nat) :
    (e.note k a b c).todo = e.todo := rfl
@[simp] theorem Event.note_poolTouched (e : Event) (k : NoticeKind) (a b c : Nat) :
    (e.note k a b c).poolTouched = e.poolTouched := rfl
@[simp] theorem Event.note_accts (e : Event) (k : NoticeKind) (a b c : Nat) :
    (e.note k a b c).accts = e.accts := rfl
@[simp] theorem Event.note_reports (e : Event) (k : NoticeKind) (a b c : Nat) :
    (e.note k a b c).reports = e.reports := rfl
@[simp] theorem Event.note_reserves (e : Event) (k : NoticeKind) (a b c : Nat) :
    (e.note k a b c).reserves = e.reserves := rfl
@[simp] theorem Event.note_acctNotices (e : Event) (k : NoticeKind) (a b c : Nat) :
    (e.note k a b c).acctNotices = e.acctNotices := rfl
@[simp] theorem Event.note_overflowNotices (e : Event) (k : NoticeKind) (a b c : Nat) :
    (e.note k a b c).overflowNotices = e.overflowNotices := rfl
@[simp] theorem Event.note_notices (e : Event) (k : NoticeKind) (a b c : Nat) :
    (e.note k a b c).notices = e.notices ++ [e.st.notice k a b c] := rfl
@[simp] theorem Event.note_late (e : Event) (k : NoticeKind) (a b c : Nat) :
    (e.note k a b c).late = e.late := rfl
@[simp] theorem Event.note_done (e : Event) (k : NoticeKind) (a b c : Nat) :
    (e.note k a b c).done = e.done := rfl

@[simp] theorem Event.touchReport_st (e : Event) (t : Nat) : (e.touchReport t).st = e.st := rfl
@[simp] theorem Event.touchReport_todo (e : Event) (t : Nat) : (e.touchReport t).todo = e.todo := rfl
@[simp] theorem Event.touchReport_poolTouched (e : Event) (t : Nat) :
    (e.touchReport t).poolTouched = e.poolTouched := rfl
@[simp] theorem Event.touchReport_accts (e : Event) (t : Nat) : (e.touchReport t).accts = e.accts := rfl
@[simp] theorem Event.touchReport_reports (e : Event) (t : Nat) :
    (e.touchReport t).reports = insertAsc t e.reports := rfl
@[simp] theorem Event.touchReport_reserves (e : Event) (t : Nat) :
    (e.touchReport t).reserves = e.reserves := rfl
@[simp] theorem Event.touchReport_acctNotices (e : Event) (t : Nat) :
    (e.touchReport t).acctNotices = e.acctNotices := rfl
@[simp] theorem Event.touchReport_overflowNotices (e : Event) (t : Nat) :
    (e.touchReport t).overflowNotices = e.overflowNotices := rfl
@[simp] theorem Event.touchReport_notices (e : Event) (t : Nat) : (e.touchReport t).notices = e.notices := rfl
@[simp] theorem Event.touchReport_late (e : Event) (t : Nat) : (e.touchReport t).late = e.late := rfl
@[simp] theorem Event.touchReport_done (e : Event) (t : Nat) : (e.touchReport t).done = e.done := rfl

@[simp] theorem Event.touchReserve_st (e : Event) (v : Nat) : (e.touchReserve v).st = e.st := rfl
@[simp] theorem Event.touchReserve_todo (e : Event) (v : Nat) : (e.touchReserve v).todo = e.todo := rfl
@[simp] theorem Event.touchReserve_poolTouched (e : Event) (v : Nat) :
    (e.touchReserve v).poolTouched = e.poolTouched := rfl
@[simp] theorem Event.touchReserve_accts (e : Event) (v : Nat) : (e.touchReserve v).accts = e.accts := rfl
@[simp] theorem Event.touchReserve_reports (e : Event) (v : Nat) :
    (e.touchReserve v).reports = e.reports := rfl
@[simp] theorem Event.touchReserve_reserves (e : Event) (v : Nat) :
    (e.touchReserve v).reserves = insertAsc v e.reserves := rfl
@[simp] theorem Event.touchReserve_acctNotices (e : Event) (v : Nat) :
    (e.touchReserve v).acctNotices = e.acctNotices := rfl
@[simp] theorem Event.touchReserve_overflowNotices (e : Event) (v : Nat) :
    (e.touchReserve v).overflowNotices = e.overflowNotices := rfl
@[simp] theorem Event.touchReserve_notices (e : Event) (v : Nat) :
    (e.touchReserve v).notices = e.notices := rfl
@[simp] theorem Event.touchReserve_late (e : Event) (v : Nat) : (e.touchReserve v).late = e.late := rfl
@[simp] theorem Event.touchReserve_done (e : Event) (v : Nat) : (e.touchReserve v).done = e.done := rfl

@[simp] theorem Event.touchPool_st (e : Event) : e.touchPool.st = e.st := rfl
@[simp] theorem Event.touchPool_todo (e : Event) : e.touchPool.todo = { e.todo with pool := true } := rfl
@[simp] theorem Event.touchPool_poolTouched (e : Event) : e.touchPool.poolTouched = true := rfl
@[simp] theorem Event.touchPool_accts (e : Event) : e.touchPool.accts = e.accts := rfl
@[simp] theorem Event.touchPool_reports (e : Event) : e.touchPool.reports = e.reports := rfl
@[simp] theorem Event.touchPool_reserves (e : Event) : e.touchPool.reserves = e.reserves := rfl
@[simp] theorem Event.touchPool_acctNotices (e : Event) : e.touchPool.acctNotices = e.acctNotices := rfl
@[simp] theorem Event.touchPool_overflowNotices (e : Event) :
    e.touchPool.overflowNotices = e.overflowNotices := rfl
@[simp] theorem Event.touchPool_notices (e : Event) : e.touchPool.notices = e.notices := rfl
@[simp] theorem Event.touchPool_late (e : Event) : e.touchPool.late = e.late := rfl
@[simp] theorem Event.touchPool_done (e : Event) : e.touchPool.done = e.done := rfl

@[simp] theorem Event.touchAcct_st (e : Event) (t : Nat) : (e.touchAcct t).st = e.st := by
  unfold Event.touchAcct; split <;> rfl
@[simp] theorem Event.touchAcct_todo (e : Event) (t : Nat) : (e.touchAcct t).todo = e.todo := by
  unfold Event.touchAcct; split <;> rfl
@[simp] theorem Event.touchAcct_poolTouched (e : Event) (t : Nat) : (e.touchAcct t).poolTouched = e.poolTouched := by
  unfold Event.touchAcct; split <;> rfl
@[simp] theorem Event.touchAcct_reports (e : Event) (t : Nat) : (e.touchAcct t).reports = e.reports := by
  unfold Event.touchAcct; split <;> rfl
@[simp] theorem Event.touchAcct_reserves (e : Event) (t : Nat) : (e.touchAcct t).reserves = e.reserves := by
  unfold Event.touchAcct; split <;> rfl
@[simp] theorem Event.touchAcct_acctNotices (e : Event) (t : Nat) : (e.touchAcct t).acctNotices = e.acctNotices := by
  unfold Event.touchAcct; split <;> rfl
@[simp] theorem Event.touchAcct_overflowNotices (e : Event) (t : Nat) : (e.touchAcct t).overflowNotices = e.overflowNotices := by
  unfold Event.touchAcct; split <;> rfl
@[simp] theorem Event.touchAcct_notices (e : Event) (t : Nat) : (e.touchAcct t).notices = e.notices := by
  unfold Event.touchAcct; split <;> rfl
@[simp] theorem Event.touchAcct_late (e : Event) (t : Nat) : (e.touchAcct t).late = e.late := by
  unfold Event.touchAcct; split <;> rfl
@[simp] theorem Event.touchAcct_done (e : Event) (t : Nat) : (e.touchAcct t).done = e.done := by
  unfold Event.touchAcct; split <;> rfl

@[simp] theorem emit_st (o : Output) (e : Event) : (emit o e).st = { e.st with out := e.st.out ++ [o] } := rfl
@[simp] theorem emit_todo (o : Output) (e : Event) : (emit o e).todo = e.todo := rfl
@[simp] theorem emit_poolTouched (o : Output) (e : Event) : (emit o e).poolTouched = e.poolTouched := rfl
@[simp] theorem emit_accts (o : Output) (e : Event) : (emit o e).accts = e.accts := rfl
@[simp] theorem emit_reports (o : Output) (e : Event) : (emit o e).reports = e.reports := rfl
@[simp] theorem emit_reserves (o : Output) (e : Event) : (emit o e).reserves = e.reserves := rfl
@[simp] theorem emit_acctNotices (o : Output) (e : Event) : (emit o e).acctNotices = e.acctNotices := rfl
@[simp] theorem emit_overflowNotices (o : Output) (e : Event) :
    (emit o e).overflowNotices = e.overflowNotices := rfl
@[simp] theorem emit_notices (o : Output) (e : Event) : (emit o e).notices = e.notices := rfl
@[simp] theorem emit_late (o : Output) (e : Event) : (emit o e).late = e.late := rfl
@[simp] theorem emit_done (o : Output) (e : Event) : (emit o e).done = e.done := rfl

end Sys2Proof.Machine
end

