-- ==== Sys2Proof/Laws/Event.lean ====
section
/-! SUPPORT. How an event runs: the turns it takes, the end of an event with nothing to evaluate, and the path of
a control request from its arrival to its reply, and small lemmas on what waits. -/

namespace Sys2Proof.Machine

/-! ### Turns -/

/-- An event with no turn left is over, whatever the bound. -/
theorem runTodo_of_none {e : Event} (h : turn e = none) (n : Nat) : runTodo n e = e := by
  cases n with
  | zero => rfl
  | succ n => simp only [runTodo, h]

/-- A turn is taken while the bound lasts. -/
theorem runTodo_of_some {e e' : Event} (h : turn e = some e') (n : Nat) :
    runTodo (n + 1) e = runTodo n e' := by
  simp only [runTodo, h]

/-- An event that calls for nothing takes no turn. -/
theorem turn_of_idle {e : Event} (h : e.todo = {}) : turn e = none := by
  unfold turn
  simp only [h]
  rfl

theorem turn_of_retest {e : Event} (h : e.todo.retest = true) : turn e = some (retestTurn e) := by
  simp only [turn, h, if_true]

theorem turn_of_drains {e : Event} (h0 : e.todo.retest = false) (h : e.todo.drains = true) :
    turn e = some (drainTurn e) := by
  simp [turn, h0, h]

/-- The turns of an event whose only work is a decided control reply: the reply goes out, then the empty control
queue is found empty. -/
theorem runTodo_of_answer {e : Event} {a : Answer} (n : Nat) (h : e.todo = { answer := some a })
    (hq : e.st.ctl.queue = []) :
    runTodo (n + 2) e =
      { emitControl a.number a.tag a.code
          (match a.job with
            | some j => [((tfind e.st.jobs j).map Job.stateValue).getD 0]
            | none => a.result) e with todo := {} } := by
  have h1 : turn e = some (answerTurn a e) := by
    unfold turn
    simp only [h]
    rfl
  rw [runTodo_of_some h1 (n + 1)]
  have ht : (answerTurn a e).todo = { control := true } := by
    simp [answerTurn, emitControl, emit, h]
  have hc : (answerTurn a e).st.ctl = e.st.ctl := by
    simp [answerTurn, emitControl, emit]
  have h2 : turn (answerTurn a e) = some { answerTurn a e with todo := {} } := by
    unfold turn
    simp only [ht]
    simp [controlTurn, hc, hq, ht]
  rw [runTodo_of_some h2 n, runTodo_of_none (turn_of_idle rfl)]
  rfl

/-! ### The end of an event -/

/-- An event that touched no record and offered no notice has nothing to evaluate. -/
@[simp] theorem evaluate_plain (s : State) (t : Todo) : ({ st := s, todo := t } : Event).evaluate = (s, {}) := rfl

/-- The frame is not the control unit's. -/
def Output.isPlain : Output → Bool
  | .control .. => false
  | _ => true

/-- Frames of the other units need no completion: they go out as they are, before what follows them. -/
theorem completeReplies_append (up : Bool) (v : Verdicts) (c : Control) (due : Causes) (ps : List Causes)
    (l m : List Output) (h : ∀ o ∈ l, o.isPlain = true) :
    completeReplies up v c due ps (l ++ m) =
      ((completeReplies up v c due ps m).1, l ++ (completeReplies up v c due ps m).2) := by
  induction l with
  | nil => rfl
  | cons o l ih =>
    have hl := ih fun o' ho => h o' (List.mem_cons_of_mem _ ho)
    have ho := h o (List.mem_cons_self ..)
    cases o <;> simp_all [completeReplies, Output.isPlain]

theorem completeReplies_plain (up : Bool) (v : Verdicts) (c : Control) (due : Causes) (ps : List Causes)
    (l : List Output) (h : ∀ o ∈ l, o.isPlain = true) :
    completeReplies up v c due ps l = ((v.due (ps.foldl Causes.join due)).foldl offer c, l) := by
  have := completeReplies_append up v c due ps l [] h
  simpa [completeReplies] using this

/-- The reply to a request other than a FETCH and STATUS shows the queue and is otherwise as it was decided. -/
theorem completeReply_read (c : Control) (number tag : Nat) (code : Code) (result : List Nat)
    (h38 : number ≠ 38 ∨ code ≠ .ok) (h7 : number ≠ 7 ∨ code ≠ .ok) :
    completeReply c number tag code result = (c, .control (!c.notices.isEmpty) c.lost number tag code result) := by
  have h1 : takes number code = false := by
    simp only [takes, Bool.and_eq_false_iff, beq_eq_false_iff_ne]
    exact h38
  have h2 : ¬ (number = 7 ∧ code = .ok) := by tauto
  simp [completeReply, h1, if_neg h2]

/-- Such an event leaves its state, its control replies completed, but that a firing pass with no due head ends (R63). -/
theorem closeEvent_plain (s : State) (t : Todo) :
    closeEvent { st := s, todo := t } =
      { s with ctl := (completeReplies s.frontUp {} s.ctl {} [{}] s.out).1,
               out := (completeReplies s.frontUp {} s.ctl {} [{}] s.out).2,
               firing := s.firing && s.headDue } := rfl

/-- Such an event with nothing on the links leaves its state. -/
@[simp] theorem closeEvent_silent {s : State} (h : s.out = []) (t : Todo) :
    closeEvent { st := s, todo := t } = { s with firing := s.firing && s.headDue } := by
  rw [closeEvent_plain, h, completeReplies, ← h]
  rfl

/-- Every event ends its firing pass when no head entry is due (R63). -/
theorem closeEvent_firing (e : Event) : (closeEvent e).firing = (e.evaluated.firing && e.evaluated.headDue) := rfl

/-! ### Control requests -/

/-- The state in which a request that has just arrived executes. -/
def State.executes (s : State) (q : ControlReq) : State :=
  { s with out := [], ctl := { s.ctl with executing := some { tag := q.tag, number := q.req.number } } }

/-- A request that arrives at a free control unit executes at once (R183). -/
theorem controlArrive_of_free {s : State} (h : s.ctlFree) (q : ControlReq) :
    controlArrive q (openEvent s) = perform q.req { st := s.executes q } := by
  obtain ⟨h1, h2, h3⟩ := h
  simp [controlArrive, h1, h2, h3, execute, State.executes, Event.updCtl, Event.upd, openEvent]

/-- A request decided with no work left over: the reply that the event's end completes is all that goes out (R183,
R184). -/
theorem close_reply {s : State} {x : Executing} (hx : s.ctl.executing = some x) (hq : s.ctl.queue = [])
    (hu : s.frontUp = true) (ho : s.out = []) (code : Code) (result : List Nat) :
    closeEvent (runTodo turnBound (reply code result { st := s })) =
      { s with
        ctl := (completeReply { s.ctl with executing := none } x.number x.tag code result).1,
        out := [(completeReply { s.ctl with executing := none } x.number x.tag code result).2],
        firing := s.firing && s.headDue } := by
  have hr : reply code result { st := s } =
      { st := { s with ctl := { s.ctl with executing := none } },
        todo := { answer := some { number := x.number, tag := x.tag, code := code, result := result,
                                   job := none } } } := by
    simp [reply, answerWith, hx, Event.updCtl, Event.upd]
  rw [hr, show turnBound = (turnBound - 2) + 2 from rfl, runTodo_of_answer _ rfl (by simpa using hq)]
  change ({ s with
    ctl := (completeReplies s.frontUp {} { s.ctl with executing := none } {} [{}, {}]
      (s.out ++ [.control false false x.number x.tag code result])).1,
    out := [] ++ (completeReplies s.frontUp {} { s.ctl with executing := none } {} [{}, {}]
      (s.out ++ [.control false false x.number x.tag code result])).2,
    firing := s.firing && s.headDue } : State) = _
  rw [ho, hu]
  simp only [List.nil_append, completeReplies, if_true]
  split_ifs with h <;> simp [completeReply, h, Causes.join, Causes.lastBefore, Verdicts.due]

/-- A request that executes at once and is decided with no work left over: the whole event. -/
theorem runEvent_of_reply {s t : State} (h : s.ctlFree) (q : ControlReq) {code : Code} {result : List Nat}
    (hp : perform q.req { st := s.executes q } = reply code result { st := t.executes q })
    (ht : t.frontUp = true) (hq : t.ctl.queue = []) (h38 : q.req.number ≠ 38 ∨ code ≠ .ok)
    (h7 : q.req.number ≠ 7 ∨ code ≠ .ok) :
    runEvent s (controlArrive q) = t.answered q.req.number q.tag code result := by
  rw [runEvent, controlArrive_of_free h, hp,
    close_reply (x := { tag := q.tag, number := q.req.number }) rfl (by simpa [State.executes] using hq)
      (by simpa [State.executes] using ht) rfl]
  simp only [completeReply_read _ _ _ _ _ h38 h7, State.answered, State.executes]
  rfl

/-- A request that its rule refuses, or that only reads: the state stands. -/
theorem runEvent_of_read {s : State} (h : s.ctlFree) (q : ControlReq) {code : Code} {result : List Nat}
    (hp : perform q.req { st := s.executes q } = reply code result { st := s.executes q })
    (h38 : q.req.number ≠ 38 ∨ code ≠ .ok) (h7 : q.req.number ≠ 7 ∨ code ≠ .ok) :
    runEvent s (controlArrive q) = s.answered q.req.number q.tag code result :=
  runEvent_of_reply h q hp h.1 h.2.2 h38 h7

/-- STATUS on a part with no work left over: the values as they are (R188). -/
theorem completeReply_status (s : State) (tag : Nat) :
    completeReply s.ctl 7 tag .ok (statusFields s) =
      (s.ctl, .control (!s.ctl.notices.isEmpty) s.ctl.lost 7 tag .ok (statusFields s)) := by
  simp [completeReply, takes, statusFields]

/-- RECOVERING refuses every request but the status reads (R180). -/
theorem perform_recovering {r : Request} {e : Event} (hp : e.st.ctl.part = .recovering)
    (hr : statusRead r.number = false) : perform r e = refuse .recovering e := by
  unfold perform
  rw [if_pos ⟨hp, by simp [hr]⟩]

/-- No command faults or is refused, in any state: every refusal of the part is a completion code (R182). -/
theorem exec_answers (c : Instr) (s : State) : ∃ t, exec c s = .next t := by
  cases c <;> exact ⟨_, rfl⟩

theorem step_answers (s : State) : ∃ t, step s = .next t := by
  unfold step
  split
  · exact ⟨s, rfl⟩
  · exact exec_answers _ _

/-! ### What statements say of work that waits -/

/-- The yield flag keeps its value: the test changes nothing (R111). -/
theorem yieldTested_of_eq {s : State} (h : yieldAfter s = s.yielding) : s.yieldTested = s := by
  simp only [State.yieldTested, h, if_true]

@[simp] theorem yieldTested_inflight (s : State) : s.yieldTested.inflight = s.inflight := by
  unfold State.yieldTested; split
  · rfl
  · split <;> rfl

@[simp] theorem yieldTested_vols (s : State) : s.yieldTested.vols = s.vols := by
  unfold State.yieldTested; split
  · rfl
  · split <;> rfl

@[simp] theorem released_jobs (s : State) (v : Nat) : (s.released v).jobs = s.jobs := rfl

@[simp] theorem released_run (s : State) (v : Nat) : (s.released v).run = s.run := rfl

/-- Beginning the next drain changes the volumes alone. -/
theorem nextDrain_eq (s : State) (v : Nat) : s.nextDrain v = { s with vols := (s.nextDrain v).vols } := by
  unfold State.nextDrain; dsimp only; split <;> rfl

/-- The arbiter grants at most as many commands as it has slots for. -/
theorem grantOrder_length (n : Nat) (p : Shelf) : (grantOrder n p).1.length ≤ n := by
  induction n generalizing p with
  | zero => simp [grantOrder]
  | succ n ih =>
    simp only [grantOrder]
    repeat' split
    all_goals first | exact Nat.zero_le _ | exact Nat.succ_le_succ (ih _)

end Sys2Proof.Machine
end

