-- ==== Sys2Proof/Laws/Loop.lean ====
section
/-! SUPPORT. A state in which no consequence of an event finds anything to do, and the one lemma that says what the
rest of an event is then: the decided control reply, if there is one. -/

namespace Sys2Proof.Machine

/-- Nothing in the part waits for a chance to go on: no busy set item may proceed, no drain has an empty set, the yield flag
agrees with the watermarks, no PAUSED-POOL job would be resumed, no job can begin a visit, no waiting drain can begin, the
control queue has nothing to execute, and the arbiter nothing to grant. -/
structure State.AtRest (s : State) : Prop where
  busy : firstProceed [] s.busy = none
  drains : emptyDrain s = none
  yields : yieldAfter s = s.yielding
  pool : s.format.floor + 64 ≤ s.free.length → ∀ p ∈ s.jobs, p.2.state ≠ .pausedPool
  jobs : ∀ p ∈ s.jobs, canVisit s p.2 = false
  waits : ∀ v, (s.vol v).drain = none → (s.vol v).waiting = []
  queue : s.ctl.executing = none → s.ctl.queue = []
  shelf : s.shelf.up = false ∨ s.shelf.freeSlot = none ∨ s.shelf.choose = none

/-- The offsite engine has nothing to ask for and no frame to prepare. -/
def State.EngineRests (s : State) : Prop := ∀ e : Event, e.st = s → engineTurn e = e

/-- The offsite port has nothing it may send. -/
def State.PortRests (s : State) : Prop := ∀ e : Event, e.st = s → portTurn e = e

theorem retestTurn_none {e : Event} (h : firstProceed [] e.st.busy = none) :
    retestTurn e = { e with todo := { e.todo with retest := false } } := by
  simp only [retestTurn, h]

theorem drainTurn_none {e : Event} (h : emptyDrain e.st = none) :
    drainTurn e = { e with todo := { e.todo with drains := false } } := by
  simp only [drainTurn, h]

theorem testYield_same {e : Event} (h : yieldAfter e.st = e.st.yielding) : testYield e = e := by
  simp [testYield, h]

theorem jobTurn_none {e : Event} (h : ∀ p ∈ e.st.jobs, canVisit e.st p.2 = false) :
    jobTurn e = { e with todo := { e.todo with jobs := false } } := by
  have hf : (e.st.jobs.find? fun p => canVisit e.st p.2) = none := by
    rw [List.find?_eq_none]
    intro p hp
    simp [h p hp]
  simp only [jobTurn, hf]

/-- A change of state that no job of the table calls for leaves the jobs. -/
theorem moveJobs_none {e : Event} {p : Job → Bool} (j : JobState) (h : ∀ x ∈ e.st.jobs, p x.2 = false) :
    moveJobs p j e = e := by
  have hm : (e.st.jobs.map fun x => if p x.2 then (x.1, { x.2 with state := j }) else x) = e.st.jobs := by
    conv_rhs => rw [← List.map_id e.st.jobs]
    refine List.map_congr_left fun x hx => ?_
    simp [h x hx]
  simp only [moveJobs, Event.upd, hm]

theorem resumePool_none {e : Event}
    (h : e.st.format.floor + 64 ≤ e.st.free.length → ∀ p ∈ e.st.jobs, p.2.state ≠ .pausedPool) :
    resumePool e = e ∨ resumePool e = wakeJobs e := by
  unfold resumePool
  split_ifs with hc
  · right
    rw [moveJobs_none]
    intro x hx
    simpa using h hc x hx
  · exact .inl rfl

theorem grants_none {e : Event} (n : Nat)
    (h : e.st.shelf.up = false ∨ e.st.shelf.freeSlot = none ∨ e.st.shelf.choose = none) : grants n e = e := by
  cases n with
  | zero => rfl
  | succ n =>
    simp only [grants]
    rcases h with h | h | h
    · simp [h]
    · simp [h]
    · cases hf : e.st.shelf.freeSlot <;> simp [h]

/-- An event after all its turns, when nothing in the part can go on: its decided control reply is on the link. -/
def Event.sendAnswer (e : Event) : Event :=
  match e.todo.answer with
  | none => { e with todo := {} }
  | some a =>
    emitControl a.number a.tag a.code
      (match a.job with
        | some j => [((tfind e.st.jobs j).map Job.stateValue).getD 0]
        | none => a.result) { e with todo := {} }

theorem emitControl_clear (number tag : Nat) (code : Code) (result : List Nat) (e : Event) (t : Todo) :
    ({ emitControl number tag code result e with todo := t } : Event) =
      emitControl number tag code result { e with todo := t } := by
  rfl

/-- From `k` turns on the event ends as `r`. -/
def Ends (k : Nat) (e r : Event) : Prop := ∀ n, runTodo (n + k) e = r

theorem Ends.more {k : Nat} {e r : Event} (h : Ends k e r) : Ends (k + 1) e r := by
  intro n
  have := h (n + 1)
  rwa [show n + (k + 1) = n + 1 + k from by omega]

theorem Ends.turn {k : Nat} {e e' r : Event} (ht : Machine.turn e = some e') (h : Ends k e' r) : Ends (k + 1) e r := by
  intro n
  rw [show n + (k + 1) = (n + k) + 1 from by omega, runTodo_of_some ht]
  exact h n

/-- The grants find nothing to grant. -/
theorem ends_grant (g : Bool) (e : Event)
    (hs : e.st.shelf.up = false ∨ e.st.shelf.freeSlot = none ∨ e.st.shelf.choose = none) :
    Ends 1 { e with todo := { grant := g } } { e with todo := {} } := by
  cases g with
  | false => intro n; exact runTodo_of_none (turn_of_idle rfl) _
  | true =>
    refine Ends.turn (k := 0) (e' := { e with todo := {} }) ?_ fun n => runTodo_of_none (turn_of_idle rfl) _
    change some (grants Config.shelfSlots { e with todo := {} }) = _
    rw [grants_none]
    exact hs

/-- The control queue has nothing to execute. -/
theorem ends_control (c g : Bool) (e : Event) (hq : e.st.ctl.executing = none → e.st.ctl.queue = [])
    (hs : e.st.shelf.up = false ∨ e.st.shelf.freeSlot = none ∨ e.st.shelf.choose = none) :
    Ends 2 { e with todo := { control := c, grant := g } } { e with todo := {} } := by
  cases c with
  | false => exact (ends_grant g e hs).more
  | true =>
    refine Ends.turn ?_ (ends_grant g e hs)
    change some (controlTurn _) = _
    unfold controlTurn
    rw [if_neg]
    rintro ⟨h1, h2⟩
    exact h2 (hq h1)

theorem emitControl_ctl (number tag : Nat) (code : Code) (result : List Nat) (e : Event) :
    (emitControl number tag code result e).st.ctl = e.st.ctl ∧
      (emitControl number tag code result e).st.shelf = e.st.shelf := by
  exact ⟨rfl, rfl⟩

theorem emitControl_todo (number tag : Nat) (code : Code) (result : List Nat) (e : Event) :
    (emitControl number tag code result e).todo = e.todo := by
  rfl

/-- The decided control reply goes out. -/
theorem ends_answer {e : Event} (hs : e.st.AtRest) (ao : Option Answer) (c g : Bool) :
    Ends 3 { e with todo := { answer := ao, control := c, grant := g } }
      { e with todo := { answer := ao } }.sendAnswer := by
  cases ao with
  | none => exact (ends_control c g e hs.queue hs.shelf).more
  | some a =>
    refine Ends.turn (e' := answerTurn a { e with todo := { answer := some a, control := c, grant := g } }) rfl ?_
    simp only [answerTurn, Event.sendAnswer, emitControl_todo]
    simp only [emitControl_clear]
    have h := emitControl_ctl a.number a.tag a.code
      (match a.job with
        | some j => [((tfind e.st.jobs j).map Job.stateValue).getD 0]
        | none => a.result) { e with todo := {} }
    have key := ends_control true g (emitControl a.number a.tag a.code
      (match a.job with
        | some j => [((tfind e.st.jobs j).map Job.stateValue).getD 0]
        | none => a.result) { e with todo := {} }) (by rw [h.1]; exact hs.queue) (by rw [h.2]; exact hs.shelf)
    simp only [emitControl_clear] at key
    exact key

/-- The engine and the port have nothing to do. -/
theorem ends_engine {e : Event} (hs : e.st.AtRest) (en po : Bool) (hE : en = true → e.st.EngineRests)
    (hP : po = true → e.st.PortRests) (ao : Option Answer) (c g : Bool) :
    Ends 5 { e with todo := { engine := en, port := po, answer := ao, control := c, grant := g } }
      { e with todo := { answer := ao } }.sendAnswer := by
  have h4 : Ends 4 { e with todo := { port := po, answer := ao, control := c, grant := g } }
      { e with todo := { answer := ao } }.sendAnswer := by
    cases po with
    | false => exact (ends_answer hs ao c g).more
    | true =>
      refine Ends.turn ?_ (ends_answer hs ao c g)
      change some (portTurn { e with todo := { answer := ao, control := c, grant := g } }) = _
      rw [hP rfl]
      rfl
  cases en with
  | false => exact h4.more
  | true =>
    refine Ends.turn ?_ h4
    change some (engineTurn { e with todo := { port := po, answer := ao, control := c, grant := g } }) = _
    rw [hE rfl]
    rfl

/-- The drains named to begin find nothing to begin. -/
theorem ends_drainBegin {e : Event} (hs : e.st.AtRest) (l : List Nat) (en po : Bool) (hE : en = true → e.st.EngineRests)
    (hP : po = true → e.st.PortRests) (ao : Option Answer) (c g : Bool) :
    Ends (5 + l.length)
      { e with todo := { drainBegin := l, engine := en, port := po, answer := ao, control := c, grant := g } }
      { e with todo := { answer := ao } }.sendAnswer := by
  induction l with
  | nil => exact ends_engine hs en po hE hP ao c g
  | cons v l ih =>
    refine Ends.turn (k := 5 + l.length) ?_ ih
    change some (if (e.st.vol v).drain = none then beginNext v _ else _) = _
    split_ifs with h
    · have hw := hs.waits v h
      simp only [beginNext]
      rw [hw]
    · rfl

/-- The rest of an event whose state is at rest: the decided control reply goes out, and nothing else happens. -/
theorem ends_atRest {e : Event} (hs : e.st.AtRest) (hE : e.todo.engine = true → e.st.EngineRests)
    (hP : e.todo.port = true → e.st.PortRests) : Ends (10 + e.todo.drainBegin.length) e e.sendAnswer := by
  obtain ⟨⟨r, d, o, p, j, l, en, po, ao, c, g⟩, ht⟩ : ∃ t, e.todo = t := ⟨_, rfl⟩
  have he : e = { e with todo := ⟨r, d, o, p, j, l, en, po, ao, c, g⟩ } := by rw [← ht]
  have hr : e.sendAnswer = { e with todo := { answer := ao } }.sendAnswer := by
    unfold Event.sendAnswer
    rw [ht]
  rw [hr, he]
  rw [ht] at hE hP
  simp only at hE hP ⊢
  have h6 : ∀ j, Ends (6 + l.length) { e with todo := ⟨false, false, false, false, j, l, en, po, ao, c, g⟩ }
      { e with todo := { answer := ao } }.sendAnswer := by
    intro j
    have h5 := ends_drainBegin hs l en po hE hP ao c g
    rw [show 6 + l.length = 5 + l.length + 1 from by omega]
    cases j with
    | false => exact h5.more
    | true =>
      refine h5.turn ?_
      change some (jobTurn _) = _
      rw [jobTurn_none (by exact hs.jobs)]
  have h7 : ∀ p, Ends (7 + l.length) { e with todo := ⟨false, false, false, p, j, l, en, po, ao, c, g⟩ }
      { e with todo := { answer := ao } }.sendAnswer := by
    intro p
    rw [show 7 + l.length = 6 + l.length + 1 from by omega]
    cases p with
    | false => exact (h6 j).more
    | true =>
      rcases resumePool_none (e := { e with todo := ⟨false, false, false, false, j, l, en, po, ao, c, g⟩ })
        (by exact hs.pool) with h | h
      · refine (h6 j).turn ?_
        change some (resumePool _) = _
        rw [h]
      · refine (h6 true).turn ?_
        change some (resumePool _) = _
        rw [h]
        rfl
  have h8 : ∀ o, Ends (8 + l.length) { e with todo := ⟨false, false, o, p, j, l, en, po, ao, c, g⟩ }
      { e with todo := { answer := ao } }.sendAnswer := by
    intro o
    rw [show 8 + l.length = 7 + l.length + 1 from by omega]
    cases o with
    | false => exact (h7 p).more
    | true =>
      refine (h7 p).turn ?_
      change some (testYield _) = _
      rw [testYield_same (by exact hs.yields)]
  have h9 : ∀ d, Ends (9 + l.length) { e with todo := ⟨false, d, o, p, j, l, en, po, ao, c, g⟩ }
      { e with todo := { answer := ao } }.sendAnswer := by
    intro d
    rw [show 9 + l.length = 8 + l.length + 1 from by omega]
    cases d with
    | false => exact (h8 o).more
    | true =>
      refine (h8 o).turn ?_
      change some (drainTurn _) = _
      rw [drainTurn_none (by exact hs.drains)]
  rw [show 10 + l.length = 9 + l.length + 1 from by omega]
  cases r with
  | false => exact (h9 d).more
  | true =>
    refine (h9 d).turn ?_
    change some (retestTurn _) = _
    rw [retestTurn_none (by exact hs.busy)]

/-- The same under the bound of an event. -/
theorem runTodo_atRest {e : Event} (hs : e.st.AtRest) (hE : e.todo.engine = true → e.st.EngineRests)
    (hP : e.todo.port = true → e.st.PortRests) (hl : e.todo.drainBegin.length ≤ 1000) :
    runTodo turnBound e = e.sendAnswer := by
  have h := ends_atRest hs hE hP (turnBound - (10 + e.todo.drainBegin.length))
  rwa [Nat.sub_add_cancel (by unfold turnBound; omega)] at h

end Sys2Proof.Machine
end

