-- ==== Sys2Proof/Laws/Table.lean ====
section
/-! SUPPORT. Laws of the sparse tables: a read after a write, and the canonical form that every write keeps. -/

namespace Sys2Proof.Machine

variable {α : Type}

theorem tfind_tput_same (i : Nat) (v : α) (t : Table α) : tfind (tput i v t) i = some v := by
  induction t with
  | nil => simp [tput, tfind]
  | cons p t ih =>
    obtain ⟨k, w⟩ := p
    simp only [tput]
    split_ifs with h1 h2 <;> simp [tfind, *]

theorem tfind_tput_ne (i j : Nat) (v : α) (t : Table α) (h : j ≠ i) :
    tfind (tput i v t) j = tfind t j := by
  induction t with
  | nil => simp [tput, tfind, h]
  | cons p t ih =>
    obtain ⟨k, w⟩ := p
    simp only [tput]
    split_ifs with h1 h2
    · simp [tfind, h]
    · subst h2; simp [tfind, h]
    · simp [tfind, ih]

theorem tfind_tdel_same (i : Nat) (t : Table α) : tfind (tdel i t) i = none := by
  induction t with
  | nil => rfl
  | cons p t ih =>
    obtain ⟨k, w⟩ := p
    simp only [tdel]
    split_ifs with h
    · exact ih
    · simp [tfind, h, ih]

theorem tfind_tdel_ne (i j : Nat) (t : Table α) (h : j ≠ i) : tfind (tdel i t) j = tfind t j := by
  induction t with
  | nil => rfl
  | cons p t ih =>
    obtain ⟨k, w⟩ := p
    simp only [tdel]
    split_ifs with h1
    · subst h1; simp [tfind, h, ih]
    · simp [tfind, ih]

/-- A read of the key a write named gives the value written. -/
@[simp] theorem tget_tset_same [DecidableEq α] (d : α) (i : Nat) (v : α) (t : Table α) :
    tget d (tset d i v t) i = v := by
  unfold tget tset
  split_ifs with h
  · simp [tfind_tdel_same, h]
  · simp [tfind_tput_same]

/-- A write leaves every other key as it was. -/
theorem tget_tset_ne [DecidableEq α] (d : α) (i j : Nat) (v : α) (t : Table α) (h : j ≠ i) :
    tget d (tset d i v t) j = tget d t j := by
  unfold tget tset
  split_ifs
  · rw [tfind_tdel_ne i j t h]
  · rw [tfind_tput_ne i j v t h]

/-! ### The canonical form -/

theorem above_tdel {k : Nat} {t : Table α} (i : Nat) (h : Table.above k t = true) :
    Table.above k (tdel i t) = true := by
  induction t with
  | nil => rfl
  | cons p t ih =>
    obtain ⟨j, w⟩ := p
    simp only [Table.above, List.all_cons, Bool.and_eq_true] at h
    simp only [tdel]
    split_ifs
    · exact ih h.2
    · simp only [Table.above, List.all_cons, Bool.and_eq_true]
      exact ⟨h.1, ih h.2⟩

theorem sorted_tdel {t : Table α} (i : Nat) (h : Table.sorted t = true) :
    Table.sorted (tdel i t) = true := by
  induction t with
  | nil => rfl
  | cons p t ih =>
    obtain ⟨j, w⟩ := p
    simp only [Table.sorted, Bool.and_eq_true] at h
    simp only [tdel]
    split_ifs
    · exact ih h.2
    · simp only [Table.sorted, Bool.and_eq_true]
      exact ⟨above_tdel i h.1, ih h.2⟩

theorem above_tput {k i : Nat} {v : α} {t : Table α} (hk : k < i) (h : Table.above k t = true) :
    Table.above k (tput i v t) = true := by
  induction t with
  | nil => simp [tput, Table.above, hk]
  | cons p t ih =>
    obtain ⟨j, w⟩ := p
    simp only [Table.above, List.all_cons, Bool.and_eq_true, decide_eq_true_eq] at h
    simp only [tput]
    split_ifs
    · simp [Table.above, hk, h.1]; simpa [Table.above] using h.2
    · simp [Table.above, hk]; simpa [Table.above] using h.2
    · simp only [Table.above, List.all_cons, Bool.and_eq_true, decide_eq_true_eq]
      exact ⟨h.1, ih h.2⟩

theorem above_trans {j k : Nat} {t : Table α} (hj : j < k) (h : Table.above k t = true) :
    Table.above j t = true := by
  simp only [Table.above, List.all_eq_true, decide_eq_true_eq] at h ⊢
  exact fun p hp => lt_trans hj (h p hp)

theorem sorted_tput {t : Table α} (i : Nat) (v : α) (h : Table.sorted t = true) :
    Table.sorted (tput i v t) = true := by
  induction t with
  | nil => rfl
  | cons p t ih =>
    obtain ⟨j, w⟩ := p
    simp only [Table.sorted, Bool.and_eq_true] at h
    simp only [tput]
    split_ifs with h1 h2
    · simp only [Table.sorted, Bool.and_eq_true]
      refine ⟨?_, h⟩
      simp only [Table.above, List.all_cons, Bool.and_eq_true, decide_eq_true_eq]
      exact ⟨h1, above_trans h1 h.1⟩
    · subst h2
      simp only [Table.sorted, Bool.and_eq_true]
      exact h
    · simp only [Table.sorted, Bool.and_eq_true]
      exact ⟨above_tput (by omega) h.1, ih h.2⟩

theorem mem_tdel {i : Nat} {t : Table α} {p : Nat × α} (h : p ∈ tdel i t) : p ∈ t := by
  induction t with
  | nil => exact h
  | cons q t ih =>
    obtain ⟨j, w⟩ := q
    simp only [tdel] at h
    split_ifs at h
    · exact List.mem_cons_of_mem _ (ih h)
    · rcases List.mem_cons.1 h with h | h
      · exact h ▸ List.mem_cons_self ..
      · exact List.mem_cons_of_mem _ (ih h)

theorem mem_tput {i : Nat} {v : α} {t : Table α} {p : Nat × α} (h : p ∈ tput i v t) :
    p = (i, v) ∨ p ∈ t := by
  induction t with
  | nil => simpa [tput] using h
  | cons q t ih =>
    obtain ⟨j, w⟩ := q
    simp only [tput] at h
    split_ifs at h
    · rcases List.mem_cons.1 h with h | h
      · exact .inl h
      · exact .inr h
    · rcases List.mem_cons.1 h with h | h
      · exact .inl h
      · exact .inr (List.mem_cons_of_mem _ h)
    · rcases List.mem_cons.1 h with h | h
      · exact .inr (h ▸ List.mem_cons_self ..)
      · rcases ih h with h | h
        · exact .inl h
        · exact .inr (List.mem_cons_of_mem _ h)

/-- A write keeps the canonical form, whatever the value. -/
theorem wf_tset [DecidableEq α] {d : α} {t : Table α} (i : Nat) (v : α) (h : Table.wf d t = true) :
    Table.wf d (tset d i v t) = true := by
  simp only [Table.wf, Bool.and_eq_true, List.all_eq_true, decide_eq_true_eq] at h ⊢
  unfold tset
  split_ifs with hv
  · exact ⟨sorted_tdel i h.1, fun p hp => h.2 p (mem_tdel hp)⟩
  · refine ⟨sorted_tput i v h.1, fun p hp => ?_⟩
    rcases mem_tput hp with hp | hp
    · rw [hp]; exact hv
    · exact h.2 p hp

/-- Unlisting a key keeps the canonical form. -/
theorem wf_tdel [DecidableEq α] {d : α} {t : Table α} (i : Nat) (h : Table.wf d t = true) :
    Table.wf d (tdel i t) = true := by
  simp only [Table.wf, Bool.and_eq_true, List.all_eq_true, decide_eq_true_eq] at h ⊢
  exact ⟨sorted_tdel i h.1, fun p hp => h.2 p (mem_tdel hp)⟩

theorem above_tmap [DecidableEq α] {d : α} {f : α → α} {k : Nat} {t : Table α}
    (h : Table.above k t = true) : Table.above k (tmap d f t) = true := by
  induction t with
  | nil => rfl
  | cons p t ih =>
    obtain ⟨j, w⟩ := p
    simp only [Table.above, List.all_cons, Bool.and_eq_true] at h
    simp only [tmap]
    split_ifs
    · exact ih h.2
    · simp only [Table.above, List.all_cons, Bool.and_eq_true]
      exact ⟨h.1, ih h.2⟩

/-- A change of every listed value gives the canonical form. -/
theorem wf_tmap [DecidableEq α] {d : α} {f : α → α} {t : Table α} (h : Table.sorted t = true) :
    Table.wf d (tmap d f t) = true := by
  simp only [Table.wf, Bool.and_eq_true, List.all_eq_true, decide_eq_true_eq]
  induction t with
  | nil => exact ⟨rfl, by simp [tmap]⟩
  | cons p t ih =>
    obtain ⟨j, w⟩ := p
    simp only [Table.sorted, Bool.and_eq_true] at h
    obtain ⟨ih1, ih2⟩ := ih h.2
    simp only [tmap]
    split_ifs with hv
    · exact ⟨ih1, ih2⟩
    · refine ⟨?_, fun q hq => ?_⟩
      · simp only [Table.sorted, Bool.and_eq_true]
        exact ⟨above_tmap h.1, ih1⟩
      · rcases List.mem_cons.1 hq with rfl | hq
        · exact hv
        · exact ih2 q hq

/-! ### Ascending lists -/

theorem mem_insertAsc {n m : Nat} {l : List Nat} : m ∈ insertAsc n l ↔ m = n ∨ m ∈ l := by
  induction l with
  | nil => simp [insertAsc]
  | cons a t ih =>
    simp only [insertAsc]
    split_ifs with h1 h2
    · simp
    · subst h2; simp
    · simp only [List.mem_cons, ih]; tauto

theorem mem_unionAsc (k : Nat) (a b : List Nat) : k ∈ unionAsc a b ↔ k ∈ a ∨ k ∈ b := by
  induction b generalizing a with
  | nil => simp [unionAsc]
  | cons n b ih =>
    have h := ih (insertAsc n a)
    simp only [unionAsc, List.foldl_cons] at h ⊢
    rw [h, mem_insertAsc, List.mem_cons]
    tauto

theorem insertByKey_perm (key : α → Nat) (x : α) (l : List α) : (insertByKey key x l).Perm (x :: l) := by
  induction l with
  | nil => exact List.Perm.refl _
  | cons y t ih =>
    simp only [insertByKey]
    split_ifs
    · exact List.Perm.refl _
    · exact (List.Perm.cons y ih).trans (List.Perm.swap x y t)

theorem insertByKey_length (key : α → Nat) (x : α) (l : List α) :
    (insertByKey key x l).length = l.length + 1 := by
  simpa using (insertByKey_perm key x l).length_eq

end Sys2Proof.Machine
end

