-- ==== Sys2Proof/Laws/Ops.lean ====
section
/-! SUPPORT. What the shared operations can do, said once: the evaluations at the end of an event, the notice queue, claims
and frees, replies and the queues of the shelf port. -/

namespace Sys2Proof.Machine

/-! ### Records -/

@[simp] theorem State.vol_setVol (s : State) (v : Nat) (x : Volume) : (s.setVol v x).vol v = x := by
  simp [State.vol]

theorem State.vol_setVol_ne (s : State) (v w : Nat) (x : Volume) (h : w ≠ v) : (s.setVol v x).vol w = s.vol w := by
  simp [State.vol, tget_tset_ne _ _ _ _ _ h]

@[simp] theorem State.acct_setAcct (s : State) (t : Nat) (a : Account) : (s.setAcct t a).acct t = a := by
  simp [State.acct]

theorem State.acct_setAcct_ne (s : State) (t o : Nat) (a : Account) (h : o ≠ t) :
    (s.setAcct t a).acct o = s.acct o := by
  simp [State.acct, tget_tset_ne _ _ _ _ _ h]

theorem tput_tput {α : Type} (i : Nat) (v w : α) (t : Table α) : tput i v (tput i w t) = tput i v t := by
  induction t with
  | nil => simp [tput]
  | cons p t ih =>
    obtain ⟨k, x⟩ := p
    simp only [tput]
    split_ifs with h1 h2
    · simp [tput]
    · simp [tput]
    · simp [tput, h1, h2, ih]

/-- A record written twice in one event is the record written last. -/
theorem tset_tset {α : Type} [DecidableEq α] (d : α) (i : Nat) (v w : α) (t : Table α) (hv : v ≠ d) (hw : w ≠ d) :
    tset d i v (tset d i w t) = tset d i v t := by
  simp [tset, hv, hw, tput_tput]

theorem tput_self {α : Type} (i : Nat) (v : α) (t : Table α) (h : tfind t i = some v) (hs : Table.sorted t = true) :
    tput i v t = t := by
  induction t with
  | nil => simp [tfind] at h
  | cons p t ih =>
    obtain ⟨k, x⟩ := p
    simp only [tfind] at h
    simp only [Table.sorted, Bool.and_eq_true] at hs
    simp only [tput]
    split_ifs at h with h1
    · subst h1
      simp only [Option.some.injEq] at h
      subst h
      simp
    · have hk : ∀ (t : Table α), Table.above k t = true → tfind t i = some v → k < i := by
        intro t
        induction t with
        | nil => simp [tfind]
        | cons q t ih2 =>
          obtain ⟨m, y⟩ := q
          simp only [Table.above, List.all_cons, Bool.and_eq_true, decide_eq_true_eq, tfind]
          intro h3 h4
          split_ifs at h4 with h5
          · omega
          · exact ih2 h3.2 h4
      have := hk t hs.1 h
      rw [if_neg (by omega), if_neg h1, ih h hs.2]

theorem tdel_none {α : Type} (i : Nat) (t : Table α) (h : tfind t i = none) : tdel i t = t := by
  induction t with
  | nil => rfl
  | cons p t ih =>
    obtain ⟨k, x⟩ := p
    simp only [tfind] at h
    split_ifs at h with h1
    simp [tdel, h1, ih h]

/-- Writing back the record read changes nothing in a table of canonical form. -/
theorem tset_self {α : Type} [DecidableEq α] (d : α) (i : Nat) (t : Table α) (h : Table.wf d t = true) :
    tset d i (tget d t i) t = t := by
  simp only [Table.wf, Bool.and_eq_true, List.all_eq_true, decide_eq_true_eq] at h
  cases hf : tfind t i with
  | none => simp [tset, tget, hf, tdel_none]
  | some v =>
    have hm : ∀ (t : Table α), tfind t i = some v → (i, v) ∈ t := by
      intro t
      induction t with
      | nil => simp [tfind]
      | cons p t ih =>
        obtain ⟨k, x⟩ := p
        simp only [tfind]
        split_ifs with h1
        · intro h2; simp_all
        · intro h2; exact List.mem_cons_of_mem _ (ih h2)
    have hv : v ≠ d := h.2 (i, v) (hm t hf)
    simp [tset, tget, hf, hv, tput_self i v t hf h.1]

theorem State.setVol_self (s : State) (v : Nat) (h : Table.wf Volume.absent s.vols = true) :
    s.setVol v (s.vol v) = s := by
  simp only [State.setVol, State.vol, tset_self _ _ _ h]

/-! ### The notice queue (R189) -/

theorem offer_notices_le (c : Control) (n : Notice) (h : c.notices.length ≤ Config.noticeQueueSize) :
    (offer c n).notices.length ≤ Config.noticeQueueSize := by
  unfold offer
  split_ifs with hc
  · simp only [List.length_append, List.length_cons, List.length_nil]
    omega
  · exact h

/-- Offering notices touches nothing of the control unit but the queue and the overflow mark. -/
theorem foldl_offer (l : List Notice) (c : Control) :
    l.foldl offer c = { c with notices := (l.foldl offer c).notices, lost := (l.foldl offer c).lost } := by
  induction l generalizing c with
  | nil => rfl
  | cons n l ih =>
    rw [List.foldl_cons, ih]
    unfold offer
    split_ifs <;> rfl

theorem foldl_offer_le (l : List Notice) (c : Control) (h : c.notices.length ≤ Config.noticeQueueSize) :
    (l.foldl offer c).notices.length ≤ Config.noticeQueueSize := by
  induction l generalizing c with
  | nil => exact h
  | cons n l ih => exact ih _ (offer_notices_le c n h)

/-! ### The end of an event does not read the links -/

/-- A choice between two results of a test passes the links through when both results do. -/
theorem ite_out {α : Type} {c : Prop} [Decidable c] {a b a' b' : State × α} {o : List Output}
    (ha : a' = ({ a.1 with out := o }, a.2)) (hb : b' = ({ b.1 with out := o }, b.2)) :
    (if c then a' else b') = ({ (if c then a else b).1 with out := o }, (if c then a else b).2) := by
  split_ifs <;> assumption

theorem evalPool_out (s : State) (o : List Output) :
    evalPool { s with out := o } = ({ (evalPool s).1 with out := o }, (evalPool s).2) :=
  ite_out rfl (ite_out (ite_out rfl rfl) (ite_out rfl rfl))

/-- The same for two states. -/
theorem ite_st_out {c : Prop} [Decidable c] {a b a' b' : State} {o : List Output}
    (ha : a' = { a with out := o }) (hb : b' = { b with out := o }) :
    (if c then a' else b') = { (if c then a else b) with out := o } := by
  split_ifs <;> assumption

theorem settleAccount_out (s : State) (t : Nat) (o : List Output) :
    settleAccount { s with out := o } t = { settleAccount s t with out := o } := by
  simp only [settleAccount, State.acct]
  split
  · rfl
  · exact ite_st_out rfl rfl

theorem reportAccount_out (s : State) (t : Nat) (o : List Output) :
    reportAccount { s with out := o } t = ({ (reportAccount s t).1 with out := o }, (reportAccount s t).2) :=
  ite_out rfl rfl

theorem evaluateAccount_out (s : State) (t : Nat) (o : List Output) :
    evaluateAccount { s with out := o } t = ({ (evaluateAccount s t).1 with out := o }, (evaluateAccount s t).2) :=
  ite_out rfl (by rw [settleAccount_out, reportAccount_out])

theorem evalReserve_out (s : State) (v : Nat) (o : List Output) :
    evalReserve { s with out := o } v = ({ (evalReserve s v).1 with out := o }, (evalReserve s v).2) :=
  ite_out rfl (ite_out (ite_out rfl rfl) (ite_out rfl rfl))

theorem evalEach_out {f : State → Nat → State × List Notice} (o : List Output)
    (hf : ∀ s k, f { s with out := o } k = ({ (f s k).1 with out := o }, (f s k).2)) (l : List Nat) (s : State) :
    evalEach f l { s with out := o } = ({ (evalEach f l s).1 with out := o }, (evalEach f l s).2) := by
  induction l generalizing s with
  | nil => rfl
  | cons k l ih => simp only [evalEach, hf, ih]

/-- The evaluations of an event are the same whatever has been put on the links. -/
theorem evaluate_out (e : Event) (o : List Output) :
    ({ e with st := { e.st with out := o } } : Event).evaluate = ({ e.evaluated with out := o }, e.evaluate.2) := by
  have hacc : ∀ (s : State) (k : Nat),
      (if k ∈ e.all.accts then evaluateAccount { s with out := o } k else reportAccount { s with out := o } k) =
        ({ (if k ∈ e.all.accts then evaluateAccount s k else reportAccount s k).1 with out := o },
          (if k ∈ e.all.accts then evaluateAccount s k else reportAccount s k).2) := by
    intro s k
    split_ifs
    · exact evaluateAccount_out s k o
    · exact reportAccount_out s k o
  have hall : ({ e with st := { e.st with out := o } } : Event).all = e.all := rfl
  unfold Event.evaluated Event.evaluate Causes.evalAccounts
  rw [hall]
  dsimp only
  cases e.all.pool with
  | false =>
    simp only [Bool.false_eq_true, if_false]
    rw [evalEach_out o hacc, evalEach_out o fun s k => evalReserve_out s k o]
  | true =>
    simp only [if_true, evalPool_out]
    rw [evalEach_out o hacc, evalEach_out o fun s k => evalReserve_out s k o]

/-- What the frames of an event change of its end: they are completed, and a FETCH among them takes its notices. -/
theorem closeEvent_out (e : Event) (o : List Output) :
    closeEvent { e with st := { e.st with out := o } } =
      let r := completeReplies e.evaluated.frontUp e.evaluate.2 e.evaluated.ctl {} e.parts o
      { closeEvent e with ctl := e.late.foldl offer r.1, out := e.sent ++ r.2 } := by
  have h := evaluate_out e o
  have h1 : ({ e with st := { e.st with out := o } } : Event).evaluated = { e.evaluated with out := o } :=
    congrArg Prod.fst h
  simp only [closeEvent, h, h1]
  rfl

/-! ### What the evaluations can change -/

/-- The evaluation of the pool changes the watermark state alone (R5). -/
theorem evalPool_frame (s : State) : ∃ b, (evalPool s).1 = { s with poolLow := b } := by
  unfold evalPool
  split_ifs
  exacts [⟨s.poolLow, rfl⟩, ⟨false, rfl⟩, ⟨s.poolLow, rfl⟩, ⟨true, rfl⟩, ⟨s.poolLow, rfl⟩]

/-- The reserve notice test changes the volume's reserve-over flag alone (R84). -/
theorem evalReserve_frame (s : State) (v : Nat) :
    (evalReserve s v).1 = s ∨ ∃ b, (evalReserve s v).1 = s.setVol v { s.vol v with reserveOver := b } := by
  unfold evalReserve
  dsimp only
  split_ifs
  exacts [.inl rfl, .inr ⟨false, rfl⟩, .inl rfl, .inr ⟨true, rfl⟩, .inl rfl]

/-- Settling an account changes its expiry and its queued flag, and the grace expiry queue (R59, R62, R66). -/
theorem settleAccount_frame (s : State) (t : Nat) :
    ∃ x b q, settleAccount s t =
      { s.setAcct t { s.acct t with expiry := x, queued := b } with expiryQueue := q } := by
  unfold settleAccount
  dsimp only
  split
  · exact ⟨none, false, _, rfl⟩
  · split_ifs
    · exact ⟨_, true, _, rfl⟩
    · exact ⟨_, (s.acct t).queued, s.expiryQueue, rfl⟩

/-- An evaluation changes the account records and the grace expiry queue, and nothing else. -/
theorem evaluateAccount_frame (s : State) (t : Nat) :
    ∃ as q, (evaluateAccount s t).1 = { s with accounts := as, expiryQueue := q } := by
  obtain ⟨x, b, q, h⟩ := settleAccount_frame s t
  unfold evaluateAccount reportAccount
  rw [h]
  split_ifs
  · exact ⟨s.accounts, s.expiryQueue, rfl⟩
  all_goals exact ⟨_, q, rfl⟩

/-- What each test of a list keeps, all of them keep. -/
theorem evalEach_keeps {f : State → Nat → State × List Notice} {P : State → Prop}
    (hf : ∀ s k, P s → P (f s k).1) (l : List Nat) (s : State) (h : P s) : P (evalEach f l s).1 := by
  induction l generalizing s with
  | nil => exact h
  | cons k l ih => exact ih _ (hf s k h)

/-- The evaluations at the end of an event change the watermark state, the reserve-over flags, the account records and
the grace expiry queue, and nothing else of the state. -/
theorem evaluate_frame (e : Event) : ∃ b vs as q, e.evaluated =
    { e.st with poolLow := b, vols := vs, accounts := as, expiryQueue := q } := by
  let P : State → Prop := fun s =>
    ∃ b vs as q, s = { e.st with poolLow := b, vols := vs, accounts := as, expiryQueue := q }
  have hp : P (if e.all.pool then evalPool e.st else (e.st, [])).1 := by
    split_ifs
    · obtain ⟨b, h⟩ := evalPool_frame e.st
      exact ⟨b, _, _, _, h⟩
    · exact ⟨_, _, _, _, rfl⟩
  have hacct : ∀ s k, P s → P (if k ∈ e.all.accts then evaluateAccount s k else reportAccount s k).1 := by
    rintro s k ⟨b, vs, as, q, rfl⟩
    split_ifs
    · obtain ⟨as', q', h⟩ := evaluateAccount_frame _ k
      exact ⟨b, vs, as', q', by rw [h]⟩
    · unfold reportAccount
      split_ifs <;> exact ⟨b, vs, _, q, rfl⟩
  have hres : ∀ s k, P s → P (evalReserve s k).1 := by
    rintro s k ⟨b, vs, as, q, rfl⟩
    rcases evalReserve_frame { e.st with poolLow := b, vols := vs, accounts := as, expiryQueue := q } k with h | ⟨c, h⟩
    · exact ⟨b, vs, as, q, h⟩
    · exact ⟨b, _, as, q, by rw [h]; rfl⟩
  exact evalEach_keeps hres e.all.reserves _ (evalEach_keeps hacct _ _ hp)

/-- Completing the replies of an event touches nothing of the control unit but the notice queue and the overflow mark. -/
theorem completeReplies_ctl (up : Bool) (v : Verdicts) (c : Control) (due : Causes) (ps : List Causes) (l : List Output) :
    ∃ ns b, (completeReplies up v c due ps l).1 = { c with notices := ns, lost := b } := by
  induction l generalizing c due ps with
  | nil => exact ⟨_, _, foldl_offer _ c⟩
  | cons o l ih =>
    cases o with
    | control p q number tag code result =>
      simp only [completeReplies]
      split_ifs with h
      · obtain ⟨ns, b, hi⟩ := ih (completeReply ((v.due (due.join ((ps.headD {}).lastBefore ps.tail))).foldl offer c)
          number tag code result).1 {} ps.tail
        refine ⟨ns, b, ?_⟩
        rw [hi, completeReply, h, if_pos rfl, Control.fetched, foldl_offer]
      · exact ih c _ ps.tail
    | _ => exact ih c due ps

/-! ### The reply at the end of an event -/

/-- The notice queue as the work of an event leaves it, before its control reply. -/
def Event.offered (e : Event) : Control := (e.evaluate.2.due e.causes).foldl offer e.evaluated.ctl

@[simp] theorem lastBefore_empty (c : Causes) : c.lastBefore [{}] = c := by
  simp [Causes.lastBefore]

@[simp] theorem join_empty (c : Causes) : c.join {} = c := by
  simp [Causes.join, unionAsc]

/-- A part that follows one which calls for nothing queues its own notices. -/
@[simp] theorem due_empty_join (v : Verdicts) (c : Causes) : v.due (Causes.join {} c) = v.due c := by
  simp only [Verdicts.due, Causes.join, Bool.false_or, List.nil_append]
  have h : ∀ a b : List Nat, (∀ k, k ∈ a ↔ k ∈ b) →
      (fun n : Notice => a.contains n.subject) = fun n => b.contains n.subject := by
    intro a b hab
    funext n
    rw [Bool.eq_iff_iff]
    simp [hab]
  rw [h (unionAsc [] c.accts ++ unionAsc [] c.reports) (c.accts ++ c.reports) (by simp [mem_unionAsc]),
    h (unionAsc [] c.reserves) c.reserves (by simp [mem_unionAsc])]

/-- Causes that name no record and no notice queue nothing. -/
@[simp] theorem due_empty (v : Verdicts) : v.due {} = [] := by
  simp [Verdicts.due]

/-- The state after an event whose decided control reply goes out at its end, the frames before it being none of the
control unit's: the reply, completed, is the last of them. -/
theorem closeEvent_answer {e : Event} {a : Answer} (ha : e.todo.answer = some a) (hu : e.st.frontUp = true)
    (hd : e.done = []) (ho : ∀ o ∈ e.st.out, o.isPlain = true) :
    closeEvent e.sendAnswer =
      let r := completeReply e.offered a.number a.tag a.code
        (match a.job with
          | some j => [((tfind e.st.jobs j).map Job.stateValue).getD 0]
          | none => a.result)
      { closeEvent e with ctl := e.late.foldl offer r.1, out := e.sent ++ (e.st.out ++ [r.2]) } := by
  obtain ⟨b, vs, as, q, hs⟩ := evaluate_frame e
  have hup : e.evaluated.frontUp = true := by rw [hs]; exact hu
  have hall : (e.causes :: []).foldr Causes.join {} = e.causes := join_empty _
  have hall' : e.all = e.causes := by simp [Event.all, hd]
  simp only [Event.sendAnswer, ha]
  let f : Event := { e with
    todo := {}, poolTouched := false, accts := [], reports := [], reserves := [], acctNotices := [],
    overflowNotices := [], notices := [], done := [e.causes] }
  have hf : f.evaluate = e.evaluate := by
    have h : f.all = e.all := hall.trans hall'.symm
    unfold Event.evaluate
    rw [h]
  have hfe : f.evaluated = e.evaluated := congrArg Prod.fst hf
  have he : emitControl a.number a.tag a.code
      (match a.job with
        | some j => [((tfind e.st.jobs j).map Job.stateValue).getD 0]
        | none => a.result) { e with todo := {} } =
      { f with st := { f.st with out := e.st.out ++ [.control false false a.number a.tag a.code
        (match a.job with
          | some j => [((tfind e.st.jobs j).map Job.stateValue).getD 0]
          | none => a.result)] } } := by
    simp only [f, emitControl, emit, Event.upd, hd, List.nil_append]
    rfl
  refine (congrArg closeEvent he).trans ((closeEvent_out f _).trans ?_)
  have hp : f.parts = [e.causes, {}] := rfl
  have hc : closeEvent f = { closeEvent e with ctl := (closeEvent f).ctl, out := (closeEvent f).out } := by
    simp only [closeEvent, hfe]
  rw [hc, hp, hfe, hf, hup, completeReplies_append _ _ _ _ _ _ _ ho]
  simp only [completeReplies, List.headD_cons, List.tail_cons, lastBefore_empty, List.foldl_cons, List.foldl_nil,
    join_empty, due_empty_join, due_empty, if_true]
  simp only [Event.offered]
  split_ifs with h
  · rfl
  · simp only [completeReply, h]
    rfl

theorem closeEvent_noAnswer {e : Event} (ha : e.todo.answer = none) : closeEvent e.sendAnswer = closeEvent e := by
  simp only [Event.sendAnswer, ha]
  rfl

end Sys2Proof.Machine
end

