-- ==== Sys2Proof/Laws/PerInstr.lean ====
section
/-! SUPPORT. The family `Operands`: a row named for a control request carries exactly the operands of that request
and its tag, so it is well-formed when the request's frame can carry them; and a front request's frame is no
shorter than its header. -/

namespace Sys2Proof.Laws.Operands

open Sys2Proof Sys2Proof.Machine

/-- A control row's operands are its request's; a front row's frame holds its header (12.2, 12.3). -/
def Statement (i : Instr) : Prop :=
  (∀ (tag : Nat) (r : Request), r.row tag = some i → i.wf = (u32 tag && r.wf)) ∧
    ∀ f, encodeFrontFrame i = some f → 16 ≤ f.length

theorem row_wf (i : Instr) (tag : Nat) (r : Request) (h : r.row tag = some i) : i.wf = (u32 tag && r.wf) := by
  cases r <;> simp only [Request.row, Option.some.injEq, reduceCtorEq] at h <;> subst h <;>
    simp only [Instr.wf, Request.wf, Bool.and_true, Bool.and_assoc]

theorem frontHeader_length (v k w t b n o : Nat) : (frontHeader v k w t b n o).length = 16 := by
  simp [frontHeader, be]

theorem le_padTo (l : Nat) (f : List Byte) : f.length ≤ (padTo l f).length := by
  simp [padTo]

theorem frame_header (i : Instr) (f : List Byte) (h : encodeFrontFrame i = some f) : 16 ≤ f.length := by
  cases i <;> simp only [encodeFrontFrame, Option.some.injEq, reduceCtorEq] at h <;> subst h <;>
    refine le_trans ?_ (le_padTo _ _) <;> simp [frontHeader_length]

theorem statement (i : Instr) : Statement i := ⟨row_wf i, frame_header i⟩

theorem powerOn : Statement .powerOn := statement _
theorem mirrorRecordRecovery : Statement .mirrorRecordRecovery := statement _
theorem pendingReturnRecovery : Statement .pendingReturnRecovery := statement _
theorem restoreJobRecovery : Statement .restoreJobRecovery := statement _
theorem runRecovery : Statement .runRecovery := statement _
theorem expiryQueueRebuild : Statement .expiryQueueRebuild := statement _
theorem frontLinkDown : Statement .frontLinkDown := statement _
theorem frontLinkUp : Statement .frontLinkUp := statement _
theorem frontFrameBadAddress (addr kind tag : Nat) :
    Statement (.frontFrameBadAddress addr kind tag) := statement _
theorem shortFrameDiscard (addr len : Nat) :
    Statement (.shortFrameDiscard addr len) := statement _
theorem read (tag vol view start count owner len : Nat) :
    Statement (.read tag vol view start count owner len) := statement _
theorem write (tag vol start count owner len : Nat) (data : List Block) :
    Statement (.write tag vol start count owner len data) := statement _
theorem discard (tag vol start count owner len : Nat) :
    Statement (.discard tag vol start count owner len) := statement _
theorem drainTimeout (vol : Nat) :
    Statement (.drainTimeout vol) := statement _
theorem controlRequestArrival (frame : List Byte) :
    Statement (.controlRequestArrival frame) := statement _
theorem format (tag k pool floor low clear : Nat) :
    Statement (.format tag k pool floor low clear) := statement _
theorem formatFillStep : Statement .formatFillStep := statement _
theorem configSet (tag : Nat) (patch : ConfigPatch) :
    Statement (.configSet tag patch) := statement _
theorem configRead (tag : Nat) :
    Statement (.configRead tag) := statement _
theorem timeSet (tag time : Nat) :
    Statement (.timeSet tag time) := statement _
theorem go (tag : Nat) :
    Statement (.go tag) := statement _
theorem reset (tag : Nat) :
    Statement (.reset tag) := statement _
theorem status (tag : Nat) :
    Statement (.status tag) := statement _
theorem volumeCreate (tag vol size reserve : Nat) (offsite : Bool) (cap : Nat) :
    Statement (.volumeCreate tag vol size reserve offsite cap) := statement _
theorem volumeDelete (tag vol : Nat) :
    Statement (.volumeDelete tag vol) := statement _
theorem volumeDeleteWalkStep (vol : Nat) :
    Statement (.volumeDeleteWalkStep vol) := statement _
theorem volumeRead (tag vol : Nat) :
    Statement (.volumeRead tag vol) := statement _
theorem freeze (tag vol : Nat) :
    Statement (.freeze tag vol) := statement _
theorem thaw (tag vol : Nat) :
    Statement (.thaw tag vol) := statement _
theorem setFullScan (tag vol : Nat) :
    Statement (.setFullScan tag vol) := statement _
theorem accountSet (tag owner soft hard : Nat) :
    Statement (.accountSet tag owner soft hard) := statement _
theorem accountRead (tag owner : Nat) :
    Statement (.accountRead tag owner) := statement _
theorem accountReadNext (tag : Nat) :
    Statement (.accountReadNext tag) := statement _
theorem snapshotCreate (tag vol kind label : Nat) (series : Option Nat) :
    Statement (.snapshotCreate tag vol kind label series) := statement _
theorem snapshotDelete (tag vol slot : Nat) :
    Statement (.snapshotDelete tag vol slot) := statement _
theorem snapshotHold (tag vol slot : Nat) :
    Statement (.snapshotHold tag vol slot) := statement _
theorem snapshotRelease (tag vol slot : Nat) :
    Statement (.snapshotRelease tag vol slot) := statement _
theorem snapshotList (tag vol : Nat) :
    Statement (.snapshotList tag vol) := statement _
theorem mergeWalkStep (vol : Nat) :
    Statement (.mergeWalkStep vol) := statement _
theorem restoreStart (tag srcVol srcSlot dstVol owner : Nat) (override : Bool) (ranges : List Range) :
    Statement (.restoreStart tag srcVol srcSlot dstVol owner override ranges) := statement _
theorem restoreSuspend (tag job : Nat) :
    Statement (.restoreSuspend tag job) := statement _
theorem restoreResume (tag job : Nat) :
    Statement (.restoreResume tag job) := statement _
theorem restoreAbort (tag job : Nat) :
    Statement (.restoreAbort tag job) := statement _
theorem restoreStatus (tag job : Nat) :
    Statement (.restoreStatus tag job) := statement _
theorem restoreClear (tag job : Nat) :
    Statement (.restoreClear tag job) := statement _
theorem runPlanSet (tag : Nat) (vols : List Nat) :
    Statement (.runPlanSet tag vols) := statement _
theorem runStart (tag mode minute : Nat) :
    Statement (.runStart tag mode minute) := statement _
theorem runStop (tag : Nat) :
    Statement (.runStop tag) := statement _
theorem runStatus (tag : Nat) :
    Statement (.runStatus tag) := statement _
theorem plan (tag minute : Nat) :
    Statement (.plan tag minute) := statement _
theorem fullScanStep : Statement .fullScanStep := statement _
theorem hello (site : Nat) :
    Statement (.hello site) := statement _
theorem ack (n runId : Nat) :
    Statement (.ack n runId) := statement _
theorem nak (n runId : Nat) :
    Statement (.nak n runId) := statement _
theorem hold : Statement .hold := statement _
theorem resume : Statement .resume := statement _
theorem offsiteFrameIgnored (frame : List Byte) :
    Statement (.offsiteFrameIgnored frame) := statement _
theorem offsiteCarrierLoss : Statement .offsiteCarrierLoss := statement _
theorem ackTimerExpiry : Statement .ackTimerExpiry := statement _
theorem holdTimerExpiry : Statement .holdTimerExpiry := statement _
theorem pacingTimeReached (instant : Nat) :
    Statement (.pacingTimeReached instant) := statement _
theorem shelfReply (slot epoch use : Nat) (isWrite : Bool) (result : ShelfResult) :
    Statement (.shelfReply slot epoch use isWrite result) := statement _
theorem shelfCommandTimeout (slot : Nat) :
    Statement (.shelfCommandTimeout slot) := statement _
theorem shelfLinkDown : Statement .shelfLinkDown := statement _
theorem shelfLinkUp : Statement .shelfLinkUp := statement _
theorem clockAdvance : Statement .clockAdvance := statement _
theorem graceExpiryFire : Statement .graceExpiryFire := statement _
theorem scheduleWrite (tag bank index : Nat) (entry : SchedEntry) :
    Statement (.scheduleWrite tag bank index entry) := statement _
theorem scheduleWriteNext (tag : Nat) (entry : SchedEntry) :
    Statement (.scheduleWriteNext tag entry) := statement _
theorem scheduleRead (tag bank index : Nat) :
    Statement (.scheduleRead tag bank index) := statement _
theorem scheduleSwap (tag : Nat) :
    Statement (.scheduleSwap tag) := statement _
theorem scheduleCancel (tag : Nat) :
    Statement (.scheduleCancel tag) := statement _
theorem noticeFetch (tag : Nat) :
    Statement (.noticeFetch tag) := statement _
theorem malformedRequestKind (vol kind tag : Nat) :
    Statement (.malformedRequestKind vol kind tag) := statement _

end Sys2Proof.Laws.Operands
end

