-- ==== Sys2Proof/Laws/Pool.lean ====
section
/-! SUPPORT. The operations on the pool, the charges, the maps, the shelf queues and the busy set: what each leaves,
once for each. -/

namespace Sys2Proof.Machine

/-! ### Claims and frees (R4) -/

/-- A claim takes the PCNs at the head, in order, and counts them outstanding. -/
theorem claimPcns_st (n : Nat) (e : Event) :
    (claimPcns n e).1 = e.st.free.take n ∧
      (claimPcns n e).2.st = { e.st with free := e.st.free.drop n, claims := e.st.claims + n } := by
  unfold claimPcns
  split_ifs with h
  · subst h; simp
  · exact ⟨rfl, rfl⟩

/-- A free appends the PCNs to the tail. -/
theorem freePcns_st (ps : List Nat) (e : Event) : (freePcns ps e).st = { e.st with free := e.st.free ++ ps } := by
  unfold freePcns
  split_ifs with h
  · subst h; simp
  · rfl

/-- Claims returned go to the tail, and are outstanding no longer. -/
theorem returnClaims_st (ps : List Nat) (e : Event) :
    (returnClaims ps e).st = { e.st with free := e.st.free ++ ps, claims := e.st.claims - ps.length } := by
  rw [returnClaims, freePcns_st]
  rfl

@[simp] theorem commitClaims_st (n : Nat) (e : Event) :
    (commitClaims n e).st = { e.st with claims := e.st.claims - n } := rfl

/-! ### Charges -/

/-- Moving charges changes the accounts and nothing else of the state. -/
theorem applyCharges_frame (sign : Int) (l : List (Nat × Int)) (e : Event) :
    (applyCharges sign l e).st = { e.st with accounts := (applyCharges sign l e).st.accounts } := by
  induction l generalizing e with
  | nil => rfl
  | cons p l ih =>
    obtain ⟨x, d⟩ := p
    rw [applyCharges, ih]
    split_ifs
    · rfl
    · simp only [Event.touchAcct]
      split_ifs <;> rfl

/-- An account the changes do not name stands. -/
theorem applyCharges_other (sign : Int) (l : List (Nat × Int)) (e : Event) (o : Nat)
    (h : o ∉ l.map Prod.fst) : (applyCharges sign l e).st.acct o = e.st.acct o := by
  induction l generalizing e with
  | nil => rfl
  | cons p l ih =>
    obtain ⟨x, d⟩ := p
    simp only [List.map_cons, List.mem_cons, not_or] at h
    rw [applyCharges, ih _ h.2]
    split_ifs
    · rfl
    · simp only [Event.touchAcct]
      have key : (e.updAcct x fun a => a.addCharge (sign * d)).st.acct o = e.st.acct o :=
        State.acct_setAcct_ne e.st x o _ h.1
      split_ifs <;> exact key

/-- An account that the changes name once moves by its change. -/
theorem applyCharges_named (sign : Int) (l : List (Nat × Int)) (e : Event) (hn : (l.map Prod.fst).Nodup)
    {p : Nat × Int} (hp : p ∈ l) :
    (applyCharges sign l e).st.acct p.1 = (e.st.acct p.1).addCharge (sign * p.2) := by
  induction l generalizing e with
  | nil => simp at hp
  | cons q l ih =>
    obtain ⟨x, d⟩ := q
    simp only [List.map_cons, List.nodup_cons] at hn
    rw [applyCharges]
    rcases List.mem_cons.mp hp with rfl | hp'
    · rw [applyCharges_other _ _ _ _ hn.1]
      split_ifs with hd
      · subst hd
        simp [Account.addCharge]
      · have key : (e.updAcct x fun a => a.addCharge (sign * d)).st.acct x = (e.st.acct x).addCharge (sign * d) :=
          State.acct_setAcct e.st x _
        simp only [Event.touchAcct]
        split_ifs <;> exact key
    · have hne : p.1 ≠ x := fun h => hn.1 (h ▸ List.mem_map_of_mem hp')
      rw [ih _ hn.2 hp']
      split_ifs
      · rfl
      · have key : (e.updAcct x fun a => a.addCharge (sign * d)).st.acct p.1 = e.st.acct p.1 :=
          State.acct_setAcct_ne e.st x p.1 _ hne
        simp only [Event.touchAcct]
        split_ifs <;> rw [← key]

/-! ### Canonical form -/

theorem wf_updVol {e : Event} (v : Nat) (f : Volume → Volume) (h : Table.wf Volume.absent e.st.vols = true) :
    Table.wf Volume.absent (e.updVol v f).st.vols = true := wf_tset v _ h

theorem wf_updAcct {e : Event} (t : Nat) (f : Account → Account) (h : Table.wf Account.fresh e.st.accounts = true) :
    Table.wf Account.fresh (e.updAcct t f).st.accounts = true := wf_tset t _ h

theorem wf_applyCharges (sign : Int) (l : List (Nat × Int)) {e : Event}
    (h : Table.wf Account.fresh e.st.accounts = true) :
    Table.wf Account.fresh (applyCharges sign l e).st.accounts = true := by
  induction l generalizing e with
  | nil => exact h
  | cons p l ih =>
    obtain ⟨x, d⟩ := p
    rw [applyCharges]
    apply ih
    split_ifs
    · exact h
    · simp only [Event.touchAcct]
      have key := wf_updAcct x (fun a => a.addCharge (sign * d)) h
      split_ifs <;> exact key

/-- Giving slots another owner keeps their numbers. -/
theorem sorted_map_snd {α β : Type} (f : Nat × α → β) (t : Table α) :
    Table.sorted (t.map fun p => (p.1, f p)) = Table.sorted t := by
  induction t with
  | nil => rfl
  | cons p t ih =>
    simp only [List.map_cons, Table.sorted, ih]
    congr 1
    simp [Table.above, List.all_map, Function.comp_def]

/-! ### The links (R39) -/

/-- A reply handed to a link that is down is dropped. -/
theorem emitFront_down (o : Output) {e : Event} (h : e.st.frontUp = false) : emitFront o e = e := by
  simp [emitFront, h]

theorem emitFront_up (o : Output) {e : Event} (h : e.st.frontUp = true) :
    (emitFront o e).st = { e.st with out := e.st.out ++ [o] } := by
  rw [emitFront, if_pos h]
  rfl

/-! ### Follow-up records (R174) -/

/-- The number that a new record takes is in range and no other record's, while the list has room. -/
theorem freeRecord_fresh (d : Schedule) (h : d.followUps.length < Config.followUps) :
    d.freeRecord < Config.followUps ∧ ∀ f ∈ d.followUps, f.number ≠ d.freeRecord := by
  unfold Schedule.freeRecord
  cases hf : (List.range Config.followUps).find? fun n => !d.followUps.any fun f => f.number == n with
  | none =>
    have hsub : List.range Config.followUps ⊆ d.followUps.map FollowUp.number := by
      intro n hn
      have := List.find?_eq_none.mp hf n hn
      simpa using this
    have hlen := ((List.nodup_range).subperm hsub).length_le
    simp only [List.length_range, List.length_map] at hlen
    omega
  | some n =>
    refine ⟨List.mem_range.mp (List.mem_of_find?_eq_some hf), ?_⟩
    intro f hm
    have := List.find?_some hf
    simp only [Bool.not_eq_true', List.any_eq_false, beq_iff_eq] at this
    exact this f hm

/-- A freeze that carries no record takes none, and one that carries a record takes the first of its number. -/
theorem takeFollowUp_st (record : Option Nat) (e : Event) :
    (takeFollowUp record e).2.st = match record with
      | none => e.st
      | some n => { e.st with
          sched := { e.st.sched with followUps := e.st.sched.followUps.eraseP fun f => f.number == n } } := by
  cases record <;> rfl

end Sys2Proof.Machine
end

