-- ==== Sys2Proof/Tests/Slice0.lean ====
section
/-! SUPPORT. The model's own tests: the operands a command may not carry, frames written out from Chapter 12, one step
of the manual's worked examples at a time, and for every statement a state and operands that meet its hypotheses. -/

open Sys2Proof Sys2Proof.Machine

namespace Sys2Proof.Tests

/-! ### States -/

/-- The state a command leaves. -/
def after (c : Instr) (s : State) : State :=
  match exec c s with
  | .next t => t
  | _ => s

def snap1 : Snap :=
  { kind := .user, series := none, gen := 1, label := 9, created := 0, held := false, state := .ready, retained := [],
    inUse := 0, freed := 0 }

def mapped (lcn pcn born owner : Nat) : Nat × MapEntry := (lcn, { form := .mapped pcn born owner, stamp := none })

/-- A volume of 4 chunks, two of them mapped, with one snapshot of generation 1. -/
def vol0 : Volume :=
  { Volume.absent with
    state := .normal, size := 4, map := [mapped 1 18 1 7, mapped 2 19 2 7], gen := 2, snaps := [(1, snap1)],
    reserveLimit := noLimit, offsite := true, cap := 1024, fullScan := true }

/-- A part in RUNNING with a pool of 20 chunks of one block, volume 0, and the clock at 100. -/
def base : State :=
  { State.reset with
    format := { cond := .valid, k := 0, pool := 20, floor := 1, low := 2, clear := 4 },
    free := List.range 18, vols := [(0, vol0)], accounts := [(7, { Account.fresh with charge := 2 })],
    sched := { State.reset.sched with clockSet := true, clock := 100 },
    ctl := { State.reset.ctl with part := .running, notices := [] } }

def volIs (x : Volume) : State := { base with vols := [(0, x)] }

def inPart (p : PartState) (n : Nat) (s : State) : State := { s with ctl := { s.ctl with part := p, recStep := n } }

def runIs (r : Run) : State := { base with run := r, plan := [0] }

def portIs (p : Port) : State := { base with port := p }

def shelfIs (p : Shelf) : State := { base with shelf := p }

/-- A job of one range, one chunk from slot 1 of volume 0 to its chunk 3. -/
def job0 (state : JobState) : Job :=
  { state := state, srcVol := 0, srcSlot := 1, srcGen := 1, dstVol := 0, owner := 7, override := false,
    ranges := [{ src := 1, count := 1, dst := 3 }], total := 1, pre := some (2, 1), rangeIdx := 0, offset := 0,
    remaining := 1, copied := 0, cleared := 0, skipped := 0, unchanged := 0, waiting := false, copy := none,
    suspendReq := false, failedPcn := none }

def jobIs (j : Job) : State := { base with jobs := [(0, j)] }

def frameOf (kind : FrameKind) (seq : Nat) : Frame :=
  { kind := kind, flags := 0, vol := 0, seq := seq, runId := 1, lcn := 0, count := 0, crc := 0#32, gen := 0, a := 0,
    b := 0, payload := [] }

/-- The port UP at the partner's site, with the sequence of run 1. -/
def port1 : Port := { Port.atReset 0 with up := true, site := some 0, seqRun := some 1 }

def activeRun : Run := { Run.fresh with state := .active, runId := 1, deadline := 1000 }

/-! ### What a command may not carry: one term for each check -/

theorem test_wf_refuses_wide_words :
    ([.frontFrameBadAddress 256 0 0, .frontFrameBadAddress 64 256 0, .frontFrameBadAddress 64 0 4294967296,
      .shortFrameDiscard 256 0, .read 4294967296 0 128 0 1 0 16, .read 0 0 256 0 1 0 16, .read 0 0 128 4294967296 1 0 16,
      .read 0 0 128 0 65536 0 16, .read 0 0 128 0 1 65536 16, .write 4294967296 0 0 0 0 16 [],
      .write 0 0 4294967296 0 0 16 [], .write 0 0 0 65536 0 16 [], .write 0 0 0 0 65536 16 [],
      .discard 4294967296 0 0 1 0 16, .discard 0 0 4294967296 1 0 16, .discard 0 0 0 65536 0 16,
      .discard 0 0 0 1 65536 16, .hello 4294967296, .ack 4294967296 0, .ack 0 4294967296, .nak 4294967296 0,
      .nak 0 4294967296, .shelfReply 0 65536 0 true (.error 1), .shelfReply 0 0 65536 true (.error 1),
      .malformedRequestKind 0 256 0, .malformedRequestKind 0 0 4294967296] : List Instr).all (fun i => !i.wf) = true := by
  decide

theorem test_wf_refuses_addresses_and_lengths :
    ([.frontFrameBadAddress 63 0 0, .frontFrameBadAddress 128 0 0, .shortFrameDiscard 128 12, .shortFrameDiscard 3 16,
      .read 0 64 128 0 1 0 16, .read 0 0 128 0 1 0 15, .write 0 64 0 0 0 16 [], .write 0 0 0 0 0 15 [],
      .write 0 0 0 1 0 4112 [], .discard 0 64 0 1 0 16, .discard 0 0 0 1 0 15, .drainTimeout 64,
      .controlRequestArrival [128#8], .controlRequestArrival (List.replicate 12 0#8), .volumeDeleteWalkStep 64,
      .mergeWalkStep 64, .shelfReply 64 0 0 true (.error 1), .shelfReply 0 0 0 true (.error 0),
      .shelfReply 0 0 0 true (.error 240), .shelfReply 0 0 0 false (.done [] 4096), .shelfCommandTimeout 64,
      .malformedRequestKind 64 0 0, .malformedRequestKind 0 1 0, .malformedRequestKind 0 3 0] : List Instr).all
      (fun i => !i.wf) = true := by
  decide

theorem test_wf_refuses_wide_blocks :
    (Instr.write 0 0 0 1 0 4112 [2 ^ 32768]).wf = false ∧ (Instr.shelfReply 0 0 0 false (.done [2 ^ 32768] 0)).wf = false := by
  decide +kernel

theorem test_wf_refuses_wide_parameters :
    ([.format 4294967296 0 0 0 0, .format 0 4294967296 0 0 0, .format 0 0 4294967296 0 0, .format 0 0 0 4294967296 0,
      .format 0 0 0 0 4294967296, .timeSet 4294967296, .volumeCreate 4294967296 0 0 true 0,
      .volumeCreate 0 4294967296 0 true 0, .volumeCreate 0 0 4294967296 true 0, .volumeCreate 0 0 0 true 4294967296,
      .volumeDelete 4294967296, .volumeRead 4294967296, .freeze 4294967296, .thaw 4294967296, .setFullScan 4294967296,
      .accountSet 4294967296 0 0, .accountSet 0 4294967296 0, .accountSet 0 0 4294967296, .accountRead 4294967296,
      .snapshotCreate 4294967296 2 0 none, .snapshotCreate 0 4294967296 0 none, .snapshotCreate 0 2 4294967296 none,
      .snapshotCreate 0 3 0 (some 4294967296), .snapshotDelete 4294967296 0, .snapshotDelete 0 4294967296,
      .snapshotHold 4294967296 0, .snapshotHold 0 4294967296, .snapshotRelease 4294967296 0,
      .snapshotRelease 0 4294967296, .snapshotList 4294967296] : List Request).all
      (fun r => !r.wf && (r.row 0).all fun i => !i.wf) = true := by
  decide

theorem test_wf_refuses_wide_job_run_and_schedule_parameters :
    ([.restoreStart 4294967296 0 0 0 false [], .restoreStart 0 4294967296 0 0 false [],
      .restoreStart 0 0 4294967296 0 false [], .restoreStart 0 0 0 4294967296 false [],
      .restoreStart 0 0 0 0 false [⟨4294967296, 0, 0⟩], .restoreStart 0 0 0 0 false [⟨0, 4294967296, 0⟩],
      .restoreStart 0 0 0 0 false [⟨0, 0, 4294967296⟩], .restoreSuspend 4294967296, .restoreResume 4294967296,
      .restoreAbort 4294967296, .restoreStatus 4294967296, .restoreClear 4294967296, .runPlanSet [4294967296],
      .runStart 4294967296 0, .runStart 0 4294967296, .plan 4294967296, .scheduleWrite 4294967296 0 unusedEntry,
      .scheduleWrite 0 4294967296 unusedEntry, .scheduleRead 4294967296 0, .scheduleRead 0 4294967296,
      .scheduleWriteNext { unusedEntry with action := 256 }, .scheduleWriteNext { unusedEntry with minute := 65536 },
      .scheduleWriteNext { unusedEntry with weekdays := 256 }, .scheduleWriteNext { unusedEntry with volume := 256 },
      .scheduleWriteNext { unusedEntry with snapOpt := 256 }, .scheduleWriteNext { unusedEntry with param := 256 },
      .scheduleWriteNext { unusedEntry with keep := 256 }, .scheduleWriteNext { unusedEntry with deadline := 65536 },
      .scheduleWriteNext { unusedEntry with label := 4294967296 }] : List Request).all
      (fun r => !r.wf && (r.row 0).all fun i => !i.wf) = true ∧ (Request.malformed 65536).wf = false := by
  decide

theorem test_wf_refuses_wide_configuration_fields :
    ([{ floor := some 4294967296 }, { low := some 4294967296 }, { clear := some 4294967296 },
      { grace := some 4294967296 }, { band := some 4294967296 }, { drainTimeout := some 4294967296 },
      { shelfTimeout := some 4294967296 }, { yieldHigh := some 4294967296 }, { yieldLow := some 4294967296 },
      { partnerSite := some 4294967296 }, { window := some 4294967296 }, { ackTimeout := some 4294967296 },
      { retryLimit := some 4294967296 }, { nightRate := some 4294967296 }, { dayRate := some 4294967296 },
      { rateClass := some 4294967296 }] : List ConfigPatch).all (fun p => !p.wf && !(Instr.configSet 0 p).wf) = true := by
  decide

/-- Every control row refuses a tag wider than its four bytes. -/
theorem test_wf_refuses_wide_tags :
    ([.format 0 1 0 0 1, .configSet {}, .configRead, .timeSet 0, .go, .reset, .status, .volumeCreate 0 1 0 true 1024,
      .volumeDelete 0, .volumeRead 0, .freeze 0, .thaw 0, .setFullScan 0, .accountSet 1 0 0, .accountRead 0,
      .accountReadNext, .snapshotCreate 0 2 0 none, .snapshotDelete 0 1, .snapshotHold 0 1, .snapshotRelease 0 1,
      .snapshotList 0, .restoreStart 0 1 0 0 false [], .restoreSuspend 0, .restoreResume 0, .restoreAbort 0,
      .restoreStatus 0, .restoreClear 0, .runPlanSet [0], .runStart 0 0, .runStop, .runStatus, .plan 0,
      .scheduleWrite 0 0 unusedEntry, .scheduleWriteNext unusedEntry, .scheduleRead 0 0, .scheduleSwap,
      .scheduleCancel, .noticeFetch] : List Request).all (fun r => (r.row 4294967296).all fun i => !i.wf) = true := by
  decide

/-! ### Frames written out from Chapter 12 -/

/-- The check value of the CRC (R156). -/
theorem test_crc_of_the_nine_digits :
    crc32 [0x31#8, 0x32#8, 0x33#8, 0x34#8, 0x35#8, 0x36#8, 0x37#8, 0x38#8, 0x39#8] = 3421780262#32 := by decide +kernel

/-- GO: address 128, command 5, tag 7, no parameter. -/
theorem test_frame_of_go :
    controlOf [128, 0, 0, 5, 0, 0, 0, 7, 0, 0, 0, 0] = some { tag := 7, req := .go } := by decide +kernel

/-- VOLUME CREATE: volume 9, 100 chunks, reserve limit 50, offsite-enabled, capacity 1,024. -/
theorem test_frame_of_volume_create :
    controlOf [128, 0, 0, 8, 0, 0, 1, 0, 0, 0, 0, 20, 0, 0, 0, 9, 0, 0, 0, 100, 0, 0, 0, 50, 0, 0, 0, 1, 0, 0, 4, 0] =
      some { tag := 256, req := .volumeCreate 9 100 50 true 1024 } := by decide +kernel

/-- A control frame whose parameter length is not its command's is malformed (R192). -/
theorem test_frame_of_wrong_length :
    controlOf [128, 0, 0, 5, 0, 0, 0, 7, 0, 0, 0, 4, 0, 0, 0, 0] = some { tag := 7, req := .malformed 5 } := by decide +kernel

/-- A READ of the live view of volume 9: tag 258, blocks 20 to 24, owner 410. -/
theorem test_frame_of_read :
    decodeFrontFrame [9, 1, 128, 0, 0, 0, 1, 2, 0, 0, 0, 20, 0, 5, 1, 154] =
      some (.read 258 9 128 20 5 410 16) := by decide +kernel

theorem test_frame_of_discard :
    decodeFrontFrame [63, 3, 0, 0, 0, 0, 0, 1, 0, 0, 1, 0, 1, 0, 0, 5] = some (.discard 1 63 256 256 5 16) := by decide +kernel

/-- The first block's first byte is its most significant (log entry 20). -/
theorem test_frame_of_write :
    decodeFrontFrame ([4, 2, 0, 0, 0, 0, 0, 3, 0, 0, 0, 6, 0, 1, 0, 7] ++ List.replicate 4095 0#8 ++ [9]) =
      some (.write 3 4 6 1 7 4112 [9]) := by decide +kernel

theorem test_frame_of_an_unknown_kind :
    decodeFrontFrame [9, 4, 0, 0, 0, 0, 0, 1, 0, 0, 0, 0, 0, 0, 0, 0] = some (.malformedRequestKind 9 4 1) := by decide +kernel

theorem test_frame_to_no_volume :
    decodeFrontFrame [64, 2, 0, 0, 0, 0, 0, 1, 0, 0, 0, 0, 0, 0, 0, 0] = some (.frontFrameBadAddress 64 2 1) ∧
      decodeFrontFrame [9, 1, 0] = some (.shortFrameDiscard 9 3) ∧
      decodeFrontFrame (128 :: List.replicate 10 0#8) = some (.shortFrameDiscard 128 11) := by decide +kernel

/-- The four words of a schedule entry: FREEZE at 23:59 on Wednesday, volume 12, with a snapshot of series 2, keep 3. -/
theorem test_words_of_a_schedule_entry :
    entryOfWords (1 * 16777216 + 2 * 65536 + 1439) (4 * 16777216 + 12 * 65536 + 1 * 256 + 2) (3 * 16777216) 58 =
      some { used := true, action := 2, minute := 1439, weekdays := 4, volume := 12, snapOpt := 1, param := 2,
             keep := 3, deadline := 0, label := 58 } := by decide +kernel

/-- The partner's frames: HELLO of site 7, and a frame of an unknown kind. -/
theorem test_partner_frames :
    partnerOf (21 :: List.replicate 31 0#8 ++ [0, 0, 0, 7] ++ List.replicate 12 0#8) = some (.hello 7) ∧ partnerOf (22 :: List.replicate 47 0#8) = none ∧
      partnerOf ([17, 0, 0, 0, 0, 0, 0, 5, 0, 0, 0, 9] ++ List.replicate 36 0#8) = some (.ack 5 9) := by
  decide +kernel

/-! ### One step of the worked examples -/

/-- A new part powers on: every recovery step finds nothing to do (R178), and the epoch steps to 1 (R159). -/
theorem test_power_on_of_a_new_part :
    after .powerOn { State.reset with
      ctl := { State.reset.ctl with notices := [] }, shelf := Shelf.atReset 0 } = State.reset := by decide

/-- 1.3: X claims PCNs 0 to 2 from the head, in order. -/
theorem test_write_claims_from_the_head :
    let s := after (.write 1 0 0 4 7 16400 [1, 2, 3, 4]) (volIs { vol0 with map := [] })
    s.free.head? = some 4 ∧ s.claims = 4 ∧ s.mirror.map MirrorRec.claims = [[0, 1, 2, 3]] := by decide

/-- Volume 7 of 3.10: k = 2, G = 42, the newest snapshot of generation 41. -/
def mixed : State :=
  { base with
    format := { base.format with k := 2, pool := 200000, floor := 2 }, free := [120001, 120002, 5, 6],
    vols := [(7, { vol0 with
      size := 64, gen := 42, map := [mapped 2 90514 38 3120, mapped 4 77002 42 5],
      snaps := [(1, { snap1 with gen := 41 })] })],
    accounts := [(3120, { Account.fresh with
      charge := 2999, soft := 2900, hard := 3200, expiry := some 9000, last := .grace })] }

/-- 3.10: the claims in span order, the writer's charge up by 1 with no notice, the mirror record. -/
theorem test_mixed_write_is_accepted :
    let s := after (.write 1 7 10 9 3120 36880 [10, 11, 12, 13, 14, 15, 16, 17, 18]) mixed
    s.free = [5, 6] ∧ (s.acct 3120).charge = 3000 ∧ s.ctl.notices = [] ∧
      s.mirror = [{ arrival := 0, vol := 7, claims := [120001, 120002], charges := [(3120, 1)], inPlace := [4] }] := by
  decide

/-- 3.10: the three commands handed over at acceptance. -/
theorem test_mixed_write_hands_three_commands_over :
    (after (.write 1 7 10 9 3120 36880 [10, 11, 12, 13, 14, 15, 16, 17, 18]) mixed).shelf.fgQueue.map
        (fun c => (c.kind, c.pcn, c.first, c.count, c.data)) =
      [(.read, 90514, 0, 2, []), (.write, 120002, 0, 4, [12, 13, 14, 15]), (.write, 77002, 0, 3, [16, 17, 18])] := by
  decide

/-- The volume of 3.11, after the mixed write. -/
def freed : State :=
  { mixed with
    free := [5], vols := [(7, { vol0 with
      size := 64, gen := 42,
      map := [mapped 2 120001 42 3120, mapped 3 120002 42 3120, mapped 4 77002 42 5, mapped 5 64230 40 5,
        (6, { form := .unmapped 30, stamp := none }), mapped 7 51777 12 0],
      snaps := [(1, { snap1 with gen := 41 })] })],
    accounts := [(0, { Account.fresh with charge := 12880 }), (5, { Account.fresh with charge := 1204 }),
      (3120, { Account.fresh with charge := 3000, soft := 2900, hard := 3200, expiry := some 9000, last := .grace })] }

/-- 3.11: three PCNs to the tail, two to the retained set of generation 41, five chunks' charges down. -/
theorem test_discard_files_and_frees :
    let s := after (.discard 1 7 8 26 3120 16) freed
    s.free = [5, 120001, 120002, 77002] ∧
      (tfind (s.vol 7).snaps 1).map Snap.retained = some [⟨5, 64230, 40⟩, ⟨7, 51777, 12⟩] ∧
      [(s.acct 3120).charge, (s.acct 5).charge, (s.acct 0).charge] = [2998, 1202, 12879] ∧
      ((s.vol 7).entry 4).form = .unmapped 42 ∧ ((s.vol 7).entry 6).form = .unmapped 30 ∧
      (s.vol 7).activeList = [2, 3, 4, 5, 7] := by
  decide

/-- A read of the zeros of an UNMAPPED chunk ends at once (R36). -/
theorem test_read_of_an_unmapped_chunk :
    (after (.read 3 0 128 0 1 7 16) base).out = [.front 0 1 .ok 3 1 [0]] := by decide

/-- 2.2: NOTREADY outside RUNNING, and BADVOL for a volume that is not there. -/
theorem test_front_refusals :
    (after (.write 3 0 0 1 7 4112 [5]) (inPart .standby 0 base)).out = [.front 0 2 .notReady 3 0 []] ∧
      (after (.discard 3 1 0 1 7 16) base).out = [.front 1 3 .badVol 3 0 []] := by decide

/-- 4.4, Tuesday 21:00: the sum passes the soft limit, and the expiry is three days later. -/
theorem test_account_enters_grace :
    let s := { base with
      sched := { base.sched with clock := 34635600 },
      ctl := { base.ctl with config := { base.ctl.config with grace := 259200 } },
      accounts := [(4418, { Account.fresh with charge := 1010, soft := 1000, hard := 1250 })] }
    let r := evaluateAccount s 4418
    (r.1.acct 4418).expiry = some 34894800 ∧ r.1.expiryQueue = [(34894800, 4418)] ∧
      r.2 = [{ kind := .graceStarted, time := 34635600, subject := 4418, d1 := 1010, d2 := 34894800 }] := by decide

/-- 4.4, Friday 21:00: the entry fires, and the account is LAPSED. -/
theorem test_account_lapses_when_its_entry_fires :
    let s := after .graceExpiryFire { base with
      sched := { base.sched with clock := 34894800 }, firing := true, expiryQueue := [(34894800, 4418)],
      accounts := [(4418, { Account.fresh with
        charge := 970, soft := 1000, hard := 1250, expiry := some 34894800, queued := true, last := .grace })] }
    (s.acct 4418).last = .lapsed ∧ (s.acct 4418).queued = false ∧ s.firing = false ∧
      s.ctl.notices.map (fun n => (n.kind, n.d1, n.d2)) = [(.lapsed, 970, 34894800)] := by decide

/-- 4.4, Saturday: a band of 64 below 1,000 is 936; 970 keeps the expiry and 930 clears it. -/
theorem test_release_threshold :
    let a : Account := { Account.fresh with soft := 1000, expiry := some 5 }
    settleExpiry { a with charge := 970 } 259200 64 true 9 = some 5 ∧
      settleExpiry { a with charge := 930 } 259200 64 true 9 = none := by decide

/-- The volume of 5.5, before B is deleted. -/
def vol55 : Volume :=
  { vol0 with
    gen := 4, map := [mapped 0 201 3 600, (1, { form := .unmapped 3, stamp := none }), mapped 2 203 4 600],
    snaps := [(1, { snap1 with retained := [⟨0, 100, 1⟩] }),
      (2, { snap1 with gen := 2, retained := [⟨0, 200, 2⟩, ⟨1, 101, 1⟩] }),
      (3, { snap1 with gen := 3, retained := [⟨2, 202, 3⟩] })] }

/-- 5.5: the nine views. -/
theorem test_views_of_three_snapshots :
    [1, 2, 3].map (fun g => [0, 1, 2].map (viewLookup vol55 g)) =
      [[some 100, some 101, none], [some 200, some 101, none], [some 201, none, some 202]] := by decide

/-- 5.5: B is at once the head of the deletion queue, and DELETING. -/
theorem test_snapshot_delete_begins :
    let s := after (.snapshotDelete 1 0 2) (volIs vol55)
    (s.vol 0).deleteQueue = [2] ∧ (tfind (s.vol 0).snaps 2).map Snap.state = some .deleting := by decide

def walking (b : List RetEntry) : Volume :=
  { vol55 with
    deleteQueue := [2],
    snaps := [(1, { snap1 with retained := [⟨0, 100, 1⟩] }),
      (2, { snap1 with gen := 2, state := .deleting, retained := b }), (3, { snap1 with gen := 3 })] }

/-- 5.5, step 1: PCN 200 was born after A, and is freed. -/
theorem test_merge_walk_frees :
    let s := after (.mergeWalkStep 0) (volIs (walking [⟨0, 200, 2⟩, ⟨1, 101, 1⟩]))
    s.free.getLast? = some 200 ∧ (tfind (s.vol 0).snaps 2).map Snap.retained = some [⟨1, 101, 1⟩] := by decide

/-- 5.5, step 2: PCN 101 goes to A, and the slot is empty. -/
theorem test_merge_walk_moves :
    let s := after (.mergeWalkStep 0) (volIs (walking [⟨1, 101, 1⟩]))
    (tfind (s.vol 0).snaps 1).map Snap.retained = some [⟨0, 100, 1⟩, ⟨1, 101, 1⟩] ∧
      tfind (s.vol 0).snaps 2 = none ∧ s.ctl.notices.map Notice.kind = [.deleteDone] := by decide

/-- SNAPSHOT CREATE with nothing in hand: the lowest empty slot, generation G, and G steps (R78, R79). -/
theorem test_snapshot_create :
    let s := after (.snapshotCreate 1 0 2 77 none) base
    s.out = [.control false false 17 1 .ok [2, 2]] ∧ (s.vol 0).gen = 3 := by decide

/-- R83: a chunk displaced by a WRITE that commits is filed with the snapshot that shares it. -/
theorem test_write_commits :
    let s := after (.write 1 0 1 1 7 4112 [5]) { base with shelf := { base.shelf with up := true } }
    let t := after (.shelfReply 0 1 1 true (.done [] 0)) s
    t.out = [.front 0 2 .ok 1 0 []] ∧ ((t.vol 0).entry 1).form = .mapped 0 2 7 ∧
      (tfind (t.vol 0).snaps 1).map Snap.retained = some [⟨1, 18, 1⟩] ∧ t.mirror = [] ∧ t.claims = 0 := by decide

/-- 2.4: a create behind a WRITE in hand waits for its drain. -/
theorem test_create_waits_for_its_drain :
    let s := after (.write 1 0 1 1 7 4112 [5]) base
    let t := after (.snapshotCreate 2 0 2 77 none) s
    t.out = [] ∧ ((t.vol 0).drain.map Drain.members) = some [.front 0] := by decide

/-- R28: the drain timer answers TIMEOUT. -/
theorem test_drain_timer :
    (after (.drainTimeout 0) { volIs { vol0 with
        state := .freezing, drain := some { work := .refusing [.control], members := [.front 0], timeout := 20 } } with
      ctl := { base.ctl with executing := some { tag := 9, number := 11 } } }).out =
      [.control false false 11 9 .timeout []] := by decide

/-- R12, R13: FREEZE of a quiet volume, and THAW. -/
theorem test_freeze_and_thaw :
    ((after (.freeze 1 0) base).vol 0).state = .frozen ∧
      ((after (.thaw 1 0) (volIs { vol0 with state := .frozen })).vol 0).state = .normal := by decide

/-- R10: the delete walk frees a MAPPED chunk and takes it from its owner's charge. -/
theorem test_delete_walk :
    let s := after (.volumeDeleteWalkStep 0) (volIs { vol0 with state := .deleting, deletePos := 1 })
    s.free.getLast? = some 18 ∧ (s.acct 7).charge = 1 ∧ (s.vol 0).deletePos = 2 := by decide

theorem test_delete_walk_ends :
    let s := after (.volumeDeleteWalkStep 0)
      (volIs { vol0 with state := .deleting, deletePos := 4, snaps := [], map := [], walkFreed := 2 })
    (s.vol 0).state = .absent ∧ s.ctl.notices.map (fun n => (n.kind, n.d1)) = [(.volumeDeleted, 2)] := by decide

/-- R1, R2: FORMAT, and the last step of the fill. -/
theorem test_format_and_fill :
    (after (.format 1 0 2 0 0 1) { base with vols := [] }).format.cond = .formatting ∧
      (let s := after .formatFillStep { base with
          vols := [], free := [0],
          format := { cond := .formatting, k := 0, pool := 2, floor := 0, low := 0, clear := 1 } }
       s.format.cond = .valid ∧ s.free = [0, 1] ∧ s.ctl.notices.map (fun n => (n.kind, n.d1, n.d2)) = [(.formatDone, 2, 0)]) := by
  decide

/-- 11.4: a window of 33 is out of range; a grace period of 5 is stored. The reply shows the thresholds as stored while
the record is FORMATTING (R1, R185), where CONFIG READ shows 0 (R186). -/
theorem test_config_set :
    (after (.configSet 1 { window := some 33 }) base).out = [.control false false 2 1 .range []] ∧
      (after (.configSet 1 { grace := some 5 }) base).ctl.config.grace = 5 ∧
      (let s := { base with format := { base.format with cond := .formatting } }
       [Instr.configSet 1 { grace := some 5 }, .configRead 1].map (fun i => (after i s).out.map fun o => match o with
           | .control _ _ _ _ code fields => (code, fields.take 4)
           | _ => (.busy, [])) =
         [[(.ok, [1, 2, 4, 5])], [(.ok, [0, 0, 0, 604800])]]) := by decide

theorem test_volume_requests :
    (after (.volumeCreate 1 5 10 0 false 1024) base).out = [.control false false 8 1 .ok []] ∧
      (after (.volumeCreate 1 5 10 0 false 1023) base).out = [.control false false 8 1 .range []] ∧
      ((after (.volumeDelete 1 0) base).vol 0).state = .deleting ∧
      (after (.volumeRead 1 5) base).out = [.control false false 10 1 .badVol []] := by decide

theorem test_account_requests :
    (after (.accountSet 1 7 900 800) base).out = [.control false false 14 1 .ok [800, 800, 0, 0, 0]] ∧
      (after (.accountReadNext 1) base).ctl.acctCursor = 0 ∧ (after (.accountRead 1 7) base).ctl.acctCursor = 7 := by
  decide

/-- R93, R97: HOLD of slot 0 is refused ACTIVE; SNAPSHOT LIST of a volume that is not there BADVOL. -/
theorem test_hold_and_list :
    (after (.snapshotHold 1 0 0) (volIs { vol0 with snaps := [(0, snap1)] })).out = [.control false false 19 1 .active []] ∧
      (after (.snapshotRelease 1 0 1) base).out = [.control false false 20 1 .ok []] ∧
      (after (.snapshotList 1 5) base).out = [.control false false 21 1 .badVol []] := by decide

/-- 6.4: the first visit of a job reads the shared chunk from its snapshot. -/
theorem test_restore_start_begins_a_visit :
    let s := after (.restoreStart 1 0 1 0 7 false [{ src := 1, count := 1, dst := 3 }]) base
    (tfind s.jobs 0).map (fun j => (j.state, j.pre, j.copy.map Copy.srcPcn)) = some (.running, some (2, 2), some 18) ∧
      s.out = [.control false false 22 1 .ok [0, 2, 2]] ∧ s.claims = 1 := by decide

theorem test_job_requests :
    (after (.restoreSuspend 1 0) (jobIs (job0 .yielded))).out = [.control false false 23 1 .ok [8]] ∧
      (after (.restoreResume 1 0) { jobIs (job0 .suspended) with yielding := true, inflight := [] }).out =
        [.control false false 24 1 .ok [9]] ∧
      (after (.restoreAbort 1 0) (jobIs (job0 .done))).out = [.control false false 25 1 .active []] ∧
      (after (.restoreStatus 1 1) base).out = [.control false false 26 1 .notFound []] ∧
      (after (.restoreClear 1 0) (jobIs (job0 .done))).jobs = [] := by decide

/-- R118: a job that had not ended is FAILED-INTERRUPTED after recovery. -/
theorem test_job_recovery :
    (tfind (after .restoreJobRecovery (inPart .recovering 2 (jobIs (job0 .suspended)))).jobs 0).map Job.state =
      some .failedInterrupted := by decide

/-- R40: a mirror record's claims go to the tail, its charge is reversed. -/
theorem test_mirror_recovery :
    let s := after .mirrorRecordRecovery { inPart .recovering 1 base with
      claims := 2, mirror := [{ arrival := 3, vol := 0, claims := [40, 41], charges := [(7, 1)], inPlace := [] }] }
    s.free.drop 18 = [40, 41] ∧ s.claims = 0 ∧ (s.acct 7).charge = 1 ∧ s.mirror = [] := by decide

theorem test_recovery_of_returns_run_and_expiry_queue :
    (after .pendingReturnRecovery { inPart .recovering 2 base with returns := [44], claims := 1 }).free.getLast? = some 44 ∧
      (after .runRecovery (inPart .recovering 3 (runIs activeRun))).run.result = .interrupted ∧
      (after .expiryQueueRebuild { inPart .recovering 4 base with
        accounts := [(7, { Account.fresh with charge := 3, soft := 1, expiry := some 50, last := .grace })] }).expiryQueue =
        [(50, 7)] := by decide

/-- 7.10: the deadline of 06:30 asked for at 23:00 on day 400. -/
theorem test_deadline_minute : nextMinute 34642800 390 = 34669800 := by decide

/-- 8.5: the pace of a data frame at 12,800 and at 2,048 KiB/s, and of a frame without payload. -/
theorem test_pace_of_frames :
    paceInterval 65584 12800 = 5004 ∧ paceInterval 65584 2048 = 31273 ∧ paceInterval 48 12800 = 4 := by decide

/-- R125: the reasons of NOTARMED, and RUN PLAN SET with a number named twice. -/
theorem test_run_requests :
    (after (.runStart 1 0 390) base).out = [.control false false 29 1 .notArmed [2, 0, 0]] ∧
      (after (.runStart 1 0 390) { base with plan := [0] }).out = [.control false false 29 1 .notArmed [5, 0, 0]] ∧
      (after (.runPlanSet 1 [0, 0]) base).out = [.control false false 28 1 .range []] ∧
      (after (.runStop 1) base).out = [.control false false 30 1 .notFound []] ∧
      (after (.plan 1 390) base).out = [.control false false 32 1 .notArmed [2, 0, 0]] := by decide

/-- 7.5: a start that passes makes RUN OPEN, which goes out as frame 1. -/
theorem test_run_start :
    let s := after (.runStart 1 0 390) { portIs { Port.atReset 0 with up := true, site := some 0 } with plan := [0] }
    s.run.state = .active ∧ s.run.runId = 1 ∧ s.port.outstanding.map Frame.kind = [.runOpen] ∧
      s.port.outstanding.map Frame.seq = [1] := by decide

/-- R131: an UNMAPPED LCN of a full scan joins the pending clear run. -/
theorem test_full_scan_step :
    let s := after .fullScanStep { volIs { vol0 with snaps := [(0, snap1)] } with
      plan := [0], run := { activeRun with phase := .send, fullScan := true } }
    (s.run.clearStart, s.run.clearCount, s.run.pos) = (0, 1, 1) := by decide

/-- 8.8: of a window of four, ACK 2 takes two frames off. -/
theorem test_ack_takes_frames_off :
    let s := after (.ack 2 1) { runIs { activeRun with phase := .send } with
      port := { port1 with
        nextNo := 5, outstanding := [1, 2, 3, 4].map (frameOf .chunkClear), ackTimer := some 20, retry := 3 } }
    s.port.outstanding.map Frame.seq = [3, 4] ∧ s.port.retry = 0 ∧ s.port.highestAcked = 2 := by decide

theorem test_nak_and_timer :
    let p : Port := { port1 with
      nextNo := 3, outstanding := [frameOf .chunkClear 2], ackTimer := some 20, nextSend := 9 }
    (after (.nak 2 1) (portIs p)).port.resendPos = some 2 ∧ (after .ackTimerExpiry (portIs p)).port.retry = 1 ∧
      (after .ackTimerExpiry (portIs { p with retry := 8 })).port.up = false := by decide

theorem test_hold_resume_and_loss :
    (after .hold (portIs port1)).port.held = true ∧ (after .resume (portIs { port1 with held := true })).port.held = false ∧
      (after .holdTimerExpiry (portIs { port1 with held := true })).ctl.notices.map (fun n => (n.kind, n.d1)) =
        [(.linkLost, 3)] ∧
      (after .offsiteCarrierLoss (portIs port1)).ctl.notices.map (fun n => (n.kind, n.d1)) = [(.linkLost, 1)] := by decide

theorem test_hello :
    let s := after (.hello 7) base
    s.port.up = true ∧ s.port.site = some 7 ∧ s.ctl.notices.map (fun n => (n.kind, n.subject, n.d1)) = [(.linkUp, 7, 0)] := by
  decide

theorem test_ignored_frame_and_pacing :
    (after (.offsiteFrameIgnored [22]) base).port.ignored = 1 ∧ (after (.pacingTimeReached 50) base).port.pace = 50 := by
  decide

/-- R163, R164, R166: an unmatched reply is counted, a timer ends its command, a link reset ends every command. -/
theorem test_shelf_port :
    let c : SlotRec :=
      { cmd := { kind := .read, cls := .foreground, pcn := 5, first := 0, count := 1, data := [], owner := .dropped },
        epoch := 1, use := 1, timeout := 50 }
    (after (.shelfReply 0 1 1 false (.error 9)) base).shelf.ignored = 1 ∧
      (after (.shelfCommandTimeout 3) (shelfIs { Shelf.atReset 1 with slots := [(3, c)] })).ctl.notices.map
        (fun n => (n.kind, n.subject, n.d1)) = [(.shelfError, 5, 240)] ∧
      (after .shelfLinkDown (shelfIs { Shelf.atReset 1 with up := true, slots := [(3, c)] })).ctl.notices.map
        (fun n => (n.kind, n.d1, n.d2)) = [(.shelfError, 242, 1)] ∧
      (after .shelfLinkUp base).shelf.up = true := by decide

/-- 10.1: the clock advances; a due SNAP entry fires at its minute. -/
theorem test_clock_fires_a_due_entry :
    let s := after .clockAdvance { base with sched := { base.sched with
      clock := 119, bankA := [(0, { unusedEntry with
        used := true, action := 1, minute := 2, weekdays := 1, volume := 0, param := 3, keep := 2, label := 58 })] } }
    s.sched.clock = 120 ∧ (tfind (s.vol 0).snaps 2).map (fun d => (d.kind, d.series, d.created)) =
      some (.scheduled, some 3, 120) := by decide

theorem test_schedule_requests :
    (after (.scheduleWrite 1 0 0 unusedEntry) base).out = [.control false false 33 1 .active []] ∧
      (after (.scheduleWriteNext 1 unusedEntry) base).ctl.schedIndex = 0 ∧
      (after (.scheduleRead 1 2 0) base).out = [.control false false 35 1 .range []] ∧
      (after (.scheduleSwap 1) base).sched.swap = true ∧ (after (.scheduleCancel 1) base).sched.swap = false := by decide

theorem test_part_requests :
    (after (.go 1) (inPart .standby 0 base)).ctl.part = .running ∧ (after (.timeSet 1 5) base).sched.clock = 5 ∧
      (after (.reset 1) base).out = [.control false false 6 1 .ok []] ∧ (after (.reset 1) base).sched.clock = 100 ∧
      (after (.setFullScan 1 0) (volIs { vol0 with fullScan := false })).vol 0 = vol0 := by decide

/-- R190: a fetch takes eight of nine notices. -/
theorem test_status_reads :
    let n : Notice := { kind := .poolLow, time := 0, subject := 0, d1 := 0, d2 := 0 }
    (after (.noticeFetch 1) { base with ctl := { base.ctl with notices := List.replicate 9 n } }).ctl.notices = [n] ∧
      (after (.status 1) base).out.length = 1 ∧ (after (.configRead 1) base).out.length = 1 ∧
      (after (.runStatus 1) base).out.length = 1 := by decide

theorem test_frames_that_are_no_request :
    (after (.frontFrameBadAddress 64 2 9) base).out = [.front 64 0 .malformed 9 0 []] ∧
      (after (.malformedRequestKind 3 9 9) base).out = [.front 3 9 .malformed 9 0 []] ∧
      (after (.shortFrameDiscard 3 9) base).out = [] ∧ (after .frontLinkDown base).frontUp = false ∧
      (after .frontLinkUp { base with frontUp := false }).frontUp = true ∧
      (after (.controlRequestArrival [128, 0, 0, 99, 0, 0, 0, 7, 0, 0, 0, 0]) base).out =
        [.control false false 99 7 .malformed []] := by decide +kernel

/-! ### Witnesses: a state and operands that meet the hypotheses of each statement, clause by clause -/

theorem base_free : base.ctlFree := by unfold State.ctlFree; decide

theorem base_serves : base.ctlServes := ⟨base_free, by decide⟩

theorem standby_serves : (inPart .standby 0 base).ctlServes := by unfold State.ctlServes State.ctlFree; decide

def read0 : Instr := .read 3 0 128 1 1 7 16

theorem witness_StepRunsFrontCommand :
    ({ base with pending := [.go 1, read0] } : State).pending = .go 1 :: [read0] ∧ base.pending = [] := by decide

/-- Both queues full, and a request that finds them so. -/
def full : State :=
  { base with
    pending := [.go 1],
    ctl := { base.ctl with
      executing := some { tag := 1, number := 11 },
      queue := List.replicate 8 { tag := 2, req := .go },
      notices := List.replicate 128 { kind := .poolLow, time := 0, subject := 0, d1 := 0, d2 := 0 } } }

theorem witness_StepKeepsQueueBounds :
    (full.ctl.queue.length ≤ 8 ∧ full.ctl.notices.length ≤ 128) ∧ ∃ t, step full = .next t :=
  ⟨by decide +kernel, step_answers _⟩

theorem witness_StepKeepsTablesCanonical :
    ({ base with pending := [read0] } : State).wf = true ∧ ∃ t, step { base with pending := [read0] } = .next t :=
  ⟨by decide, step_answers _⟩

/-! The laws that every step keeps: one state that has them all, with a step that changes all that they speak of. -/

/-- The plan of a WRITE of the one UNMAPPED chunk 1, with PCN 1 claimed. -/
def lawfulWrite : Entry :=
  { arrival := 0, req := { tag := 3, kind := .write, vol := 0, view := none, start := 1, count := 1, owner := 5 },
    state := .active, gen := 1,
    plan := [{ lcn := 1, cls := .unmapped, old := none, claimed := some 1, reads := 0, copied := [], slotted := true }],
    claims := [1], charges := [(5, 1)], left := 1, failed := false, data := [5] }

/-- A state that has every law, with work of every kind in it: a pool of four PCNs, one free, one mapped, one retained
and one claimed by a WRITE whose shelf command is in slot 0; a suspended job with a reservation; and a run with a frame
outstanding. The command in front of its queue ends the WRITE. -/
def lawful : State :=
  { base with
    format := { cond := .valid, k := 0, pool := 4, floor := 0, low := 1, clear := 2 }, free := [2], claims := 1,
    vols := [(0, { vol0 with
      size := 2, map := [mapped 0 0 1 5], snaps := [(1, { snap1 with retained := [⟨1, 3, 1⟩], inUse := 1 })] })],
    accounts := [(5, { Account.fresh with charge := 2 }), (7, { Account.fresh with reserved := 1 })],
    inflight := [lawfulWrite], nextArrival := 1,
    mirror := [{ arrival := 0, vol := 0, claims := [1], charges := [(5, 1)], inPlace := [] }],
    busy := [{ owner := .front 0, vol := 0, chunks := [1], change := true, proceeded := true }],
    jobs := [(0, { job0 .suspended with ranges := [{ src := 1, count := 1, dst := 1 }], pre := none })],
    shelf := { Shelf.atReset 1 with
      up := true,
      slots := [(0, { cmd := { kind := .write, cls := .foreground, pcn := 1, first := 0, count := 1, data := [5],
                               owner := .request 0 1 .chunkWrite }, epoch := 1, use := 1, timeout := 50 })] },
    plan := [0], run := { activeRun with phase := .send },
    port := { port1 with nextNo := 3, highestAcked := 1, outstanding := [frameOf .chunkClear 2] },
    pending := [.shelfReply 0 1 1 true (.done [] 0)] }

theorem lawful_generations : ∀ p ∈ lawful.vols, p.2.genLaw := by
  simp [lawful, Volume.genLaw, vol0, snap1, mapped]

theorem lawful_marks : marksLaw lawful := by
  simp [marksLaw, lawful, base, State.freeCount, State.reset]

theorem lawful_reserves : reserveLaw lawful := by
  simp [reserveLaw, lawful, base, vol0, Volume.usable, State.reset]

theorem lawful_outstanding : outstandingLaw lawful ∧ runLaw lawful := by
  unfold outstandingLaw runLaw; decide

theorem lawful_pool : poolLaw lawful := by
  unfold poolLaw; decide

theorem lawful_charges (o : Nat) : chargeLaw lawful o ∧ reservationLaw lawful o := by
  unfold chargeLaw reservationLaw
  by_cases h5 : o = 5
  · subst h5; decide
  by_cases h7 : o = 7
  · subst h7; decide
  · have a5 : ¬ 5 = o := fun h => h5 h.symm
    have a7 : ¬ 7 = o := fun h => h7 h.symm
    simp [State.acct, tget, tfind, lawful, State.mappedOf, MirrorRec.chargeOf, job0, JobState.ended, mapped,
      Account.fresh, h5, h7, a5, a7]

theorem lawful_entries : entryLaw lawful := by
  refine ⟨by decide, by decide, ?_, by decide, by decide⟩
  intro x hx
  obtain rfl := List.mem_singleton.mp hx
  refine ⟨by decide, by decide, by decide, by decide, ?_⟩
  rw [if_pos (by decide)]
  refine ⟨⟨by decide, ?_, by decide, by decide⟩, by decide⟩
  intro p hp
  obtain rfl := List.mem_singleton.mp hp
  exact ⟨by decide, Option.some_ne_none 1⟩

theorem lawful_work : workLaw lawful := by
  refine ⟨lawful_entries, ⟨by decide, by decide, ?_, by decide, by decide⟩, ?_, ⟨?_, by decide, by decide⟩,
    ⟨by decide, by decide, ?_, by decide⟩, ⟨by decide, by decide, by decide⟩, by decide, ?_⟩
  · intro i hi
    obtain rfl := List.mem_singleton.mp hi
    exact ⟨lawfulWrite, by decide⟩
  · intro p hp
    obtain rfl := List.mem_singleton.mp hp
    refine ⟨by decide, by decide, by decide, ?_⟩
    rw [if_neg (by decide)]
    refine ⟨by decide, by decide, by decide, ?_, by decide⟩
    exact Nat.zero_lt_one
  · intro c hc
    obtain rfl := List.mem_singleton.mp hc
    trivial
  · intro p hp
    obtain rfl := List.mem_singleton.mp hp
    refine ⟨by decide, by decide, by decide, ?_⟩
    intro q hq
    obtain rfl := List.mem_singleton.mp hq
    exact ⟨by decide, by decide⟩
  · exact fun h => absurd h (by decide)

theorem lawful_safe : Safe lawful :=
  ⟨by decide, by unfold queuesBounded; decide, lawful_generations, lawful_marks, lawful_reserves,
    lawful_outstanding.1, lawful_outstanding.2, lawful_work, lawful_pool, lawful_charges⟩
theorem witness_StepKeepsGenerationLaw :
    lawful.wf = true ∧ (∀ p ∈ lawful.vols, p.2.genLaw) ∧ ∃ t, step lawful = .next t :=
  ⟨by decide, lawful_generations, step_answers _⟩

theorem witness_StepKeepsWatermarkLaw :
    lawful.wf = true ∧ recoveryLaw lawful ∧ marksLaw lawful ∧ reserveLaw lawful ∧
      (∀ q ∈ lawful.ctl.queue, q.req ≠ .reset) ∧ ∃ t, step lawful = .next t :=
  ⟨by decide, lawful_work.2.2.2.2.2.2, lawful_marks, lawful_reserves, by decide, step_answers _⟩

theorem witness_StepKeepsOutstandingLaw :
    lawful.wf = true ∧ (outstandingLaw lawful ∧ runLaw lawful) ∧ ∃ t, step lawful = .next t :=
  ⟨by decide, lawful_outstanding, step_answers _⟩

theorem witness_StepKeepsWorkLaw : Safe lawful ∧ ∃ t, step lawful = .next t := ⟨lawful_safe, step_answers _⟩

theorem witness_StepKeepsPoolLaw : workLaw lawful ∧ poolLaw lawful ∧ ∃ t, step lawful = .next t :=
  ⟨lawful_work, lawful_pool, step_answers _⟩

theorem witness_StepKeepsChargeLaws :
    workLaw lawful ∧ (∀ o, chargeLaw lawful o ∧ reservationLaw lawful o) ∧ ∃ t, step lawful = .next t :=
  ⟨lawful_work, lawful_charges, step_answers _⟩

/-- What the step of `lawful` does: the WRITE commits, and its claimed PCN is in the map. -/
theorem test_step_of_lawful :
    ((after (.shelfReply 0 1 1 true (.done [] 0)) lawful).vol 0).mappedPcns = [0, 1] ∧
      (after (.shelfReply 0 1 1 true (.done [] 0)) lawful).claims = 0 := by decide

theorem witness_ControlFrameRoundTrip :
    u32 4294967295 = true ∧ (Request.snapshotCreate 4294967295 3 4294967295 (some 4294967295)).wf = true ∧
      (∀ n, Request.snapshotCreate 4294967295 3 4294967295 (some 4294967295) ≠ .malformed n) ∧
      (requestWords (.snapshotCreate 4294967295 3 4294967295 (some 4294967295))).length < 1073741824 := by
  refine ⟨by decide, by decide, ?_, by decide⟩
  intro n h
  cases h

theorem witness_FrontFrameRoundTrip :
    read0.wf = true ∧ encodeFrontFrame read0 = some [0, 1, 128, 0, 0, 0, 0, 3, 0, 0, 0, 1, 0, 1, 0, 7] ∧
      (Instr.discard 4294967295 63 4294967295 65535 65535 17).wf = true ∧
      (encodeFrontFrame (.discard 4294967295 63 4294967295 65535 65535 17)).isSome = true := by decide

theorem witness_FrontFramesReachTheirUnits :
    u32 5 = true ∧ (Request.freeze 70).wf = true ∧ (requestWords (.freeze 70)).length < 1073741824 ∧
      (Request.freeze 70).row 5 = some (.freeze 5 70) := by decide

def goFrame : List Byte := [128, 0, 0, 5, 0, 0, 0, 7, 0, 0, 0, 0]

theorem witness_FrontFramesReachTheirUnits_control :
    controlOf goFrame = some { tag := 7, req := .go } ∧ full.frontUp = true ∧ full.ctl.executing ≠ none ∧
      (controlOf [128, 0, 0, 99, 0, 0, 0, 7, 0, 0, 0, 0] = some { tag := 7, req := .malformed 99 } ∧
        base.ctl.executing = none ∧ base.ctl.queue = []) ∧
      (inPart .recovering 1 base).ctl.part = .recovering := by decide +kernel

theorem witness_FramesThatAreNoRequestAreAnsweredOrCounted : ({ base with frontUp := false } : State).frontUp = false := rfl

theorem witness_ConfigReadReportsTheRecord : base.ctlFree ∧ State.reset.ctlFree := by
  unfold State.ctlFree; decide

theorem witness_StatusRunStatusAndPlanReport : base.ctlFree ∧ (inPart .recovering 1 base).ctlFree := by
  unfold State.ctlFree; decide

theorem witness_NoticeFetchTakesTheOldest : State.reset.ctlFree ∧ State.reset.ctl.notices ≠ [] := by
  unfold State.ctlFree; decide

theorem witness_FrontFramesReachTheirUnits_control_recovering :
    (inPart .recovering 1 base).ctlFree ∧ (inPart .recovering 1 base).ctl.part = .recovering ∧
      Request.go.row 4 = some (.go 4) ∧ Request.go ≠ .status ∧ Request.go ≠ .configRead ∧
      Request.go ≠ .noticeFetch := by
  unfold State.ctlFree; decide

theorem witness_FormatChecksAndBeginsTheFill :
    base.ctlServes ∧ base.vols ≠ [] ∧ ({ base with vols := [] } : State).ctlServes := by
  unfold State.ctlServes State.ctlFree; decide

theorem witness_FillAndDeleteWalkStep :
    (∀ p ∈ base.jobs, p.2.state.ended = true) ∧ base.format.low < base.format.pool := by decide

theorem witness_ConfigSetChecksAndReplaces :
    base.ctlServes ∧
      (∀ o ∈ patchFields {}, o = none) ∧ (∃ o ∈ patchFields { grace := some 16777215 }, o ≠ none) ∧
      (({ floor := some 1 } : ConfigPatch).floor.isSome = true ∧ State.reset.format.cond ≠ .valid) ∧
      (({ window := some 1 } : ConfigPatch).window.isSome = true ∧ (runIs activeRun).run.state ≠ .idle) ∧
      yieldAfter base = base.yielding := by
  unfold State.ctlServes State.ctlFree; decide

theorem witness_TimeSetAndGo :
    base.ctlServes ∧ base.run.state = .idle ∧ (runIs activeRun).ctlServes ∧ 999 < (runIs activeRun).run.deadline := by
  unfold State.ctlServes State.ctlFree; decide

theorem witness_TimeSetAndGo_go :
    (inPart .standby 0 base).ctlServes ∧ (∀ p ∈ (inPart .standby 0 base).vols, p.2.deleteQueue = []) ∧
      (∀ p ∈ (inPart .standby 0 base).jobs, p.2.state.ended = true) := by
  unfold State.ctlServes State.ctlFree; decide

theorem witness_VolumeCreateChecksAndCreates : base.ctlServes := base_serves

theorem witness_VolumeDeleteBeginsAndReadReports : base.ctlServes := base_serves

theorem witness_VolumeDeleteBeginsAndReadReports_read : base.ctlFree := base_free

theorem witness_SetFullScanAndRunPlanSet : base.ctlServes := base_serves

def deleting (pos : Nat) (snaps : Table Snap) : State :=
  volIs { vol0 with state := .deleting, deletePos := pos, snaps := snaps }

theorem witness_FillAndDeleteWalkStep_walk :
    (base.vol 0).state ≠ .deleting ∧ (deleting 0 []).ctl.part = .running ∧ ((deleting 0 []).vol 0).state = .deleting ∧
      (((deleting 0 []).vol 0).entry 0).form = .unmapped 0 ∧ 0 < ((deleting 0 []).vol 0).size ∧
      (((deleting 1 []).vol 0).entry 1).form = .mapped 18 1 7 ∧
      (deleting 1 []).visitsWait (fun j => j.state == .pausedPool) ∧
      ((deleting 4 []).vol 0).size ≤ ((deleting 4 []).vol 0).deletePos ∧ ((deleting 4 []).vol 0).snaps = [] ∧
      ((deleting 4 [(1, snap1)]).vol 0).snaps = (1, snap1) :: [] ∧ snap1.retained = [] ∧
      ({ snap1 with retained := [⟨0, 3, 1⟩] } : Snap).retained = ⟨0, 3, 1⟩ :: [] := by
  unfold State.visitsWait; decide

def drain0 (w : DrainWork) : Drain := { work := w, members := [.front 0], timeout := 20 }

theorem witness_FreezeAndThawByVolumeState :
    base.ctlServes ∧ (∀ p ∈ base.jobs, p.2.state ≠ .running) ∧ (base.vol 63).state = .absent ∧
      ((volIs { vol0 with state := .frozen }).vol 0).state = .frozen ∧
      (let s := volIs { vol0 with state := .freezing, drain := some (drain0 (.refusing [.control])) }
       s.ctlServes ∧ (s.vol 0).state = .freezing ∧
         (s.vol 0).drain = some { work := .refusing [.control], members := [.front 0], timeout := 20 }) ∧
      ((base.vol 0).state = .normal ∧ (base.vol 0).drain = none ∧ (base.vol 0).waiting = [] ∧
        (base.vol 0).holdList = [] ∧ drainSet base 0 = []) ∧
      (∀ p ∈ base.jobs, p.2.state = .pausedFrozen → p.2.dstVol ≠ 0) := by
  unfold State.ctlServes State.ctlFree; decide

def entry0 (kind : FrontKind) (state : EntryState) : Entry :=
  { arrival := 0,
    req := { tag := 3, kind := kind, vol := 0, view := none, start := 1, count := 1, owner := 7 },
    state := state, gen := 0, plan := [], claims := [], charges := [], left := 1, failed := false, data := [0] }

/-- A WRITE of volume 0 in hand. -/
def writing : State := { base with inflight := [entry0 .write .active], nextArrival := 1 }

theorem witness_DrainsBeginAndTimeOut :
    writing.ctlServes ∧ (writing.vol 0).state = .normal ∧ (writing.vol 0).drain = none ∧
      (writing.vol 0).waiting = [] ∧
      (((writing.inflight.filter fun y => y.req.vol == 0 && y.req.kind != .read && y.state != .held).map fun y =>
          BusyOwner.front y.arrival)
        ++ ((writing.busy.filter fun i => i.vol == 0 &&
          match i.owner with | .restore _ => true | .front _ => false).map BusyItem.owner)) ≠ [] ∧
      createCheck .user (writing.vol 0) = none ∧
      (let s := volIs { vol0 with waiting := [.refusing [.control]] }
       s.ctlServes ∧ (s.vol 0).waiting ≠ [] ∧ createCheck .user (s.vol 0) = none) := by
  unfold State.ctlServes State.ctlFree; decide

def create0 : CreateReq := { kind := .user, series := none, label := 1, asker := .control }

def draining (x : VolState) (w : DrainWork) : State :=
  { volIs { vol0 with state := x, drain := some (drain0 w) } with
    ctl := { base.ctl with executing := some { tag := 9, number := 11 } } }

theorem witness_DrainsBeginAndTimeOut_timer :
    (base.vol 0).drain = none ∧
      (let s := draining .normal (.holding create0)
       (s.vol 0).drain = some (drain0 (.holding create0)) ∧ s.ctl.executing = some { tag := 9, number := 11 } ∧
         s.frontUp = true ∧ s.ctl.queue = [] ∧ (s.vol 0).holdList = [] ∧ (s.vol 0).waiting = [] ∧
         (∀ p ∈ s.jobs, p.2.state ≠ .running) ∧ (s.vol 0).state ≠ .absent ∧
         (drain0 (.holding create0)).work = .holding create0 ∧ create0.asker = .control) ∧
      (let s := draining .freezing (.refusing [.control])
       (s.vol 0).drain = some (drain0 (.refusing [.control])) ∧ s.ctl.executing = some { tag := 9, number := 11 } ∧
         s.frontUp = true ∧ s.ctl.queue = [] ∧ (s.vol 0).holdList = [] ∧ (s.vol 0).waiting = [] ∧
         (∀ p ∈ s.jobs, p.2.state ≠ .running) ∧ (s.vol 0).state ≠ .absent ∧
         (drain0 (.refusing [.control])).work = .refusing [.control]) := by decide

theorem witness_AccountRequestsStoreAndReport : base.ctlServes := base_serves

theorem witness_AccountRequestsStoreAndReport_read : base.ctlServes := base_serves

theorem witness_AccountEvaluationSettlesAndReports :
    (7 : Nat) ≠ 0 ∧ ((evaluateAccount base 7).1.acct 7).last = (base.acct 7).last ∧
      (let s := { base with accounts := [(7, { Account.fresh with charge := 2, soft := 1 })] }
       ((evaluateAccount s 7).1.acct 7).last ≠ (s.acct 7).last) := by decide

def allSlots : Table Snap := (List.range 16).map fun i => (i, snap1)

theorem witness_SnapshotCreateChecksAndCreates :
    base.ctlServes ∧ ((base.vol 0).state ≠ .absent ∧ (base.vol 0).state ≠ .deleting) ∧ (base.vol 63).state = .absent ∧
      (∀ i, i ≤ 15 → 1 ≤ i → tfind ((volIs { vol0 with snaps := allSlots }).vol 0).snaps i ≠ none) ∧
      tfind (base.vol 0).snaps 15 = none ∧
      (((volIs { vol0 with reserveLimit := 0 }).vol 0).reserveLimit ≠ 268435455 ∧
        ((volIs { vol0 with reserveLimit := 0 }).vol 0).reserveLimit ≤
          (((volIs { vol0 with reserveLimit := 0 }).vol 0).snaps.map fun p => p.2.retained.length).sum) ∧
      ¬ ((base.vol 0).reserveLimit ≠ 268435455 ∧
        (base.vol 0).reserveLimit ≤ ((base.vol 0).snaps.map fun p => p.2.retained.length).sum) ∧
      4294967294 ≤ ((volIs { vol0 with gen := 4294967294 }).vol 0).gen ∧
      ((volIs { vol0 with gen := 4294967293 }).vol 0).gen < 4294967294 ∧ (base.vol 0).drain = none ∧
      (base.vol 0).waiting = [] ∧ (base.vol 0).holdList = [] ∧ drainSet base 0 = [] ∧
      ∀ p ∈ base.jobs, p.2.state ≠ .running := by
  unfold State.ctlServes State.ctlFree; decide

theorem witness_SnapshotDeleteChecksAndQueues :
    base.ctlServes ∧ tfind (base.vol 0).snaps 15 = none ∧ tfind (base.vol 0).snaps 1 = some snap1 ∧
      (snap1.state = .ready ∧ snap1.held = false ∧ snap1.inUse = 0 ∧ snap1.retained = []) ∧
      (base.vol 0).deleteQueue = [] ∧ base.ctl.part = .running ∧ (inPart .standby 0 base).ctl.part ≠ .running ∧
      ((volIs { vol0 with deleteQueue := [2] }).vol 0).deleteQueue ≠ [] ∧
      (let d : Snap := { snap1 with state := .deletePending, held := true, inUse := 1 }
       d.state ≠ .ready ∧ d.held = true ∧ 0 < d.inUse) ∧
      tfind ((volIs { vol0 with snaps := [(0, snap1)] }).vol 0).snaps 0 = some snap1 := by
  unfold State.ctlServes State.ctlFree; decide

theorem witness_HoldReleaseAndSnapshotList :
    base.ctlServes ∧ (base.vol 0).state ≠ .absent ∧ (base.vol 0).state ≠ .deleting ∧
      tfind (base.vol 0).snaps 15 = none ∧ tfind (base.vol 0).snaps 1 = some snap1 ∧ (base.vol 63).state = .absent := by
  unfold State.ctlServes State.ctlFree; decide

theorem witness_HoldReleaseAndSnapshotList_list : base.ctlFree ∧ (inPart .recovering 1 base).ctlFree := by
  unfold State.ctlFree; decide

theorem witness_MergeWalkMovesOrFreesOneEntry :
    (inPart .standby 0 base).ctl.part ≠ .running ∧
      (let s := volIs (walking [⟨1, 101, 1⟩, ⟨2, 5, 1⟩])
       let d : Snap := { snap1 with gen := 2, state := .deleting, retained := [⟨1, 101, 1⟩, ⟨2, 5, 1⟩] }
       s.ctl.part = .running ∧ (s.vol 0).state ≠ .absent ∧ (s.vol 0).state ≠ .deleting ∧
         (s.vol 0).deleteQueue = 2 :: [] ∧ tfind (s.vol 0).snaps 2 = some d ∧
         d.retained = ⟨1, 101, 1⟩ :: [⟨2, 5, 1⟩] ∧
         newestSnap (fun q => q.state != .deleting && decide (q.gen < d.gen)) (s.vol 0).snaps =
           some (1, { snap1 with retained := [⟨0, 100, 1⟩] }) ∧ (1 : Nat) ≤ snap1.gen) ∧
      (let s := volIs (walking [⟨0, 200, 2⟩])
       let d : Snap := { snap1 with gen := 2, state := .deleting, retained := [⟨0, 200, 2⟩] }
       s.ctl.part = .running ∧ (s.vol 0).deleteQueue = 2 :: [] ∧ tfind (s.vol 0).snaps 2 = some d ∧
         d.retained = ⟨0, 200, 2⟩ :: [] ∧
         newestSnap (fun q => q.state != .deleting && decide (q.gen < d.gen)) (s.vol 0).snaps =
           some (1, { snap1 with retained := [⟨0, 100, 1⟩] }) ∧ snap1.gen < 2 ∧
         ∀ p ∈ s.jobs, p.2.state.ended = true) := by decide

/-- Volume 0, and volume 1 to restore into. -/
def two : State := { base with vols := [(0, vol0), (1, { vol0 with snaps := [] })], yielding := true }

def range0 : Range := { src := 0, count := 4, dst := 0 }

theorem witness_RestoreStartChecksAndStarts :
    two.ctlServes ∧ ([] : List Range) = [] ∧ 16 < (List.replicate 17 range0).length ∧
      ¬ ([range0] = [] ∨ 16 < [range0].length ∨ ∃ r ∈ [range0], r.count = 0) ∧
      (let s := { base with jobs := [0, 1, 2, 3].map fun j => (j, job0 .done) }
       ∀ j, j ≤ 3 → tfind s.jobs j ≠ none) ∧
      tfind two.jobs 0 = none ∧ tfind (two.vol 0).snaps 1 = some snap1 ∧ snap1.state = .ready ∧
      (two.vol 1).state = .normal ∧ range0.src + range0.count ≤ (two.vol 0).size ∧
      range0.dst + range0.count ≤ (two.vol 1).size ∧ ¬ (two.vol 0).size < 4 ∧
      [range0].Pairwise (fun a b => ¬ (a.dst < b.dst + b.count ∧ b.dst < a.dst + a.count)) ∧
      ¬ [range0, range0].Pairwise (fun a b => ¬ (a.dst < b.dst + b.count ∧ b.dst < a.dst + a.count)) ∧
      ¬ two.free.length < two.format.floor ∧ (two.vol 1).drain = none ∧ (two.vol 1).waiting = [] ∧
      (two.vol 1).holdList = [] ∧ drainSet two 1 = [] ∧ (two.vol 1).gen < 4294967294 ∧
      (two.vol 1).emptySlot = some 1 ∧ two.yielding = true ∧
      drainSet { two with inflight := [{ entry0 .write .active with
        req := { (entry0 .write .active).req with vol := 1 } }] } 1 ≠ [] := by
  unfold State.ctlServes State.ctlFree; decide

def copy0 (stage : CopyStage) : Copy := { lcn := 3, srcPcn := 18, pcn := 0, gen := 1, stage := stage }

theorem witness_SuspendResumeStatusAndClearByJobState :
    (jobIs (job0 .running)).ctlServes ∧ tfind base.jobs 3 = none ∧
      tfind (jobIs (job0 .running)).jobs 0 = some (job0 .running) ∧ (job0 .done).state = .done ∧
      ({ job0 .running with copy := some (copy0 .reading) } : Job).copy ≠ none ∧ (job0 .running).copy = none ∧
      (job0 .running).waiting = false ∧ (job0 .running).suspendReq = false ∧ (job0 .pausedPool).state = .pausedPool ∧
      (job0 .suspended).state = .suspended ∧ ({ jobIs (job0 .suspended) with yielding := true } : State).yielding = true := by
  unfold State.ctlServes State.ctlFree; decide

theorem witness_RestoreAbortEndsTheJob :
    let s := { jobIs { job0 .running with copy := some (copy0 .writing) } with
      shelf := { Shelf.atReset 1 with slots := [(0, { cmd := { kind := .write, cls := .restore, pcn := 0, first := 0, count := 1, data := [], owner := .restore 0 }, epoch := 1, use := 1, timeout := 50 })] } }
    s.ctlServes ∧ tfind s.jobs 3 = none ∧ (job0 .done).state.ended = true ∧ (job0 .running).state.ended = false ∧
      (job0 .running).waiting = false ∧ Table.sorted s.jobs = true ∧
      (∀ p ∈ s.jobs, p.1 ≠ 0 → p.2.state ≠ .running ∧ p.2.state ≠ .pausedPool) ∧
      firstProceed [] (s.busy.filter fun i => i.owner != .restore 0) = none ∧ (∀ p ∈ s.vols, p.2.drain = none) ∧
      s.shelf.fgQueue = [] ∧ s.shelf.offsiteQueue = [] ∧ (∀ c ∈ s.shelf.restoreQueue, c.owner = .restore 0) ∧
      s.wf = true ∧ (∃ p ∈ s.shelf.slots, p.2.cmd.owner = .restore 0) ∧ (copy0 .reading).stage = .reading := by
  unfold State.ctlServes State.ctlFree; decide

theorem witness_SuspendResumeStatusAndClearByJobState_statusAndClear :
    (jobIs (job0 .done)).ctlServes ∧ tfind base.jobs 3 = none ∧
      tfind (jobIs (job0 .done)).jobs 0 = some (job0 .done) := by
  unfold State.ctlServes State.ctlFree; decide

theorem witness_SetFullScanAndRunPlanSet_plan : base.ctlServes := base_serves

theorem witness_RunStartChecksAndOpensThePass :
    (inPart .standby 0 base).ctlServes ∧ (inPart .standby 0 base).ctl.part = .standby ∧
      (runIs activeRun).run.state ≠ .idle ∧ base.plan = [] ∧
      ({ base with plan := [0, 5] } : State).plan.find? (fun w => decide
        ((base.vol w).state = .absent ∨ (base.vol w).state = .deleting)) = some 5 ∧
      (let s := { volIs { vol0 with offsite := false } with plan := [0] }
       s.plan.find? (fun w => !(s.vol w).offsite) = some 0) ∧
      (let s := { volIs { vol0 with snaps := [(0, snap1)] } with
         plan := [0], port := { Port.atReset 0 with up := true, site := some 0 } }
       s.ctlServes ∧ s.ctl.part = .running ∧ s.run.state = .idle ∧ s.plan ≠ [] ∧
         (∀ w ∈ s.plan, ¬ ((s.vol w).state = .absent ∨ (s.vol w).state = .deleting) ∧ (s.vol w).offsite = true) ∧
         s.port.up = true ∧ s.port.site = some s.ctl.config.partnerSite ∧ s.plan[0]? = some 0 ∧
         tfind (s.vol 0).snaps 0 ≠ none ∧ s.port.held = false ∧ s.port.nextSend ≤ s.port.pace ∧
         s.port.outstanding.length < s.ctl.config.window) ∧
      ({ Port.atReset 0 with nextSend := 1 } : Port).pace < ({ Port.atReset 0 with nextSend := 1 } : Port).nextSend := by
  unfold State.ctlServes State.ctlFree; decide

theorem witness_RunEndsEarly :
    base.ctlServes ∧ base.run.state = .idle ∧ (runIs { activeRun with state := .stopping }).ctlServes ∧
      (runIs { activeRun with reading := some ⟨0, false⟩ }).run.reading ≠ none ∧ (runIs activeRun).ctlServes ∧
      (runIs activeRun).run.state ≠ .idle ∧ (runIs activeRun).run.state ≠ .stopping ∧
      (runIs activeRun).run.reading = none ∧
      (∀ v, (runIs activeRun).runDrains v → (runIs activeRun).releaseWaits v) ∧
      (runIs activeRun).run.deadline ≤ 1000 ∧
      (let s := runIs { activeRun with deadline := 101 }
       s.sched.clockSet = true ∧ s.sched.clock + 1 < 4294967296 ∧ s.run.deadline ≤ s.sched.clock + 1 ∧
         (s.sched.clock + 1) % 60 ≠ 0) := by
  unfold State.ctlServes State.ctlFree
  refine ⟨by decide, by decide, by decide, by decide, by decide, by decide, by decide, by decide, ?_, by decide,
    by decide⟩
  rintro v ⟨h, -, d⟩
  cases h
  exact absurd d (by decide)

theorem witness_StatusRunStatusAndPlanReport_run :
    base.ctlServes ∧ State.reset.sched.clockSet = false ∧ base.sched.clockSet = true ∧ base.plan = [] ∧
      (let s := { base with plan := [0] }
       s.ctlServes ∧ s.plan ≠ [] ∧
         ∀ v ∈ s.plan, (s.vol v).state ≠ .absent ∧ (s.vol v).state ≠ .deleting ∧ (s.vol v).offsite = true) := by
  unfold State.ctlServes State.ctlFree; decide

def scanning (pos : Nat) : State :=
  { volIs { vol0 with snaps := [(0, snap1)] } with
    plan := [0], run := { activeRun with phase := .send, fullScan := true, pos := pos } }

theorem witness_FullScanStepVisitsOneLcn :
    base.currentVol = none ∧ (runIs Run.fresh).currentVol = some 0 ∧ (runIs Run.fresh).run.state = .idle ∧
      (∀ n ∈ [0, 1], (scanning n).ctl.part ≠ .recovering ∧ (scanning n).currentVol = some 0 ∧ (scanning n).run.state ≠ .idle ∧
        (scanning n).run.state ≠ .stopping ∧ (scanning n).run.phase = .send ∧ (scanning n).run.frames = [] ∧
        (scanning n).run.reading = none ∧ (scanning n).run.shelfMark = false ∧ (scanning n).run.fullScan = true ∧
        (scanning n).run.scanRead = false ∧ (scanning n).run.pos < ((scanning n).vol 0).size ∧
        ((scanning n).vol 0).state ≠ .absent) ∧
      viewLookup ((scanning 0).vol 0) 1 0 = none ∧ (scanning 0).run.clearCount + 1 < 65535 ∧
      (scanning 0).run.pos + 1 < ((scanning 0).vol 0).size ∧ viewLookup ((scanning 1).vol 0) 1 1 = some 18 ∧
      (scanning 1).run.clearCount = 0 ∧ (scanning 1).shelf.up = false := by decide

/-- A clear run of `n` LCNs is pending before LCN `pos`. -/
def gathering (n pos : Nat) : State :=
  { scanning pos with run := { (scanning pos).run with clearStart := 0, clearCount := n } }

/-- R131: the run of a scan is closed at 65,535 LCNs, at the last LCN, and by a mapped view. -/
theorem witness_FullScanStepVisitsOneLcn_closed :
    (∀ p ∈ [(65534, 0), (1, 3), (1, 1)],
      let s := gathering p.1 p.2
      s.currentVol = some 0 ∧ s.port.up = false ∧ s.run.pos < (s.vol 0).size ∧ (s.vol 0).state ≠ .absent) ∧
      (runView ((gathering 65534 0).vol 0) 0 = none ∧ 65535 ≤ (gathering 65534 0).run.clearCount + 1) ∧
      (runView ((gathering 1 3).vol 0) 3 = none ∧ ((gathering 1 3).vol 0).size ≤ 3 + 1) ∧
      (runView ((gathering 1 1).vol 0) 1 = some 18 ∧ (gathering 1 1).run.clearCount ≠ 0) ∧
      (after .fullScanStep (gathering 65534 0)).run.frames.map (fun f => (f.kind, f.lcn, f.count)) =
        [(.chunkClear, 0, 65535)] ∧
      (after .fullScanStep (gathering 1 1)).run.scanRead = true := by decide

theorem witness_OffsiteLinkComesUpAndIsHeldOrLost :
    base.run.state = .idle ∧ base.run.frames = [] ∧ base.port.outstanding = [] ∧ base.port.up = false ∧
      (runIs activeRun).run.state ≠ .idle ∧ 1 ≠ (runIs activeRun).ctl.config.partnerSite ∧
      (∀ v, (runIs activeRun).runDrains v → (runIs activeRun).releaseWaits v) := by
  refine ⟨by decide, by decide, by decide, by decide, by decide, by decide, ?_⟩
  rintro v ⟨h, -, d⟩
  cases h
  exact absurd d (by decide)

theorem witness_AckTakesFramesOffTheList :
    ¬ (base.port.up = true ∧ base.port.seqRun = some 1) ∧ port1.up = true ∧ port1.seqRun = some 1 ∧
      1 ≤ port1.nextNo ∧ port1.outstanding.head? = none ∧
      (let p := { port1 with nextNo := 3, outstanding := [frameOf .chunkClear 2] }
       p.outstanding.head? = some (frameOf .chunkClear 2) ∧ ¬ (2 < (frameOf .chunkClear 2).seq ∨ p.nextNo ≤ 2) ∧
         p.resendPos = none ∧ ∀ f ∈ p.outstanding, f.seq ≤ 2 → f.kind ≠ .volumeSeal ∧ f.kind ≠ .runClose) ∧
      (let s := { runIs { activeRun with phase := .seal } with
         port := { port1 with nextNo := 3, outstanding := [frameOf .volumeSeal 2] } }
       s.run.frames = [] ∧ s.port.outstanding = [frameOf .volumeSeal 2] ∧ s.currentVol = some 0 ∧
         s.run.planIndex + 1 = s.plan.length ∧ s.run.state = .active ∧ (s.vol 0).state = .normal) := by decide

theorem witness_NakAndAckTimerRetry :
    let s := portIs { port1 with
      nextNo := 3, outstanding := [frameOf .chunkClear 2], ackTimer := some 20, nextSend := 9, retry := 8 }
    s.port.pace < s.port.nextSend ∧ s.port.up = true ∧ s.port.seqRun = some 1 ∧
      (∃ f ∈ s.port.outstanding, f.seq = 2) ∧ s.ctl.config.retryLimit < s.port.retry + 1 ∧
      s.port.ackTimer = some 20 ∧ s.port.outstanding.head? = some (frameOf .chunkClear 2) ∧
      base.port.ackTimer = none ∧ base.port.up = false := by decide

theorem witness_OffsiteLinkComesUpAndIsHeldOrLost_hold : base.run.frames = [] ∧ base.port.resendPos = none := by decide

theorem witness_FramesThatAreNoRequestAreAnsweredOrCounted_offsite :
    ([] : List Byte).length ≠ 48 ∧
      (∃ b ∈ ((17#8 :: List.replicate 22 0#8 ++ [1#8] ++ List.replicate 24 0#8).drop 20).take 4, b ≠ 0#8) ∧
      (List.replicate 48 22#8).head? = some 22#8 ∧ 22#8 ∉ [17#8, 18#8, 19#8, 20#8, 21#8] := by decide

theorem witness_PacedPortResendsFirst :
    base.port.up = false ∧
      (let p := { port1 with nextNo := 3, outstanding := [frameOf .chunkClear 2], resendPos := some 2, nextSend := 9 }
       p.up = true ∧ p.held = false ∧ p.nextSend ≤ 9 ∧ p.resendPos = some 2 ∧
         p.outstanding.find? (fun g => g.seq == 2) = some (frameOf .chunkClear 2)) := by decide

def slot0 (owner : CmdOwner) : SlotRec :=
  { cmd := { kind := .read, cls := .foreground, pcn := 18, first := 0, count := 1, data := [], owner := owner },
    epoch := 1, use := 1, timeout := 50 }

theorem witness_ShelfReplyEndsItsCommand :
    let s := { base with
      inflight := [entry0 .read .active], nextArrival := 1,
      busy := [{ owner := .front 0, vol := 0, chunks := [1], change := false, proceeded := true }],
      shelf := { Shelf.atReset 1 with slots := [(0, slot0 (.request 0 1 .readData))] } }
    let x := entry0 .read .active
    tfind s.shelf.slots 63 = none ∧ tfind s.shelf.slots 0 = some (slot0 (.request 0 1 .readData)) ∧
      ¬ ((slot0 .dropped).epoch = 0 ∧ (slot0 .dropped).use = 1) ∧ s.wf = true ∧
      s.inflight.find? (fun y => y.arrival == x.arrival) = some x ∧ x.req.kind = .read ∧ x.req.view = none ∧
      x.left = 1 ∧ x.failed = false ∧ s.frontUp = true ∧
      firstProceed [] (s.busy.filter fun i => i.owner != .front x.arrival) = none ∧
      (∀ p ∈ s.vols, p.2.drain = none) ∧ yieldAfter s = s.yielding ∧ s.shelf.fgQueue = [] ∧ s.shelf.restoreQueue = [] ∧
      s.shelf.offsiteQueue = [] ∧ ([5] : List Block).length = (slot0 .dropped).cmd.count ∧
      (∀ p ∈ s.shelf.slots, p.1 ≠ 0 → p.2.cmd.owner = .dropped) ∧ x.claims = [] ∧ x.charges = [] ∧ x.plan = [] ∧
      (∀ m ∈ s.mirror, m.arrival ≠ x.arrival) := by decide

theorem witness_ShelfTimersAndLink :
    let s := shelfIs { Shelf.atReset 1 with up := true, slots := [(3, slot0 .dropped)] }
    s.shelf.fgQueue = [] ∧ s.shelf.restoreQueue = [] ∧ s.shelf.offsiteQueue = [] ∧ tfind s.shelf.slots 0 = none ∧
      tfind s.shelf.slots 3 = some (slot0 .dropped) ∧ (slot0 .dropped).cmd.owner = .dropped ∧
      base.shelf.up = false ∧ s.shelf.up = true ∧ (∀ p ∈ s.shelf.slots, p.2.cmd.owner = .dropped) ∧
      s.run.shelfMark = false := by decide

def clockIs (n : Nat) : State := { base with sched := { base.sched with clock := n } }

theorem witness_ClockAdvancesAndFiringPassTakesTheHead :
    State.reset.sched.clockSet = false ∧ 4294967295 ≤ (clockIs 4294967295).sched.clock ∧ base.sched.clockSet = true ∧
      (clockIs 4294967294).sched.clock < 4294967295 ∧ base.run.state = .idle ∧ (base.sched.clock + 1) % 60 ≠ 0 ∧
      (let s := inPart .standby 0 { base with sched := { base.sched with clock := 86399, swap := true } }
       (s.sched.clock + 1) % 86400 = 0 ∧ s.ctl.part = .standby ∧ s.sched.swap = true) ∧
      ((clockIs 119).sched.clock + 1) % 60 = 0 ∧ ((clockIs 119).sched.clock + 1) % 86400 ≠ 0 ∧
      (let x : SchedEntry := { unusedEntry with used := true, action := 5, minute := 2, weekdays := 1, param := 1 }
       let bank : Table SchedEntry := [(0, { x with used := false }), (47, x)]
       bank.filter (fun p => decide (p.2.used = true ∧ p.2.minute = 120 % 86400 / 60 ∧
         p.2.weekdays.testBit (120 / 86400 % 7) = true)) = [(47, x)] ∧ x.action = 5) := by decide

theorem witness_ClockAdvancesAndFiringPassTakesTheHead_firing :
    base.firing = false ∧
      (let s := { base with firing := true, expiryQueue := [(100, 7), (101, 8)] }
       s.expiryQueue = (100, 7) :: [(101, 8)] ∧ s.firing = true ∧ s.sched.clockSet = true ∧ 100 ≤ s.sched.clock ∧
         ¬ s.sched.clock < 100) ∧
      base.sched.clock < 101 ∧
      (after (.timeSet 1 100) { base with expiryQueue := [(100, 7)] }).firing = true := by decide

theorem witness_ScheduleRequestsActOnTheBanks : base.ctlServes := base_serves

theorem witness_FrontRefusalsInOrder :
    base.frontUp = true ∧ (inPart .standby 0 base).ctl.part ≠ .running ∧ base.ctl.part = .running ∧
      256 ≤ (List.replicate 256 (entry0 .read .active)).length ∧
      base.inflight.length < 256 ∧ (base.vol 1).state = .absent ∧ (base.vol 0).state ≠ .absent ∧
      (base.vol 0).state ≠ .deleting ∧ (base.vol 0).size * 2 ^ base.format.k < 0 + 5 ∧
      0 + 4 ≤ (base.vol 0).size * 2 ^ base.format.k ∧ ((volIs { vol0 with state := .frozen }).vol 0).state = .frozen ∧
      (15 ≠ 128 ∧ ∀ d, tfind (base.vol 0).snaps 15 = some d → d.state ≠ .ready) := by
  refine ⟨by decide, by decide, by decide, by decide +kernel, by decide, by decide, by decide, by decide, by decide, by decide,
    by decide, by decide, ?_⟩
  intro d h
  cases h

/-- What the three statements on accepted requests share, in the quiet part `base`. -/
theorem base_quiet :
    base.wf = true ∧ base.frontUp = true ∧ base.ctl.part = .running ∧ base.inflight.length < 255 ∧
      (base.vol 0).state = .normal ∧ 0 + 4 ≤ (base.vol 0).size * 2 ^ base.format.k ∧
      (∀ y ∈ base.inflight, y.arrival < base.nextArrival) ∧
      (∀ i ∈ base.busy, i.owner ≠ .front base.nextArrival) ∧ (∀ m ∈ base.mirror, m.arrival < base.nextArrival) ∧
      firstProceed [] base.busy = none ∧ (∀ p ∈ base.vols, p.2.drain = none) ∧ base.yielding = false ∧
      base.inflight.length + 1 < base.ctl.config.yieldHigh ∧ base.shelf.up = false ∧
      (∀ p ∈ base.jobs, p.2.state.ended = true) := by decide

theorem witness_ReadIsAcceptedAndServed :
    base.wf = true ∧ (base.vol 0).state = .normal ∧
      (base.busy = [] ∧ ((base.vol 0).entry 0).form = .unmapped 0) ∧
      ((base.vol 0).entry 1).form = .mapped 18 1 7 ∧ base.shelf.up = false ∧ base.yielding = false := by decide

theorem witness_WriteIsAcceptedRefusedOrHeld :
    base.wf = true ∧ base.busy = [] ∧
      ((base.acct 7).hard = 268435455 ∧ (base.acct 7).soft = 268435455 ∧ (base.acct 7).expiry = none) ∧
      (let a := ({ base with accounts := [(7, { Account.fresh with charge := 2, hard := 2 })] } : State).acct 7
       a.hard ≠ 268435455 ∧ a.hard < a.charge + a.reserved + 1) ∧
      ({ base with free := [0] } : State).free.length < base.format.floor + 1 ∧
      base.format.floor + 1 ≤ ({ base with free := [0, 1] } : State).free.length ∧
      (let s := volIs { vol0 with drain := some (drain0 (.holding create0)) }
       s.wf = true ∧ (s.vol 0).state = .normal ∧ (s.vol 0).drain ≠ none ∧ s.inflight.length < 255) := by decide

theorem witness_DiscardUnmapsTheChunksItCovers :
    base.busy = [] ∧ (1 ≤ 1 * 2 ^ base.format.k ∧ (1 + 1) * 2 ^ base.format.k ≤ 1 + 1) ∧
      ((base.vol 0).entry 1).form = .mapped 18 1 7 ∧ ((base.vol 0).entry 3).form = .unmapped 0 := by decide

theorem witness_PowerOnAndResetClearTheVolatileState : base.wf = true ∧ base.ctlServes := by
  unfold State.ctlServes State.ctlFree; decide

theorem witness_RecoveryStepsTakeOnePiece :
    base.ctl.part ≠ .recovering ∧
      (let s := { runIs activeRun with
         jobs := [(0, job0 .suspended)],
         mirror := [{ arrival := 3, vol := 0, claims := [40], charges := [(7, 1), (0, -1)], inPlace := [1] }] }
       (∀ n ∈ [1, 2, 3, 4], (inPart .recovering n s).ctl.part = .recovering ∧ (inPart .recovering n s).ctl.recStep = n) ∧
         s.inflight = [] ∧ s.busy = [] ∧ (∀ p ∈ s.vols, p.2.drain = none) ∧ s.yielding = false ∧
         1 ≤ s.ctl.config.yieldHigh ∧ s.shelf.up = false ∧ s.port.up = false ∧
         (∀ p ∈ s.jobs, p.2.state ≠ .pausedPool) ∧ (∀ r ∈ s.mirror, (r.charges.map Prod.fst).Nodup) ∧
         s.returns = [] ∧ s.jobs.find? (fun p => !p.2.state.ended) = some (0, job0 .suspended) ∧
         tfind s.jobs 0 = some (job0 .suspended) ∧ s.run.state ≠ .idle) ∧
      ({ base with returns := [5] } : State).returns = 5 :: [] := by decide

/-! The values that other statements name -/

theorem witness_DerivedValues :
    (∃ p ∈ vol55.snaps, p.2.state ≠ .deleting) ∧ (∀ p ∈ Volume.absent.snaps, p.2.state = .deleting) ∧
      (vol55.snaps.map fun p => p.2.gen).Nodup ∧ (2, { snap1 with gen := 2, retained := [⟨0, 200, 2⟩, ⟨1, 101, 1⟩] }) ∈ vol55.snaps ∧
      (1 ≤ 2 ∧ ∃ r ∈ [(⟨0, 200, 2⟩ : RetEntry), ⟨1, 101, 1⟩], r.lcn = 1) ∧
      ([(⟨0, 200, 2⟩ : RetEntry), ⟨1, 101, 1⟩].find? fun r => r.lcn == 1) = some ⟨1, 101, 1⟩ ∧
      (∀ p ∈ vol55.snaps, ¬ (1 ≤ p.2.gen ∧ ∃ r ∈ p.2.retained, r.lcn = 3)) ∧
      (1439 < 1440 ∧ 100 < 86340 ∧ 86340 ≤ 4294967295 ∧ 86340 % 86400 = 1439 * 60) ∧
      Table.sorted [(5, { Account.fresh with expiry := some 9 }), (65535, { Account.fresh with expiry := some 2 })] = true := by
  decide

/-- The earliest later minute in the witness of the deadline: no earlier time of the day's last minute follows 100. -/
theorem witness_DerivedValues_deadline : ∀ u, 100 < u → u % 86400 = 1439 * 60 → 86340 ≤ u := by
  intro u _ h
  omega

/-- The pool of `base` at and below its low and clear marks (R5), and the reserve of volume 0 at and above its limit,
with a band greater than the limit (R84). -/
theorem test_watermark_and_reserve_rows :
    (evalPool { base with free := [0, 1] }).2 = [] ∧
      (evalPool { base with free := [0] }).2.map (fun n => (n.kind, n.d1, n.d2)) = [(.poolLow, 1, 2)] ∧
      (evalPool { base with free := [0, 1, 2], poolLow := true }).2 = [] ∧
      (evalPool { base with free := [0, 1, 2, 3], poolLow := true }).1.poolLow = false ∧
      (evalReserve (volIs { vol55 with reserveLimit := 4 }) 0).2 = [] ∧
      ((evalReserve (volIs { vol55 with reserveLimit := 3 }) 0).1.vol 0).reserveOver = true ∧
      (evalReserve (volIs { vol55 with reserveLimit := 3, reserveOver := true }) 0).2 = [] ∧
      (evalReserve (volIs { vol0 with reserveLimit := 3, reserveOver := true }) 0).2.map (fun n => (n.kind, n.d1, n.d2)) =
        [(.reserveCleared, 0, 3)] := by decide

theorem witness_AccountEvaluationSettlesAndReports_queue :
    let s := { base with accounts := [(7, { Account.fresh with charge := 2, soft := 1 })] }
    let q := { base with
      accounts := [(7, { Account.fresh with charge := 2, soft := 1, expiry := some 900, queued := true })],
      expiryQueue := [(900, 7)] }
    (((evaluateAccount s 7).1.acct 7).expiry = some 604900 ∧ (s.acct 7).queued = false ∧ s.ctl.part ≠ .recovering ∧
      s.sched.clockSet = true ∧ s.sched.clock < 604900 ∧ s.expiryQueue.length < 4096) ∧
    (((evaluateAccount q 7).1.acct 7).expiry = some 900 ∧ (q.acct 7).queued = true) ∧
    ((evaluateAccount base 7).1.acct 7).expiry = none := by decide

/-! The ends of shelf commands -/

/-- A WRITE of chunks 1 to 3 of volume 0, of the three classes, whose last command is in slot 0. -/
def write3 : Entry :=
  { arrival := 0, req := { tag := 3, kind := .write, vol := 0, view := none, start := 1, count := 3, owner := 7 },
    state := .active, gen := 1,
    plan := [{ lcn := 1, cls := .shared, old := some (18, 1, 7), claimed := some 0, reads := 0, copied := [], slotted := true },
      { lcn := 2, cls := .inPlace, old := none, claimed := none, reads := 0, copied := [], slotted := true },
      { lcn := 3, cls := .unmapped, old := none, claimed := some 1, reads := 0, copied := [], slotted := true }],
    claims := [0, 1], charges := [(7, 1)], left := 1, failed := false, data := [5, 6, 7] }

def slotOf (kind : ShelfKind) (owner : CmdOwner) : SlotRec :=
  { cmd := { kind := kind, cls := .foreground, pcn := 0, first := 0, count := 1, data := [], owner := owner },
    epoch := 1, use := 1, timeout := 50 }

def committing : State :=
  { volIs { vol0 with map := [mapped 1 18 1 7, mapped 2 19 2 7] } with
    inflight := [write3], nextArrival := 1, claims := 2, free := (List.range 18).drop 2,
    accounts := [(7, { Account.fresh with charge := 3 })],
    mirror := [{ arrival := 0, vol := 0, claims := [0, 1], charges := [(7, 1)], inPlace := [2] }],
    busy := [{ owner := .front 0, vol := 0, chunks := [1, 2, 3], change := true, proceeded := true }],
    shelf := { Shelf.atReset 1 with up := true, slots := [(0, slotOf .write (.request 0 3 .chunkWrite))] } }

theorem write3_plan : planLaw committing write3 := by
  refine ⟨by decide, ?_, by decide, by decide⟩
  intro p hp
  have h : p = write3.plan[0] ∨ p = write3.plan[1] ∨ p = write3.plan[2] := by simpa [write3] using hp
  obtain rfl | rfl | rfl := h
  · exact ⟨by decide, Option.some_ne_none 0, rfl⟩
  · exact ⟨by decide, trivial⟩
  · exact ⟨by decide, Option.some_ne_none 1⟩

theorem witness_WriteEndsAtItsLastReply :
    (tfind committing.shelf.slots 0 = some (slotOf .write (.request 0 3 .chunkWrite)) ∧
      committing.inflight.find? (fun z => z.arrival == write3.arrival) = some write3 ∧ write3.writes = true ∧
      write3.left = 1 ∧ write3.failed = false ∧ committing.wf = true ∧ committing.frontUp = true ∧
      committing.yielding = false ∧ committing.inflight.length ≤ committing.ctl.config.yieldHigh) ∧
    planLaw committing write3 ∧ (committing.vol 0).genLaw ∧ committing.quietBut (.front 0) :=
  ⟨by decide, write3_plan, by simp [committing, State.vol, tget, tfind, volIs, Volume.genLaw, vol0, snap1, mapped],
    by unfold State.quietBut; decide⟩

/-- 2.3, 3.10: the shared chunk's old PCN is kept, the chunk written in place keeps its entry, the third is mapped. -/
theorem test_write_of_three_classes_commits :
    let t := after (.shelfReply 0 1 1 true (.done [] 0)) committing
    [1, 2, 3].map (fun l => ((t.vol 0).entry l).form) = [.mapped 0 2 7, .mapped 19 2 7, .mapped 1 2 7] ∧
      (tfind (t.vol 0).snaps 1).map Snap.retained = some [⟨1, 18, 1⟩] ∧ (t.vol 0).activeList = [1, 2, 3] ∧
      t.claims = 0 := by decide

def copyingWith (slot : ShelfKind) (j : Job) : State :=
  { jobIs j with shelf := { Shelf.atReset 1 with up := true, slots := [(0, slotOf slot (.restore 0))] } }

theorem witness_RestoreCopyReadsThenCommits :
    (let x : Job := { job0 .running with copy := some (copy0 .reading) }
     let s := copyingWith .read x
     tfind s.shelf.slots 0 = some (slotOf .read (.restore 0)) ∧ tfind s.jobs 0 = some x ∧ x.state = .running ∧
       x.waiting = false ∧ s.wf = true ∧ (copy0 .reading).stage = .reading ∧ s.shelf.up = true ∧
       s.shelf.fgQueue = [] ∧ s.shelf.restoreQueue = [] ∧ s.shelf.offsiteQueue = [] ∧
       ([5] : List Block).length = (slotOf .read (.restore 0)).cmd.count ∧ tfind (tdel 0 s.shelf.slots) 0 = none) ∧
    (∀ x ∈ [{ job0 .running with copy := some (copy0 .writing) },
        { job0 .running with
          copy := some (copy0 .writing), suspendReq := true, ranges := [{ src := 0, count := 2, dst := 2 }] }],
      let s := copyingWith .write x
      tfind s.shelf.slots 0 = some (slotOf .write (.restore 0)) ∧ tfind s.jobs 0 = some x ∧ x.state = .running ∧
        x.waiting = false ∧ x.copy = some (copy0 .writing) ∧ s.wf = true ∧ (copy0 .writing).stage = .writing ∧
        (x.ranges[x.rangeIdx]? ≠ none) ∧ s.quietBut (.restore 0)) ∧
    (let x := job0 .running
     (if x.offset + 1 < 1 then (x.rangeIdx, x.offset + 1) else (x.rangeIdx + 1, 0)) = (1, 0) ∧ x.ranges[1]? = none) ∧
    (vol0.genLaw ∧ ({ base with yielding := true } : State).yielding = true) := by
  refine ⟨by decide, ?_, by decide, by simp [Volume.genLaw, vol0, snap1, mapped], by decide⟩
  unfold State.quietBut
  decide

/-- 6.4: a copy of two chunks goes on to the second. -/
theorem test_restore_copy_commits :
    let t := after (.shelfReply 0 1 1 true (.done [] 0)) (copyingWith .write { job0 .running with
      copy := some (copy0 .writing), suspendReq := true, ranges := [{ src := 0, count := 2, dst := 3 }] })
    ((t.vol 0).entry 3).form = .mapped 0 2 7 ∧
      t.jobs.map (fun p => (p.2.state, p.2.rangeIdx, p.2.offset, p.2.copied)) = [(.suspended, 0, 1, 1)] := by decide

theorem witness_ShelfReplyEndsItsCommand_send :
    ∀ st ∈ [RunState.active, .stopping],
      let s := { runIs { activeRun with state := st, phase := .send, reading := some ⟨1, false⟩ } with
        port := { port1 with nextSend := 1 }, shelf := { Shelf.atReset 1 with slots := [(0, slot0 .send)] } }
      tfind s.shelf.slots 0 = some (slot0 .send) ∧ (slot0 .send).cmd.kind = .read ∧ s.shelf.fgQueue = [] ∧
        s.shelf.restoreQueue = [] ∧ s.shelf.offsiteQueue = [] ∧ s.port.pace < s.port.nextSend ∧
        s.run.reading = some ⟨1, false⟩ ∧ s.currentVol = some 0 ∧
        ([5] : List Block).length = (slot0 .send).cmd.count ∧ (s.vol 0).drain = none := by decide

/-! The rest of the new clauses -/

theorem witness_MergeWalkMovesOrFreesOneEntry_end :
    let s := volIs { walking [⟨1, 101, 1⟩] with
      deleteQueue := [2, 3],
      snaps := [(1, { snap1 with retained := [⟨0, 100, 1⟩] }),
        (2, { snap1 with gen := 2, state := .deleting, retained := [⟨1, 101, 1⟩] }),
        (3, { snap1 with gen := 3, state := .deletePending, retained := [⟨2, 202, 3⟩] })] }
    (s.vol 0).deleteQueue = 2 :: [3] ∧
      tfind (s.vol 0).snaps 2 = some { snap1 with gen := 2, state := .deleting, retained := [⟨1, 101, 1⟩] } ∧
      s.wf = true ∧ (2 ≠ 0 ∨ s.run.state = .idle) ∧ [3].head? = some 3 ∧
      tfind (s.vol 0).snaps 3 = some { snap1 with gen := 3, state := .deletePending, retained := [⟨2, 202, 3⟩] } ∧
      newestSnap (fun q => q.state != .deleting && decide (q.gen < 2)) (s.vol 0).snaps =
        some (1, { snap1 with retained := [⟨0, 100, 1⟩] }) ∧
      (let t := after (.mergeWalkStep 0) s
       (t.vol 0).deleteQueue = [3] ∧ (tfind (t.vol 0).snaps 3).map Snap.state = some .deleting ∧
         t.ctl.notices.map (fun n => (n.kind, n.d1, n.d2)) = [(.deleteDone, 2, 0)]) := by decide

theorem witness_FreezeAndThawByVolumeState_freezing :
    let s := volIs { vol0 with state := .freezing, drain := some (drain0 (.refusing [.schedule 3 (some 1)])) }
    s.ctlServes ∧ (s.vol 0).state = .freezing ∧ (s.vol 0).waiting = [] ∧ (s.vol 0).holdList = [] ∧
      (s.vol 0).drain = some { work := .refusing [.schedule 3 (some 1)], members := [.front 0], timeout := 20 } := by
  unfold State.ctlServes State.ctlFree; decide

theorem witness_PacedPortResendsFirst_new :
    let s := { runIs { activeRun with phase := .send, frames := [frameOf .chunkData 0] } with port := port1 }
    s.port.up = true ∧ s.port.held = false ∧ s.port.nextSend ≤ 0 ∧ s.port.resendPos = none ∧ s.port.seqRun ≠ none ∧
      s.port.outstanding.length < s.ctl.config.window ∧ 0 < s.ctl.config.nightRate ∧
      s.run.frames = frameOf .chunkData 0 :: [] ∧ s.run.phase ≠ .freeze := by decide

theorem witness_DiscardUnmapsTheChunksItCovers_law : base.wf = true ∧ (base.vol 0).genLaw :=
  ⟨by decide, by simp [base, State.vol, tget, tfind, Volume.genLaw, vol0, snap1, mapped]⟩

theorem witness_RecoveryStepsTakeOnePiece_runEnds :
    let s := inPart .recovering 3 (runIs { activeRun with deadline := 101 })
    s.ctl.recStep = 3 ∧ s.run.state ≠ .idle ∧ 1 ≠ s.ctl.config.partnerSite ∧ s.sched.clockSet = true ∧
      s.sched.clock < 4294967295 ∧ s.run.deadline ≤ s.sched.clock + 1 ∧ s.port.up = false ∧ s.shelf.up = false ∧
      s.inflight = [] ∧ s.busy = [] := by decide

/-- A deadline that comes, or a partner of another site, while recovery step 3 waits ends the run and the recovery goes
on (log entry 46). -/
theorem test_recovery_goes_on_past_an_ended_run :
    let s := inPart .recovering 3 (runIs { activeRun with deadline := 101 })
    ((after .clockAdvance s).run.result, (after .clockAdvance s).ctl.part) = (.deadline, .standby) ∧
      ((after (.hello 1) s).run.result, (after (.hello 1) s).ctl.part) = (.failed, .standby) := by decide

theorem witness_RestoreStartChecksAndStarts_oneVolume :
    let s := { base with yielding := true }
    s.ctlServes ∧ (s.vol 0).state = .normal ∧ (s.vol 0).drain = none ∧ (s.vol 0).waiting = [] ∧
      (s.vol 0).holdList = [] ∧ tfind (s.vol 0).snaps 1 = some snap1 ∧ tfind s.jobs 0 = none ∧ drainSet s 0 = [] ∧
      (s.vol 0).gen < 4294967294 ∧ (s.vol 0).emptySlot = some 2 ∧ ¬ s.free.length < 1 + s.format.floor ∧
      s.ctl.part ≠ .recovering := by
  unfold State.ctlServes State.ctlFree; decide

/-! Due entries -/

/-- An entry of volume 0 due at minute 2 of day 0. -/
def due0 (action snapOpt : Nat) : SchedEntry :=
  { unusedEntry with used := true, action := action, minute := 2, weekdays := 1, volume := 0, snapOpt := snapOpt,
                     param := 3, keep := 1, label := 58 }

/-- One second before the boundary, with one due entry at index 3 of bank A. -/
def dueIs (x : SchedEntry) (s : State) : State :=
  { s with sched := { s.sched with clock := 119, bankA := [(3, x)] } }

def series3 (d : Snap) : Snap := { d with kind := .scheduled, series := some 3 }

theorem witness_DueEntriesFire :
    ∀ x ∈ [due0 1 0, due0 2 0, due0 2 1, due0 3 0, due0 4 0],
      let s := dueIs x base
      s.sched.clockSet = true ∧ s.sched.clock < 4294967295 ∧ s.run.state = .idle ∧ 120 % 60 = 0 ∧ 120 % 86400 ≠ 0 ∧
        s.ctl.part = .running ∧ s.sched.activeB = false ∧
        s.sched.bankA.filter (fun p => decide (p.2.used = true ∧ p.2.minute = (s.sched.clock + 1) % 86400 / 60 ∧
          p.2.weekdays.testBit ((s.sched.clock + 1) / 86400 % 7) = true)) = [(3, x)] ∧
        ∀ p ∈ s.jobs, p.2.state ≠ .running := by decide

theorem witness_DueEntriesFire_volumes :
    ((volIs { vol0 with state := .deleting }).vol 0).state = .deleting ∧
      createCheck .scheduled { vol0 with reserveLimit := 0 } = some .reserve ∧
      createCheck .scheduled vol0 = none ∧ vol0.emptySlot = some 2 ∧
      (vol0.state = .normal ∧ vol0.drain = none ∧ vol0.waiting = [] ∧ vol0.holdList = [] ∧ drainSet base 0 = []) ∧
      drainSet writing 0 ≠ [] ∧ (vol0.snaps.filter fun p => p.2.kind == .scheduled).length < 1 ∧
      (let y := { vol0 with snaps := [(1, { series3 snap1 with held := true })] }
       createCheck .scheduled y = none ∧ y.emptySlot = some 2 ∧ (series3 snap1).state = .ready) ∧
      (let y := { vol0 with gen := 3, snaps := [(1, series3 snap1), (2, { snap1 with gen := 2, state := .deletePending })],
                            deleteQueue := [2] }
       createCheck .scheduled y = none ∧ y.emptySlot = some 3 ∧ (volIs y).wf = true ∧
         (y.snaps.map fun p => p.2.gen).Nodup ∧
         y.snaps.filter (fun p => p.2.kind == .scheduled && p.2.series == some 3 && p.2.state == .ready) =
           [(1, series3 snap1)] ∧ (series3 snap1).held = false ∧ (series3 snap1).inUse = 0) ∧
      (∀ f ∈ base.sched.followUps, f.number ≠ 0) ∧
      (List.replicate 48 ({ number := 0, vol := 0, index := 0, series := 0, keep := 1, label := 0 } : FollowUp)).length = 48 := by
  decide

theorem witness_DueEntriesFire_thawAndRun :
    (let s := draining .freezing (.refusing [.control])
     (s.vol 0).drain = some { work := .refusing [.control], members := [.front 0], timeout := 20 } ∧
       s.ctl.executing = some { tag := 9, number := 11 } ∧ s.frontUp = true ∧ s.ctl.queue = [] ∧
       (s.vol 0).waiting = [] ∧ (s.vol 0).holdList = []) ∧
    ((runIs activeRun).run.state ≠ .idle ∧ 120 < (runIs activeRun).run.deadline) ∧ base.plan = [] ∧
    ({ base with plan := [0, 5] } : State).plan.find? (fun w => !decide
      ((base.vol w).state ≠ .absent ∧ (base.vol w).state ≠ .deleting)) = some 5 ∧
    (let s := { volIs { vol0 with offsite := false } with plan := [0] }
     s.plan.find? (fun w => !(s.vol w).offsite) = some 0) ∧
    (let s := { volIs { vol0 with snaps := [(0, snap1)] } with
       plan := [0], port := { Port.atReset 0 with up := true, site := some 0, nextSend := 1 } }
     s.plan ≠ [] ∧ (∀ w ∈ s.plan, (s.vol w).state ≠ .absent ∧ (s.vol w).state ≠ .deleting ∧ (s.vol w).offsite = true) ∧
       s.port.up = true ∧ s.port.site = some s.ctl.config.partnerSite ∧ s.plan[0]? = some 0 ∧
       tfind (s.vol 0).snaps 0 ≠ none ∧ s.port.pace < s.port.nextSend) := by decide

/-- 10.4: a due FREEZE behind a WRITE in hand keeps the follow-up record of its snapshot, and a due THAW ends it. -/
theorem test_due_freeze_and_thaw :
    let s := after .clockAdvance (dueIs (due0 2 1) writing)
    (s.vol 0).state = .freezing ∧ s.sched.followUps.map (fun f => (f.number, f.vol, f.index, f.series)) = [(0, 0, 3, 3)] ∧
      (let t := after .clockAdvance (dueIs (due0 3 0) s)
       (t.vol 0).state = .normal ∧ t.sched.followUps = [] ∧
         t.ctl.notices.map (fun n => (n.kind, n.d1, n.d2)) = [(.freezeSkipped, 18, 3)]) := by decide

/-- The follow-up record of another freeze of the same volume and index stands (log entry 45). -/
theorem test_follow_up_is_matched_by_its_number :
    let f : FollowUp := { number := 0, vol := 0, index := 3, series := 3, keep := 1, label := 58 }
    let s := { volIs { vol0 with state := .freezing, drain := some (drain0 (.refusing [.schedule 3 none])) } with
      sched := { base.sched with followUps := [f] } }
    (after (.thaw 1 0) s).sched.followUps = [f] := by decide

/-! ### Witnesses of the clauses on the ends of shelf commands, visits, the run's freeze and the arbiter -/

/-- Two commands of the WRITE in slots: the one that ends, and another in slot 63. -/
def twoSlots : State :=
  { committing with
    inflight := [{ write3 with left := 2 }],
    shelf := { Shelf.atReset 1 with
      up := true, slots := [(0, slotOf .write (.request 0 3 .chunkWrite)), (63, slotOf .write (.request 0 1 .chunkWrite))] } }

def failedWrite : Entry := { write3 with failed := true }

theorem witness_WriteEndsAtItsLastReply_fails :
    (∀ p ∈ [(committing, write3), (twoSlots, { write3 with left := 2 }), ({ committing with inflight := [failedWrite] }, failedWrite)],
      let (s, x) := p
      tfind s.shelf.slots 0 = some (slotOf .write (.request 0 3 .chunkWrite)) ∧
        s.inflight.find? (fun z => z.arrival == x.arrival) = some x ∧ x.writes = true ∧ s.wf = true ∧ s.frontUp = true ∧
        s.quietBut (.front x.arrival) ∧ s.yielding = false ∧ s.inflight.length ≤ s.ctl.config.yieldHigh) ∧
      ((tdel 0 committing.shelf.slots).filter fun p => match p.2.cmd.owner with
        | .request a _ _ => a == write3.arrival
        | _ => false) = [] ∧
      ((tdel 0 twoSlots.shelf.slots).filter fun p => match p.2.cmd.owner with
        | .request a _ _ => a == write3.arrival
        | _ => false) ≠ [] ∧
      failedWrite.left = 1 ∧ failedWrite.failed = true := by
  unfold State.quietBut; decide

/-- R37, R54: an error with no other command in a slot fails the WRITE: its claims come back in order, its charge is
reversed, the chunk written in place is logged, and the map stands. -/
theorem test_write_fails_at_an_error :
    let t := after (.shelfReply 0 1 1 true (.error 9)) committing
    t.out = [.front 0 2 .media 3 0 []] ∧ t.free.drop 16 = [0, 1] ∧ t.claims = 0 ∧ (t.acct 7).charge = 2 ∧
      (t.vol 0).activeList = [2] ∧ [1, 2, 3].map (fun l => ((t.vol 0).entry l).form) =
        [.mapped 18 1 7, .mapped 19 2 7, .unmapped 0] := by decide

/-- A suspended job of volume 0 onto itself, one chunk from LCN `src` to LCN `dst`, with PRE-RESTORE generation `g`. -/
def resuming (x : Volume) (src dst count g : Nat) : State :=
  { volIs x with
    jobs := [(0, { job0 .suspended with ranges := [{ src := src, count := count, dst := dst }], pre := some (2, g) })] }

theorem vol0_generations : vol0.genLaw ∧ ({ vol0 with state := .frozen } : Volume).genLaw := by
  constructor <;> simp [Volume.genLaw, vol0, snap1, mapped]

/-- The chunks visited: copied (LCN 3 of a source mapped then), changed, unchanged, cleared; copied without room; and a
FROZEN target. -/
theorem witness_RestoreVisitIsDecided :
    ∀ p ∈ [(resuming vol0 1 3 1 1, 3), (resuming vol0 1 1 1 0, 1), (resuming vol0 1 1 1 1, 1), (resuming vol0 0 1 1 1, 1),
        ({ resuming vol0 1 3 1 1 with free := [0] }, 3), (resuming { vol0 with state := .frozen } 1 3 1 1, 3)],
      let (s, dst) := p
      s.wf = true ∧ s.ctlServes ∧ s.ctl.part = .running ∧ s.yielding = false ∧ s.shelf.up = false ∧
        s.quietBut (.restore 0) ∧ (∀ i ∈ s.busy, i.owner ≠ .restore 0) ∧ ∃ x, tfind s.jobs 0 = some x ∧
          x.state = .suspended ∧ x.copy = none ∧ x.waiting = false ∧ x.suspendReq = false ∧
          (x.ranges[x.rangeIdx]?.map Range.dst) = some dst ∧ x.pre.isSome = true ∧ x.ranges[1]? = none := by
  unfold State.quietBut State.ctlServes State.ctlFree
  intro p hp
  simp only [List.mem_cons, List.not_mem_nil, or_false] at hp
  obtain rfl | rfl | rfl | rfl | rfl | rfl := hp <;>
    exact ⟨by decide, by decide, by decide, by decide, by decide, by decide, by decide, _, rfl, by decide⟩

theorem witness_RestoreVisitIsDecided_outcomes :
    (vol0.entry 3).form = .unmapped 0 ∧ viewLookup vol0 1 1 = some 18 ∧ 1 + 1 ≤ base.free.length ∧
      ¬ base.format.floor + 1 ≤ ([0] : List Nat).length ∧ (vol0.entry 1).form = .mapped 18 1 7 ∧ 0 < 1 ∧ ¬ 1 < 1 ∧
      viewLookup vol0 1 0 = none ∧ ({ vol0 with state := .frozen } : Volume).state = .frozen ∧
      (let s := { resuming vol0 1 1 2 0 with
         inflight := [entry0 .read .active], nextArrival := 1,
         busy := [{ owner := .front 0, vol := 0, chunks := [2], change := false, proceeded := true }] }
       s.wf = true ∧ s.quietBut (.restore 0) ∧ (0 + 1 < 2) ∧ (∃ i ∈ s.busy, i.vol = 0 ∧ (1 + (0 + 1)) ∈ i.chunks) ∧
         ∀ i ∈ s.busy, i.conflicts { owner := .restore 0, vol := 0, chunks := [1], change := true, proceeded := false } = false) := by
  unfold State.quietBut; decide

/-- 6.4: the four outcomes of the first visit, and a job without room. -/
theorem test_visit_outcomes :
    [resuming vol0 1 3 1 1, resuming vol0 1 1 1 0, resuming vol0 1 1 1 1, resuming vol0 0 1 1 1,
        { resuming vol0 1 3 1 1 with free := [0] }].map (fun s =>
      (tfind (after (.restoreResume 1 0) s).jobs 0).map fun j => (j.state, j.copied, j.cleared, j.skipped, j.unchanged)) =
      [some (.running, 0, 0, 0, 0), some (.done, 0, 0, 1, 0), some (.done, 0, 0, 0, 1), some (.done, 0, 1, 0, 0),
        some (.pausedPool, 0, 0, 0, 0)] := by decide

/-- A held link at the partner's site, volume 0 armed with nothing in slot 0. -/
def armed (x : Volume) (s : State) : State :=
  { s with vols := [(0, x)], plan := [0], port := { Port.atReset 0 with up := true, site := some 0, held := true } }

theorem witness_RunFreezesItsVolume :
    (∀ s ∈ [armed { vol0 with gen := 4294967293 } base, armed { vol0 with state := .frozen } base, armed vol0 writing,
        armed { vol0 with gen := 4294967294 } base],
      s.wf = true ∧ (∀ p ∈ s.jobs, p.2.state ≠ .running) ∧ s.ctlServes ∧ s.ctl.part = .running ∧ s.run.state = .idle ∧
        s.plan = 0 :: [] ∧
        (∀ w ∈ s.plan, (s.vol w).state ≠ .absent ∧ (s.vol w).state ≠ .deleting ∧ (s.vol w).offsite = true) ∧
        s.port.up = true ∧ s.port.site = some s.ctl.config.partnerSite ∧ s.port.held = true ∧
        tfind (s.vol 0).snaps 0 = none ∧ (s.vol 0).drain = none ∧ (s.vol 0).waiting = [] ∧ (s.vol 0).holdList = []) ∧
      base.inflight = [] ∧ base.busy = [] ∧
      (writing.inflight.filter fun e => e.req.vol == 0 && e.req.kind != .read && e.state != .held) ≠ [] := by
  unfold State.ctlServes State.ctlFree; decide

theorem witness_RunFreezesItsVolume_timeout :
    let w : DrainWork := .holding { kind := .run, series := none, label := 1, asker := .run }
    let s : State := { armed { vol0 with drain := some (drain0 w) } writing with run := { activeRun with phase := .freeze, asked := true } }
    s.wf = true ∧ (∀ p ∈ s.jobs, p.2.state ≠ .running) ∧ s.ctl.part ≠ .recovering ∧ s.currentVol = some 0 ∧
      s.run.state ≠ .idle ∧ s.run.phase = .freeze ∧ tfind (s.vol 0).snaps 0 = none ∧ (s.vol 0).state ≠ .frozen ∧
      (s.vol 0).holdList = [] ∧ (s.vol 0).waiting = [] ∧ (s.vol 0).drain = some (drain0 w) ∧ (drain0 w).work = w ∧
      (s.inflight.filter fun e => e.req.vol == 0 && e.req.kind != .read && e.state != .held) ≠ [] := by decide

/-- 7.4: the run freezes a quiet volume in the event of its start, and skips one at its last generation. -/
theorem test_run_freezes_its_volume :
    (let t := after (.runStart 1 0 390) (armed vol0 base)
     (t.run.phase, t.run.frames.map Frame.kind, t.run.reasons) = (.send, [.runOpen, .volumeOpen], 5) ∧
       (tfind (t.vol 0).snaps 0).map (fun d => (d.kind, d.gen)) = some (.run, 2) ∧ (t.vol 0).gen = 3) ∧
    (let t := after (.runStart 1 0 390) (armed { vol0 with gen := 4294967294 } base)
     t.run.state = .closing ∧ t.ctl.notices.map (fun n => (n.kind, n.d1)) = [(.runVolumeSkipped, 20)]) := by decide

/-- Every slot is taken, the one of `owner` among them. -/
def fullSlots (slot : Nat) (c : SlotRec) : Table SlotRec :=
  (List.range 64).map fun i => (i, if i = slot then c else slot0 .dropped)

def waitingCmd (cls : ShelfClass) : ShelfCmd := { (slot0 .dropped).cmd with cls := cls }

theorem witness_ShelfArbiterChoosesTheGrant :
    let c := slot0 .dropped
    let s := shelfIs { Shelf.atReset 1 with
      up := true, slots := fullSlots 63 c, streak := 15, turnOffsite := true,
      fgQueue := [waitingCmd .foreground], restoreQueue := [waitingCmd .restore] }
    tfind s.shelf.slots 63 = some c ∧ 63 ≤ 63 ∧ c.cmd.owner = .dropped ∧
      (∀ n, n ≤ 63 → tfind s.shelf.slots n ≠ none) ∧
      ([5] : List Block).length = (if c.cmd.kind = .read then c.cmd.count else 0) ∧ s.shelf.up = true ∧
      s.shelf.fgQueue = waitingCmd .foreground :: [] ∧ s.shelf.streak = 15 ∧ s.shelf.restoreQueue = waitingCmd .restore :: [] ∧
      s.shelf.offsiteQueue = [] := by decide +kernel

/-- 9.4: with the streak count at 15 the restore command is granted though the turn is the other class's; at 14 the
foreground command is, and the streak count steps. -/
theorem test_arbiter_streak :
    let s := fun (n : Nat) => shelfIs { Shelf.atReset 1 with
      up := true, slots := fullSlots 63 (slot0 .dropped), streak := n, turnOffsite := true,
      fgQueue := [waitingCmd .foreground], restoreQueue := [waitingCmd .restore] }
    let t := fun (n : Nat) => (after (.shelfReply 63 1 1 false (.done [5] 0)) (s n)).shelf
    ((t 15).fgQueue.length, (t 15).restoreQueue.length, (t 15).streak, (t 15).turnOffsite) = (1, 0, 0, true) ∧
      ((t 14).fgQueue.length, (t 14).restoreQueue.length, (t 14).streak) = (0, 1, 15) := by decide +kernel

theorem witness_ShelfTimersAndLink_request :
    let s := { committing with shelf := { committing.shelf with
      slots := [(0, slotOf .write (.request 0 3 .chunkWrite)), (63, slot0 .dropped)] } }
    let mine := fun (r : SlotRec) => match r.cmd.owner with | .request a _ _ => a == write3.arrival | _ => false
    s.shelf.fgQueue = [] ∧ s.shelf.restoreQueue = [] ∧ s.shelf.offsiteQueue = [] ∧
      tfind s.shelf.slots 0 = some (slotOf .write (.request write3.arrival 3 .chunkWrite)) ∧
      s.inflight.find? (fun z => z.arrival == write3.arrival) = some write3 ∧ s.wf = true ∧ s.frontUp = true ∧
      s.quietBut (.front write3.arrival) ∧ s.yielding = false ∧ s.inflight.length ≤ s.ctl.config.yieldHigh ∧
      (∀ r ∈ tdel 0 s.shelf.slots, mine r.2 = false) ∧ s.shelf.up = true ∧
      (∀ r ∈ s.shelf.slots, mine r.2 = true ∨ r.2.cmd.owner = .dropped) := by
  unfold State.quietBut; decide

theorem witness_ShelfTimersAndLink_restore :
    let x : Job := { job0 .running with copy := some (copy0 .writing) }
    let s := copyingWith .write x
    s.shelf.fgQueue = [] ∧ s.shelf.restoreQueue = [] ∧ s.shelf.offsiteQueue = [] ∧
      tfind s.shelf.slots 0 = some (slotOf .write (.restore 0)) ∧ tfind s.jobs 0 = some x ∧ x.state = .running ∧
      x.waiting = false ∧ x.copy = some (copy0 .writing) ∧ s.wf = true ∧ s.quietBut (.restore 0) ∧ s.shelf.up = true ∧
      (∀ r ∈ tdel 0 s.shelf.slots, (r.2.cmd.owner == .restore 0) = false) ∧
      (∀ r ∈ s.shelf.slots, (r.2.cmd.owner == .restore 0) = true ∨ r.2.cmd.owner = .dropped) := by
  unfold State.quietBut; decide

def sendSlot : SlotRec := { slot0 .send with cmd := { (slot0 .send).cmd with cls := .offsite } }

def sending (state : RunState) (reissued : Bool) : State :=
  { runIs { activeRun with state := state, phase := .send, reading := some ⟨1, reissued⟩ } with
    shelf := { Shelf.atReset 1 with up := true, slots := [(63, sendSlot)] } }

theorem witness_ShelfTimersAndLink_send :
    (∀ p ∈ [(RunState.active, false), (.active, true), (.stopping, false)],
      let s := sending p.1 p.2
      s.shelf.fgQueue = [] ∧ s.shelf.restoreQueue = [] ∧ s.shelf.offsiteQueue = [] ∧
        tfind s.shelf.slots 63 = some sendSlot ∧ sendSlot.cmd.owner = .send ∧ s.run.reading = some ⟨1, p.2⟩ ∧
        (∀ r ∈ tdel 63 s.shelf.slots, (r.2.cmd.owner == .send) = false) ∧
        (∀ r ∈ s.shelf.slots, (r.2.cmd.owner == .send) = true ∨ r.2.cmd.owner = .dropped) ∧ s.shelf.up = true ∧
        s.run.state = p.1 ∧ s.currentVol = some 0 ∧ (s.vol 0).drain = none) ∧
      sendSlot.cmd.cls = .offsite ∧ tfind (tdel 63 (sending .active false).shelf.slots) 0 = none := by decide

/-- R117, R137: a timer fails a copy's job, and has the read of a send handed out again once. -/
theorem test_timer_of_a_copy_and_of_a_send :
    (let t := after (.shelfCommandTimeout 0) (copyingWith .write { job0 .running with copy := some (copy0 .writing) })
     t.jobs.map (fun p => (p.2.state, p.2.failedPcn)) = [(.failedShelf, some 0)]) ∧
      (after (.shelfCommandTimeout 63) (sending .active false)).run.reading = some ⟨1, true⟩ ∧
      (after (.shelfCommandTimeout 63) (sending .active true)).run.state = .suspendedShelf := by decide

/-- A READ of the snapshot in slot 1: chunk 1 is shared with the live volume, chunk 0 is absent. -/
theorem witness_ReadIsAcceptedAndServed_snapshot :
    (1 ≤ 15 ∧ ∃ d ∈ tfind (base.vol 0).snaps 1, d.state = .ready) ∧ base.wf = true ∧ base.frontUp = true ∧
      base.ctl.part = .running ∧ viewLookup (base.vol 0) snap1.gen 1 = some 18 ∧
      viewLookup (base.vol 0) snap1.gen 0 = none ∧
      (after (.read 3 0 1 1 1 7 16) base).shelf.fgQueue.map ShelfCmd.pcn = [18] ∧
      (after (.read 3 0 1 0 1 7 16) base).out = [.front 0 1 .ok 3 1 [0]] := by decide

/-- The snapshot of a READ at its end: READY with the generation of the acceptance, or another in its slot. -/
theorem witness_ShelfReplyEndsItsCommand_view :
    let x : Entry := { entry0 .read .active with req := { (entry0 .read .active).req with view := some 1 }, gen := 1 }
    let s := fun (d : Snap) => { volIs { vol0 with snaps := [(1, d)] } with
      inflight := [x], nextArrival := 1,
      busy := [{ owner := .front 0, vol := 0, chunks := [1], change := false, proceeded := true }],
      shelf := { Shelf.atReset 1 with slots := [(0, slot0 (.request 0 1 .readData))] } }
    (∀ w ∈ x.req.view, ∃ d ∈ tfind ((s snap1).vol x.req.vol).snaps w, d.state = .ready ∧ d.gen = x.gen) ∧
      ¬ (∀ w ∈ x.req.view, ∃ d ∈ tfind ((s { snap1 with state := .deletePending }).vol x.req.vol).snaps w,
        d.state = .ready ∧ d.gen = x.gen) ∧
      ((after (.shelfReply 0 1 1 false (.done [5] 0)) (s snap1)).out,
        (after (.shelfReply 0 1 1 false (.done [5] 0)) (s { snap1 with state := .deletePending })).out) =
        ([.front 0 1 .ok 3 1 [5]], [.front 0 1 .noView 3 0 []]) := by decide

/-- The account of the writer: at its hard limit, LAPSED by its expiry, LAPSED by the trial expiry of a grace period of
0, one second short of its expiry. -/
def limitedBy (a : Account) : State :=
  { base with
    accounts := [(7, { a with charge := 2 })],
    ctl := { base.ctl with config := { base.ctl.config with grace := 0 } } }

def writers : List Account :=
  [{ Account.fresh with hard := 2 }, { Account.fresh with soft := 1, expiry := some 100 }, { Account.fresh with soft := 2 },
    { Account.fresh with soft := 1, expiry := some 101 }, { Account.fresh with hard := 3 }]

theorem witness_WriteIsAcceptedRefusedOrHeld_quota :
    (∀ a ∈ writers, (limitedBy a).wf = true ∧ (limitedBy a).busy = [] ∧ (limitedBy a).inflight = [] ∧
      (limitedBy a).ctl.part = .running ∧ ((limitedBy a).vol 0).state = .normal ∧
      (∀ p ∈ (limitedBy a).vols, p.2.drain = none) ∧ (limitedBy a).shelf.up = false ∧ (limitedBy a).jobs = []) ∧
      (∃ a ∈ writers, a.hard ≠ 268435455 ∧ a.hard < 2 + 0 + 1) ∧ (∃ a ∈ writers, a.hard = 2 + 0 + 1) ∧
      (∃ a ∈ writers, a.expiry = some base.sched.clock) ∧ (∃ a ∈ writers, a.expiry = some (base.sched.clock + 1)) ∧
      ∃ a ∈ writers, a.expiry = none ∧ a.soft ≠ 268435455 ∧ a.soft < 2 + 0 + 1 := by decide

/-- R47, R48, R66: QUOTA at the hard limit, at the expiry and by the trial expiry, with LAPSED reported at the second;
one second before the expiry, and with room for one chunk below the hard limit, the WRITE is accepted. -/
theorem test_quota_of_a_write :
    (writers.map fun a => (after (.write 3 0 0 1 7 4112 [5]) (limitedBy a)).out) =
        [[.front 0 2 .quota 3 0 []], [.front 0 2 .quota 3 0 []], [.front 0 2 .quota 3 0 []], [], []] ∧
      (after (.write 3 0 0 1 7 4112 [5]) (limitedBy { Account.fresh with soft := 1, expiry := some 100 })).ctl.notices.map
        Notice.kind = [.lapsed] := by decide

/-- A run in SEND on volume 0 with a RUN snapshot of retained set `r` and deletion queue `q`. -/
def sealing (r : List RetEntry) (q : List Nat) : State :=
  { volIs { vol0 with
      gen := 3, runList := [1, 2], deleteQueue := q,
      snaps := [(0, { snap1 with kind := .run, gen := 2, retained := r }),
        (1, { snap1 with state := if q = [] then .ready else .deleting })] } with
    plan := [0], run := { activeRun with phase := .send } }

theorem witness_RunEndsEarly_merge :
    (∀ p ∈ [(([] : List RetEntry), ([] : List Nat)), ([⟨0, 3, 1⟩], []), ([], [1])],
      let s := sealing p.1 p.2
      s.ctlServes ∧ s.run.state ≠ .idle ∧ s.run.state ≠ .stopping ∧ s.run.reading = none ∧ s.currentVol = some 0 ∧
        (s.vol 0).drain = none ∧ s.run.phase ≠ .freeze ∧ (s.vol 0).deleteQueue = p.2 ∧
        (tfind (s.vol 0).snaps 0).map Snap.retained = some p.1) ∧
      (runIs { activeRun with phase := .freeze }).run.phase = .freeze ∧
      (let t := fun (r : List RetEntry) (q : List Nat) => (after (.runStop 1) (sealing r q)).vol 0
       ((t [] []).activeList, (t [] []).runList, (tfind (t [] []).snaps 0).map Snap.state, (t [] []).deleteQueue) =
           ([1, 2], [], none, []) ∧
         ((tfind (t [⟨0, 3, 1⟩] []).snaps 0).map Snap.state, (t [⟨0, 3, 1⟩] []).deleteQueue) = (some .deleting, [0]) ∧
         ((tfind (t [] [1]).snaps 0).map Snap.state, (t [] [1]).deleteQueue) = (some .deletePending, [1, 0])) := by
  unfold State.ctlServes State.ctlFree; decide

/-- RUN CLOSE is the one outstanding frame. -/
def closing (mode : RunMode) : State :=
  { volIs { vol0 with snaps := [(0, snap1)] } with
    plan := [0], run := { activeRun with state := .closing, mode := mode, pass := 65535, planIndex := 1 },
    port := { port1 with nextNo := 3, outstanding := [frameOf .runClose 2], nextSend := 1 } }

theorem witness_AckTakesFramesOffTheList_close :
    (∀ m ∈ [RunMode.nightly, .continuous],
      let s := closing m
      s.port.up = true ∧ s.port.seqRun = some 1 ∧ 1 ≤ s.port.nextNo ∧
        ¬ (2 < (frameOf .runClose 2).seq ∨ s.port.nextNo ≤ 2) ∧ s.run.frames = [] ∧ s.port.resendPos = none ∧
        s.port.outstanding = [frameOf .runClose 2] ∧ s.run.mode = m ∧ s.port.pace < s.port.nextSend ∧
        s.plan[0]? = some 0 ∧ tfind (s.vol 0).snaps 0 ≠ none) ∧
      (let t := after (.ack 2 1) (closing .continuous)
       (t.run.state, t.run.pass, t.run.runId, t.ctl.notices.map (fun n => (n.kind, n.d1))) =
         (.active, 1, 2, [(.runPassDone, 65535)])) := by decide

theorem witness_PowerOnAndResetClearTheVolatileState_steps :
    (inPart .standby 0 { base with mirror := [{ arrival := 0, vol := 0, claims := [], charges := [], inPlace := [] }] }).mirror ≠ [] ∧
      ({ base with returns := [5] } : State).returns ≠ [] ∧ (∃ p ∈ (jobIs (job0 .suspended)).jobs, p.2.state.ended = false) ∧
      (runIs activeRun).run.state ≠ .idle ∧
      (∃ p ∈ ({ base with accounts := [(7, { Account.fresh with charge := 2, expiry := some 9 })] } : State).accounts,
        p.1 ≠ 0 ∧ p.2.expiry ≠ none) ∧
      ¬ base.free.length < base.format.low ∧ ({ base with free := [0] } : State).free.length < base.format.low ∧
      (after .powerOn { base with free := [0] }).ctl.notices.map Notice.kind = [.poolLow, .recovered] := by decide

/-! What one event does to the replies of the control requests that wait in it -/

/-- R184, R190: an error ends the drain of a waiting create and a FETCH waits behind it. Both replies see the notices
of the event: the create's shows PENDING, and the FETCH takes the SHELF ERROR and leaves PENDING clear. -/
theorem test_replies_of_one_event_see_its_notices :
    let s := { committing with
      vols := [(0, { vol0 with drain := some (drain0 (.holding create0)) })],
      ctl := { base.ctl with
        executing := some { tag := 9, number := 17 }, queue := [{ tag := 10, req := .noticeFetch }] } }
    (after (.shelfReply 0 1 1 true (.error 9)) s).out.map (fun o => match o with
        | .control pending _ number tag code fields => (pending, number, tag, code, fields.take 2)
        | _ => (false, 0, 0, .ok, [])) =
      [(false, 0, 0, .ok, []), (true, 17, 9, .ok, [2, 2]), (false, 38, 10, .ok, [1, 28 * 65536])] := by decide

/-- R184, R190: a FETCH and a SNAPSHOT DELETE of an empty set wait in one event. The FETCH takes the SHELF ERROR before
it and not the DELETE DONE that the deletion behind it queues, and the deletion's reply shows PENDING. -/
theorem test_fetch_takes_nothing_of_a_later_request :
    let s := { committing with
      vols := [(0, { vol0 with drain := some (drain0 (.holding create0)) })],
      ctl := { base.ctl with
        executing := some { tag := 9, number := 17 },
        queue := [{ tag := 10, req := .noticeFetch }, { tag := 11, req := .snapshotDelete 0 1 }] } }
    let t := after (.shelfReply 0 1 1 true (.error 9)) s
    t.out.map (fun o => match o with
        | .control pending _ number tag code fields => (pending, number, tag, code, fields.take 2)
        | _ => (false, 0, 0, .ok, [])) =
      [(false, 0, 0, .ok, []), (true, 17, 9, .ok, [2, 2]), (false, 38, 10, .ok, [1, 28 * 65536]),
        (true, 18, 11, .ok, [])] ∧
      t.ctl.notices.map Notice.kind = [.deleteDone] := by decide

/-- R99: a RESET behind a waiting FREEZE, in the event that brings the usage over the reserve limit, leaves the flag
clear and queues no notice of it. -/
theorem test_reset_in_an_event_cuts_off_the_reserve_test :
    let s := { committing with
      vols := [(0, { vol0 with reserveLimit := 0, state := .freezing, drain := some (drain0 (.refusing [.control])) })],
      ctl := { base.ctl with
        executing := some { tag := 9, number := 11 }, queue := [{ tag := 10, req := .reset }] } }
    let t := after (.shelfReply 0 1 1 true (.done [] 0)) s
    (t.vol 0).reserveUsage = 1 ∧ (t.vol 0).reserveOver = false ∧ t.ctl.notices.map Notice.kind = [.recovered] ∧
      (after (.shelfReply 0 1 1 true (.done [] 0)) { s with ctl := { s.ctl with queue := [] } }).ctl.notices.map Notice.kind =
        [.reserveOver] := by decide

/-! What the offsite engine does next, and the rest of a seal -/

/-- VOLUME SEAL of volume 0 is the one outstanding frame, with `rest` behind it in the plan. -/
def sealed (rest : List Nat) (x : Volume) : State :=
  { sealing [] [] with
    vols := [(0, { vol0 with
        gen := 3, runList := [1, 2], snaps := [(0, { snap1 with kind := .run, gen := 2 })] }), (1, x)],
    plan := 0 :: rest, run := { activeRun with phase := .seal, volData := 2, volClear := 1 },
    port := { port1 with nextNo := 3, outstanding := [frameOf .volumeSeal 2], nextSend := 1 } }

/-- The volume after the sealed one: its slot 0 occupied, behind a running drain, FROZEN. -/
def waitingVols : List Volume :=
  [{ vol0 with snaps := [(0, snap1)] }, { vol0 with drain := some (drain0 (.holding create0)) },
    { vol0 with state := .frozen }]

theorem witness_AckTakesFramesOffTheList_seal :
    (∀ x ∈ waitingVols, ∀ rest ∈ [[], [1]],
      let s := sealed rest x
      s.port.up = true ∧ s.port.seqRun = some 1 ∧ ¬ (2 < (frameOf .volumeSeal 2).seq ∨ s.port.nextNo ≤ 2) ∧
        s.run.frames = [] ∧ s.port.resendPos = none ∧ s.port.outstanding = [frameOf .volumeSeal 2] ∧
        s.currentVol = some 0 ∧ s.run.state ≠ .idle ∧ s.port.pace < s.port.nextSend ∧ s.ctl.part ≠ .recovering ∧
        (rest = [] → s.run.planIndex + 1 = s.plan.length) ∧
        (rest = [1] → s.plan[s.run.planIndex + 1]? = some 1)) ∧
      (waitingVols.map fun x => ((tfind x.snaps 0).isSome, x.state, x.drain.isSome, decide (x.gen < 4294967294))) =
        [(true, .normal, false, true), (false, .normal, true, true), (false, .frozen, false, true)] := by decide

/-- R132: the notices of a seal, with the RUN snapshot's empty set gone at once, and what the run does next. -/
theorem test_seal_and_next_volume :
    (let t := after (.ack 2 1) (sealed [] Volume.absent)
     t.ctl.notices.map (fun n => (n.kind, n.subject, n.d1, n.d2)) = [(.runVolumeSealed, 0, 2, 1), (.deleteDone, 0, 0, 0)] ∧
       t.run.state = .closing ∧ t.run.frames.map (fun f => (f.kind, f.a)) = [(.runClose, 1)]) ∧
      (waitingVols.map fun x =>
        let t := after (.ack 2 1) (sealed [1] x)
        (t.run.phase, t.run.asked, (t.vol 1).waiting.length, t.run.frames.map Frame.kind)) =
        [(.freeze, false, 0, []), (.freeze, true, 1, []), (.send, true, 0, [.volumeOpen])] := by decide

/-- A send whose ready frame goes out: of kind `kind`, the send position at `pos` of the run list or of the scan. -/
def preparing (kind : FrameKind) (scan scanRead : Bool) (pos : Nat) : State :=
  { volIs { vol0 with runList := [1, 0], snaps := [(0, snap1)] } with
    plan := [0], port := port1,
    run := { activeRun with
      phase := .send, fullScan := scan, scanRead := scanRead, pos := pos, clearCount := flag (kind == .chunkClear),
      frames := [frameOf kind 0] } }

def preparations : List State :=
  [preparing .volumeOpen false false 0, preparing .chunkData false false 0, preparing .chunkClear false false 1,
    preparing .chunkClear true true 1, preparing .chunkClear true false 4, preparing .chunkClear true false 3]

theorem witness_PacedPortResendsFirst_next :
    (∀ s ∈ preparations,
      s.port.up = true ∧ s.port.held = false ∧ s.port.nextSend ≤ 0 ∧ s.port.resendPos = none ∧ s.port.seqRun ≠ none ∧
        s.port.outstanding.length < s.ctl.config.window ∧ 0 < s.ctl.config.nightRate ∧ s.run.frames.length = 1 ∧
        s.ctl.part ≠ .recovering ∧ s.run.state ≠ .idle ∧ s.run.state ≠ .stopping ∧ s.run.phase = .send ∧
        s.run.reading = none ∧ s.run.shelfMark = false ∧ s.shelf.up = false ∧ s.currentVol = some 0) ∧
      (let x := { vol0 with runList := [1, 0], snaps := [(0, snap1)] }
       x.runList[0]? = some 1 ∧ viewLookup x 1 1 = some 18 ∧ x.runList[1]? = some 0 ∧ viewLookup x 1 0 = none ∧
         x.runList.length ≤ 2 ∧ x.size ≤ 4 ∧ 3 < x.size) := by decide

/-- R130 to R132: the next of the send is the read of the first LCN, a CHUNK CLEAR of the second, VOLUME SEAL past the
tail; of a scan, the read behind its clear run, VOLUME SEAL past the last LCN, or nothing before it. -/
theorem test_next_frame_of_a_send :
    (preparations.map fun s => (after (.pacingTimeReached 0) s).run.frames.map fun f => (f.kind, [f.lcn, f.count, f.b])) =
        [[], [(.chunkClear, [0, 1, 0])], [(.volumeSeal, [0, 0, 1])], [], [(.volumeSeal, [0, 0, 1])], []] ∧
      (preparations.map fun s => (after (.pacingTimeReached 0) s).shelf.offsiteQueue.map ShelfCmd.pcn) =
        [[18], [], [], [18], [], []] := by decide

/-! The ends of the other shelf commands -/

/-- The write, or the read, of an abandoned copy in slot 0, its PCN twice in the pending-return list. -/
def abandonedIn (kind : ShelfKind) : State :=
  { base with returns := [18, 0, 18], claims := 3, shelf := { Shelf.atReset 1 with up := true, slots := [(0, slotOf kind (.abandoned 18))] } }

theorem witness_ShelfReplyEndsItsCommand_abandoned :
    (∀ kind ∈ [ShelfKind.write, .read],
      let s := abandonedIn kind
      tfind s.shelf.slots 0 = some (slotOf kind (.abandoned 18)) ∧ s.shelf.fgQueue = [] ∧ s.shelf.restoreQueue = [] ∧
        s.shelf.offsiteQueue = [] ∧ s.jobs = [] ∧ s.poolLow = false ∧ s.format.low ≤ s.free.length + 1) ∧
      ([] : List Block).length = 0 ∧ ([5] : List Block).length = (slotOf .read .dropped).cmd.count ∧
      (let s := { abandonedIn .write with poolLow := true, free := [0, 1] }
       s.free.length + 1 < s.format.clear) ∧
      (let t := after (.shelfReply 0 1 1 true (.error 9)) (abandonedIn .write)
       (t.returns, t.free.getLast?, t.claims, t.ctl.notices.map (fun n => (n.kind, n.d1))) =
         ([0, 18], some 18, 2, [(.shelfError, 9)])) := by decide

/-- A request with one more command than the one in slot 0, of two blocks to the chunk: a WRITE of block 1 of chunk 0,
whose copy read of block 0 has `reads` to come, or a READ of both blocks. -/
def leftOver (why : Purpose) (reads left : Nat) (failed : Bool) : State :=
  let kind : FrontKind := if why = .readData then .read else .write
  let x : Entry :=
    { arrival := 0, req := { tag := 3, kind := kind, vol := 0, view := none, start := 1, count := 1, owner := 7 },
      state := .active, gen := 1,
      plan := [{ lcn := 0, cls := .shared, old := some (18, 1, 7), claimed := some 2, reads := reads, copied := [],
                 slotted := false }],
      claims := [2], charges := [], left := left, failed := failed, data := [8] }
  { base with
    format := { base.format with k := 1 }, inflight := [x], nextArrival := 1,
    shelf := { Shelf.atReset 1 with
      up := true,
      slots := [(0, slotOf (if why = .chunkWrite then .write else .read) (.request 0 0 why)), (1, slotOf .read .dropped)] } }

theorem witness_ShelfReplyEndsItsCommand_left :
    (∀ p ∈ [(Purpose.readData, 0, false), (.chunkWrite, 0, false), (.copyRead, 2, false), (.copyRead, 1, true),
        (.copyRead, 1, false)],
      let s := leftOver p.1 p.2.1 2 p.2.2
      s.inflight.map Entry.arrival = [0] ∧ s.inflight.map Entry.left = [2] ∧ s.shelf.fgQueue = [] ∧
        s.shelf.restoreQueue = [] ∧ s.shelf.offsiteQueue = [] ∧
        (tfind s.shelf.slots 0).map (fun c => c.cmd.owner) = some (.request 0 0 p.1)) ∧
      (∀ x ∈ (leftOver .copyRead 1 2 false).inflight,
        x.failed = false ∧ x.data.length = x.req.count ∧ x.req.start < (0 + 1) * 2 ∧ 0 * 2 < x.req.start + x.req.count ∧
          (x.plan.find? fun q => q.lcn == 0).map ChunkPlan.reads = some 1) ∧
      (let s := leftOver .copyRead 1 2 false
       s.shelf.up = true ∧ tfind (tdel 0 s.shelf.slots) 0 = none ∧ ∀ q ∈ [((0 : Nat), ([5] : List Block))],
         q.1 + q.2.length ≤ 2 ^ s.format.k) := by decide

/-- R32: the write of a chunk carries the copied block and the request's, once its last copy read has ended. -/
theorem test_chunk_write_after_its_copy_reads :
    (after (.shelfReply 0 1 1 false (.done [5] 0)) (leftOver .copyRead 1 2 false)).out =
        [.shelf 0 1 1 .write 4 2 [5, 8]] ∧
      (after (.shelfReply 0 1 1 false (.done [5] 0)) (leftOver .copyRead 2 2 false)).out = [] ∧
      (after (.shelfReply 0 1 1 false (.done [5] 0)) (leftOver .copyRead 1 2 true)).out = [] := by decide

/-- R40, R121, R138, R139: recovery logs the in-place LCNs of a mirror record, and merges an interrupted run's list
back, its RUN snapshot left DELETING until GO. -/
theorem test_recovery_logs_and_merges_back :
    (let r : MirrorRec := { arrival := 3, vol := 0, claims := [], charges := [], inPlace := [2, 1] }
     let s := inPart .recovering 1 { base with mirror := [r] }
     r.inPlace ≠ [] ∧ ((after .mirrorRecordRecovery s).vol 0).activeList = [2, 1]) ∧
      (let s := inPart .recovering 3 (sealing [] [])
       s.ctl.recStep = 3 ∧ s.run.state ≠ .idle ∧ s.run.phase ≠ .freeze ∧ s.currentVol = some 0 ∧
         (let t := after .runRecovery s
          ((t.vol 0).activeList, (t.vol 0).runList, (tfind (t.vol 0).snaps 0).map Snap.state, t.ctl.part,
            t.ctl.notices.map (fun n => (n.kind, n.d1))) =
            ([1, 2], [], some .deleting, .standby, [(.runEnded, 5), (.recovered, 0)]))) := by decide

/-! ### Witnesses of what waits, goes on, and ends

The cases that the statements on waiting work name, as tests that `decide` runs. -/

def visitsWaitDec (s : State) (p : Job → Bool) : Decidable (s.visitsWait p) := by
  unfold State.visitsWait; infer_instance

def yieldSettlesDec (s : State) : Decidable s.yieldSettles := by
  unfold State.yieldSettles State.visitsWait; infer_instance

def releaseWaitsDec (s : State) (v : Nat) : Decidable (s.releaseWaits v) := by
  unfold State.releaseWaits; infer_instance

def visitsWaitTest (s : State) (p : Job → Bool) : Bool := @decide _ (visitsWaitDec s p)

def yieldSettlesTest (s : State) : Bool := @decide _ (yieldSettlesDec s)

def releaseWaitsTest (s : State) (v : Nat) : Bool := @decide _ (releaseWaitsDec s v)

theorem visitsWait_iff (s : State) (p : Job → Bool) : s.visitsWait p ↔ visitsWaitTest s p = true :=
  (@decide_eq_true_iff _ (visitsWaitDec s p)).symm

theorem yieldSettles_iff (s : State) : s.yieldSettles ↔ yieldSettlesTest s = true :=
  (@decide_eq_true_iff _ (yieldSettlesDec s)).symm

theorem releaseWaits_iff (s : State) (v : Nat) : s.releaseWaits v ↔ releaseWaitsTest s v = true :=
  (@decide_eq_true_iff _ (releaseWaitsDec s v)).symm

def quietButDec (s : State) (o : BusyOwner) : Decidable (s.quietBut o) := by unfold State.quietBut; infer_instance

def quietButTest (s : State) (o : BusyOwner) : Bool := @decide _ (quietButDec s o)

theorem quietBut_iff (s : State) (o : BusyOwner) : s.quietBut o ↔ quietButTest s o = true :=
  (@decide_eq_true_iff _ (quietButDec s o)).symm

/-- Volume 1 is FREEZING for an entry of the schedule, and the drain `w` of volume 0 occupies the executing slot before
two requests that answer at once, the FREEZE of volume 1, and GO. -/
def serving (x : VolState) (w : DrainWork) (more : List ControlReq) : State :=
  { draining x w with
    vols := [(0, { vol0 with state := x, drain := some (drain0 w) }),
      (1, { vol0 with state := .freezing, drain := some (drain0 (.refusing [.schedule 3 none])) })],
    ctl := { base.ctl with
      executing := some { tag := 9, number := 11 },
      queue := [{ tag := 1, req := .configRead }, { tag := 2, req := .malformed 99 }] ++ more } }

theorem witness_FrontFramesReachTheirUnits_queue :
    ∀ more ∈ [[], [{ tag := 3, req := .freeze 1 }, { tag := 4, req := .go : ControlReq }]],
      ∀ p ∈ [(VolState.normal, DrainWork.holding create0), (.freezing, .refusing [.control])],
        let s := serving p.1 p.2 more
        s.frontUp = true ∧ s.ctl.part ≠ .recovering ∧ (s.vol 0).drain = some (drain0 p.2) ∧ (s.vol 0).state ≠ .absent ∧
          (s.vol 0).holdList = [] ∧ (s.vol 0).waiting = [] ∧ (p.2 = .refusing [.control] ∨ create0.asker = .control) ∧
          (∀ p ∈ s.jobs, p.2.state ≠ .running) ∧ s.ctl.executing = some { tag := 9, number := 11 } ∧
          s.ctl.queue = [{ tag := 1, req := .configRead }, { tag := 2, req := .malformed 99 }] ++ more ∧
          s.ctl.queue.length ≤ 8 ∧ (s.vol 1).state = .freezing ∧
          (s.vol 1).drain = some { work := .refusing [.schedule 3 none], members := [.front 0], timeout := 20 } := by
  decide

/-- R183: the replies leave in the order of the queue, and the request that waits again occupies the slot. -/
theorem test_queue_is_served_in_order :
    let t := after (.drainTimeout 0) (serving .normal (.holding create0)
      [{ tag := 3, req := .freeze 1 }, { tag := 4, req := .go }])
    t.out.map (fun o => match o with | .control _ _ n tag code _ => (n, tag, code) | _ => (0, 0, .ok)) =
        [(11, 9, .timeout), (3, 1, .ok), (99, 2, .malformed)] ∧
      t.ctl.executing = some { tag := 3, number := 11 } ∧ t.ctl.queue = [{ tag := 4, req := .go }] := by decide

/-- A READ of chunk 3 of volume 0 is in hand, and job 0, of which that chunk is the next, in the state `j`. -/
def behindRead (x : Volume) (j : Job) : State :=
  { volIs x with
    inflight := [{ entry0 .read .active with req := { (entry0 .read .active).req with start := 3 } }], nextArrival := 1,
    busy := { owner := .front 0, vol := 0, chunks := [3], change := false, proceeded := true }
      :: if j.waiting then [j.visitItem 0] else [],
    jobs := [(0, j)] }

/-- The yield watermarks `high` and `low`. -/
def marked (high low : Nat) (s : State) : State :=
  { s with ctl := { s.ctl with config := { s.ctl.config with yieldHigh := high, yieldLow := low } } }

def waitingJob : Job := { job0 .running with waiting := true }

/-- The targets of a job that goes on: one that admits its visit, a FROZEN one, and one with a drain. -/
def targets : List Volume :=
  [vol0, { vol0 with state := .frozen }, { vol0 with drain := some (drain0 (.holding create0)) }]

theorem witness_ConfigSetChecksAndReplaces_yield :
    (let s := behindRead vol0 waitingJob
     s.ctlServes ∧ s.yielding = false ∧ (marked 1 0 s).yieldSettles ∧ yieldAfter (marked 1 0 s) = true) ∧
    (∀ x ∈ targets, let s := { behindRead x (job0 .yielded) with yielding := true }
      s.ctlServes ∧ (marked 2 1 s).yieldSettles ∧ yieldAfter (marked 2 1 s) = false) ∧
    (marked 2 0 (behindRead vol0 waitingJob)).yieldSettles := by
  unfold State.ctlServes State.ctlFree; simp only [yieldSettles_iff]; decide

/-- R111: the flag is set by a new high watermark and cleared by a new low one. -/
theorem test_new_watermarks_move_the_jobs :
    (let t := after (.configSet 1 { yieldHigh := some 1, yieldLow := some 0 }) (behindRead vol0 waitingJob)
     (t.yielding, t.jobs.map (fun p => (p.2.state, p.2.waiting)), t.busy.length) = (true, [(.yielded, false)], 1)) ∧
      (targets.map fun x =>
        let t := after (.configSet 1 { yieldHigh := some 2, yieldLow := some 1 })
          { behindRead x (job0 .yielded) with yielding := true }
        (t.yielding, t.jobs.map (fun p => (p.2.state, p.2.waiting)), t.busy.length)) =
        [(false, [(.running, true)], 2), (false, [(.pausedFrozen, false)], 1), (false, [(.running, false)], 1)] := by
  decide

/-- Volume 1 is deleted, with one mapped chunk or one retained entry to come, beside `n` free PCNs. -/
def deletingBeside (s : State) (pos n : Nat) : State :=
  { s with
    free := List.range' 20 n,
    vols := s.vols ++ [(1, { vol0 with
      state := .deleting, deletePos := pos, snaps := [(1, { snap1 with retained := [⟨0, 3, 1⟩] })] })] }

theorem witness_FillAndDeleteWalkStep_pool :
    (∀ x ∈ targets, ∀ yields ∈ [true, false], ∀ pos ∈ [1, 4],
      let s := deletingBeside { behindRead x (job0 .pausedPool) with yielding := yields } pos 64
      s.ctl.part = .running ∧ (s.vol 1).state = .deleting ∧ s.format.floor + 64 = s.free.length + 1 ∧
        s.visitsWait (fun j => j.state == .pausedPool)) ∧
      (let s := deletingBeside (behindRead vol0 (job0 .pausedPool)) 1 63
       ¬ s.format.floor + 64 ≤ s.free.length + 1 ∧ ((s.vol 1).entry 1).form = .mapped 18 1 7) ∧
      (targets.map fun x => (after (.volumeDeleteWalkStep 1) (deletingBeside (behindRead x (job0 .pausedPool)) 1 64)).jobs.map
        fun p => (p.2.state, p.2.waiting)) = [[(.running, true)], [(.pausedFrozen, false)], [(.running, false)]] := by
  simp only [visitsWait_iff]; decide

theorem witness_SuspendResumeStatusAndClearByJobState_waiting :
    let s := behindRead vol0 waitingJob
    s.ctlServes ∧ tfind s.jobs 0 = some waitingJob ∧ waitingJob.state = .running ∧ waitingJob.copy = none ∧
      waitingJob.waiting = true ∧ waitingJob.suspendReq = false ∧ s.wf = true ∧ s.busy.length = 2 ∧
      firstProceed [] (s.busy.filter fun i => i.owner != .restore 0) = none ∧ (∀ p ∈ s.vols, p.2.drain = none) ∧
      (after (.restoreSuspend 1 0) s).busy.length = 1 := by
  unfold State.ctlServes State.ctlFree; decide

/-- The arrival of a shelf reply answers a next state. -/
theorem reply_answers (slot epoch use : Nat) (isWrite : Bool) (r : ShelfResult) (s : State) :
    exec (.shelfReply slot epoch use isWrite r) s = .next (after (.shelfReply slot epoch use isWrite r) s) := rfl

/-- A WRITE of chunk 0 of volume 0 that came `n`-th and is HELD, behind a READ of that chunk. -/
def heldWrite (n : Nat) : Entry :=
  { entry0 .write .held with arrival := n, req := { (entry0 .write .held).req with start := 0 } }

/-- A READ of chunk 0 of volume 0, arrived second and in hand. -/
def readOf0 : Entry := { entry0 .read .active with arrival := 1, req := { (entry0 .read .active).req with start := 0 } }

/-- `s` with the drain `d` of volume 0 running, two WRITEs HELD behind the READ of their chunk, `w` waiting. -/
def drainedIn (s : State) (d : Drain) (w : List DrainWork) : State :=
  { s with
    inflight := s.inflight ++ [readOf0, heldWrite 2, heldWrite 3], nextArrival := 4,
    busy := s.busy ++ [{ owner := .front 1, vol := 0, chunks := [0], change := false, proceeded := true }],
    vols := s.vols.map fun p => (p.1, { p.2 with
      drain := some d, waiting := w, holdList := [2, 3],
      state := if d.work.freezes then .freezing else p.2.state }) }

def freezes : DrainWork := .refusing [.control]

def runCreate : DrainWork := .holding { kind := .run, series := none, label := 1, asker := .run }

def scheduled : DrainWork := .refusing [.schedule 3 none]

def executing9 (s : State) : State := { s with ctl := { s.ctl with executing := some { tag := 9, number := 11 } } }

theorem witness_DrainsBeginAndTimeOut_release :
    ∀ p ∈ [(DrainWork.holding create0, [scheduled]), (freezes, [runCreate]), (freezes, [])],
      let s := drainedIn (executing9 writing) (drain0 p.1) p.2
      let e := { s with vols := tset Volume.absent 0 { s.vol 0 with state := .normal } s.vols }
      s.frontUp = true ∧ s.ctl.queue = [] ∧ s.ctl.executing ≠ none ∧ (s.vol 0).drain = some (drain0 p.1) ∧
        (s.vol 0).state ≠ .absent ∧ e.releaseWaits 0 := by
  simp only [releaseWaits_iff]; decide

/-- R27, R28: the requests held go on in hold-list order, and the drain that waited begins with them in its set. -/
theorem test_drain_timeout_releases_in_order :
    let t := after (.drainTimeout 0) (drainedIn (executing9 writing) (drain0 (.holding create0)) [scheduled])
    t.busy.map (fun i => i.owner) = [.front 1, .front 4, .front 5] ∧
      t.inflight.map (fun z => (z.arrival, z.state)) = [(0, .active), (1, .active), (4, .waiting), (5, .waiting)] ∧
      ((t.vol 0).state, (t.vol 0).drain.map Drain.members, (t.vol 0).holdList) =
        (.freezing, some [.front 0, .front 4, .front 5], []) := by decide

/-- The states in which the last member of a drain leaves: the WRITE of `committing`, which commits or fails, and the
copy of job 0. -/
def departing : List (State × SlotRec × BusyOwner × ShelfResult) :=
  let write := slotOf .write (.request 0 3 .chunkWrite)
  let copy := { job0 .running with copy := some (copy0 .writing) }
  [(committing, write, .front 0, .done [] 0), (committing, write, .front 0, .error 9),
    (copyingWith .write copy, slotOf .write (.restore 0), .restore 0, .done [] 0),
    (copyingWith .write copy, slotOf .write (.restore 0), .restore 0, .error 9)]

/-- `s` with nothing held or waiting in volume 0, and no drain of it. -/
def alone0 (s : State) : State :=
  { s with vols := tset Volume.absent 0 { s.vol 0 with drain := none, waiting := [], holdList := [] } s.vols }

/-- `u` with what is held and waits in volume 0 of `s`. -/
def rejoined0 (s u : State) : State :=
  { u with
    vols := tset Volume.absent 0 { u.vol 0 with waiting := (s.vol 0).waiting, holdList := (s.vol 0).holdList } u.vols }

theorem witness_DrainsBeginAndTimeOut_departs :
    ∀ p ∈ departing, ∀ q ∈ [(freezes, [DrainWork.holding { create0 with asker := .schedule 3 2 }]), (freezes, []),
        (.holding create0, [scheduled])],
      let s := drainedIn (executing9 p.1) { drain0 q.1 with members := [p.2.2.1] } q.2
      let u := after (.shelfReply 0 1 1 true p.2.2.2) (alone0 s)
      s.wf = true ∧ s.frontUp = true ∧ tfind s.shelf.slots 0 = some p.2.1 ∧ (s.vol 0).state ≠ .absent ∧
        (s.vol 0).drain = some { drain0 q.1 with members := [p.2.2.1] } ∧ s.ctl.executing ≠ none ∧ s.ctl.queue = [] ∧
        (alone0 s).quietBut p.2.2.1 ∧ u.yielding = s.yielding ∧ (rejoined0 s u).releaseWaits 0 ∧
        (q.1.freezes = false → createCheck .user (u.vol 0) = none) ∧
        ((p.2.2.1 = .front 0 ∧ p.2.1.cmd.owner = .request 0 3 .chunkWrite ∧
            (∃ z ∈ s.inflight, z.arrival = 0 ∧ z.req.vol = 0) ∧ ∀ z ∈ u.inflight, z.arrival ≠ 0) ∨
          (p.2.2.1 = .restore 0 ∧ p.2.1.cmd.owner = .restore 0 ∧ p.2.1.cmd.kind = .write ∧
            (tfind s.jobs 0).any (fun y => y.dstVol == 0 && !y.waiting && y.copy == some (copy0 .writing) &&
              decide (y.ranges[y.rangeIdx]? = some { src := 1, count := 1, dst := 3 }) &&
              y.ranges[y.rangeIdx + 1]?.isNone) = true)) := by
  simp only [quietBut_iff, releaseWaits_iff]; decide +kernel

/-- The run in FREEZE on volume 0. -/
def freezing (s : State) : State :=
  { s with plan := [0], run := { activeRun with phase := .freeze, asked := true, deadline := 101 } }

/-- The run's create runs its drain, with requests held and a drain that waits, or waits itself behind a drain. -/
def createWaits : List State :=
  [drainedIn (freezing writing) (drain0 runCreate) [scheduled], drainedIn (freezing writing) (drain0 runCreate) [],
    drainedIn (freezing writing) (drain0 scheduled) [runCreate]]

theorem witness_RunEndsEarly_freeze :
    (∀ s ∈ createWaits, s.ctlServes ∧ s.run.state ≠ .idle ∧ s.run.state ≠ .stopping ∧ s.run.reading = none ∧
        s.currentVol = some 0 ∧ s.run.phase = .freeze ∧ s.releaseWaits 0 ∧ s.run.deadline ≤ s.sched.clock + 1 ∧
        s.sched.clockSet = true ∧ (s.sched.clock + 1) % 60 ≠ 0) ∧
      (createWaits.map fun s => ((s.vol 0).drain.any fun d => d.work.isRun)) = [true, true, false] := by
  unfold State.ctlServes State.ctlFree; simp only [releaseWaits_iff]; decide

/-- R29, R138: the drain of the create ends without a snapshot, what it held goes on and the drain behind it begins; a
create that waits leaves the queue, and the drain before it runs on. -/
theorem test_run_stop_withdraws_the_create :
    (createWaits.map fun s =>
      let t := after (.runStop 1) s
      ((t.vol 0).drain.map Drain.work, (t.vol 0).waiting, (t.vol 0).holdList, t.nextArrival)) =
      [(some scheduled, [], [], 6), (none, [], [], 6), (some scheduled, [], [2, 3], 4)] ∧
      (createWaits.map fun s => ((after (.runStop 1) s).vol 0).snaps.map Prod.fst) = [[1], [1], [1]] := by decide

/-- A mismatch of the site in these states ends the run as RUN STOP does. -/
theorem witness_OffsiteLinkComesUpAndIsHeldOrLost_mismatch :
    (∀ s ∈ createWaits, s.run.state ≠ .idle ∧ 1 ≠ s.ctl.config.partnerSite ∧ s.releaseWaits 0 ∧ s.port.up = false) ∧
      (createWaits.map fun s => ((after (.hello 1) s).run.result, (after (.hello 1) s).ctl.notices.map Notice.kind)) =
        List.replicate 3 (.failed, [.linkUp, .runEnded]) := by
  simp only [releaseWaits_iff]; decide

/-- The link lost in a run: `st` its state, the shelf mark, the frames outstanding, the plan index. -/
def lostLink (st : RunState) (mark : Bool) (frames : List Frame) (index nextSend : Nat) : State :=
  { runIs { activeRun with
      state := st, linkMark := true, shelfMark := mark, phase := .send, planIndex := index, reading := some ⟨1, false⟩ } with
    port := { port1 with
      up := false, held := true, retry := 3, nextNo := frames.length + 1, outstanding := frames, nextSend := nextSend } }

def lostLinks (n : Nat) : List State :=
  let f := frameOf .chunkClear 1
  [lostLink .suspendedLink false [f, { f with seq := 2 }] 0 n, lostLink .suspendedLink true [f] 0 n,
    lostLink .suspendedLink false [frameOf .runClose 1] 1 n, lostLink .stopping false [f] 0 n]

theorem witness_OffsiteLinkComesUpAndIsHeldOrLost_match :
    (∀ n ∈ [0, 1], ∀ s ∈ lostLinks n,
      0 = s.ctl.config.partnerSite ∧ s.run.state ≠ .idle ∧ s.ctl.part ≠ .recovering ∧ s.run.phase ≠ .freeze ∧
        s.run.reading ≠ none ∧ s.port.outstanding.isEmpty = false ∧ (n = 1 → s.port.pace < s.port.nextSend) ∧
        (n = 0 → s.port.nextSend ≤ s.port.pace)) ∧
      (let s := lostLink .suspendedLink false [] 0 0
       s.run.state ≠ .idle ∧ s.run.reading ≠ none ∧ s.port.outstanding = [] ∧ s.run.frames = []) ∧
      ((lostLinks 1).map fun s => (after (.hello 0) s).run.state) = [.active, .suspendedShelf, .closing, .stopping] ∧
      ((lostLinks 0).map fun s => (after (.hello 0) s).out) =
        ((lostLinks 0).map fun s => s.port.outstanding.head?.toList.map Output.offsite) ∧
      ((lostLinks 0).map fun s => (after (.hello 0) s).port.resendPos) = [some 2, none, none, none] := by decide

/-- A READ whose last command is in slot 0, with job 0 of a FROZEN target, or of one whose chunk another READ has, YIELDED
under the flag. -/
def lastReads : List State :=
  let slots : Table SlotRec := [(0, slot0 (.request 0 1 .readData))]
  let item := { owner := .front 0, vol := 0, chunks := [1], change := false, proceeded := true : BusyItem }
  let other := { item with owner := .front 1, chunks := [3] }
  [({ vol0 with state := .frozen }, [entry0 .read .active], [item], 0),
    (vol0, [entry0 .read .active, { readOf0 with req := { readOf0.req with start := 3 } }], [item, other], 1)].map fun p =>
    marked 2 p.2.2.2 { volIs p.1 with
      inflight := p.2.1, nextArrival := 2, busy := p.2.2.1, jobs := [(0, job0 .yielded)], yielding := true,
      shelf := { Shelf.atReset 1 with slots := slots } }

theorem witness_ShelfReplyEndsItsCommand_yield :
    (∀ s ∈ lastReads,
      let left : State := { s with
        shelf := { s.shelf with slots := tdel 0 s.shelf.slots },
        inflight := s.inflight.filter fun y => y.arrival != 0, busy := s.busy.filter fun i => i.owner != .front 0 }
      s.wf = true ∧ s.frontUp = true ∧ tfind s.shelf.slots 0 = some (slot0 (.request 0 1 .readData)) ∧
        s.inflight.find? (fun y => y.arrival == 0) = some (entry0 .read .active) ∧
        firstProceed [] (s.busy.filter fun i => i.owner != .front 0) = none ∧ (∀ p ∈ s.vols, p.2.drain = none) ∧
        s.shelf.fgQueue = [] ∧ s.shelf.restoreQueue = [] ∧ s.shelf.offsiteQueue = [] ∧ left.yieldSettles ∧
        s.yielding = true ∧ yieldAfter left = false) ∧
      (lastReads.map fun s =>
        let t := after (.shelfReply 0 1 1 false (.done [5] 0)) s
        (t.yielding, t.jobs.map fun p => (p.2.state, p.2.waiting))) =
        [(false, [(.pausedFrozen, false)]), (false, [(.running, true)])] := by
  simp only [yieldSettles_iff]; decide

/-- The shelf link is DOWN and commands wait in every class, with the run of `r` on volume 0, whose run list is [2]. -/
def waitingShelf (r : Run) : State :=
  { volIs { vol0 with gen := 3, runList := [2], snaps := [(0, { snap1 with gen := 2 })] } with
    plan := [0], run := r,
    shelf := { Shelf.atReset 1 with
      streak := 14, fgQueue := [waitingCmd .foreground, waitingCmd .foreground], restoreQueue := [waitingCmd .restore],
      offsiteQueue := [waitingCmd .offsite] } }

/-- A run the shelf suspended in a send by the list, in a scan, and under the link mark too. -/
def shelfSuspended : List Run :=
  let r := { activeRun with state := .suspendedShelf, shelfMark := true, phase := .send }
  [r, { r with fullScan := true, scanRead := true, pos := 2 }, { r with state := .suspendedLink, linkMark := true }]

theorem witness_ShelfTimersAndLink_up :
    (∀ r ∈ activeRun :: shelfSuspended, let s := waitingShelf r
      s.shelf.up = false ∧ s.shelf.slots = [] ∧ s.wf = true) ∧
      (∀ r ∈ shelfSuspended, let s := waitingShelf r
        r.shelfMark = true ∧ r.state ≠ .idle ∧ s.ctl.part ≠ .recovering ∧ r.phase = .send ∧ r.frames = [] ∧
          r.reading = none ∧ s.currentVol = some 0 ∧ r.clearCount = 0 ∧
          (if r.fullScan then 2 = r.pos else (s.vol 0).runList[r.pos]? = some 2) ∧
          viewLookup (s.vol 0) (((tfind (s.vol 0).snaps 0).map Snap.gen).getD 0) 2 = some 19) := by decide

/-- R160, R161, R167: the second foreground command waits for the restore one at the streak of 15; the read of the run
that goes on is granted last. -/
theorem test_shelf_link_up_grants_in_order :
    ((activeRun :: shelfSuspended).map fun r =>
      let t := after .shelfLinkUp (waitingShelf r)
      (t.run.state, t.shelf.slots.map fun p => (p.2.cmd.cls, p.2.cmd.pcn))) =
      [(.active, [(.foreground, 18), (.restore, 18), (.foreground, 18), (.offsite, 18)]),
        (.active, [(.foreground, 18), (.restore, 18), (.foreground, 18), (.offsite, 18), (.offsite, 19)]),
        (.active, [(.foreground, 18), (.restore, 18), (.foreground, 18), (.offsite, 18), (.offsite, 19)]),
        (.suspendedLink, [(.foreground, 18), (.restore, 18), (.foreground, 18), (.offsite, 18), (.offsite, 19)])] := by
  decide

/-- The last command of a READ of chunk 1 of volume 0 is in slot 0. -/
def reading1 : State :=
  { base with
    inflight := [entry0 .read .active], nextArrival := 1,
    busy := [{ owner := .front 0, vol := 0, chunks := [1], change := false, proceeded := true }],
    shelf := { Shelf.atReset 1 with slots := [(0, slot0 (.request 0 1 .readData))] } }

/-- A request of kind `kind` of chunk 1 and its busy item, arrived second. -/
def arriving (kind : FrontKind) (data : List Block) : Entry × BusyItem :=
  ({ arrival := 1, req := { tag := 5, kind := kind, vol := 0, view := none, start := 1, count := 1, owner := 7 },
     state := .waiting, gen := 0, plan := [], claims := [], charges := [], left := 0, failed := false, data := data },
   { owner := .front 1, vol := 0, chunks := [1], change := kind != .read, proceeded := false })

/-- `s` with the request behind what is in hand. -/
def behind (s : State) (r : Entry × BusyItem) : State :=
  { s with nextArrival := s.nextArrival + 1, inflight := s.inflight ++ [r.1], busy := s.busy ++ [r.2] }

/-- The work in hand, the reply that ends it, and the request that waits for it. -/
def waitings : List (State × Instr × Instr × (Entry × BusyItem)) :=
  let read := Instr.shelfReply 0 1 1 false (.done [5] 0)
  [(committing, .shelfReply 0 1 1 true (.done [] 0), .read 5 0 128 1 1 7 16, arriving .read []),
    (committing, .shelfReply 0 1 1 true (.error 9), .read 5 0 128 1 1 7 16, arriving .read []),
    (reading1, read, .write 5 0 1 1 7 4112 [6], arriving .write [6]),
    (reading1, read, .discard 5 0 1 1 7 16, arriving .discard [])]

/-- What the waiting of a READ, a WRITE and a DISCARD asks for: with the yield flag as it was, and set by the arrival
against a job that waits too; and the end of the work before it, after which it does not wait. -/
theorem waits_in_turn :
    ∀ p ∈ waitings,
      let s := p.1
      let item := p.2.2.2.2
      let jobs := marked 2 1 { s with jobs := [(0, job0 .running)] }
      let u := after p.2.1 s
      s.wf = true ∧ s.frontUp = true ∧ s.ctl.part = .running ∧ s.inflight.length < 255 ∧ (s.vol 0).state = .normal ∧
        (s.vol 0).drain = none ∧ (∀ y ∈ s.inflight, y.arrival < s.nextArrival) ∧ s.nextArrival = 1 ∧
        (∀ i ∈ s.busy, i.owner ≠ .front s.nextArrival) ∧ (∀ m ∈ s.mirror, m.arrival < s.nextArrival) ∧
        firstProceed [] s.busy = none ∧ (∃ i ∈ s.busy, i.conflicts item = true) ∧ (behind s p.2.2.2).yieldSettles ∧
        (behind jobs p.2.2.2).yieldSettles ∧ yieldAfter (behind jobs p.2.2.2) = true ∧ jobs.yielding = false ∧
        s.quietBut (.front 0) ∧ s.yielding = false ∧ s.inflight.length + 1 < s.ctl.config.yieldHigh ∧
        s.firing = false ∧ (∀ i ∈ u.busy, i.conflicts item = false) := by
  simp only [yieldSettles_iff, quietBut_iff]; decide

theorem witness_ReadIsAcceptedAndServed_waits :
    let s := committing
    tfind s.shelf.slots 0 = some (slotOf .write (.request 0 3 .chunkWrite)) ∧
      s.inflight.find? (fun z => z.arrival == write3.arrival) = some write3 ∧
      (∃ u t, exec (.shelfReply 0 1 1 true (.done [] 0)) s = .next u ∧ exec (.read 5 0 128 1 1 7 16) u = .next t) ∧
      behind s (arriving .read []) = after (.read 5 0 128 1 1 7 16) s := by
  refine ⟨by decide, by decide, ⟨_, _, rfl, rfl⟩, by decide⟩

/-- The READ ends as the statement on waiting WRITEs and DISCARDs asks. -/
theorem reading1_ends :
    tfind reading1.shelf.slots 0 = some (slot0 (.request 0 1 .readData)) ∧
      reading1.inflight.find? (fun z => z.arrival == 0) = some (entry0 .read .active) ∧
      endsRead (entry0 .read .active) (slot0 (.request 0 1 .readData)) (.done [5] 0) :=
  ⟨by decide, by decide, rfl, rfl, rfl, [5], rfl, rfl⟩

theorem witness_WriteIsAcceptedRefusedOrHeld_waits :
    let u := after (.shelfReply 0 1 1 false (.done [5] 0)) reading1
    exec (.shelfReply 0 1 1 false (.done [5] 0)) reading1 = .next u ∧
      (∃ t, exec (.write 5 0 1 1 7 4112 [6]) u = .next t) ∧
      behind reading1 (arriving .write [6]) = after (.write 5 0 1 1 7 4112 [6]) reading1 :=
  ⟨rfl, ⟨_, rfl⟩, by decide⟩

theorem witness_DiscardUnmapsTheChunksItCovers_waits :
    let u := after (.shelfReply 0 1 1 false (.done [5] 0)) reading1
    (reading1.vol 0).genLaw ∧ exec (.shelfReply 0 1 1 false (.done [5] 0)) reading1 = .next u ∧
      (∃ t, exec (.discard 5 0 1 1 7 16) u = .next t) ∧
      behind reading1 (arriving .discard []) = after (.discard 5 0 1 1 7 16) reading1 :=
  ⟨vol0_generations.1, rfl, ⟨_, rfl⟩, by decide⟩

/-- R20 to R23: a request waits behind work on its chunk, and its frames follow the reply that ends that work. -/
theorem test_waiting_request_goes_on :
    (waitings.map fun p =>
      let t := after p.2.1 (after p.2.2.1 p.1)
      (t.out.map (fun o => match o with | .front _ n code tag _ _ => (n, code, tag) | _ => (0, .ok, 0)), t.inflight.length,
        t.shelf.slots.length, t.shelf.fgQueue.length)) =
      [([(2, .ok, 3), (0, .ok, 0)], 1, 1, 0), ([(2, .media, 3), (0, .ok, 0)], 1, 1, 0), ([(1, .ok, 3)], 1, 0, 1),
        ([(1, .ok, 3), (3, .ok, 5)], 0, 0, 0)] := by decide

end Sys2Proof.Tests
end

section
/-! PROOFS. The volumes and the chunk map: FORMAT (R1) and VOLUME CREATE (R7). Each request is one event that is
decided in its arrival with no work left over, so what a statement says is what the rule of the request decides. -/

namespace Sys2Proof.Machine

/-! ### A request that executes at once -/

/-- Taking the executing slot leaves the part state, so that a served request passes the check of R180. -/
theorem executes_part_ne {s : State} (h : s.ctlServes) (q : ControlReq) : (s.executes q).ctl.part ≠ .recovering := h.2

/-- Outside RECOVERING the rule of FORMAT decides (R180). -/
theorem perform_format {e : Event} (h : e.st.ctl.part ≠ .recovering) (k p fl lo cl : Nat) :
    perform (.format k p fl lo cl) e = doFormat k p fl lo cl e :=
  if_neg fun hr => h hr.1

/-- Outside RECOVERING the rule of VOLUME CREATE decides (R180). -/
theorem perform_volumeCreate {e : Event} (h : e.st.ctl.part ≠ .recovering) (v size reserve : Nat) (offsite : Bool)
    (cap : Nat) : perform (.volumeCreate v size reserve offsite cap) e = doVolumeCreate v size reserve offsite cap e :=
  if_neg fun hr => h hr.1

/-! ### FORMAT (R1) -/

/-- A volume exists, a fill runs or a pending return waits: FORMAT may not begin (R1). -/
def State.formatBlocked (s : State) : Prop := s.vols ≠ [] ∨ s.format.cond = .formatting ∨ s.returns ≠ []

/-- The state with a fill of the five values begun (R1). -/
def State.formatted (s : State) (k p fl lo cl : Nat) : State :=
  { s with
    format := { cond := .formatting, k := k, pool := p, floor := fl, low := lo, clear := cl },
    free := [], claims := 0, poolLow := false }

/-- The ranges of R1 as its table writes them. With 1 ≤ P, the low mark's bound P - 1 is the model's `low < P`. -/
theorem formatRange_iff (k p fl lo cl : Nat) :
    formatRange k p fl lo cl = true ↔
      k ≤ 6 ∧ 1 ≤ p ∧ p ≤ 268435456 ∧ fl ≤ p ∧ lo ≤ p - 1 ∧ 1 ≤ cl ∧ cl ≤ p ∧ lo < cl := by
  unfold formatRange Config.maxPool
  simp only [Bool.and_eq_true, decide_eq_true_eq]
  omega

theorem doFormat_of_blocked {s : State} (h : s.formatBlocked) (q : ControlReq) (k p fl lo cl : Nat) :
    doFormat k p fl lo cl { st := s.executes q } = refuse .active { st := s.executes q } :=
  if_pos h

theorem doFormat_of_outOfRange {s : State} {k p fl lo cl : Nat} (h : ¬ s.formatBlocked)
    (hr : ¬ formatRange k p fl lo cl = true) (q : ControlReq) :
    doFormat k p fl lo cl { st := s.executes q } = refuse .range { st := s.executes q } :=
  (if_neg h).trans (if_pos hr)

theorem doFormat_of_passes {s : State} {k p fl lo cl : Nat} (h : ¬ s.formatBlocked)
    (hr : formatRange k p fl lo cl = true) (q : ControlReq) :
    doFormat k p fl lo cl { st := s.executes q } = reply .ok [] { st := (s.formatted k p fl lo cl).executes q } :=
  (if_neg h).trans (if_neg (not_not.mpr hr))

/-- A FORMAT that its rule refuses: the reply goes out and the state stands. -/
theorem exec_format_refused {s : State} (h : s.ctlServes) {tag k p fl lo cl : Nat} {code : Code}
    (hd : ∀ q, doFormat k p fl lo cl { st := s.executes q } = refuse code { st := s.executes q }) :
    exec (.format tag k p fl lo cl) s = .next (s.answered 1 tag code []) := by
  refine congrArg Host.Outcome.next (runEvent_of_read h.1 ⟨tag, .format k p fl lo cl⟩ ?_
    (.inl nofun) (.inl nofun))
  exact (perform_format (executes_part_ne h _) ..).trans (hd _)

/-- A FORMAT that passes its checks begins the fill and is answered OK. -/
theorem exec_format_begins {s : State} (h : s.ctlServes) {tag k p fl lo cl : Nat} (hb : ¬ s.formatBlocked)
    (hr : formatRange k p fl lo cl = true) :
    exec (.format tag k p fl lo cl) s = .next ((s.formatted k p fl lo cl).answered 1 tag .ok []) := by
  obtain ⟨hup, -, hqueue⟩ := h.1
  refine congrArg Host.Outcome.next (runEvent_of_reply h.1 ⟨tag, .format k p fl lo cl⟩
    (t := s.formatted k p fl lo cl) ?_ hup hqueue (.inl nofun) (.inl nofun))
  exact (perform_format (executes_part_ne h _) ..).trans (doFormat_of_passes hb hr _)

/-- Settles O21: FORMAT is refused ACTIVE, refused RANGE or begins the fill. -/
theorem formatChecksAndBeginsTheFill : Obligations.FormatChecksAndBeginsTheFill := by
  intro s tag k p fl lo cl h
  simp only [← formatRange_iff]
  split_ifs with hb hr
  · exact exec_format_refused h fun q => doFormat_of_blocked hb q k p fl lo cl
  · exact exec_format_begins h hb hr
  · exact exec_format_refused h (doFormat_of_outOfRange hb hr)

/-! ### VOLUME CREATE (R7) -/

/-- The six checks of R7 in their order, with the bounds of the manual. -/
theorem createVolCheck_eq (s : State) (v size reserve cap : Nat) :
    createVolCheck s v size reserve cap =
      if s.format.cond ≠ .valid then some .notSet
      else if 63 < v then some .range
      else if (s.vol v).state ≠ .absent then some .active
      else if size < 1 ∨ 67108864 < size then some .range
      else if 268435456 - ((s.vols.filter fun p => p.2.state != .absent).map fun p => p.2.size).sum < size
        then some .range
      else if 268435455 < reserve ∨ cap < 1024 ∨ 262144 < cap then some .range
      else none := by
  have hv : ¬ v < Config.volumes ↔ 63 < v := by unfold Config.volumes; omega
  have hsize : ¬ (1 ≤ size ∧ size ≤ Config.maxVolume) ↔ size < 1 ∨ 67108864 < size := by
    unfold Config.maxVolume; omega
  simp only [createVolCheck, hv, hsize]
  rfl

/-- A VOLUME CREATE that fails a check: the reply goes out and the state stands. -/
theorem exec_volumeCreate_refused {s : State} (h : s.ctlServes) (tag : Nat) {v size reserve : Nat} (offsite : Bool)
    {cap : Nat} {code : Code} (hc : createVolCheck s v size reserve cap = some code) :
    exec (.volumeCreate tag v size reserve offsite cap) s = .next (s.answered 8 tag code []) := by
  refine congrArg Host.Outcome.next (runEvent_of_read h.1 ⟨tag, .volumeCreate v size reserve offsite cap⟩ ?_
    (.inl nofun) (.inl nofun))
  have hq : createVolCheck (s.executes ⟨tag, .volumeCreate v size reserve offsite cap⟩) v size reserve cap
      = some code := hc
  rw [perform_volumeCreate (executes_part_ne h _), doVolumeCreate, hq]
  rfl

/-- A VOLUME CREATE that passes the checks writes the new record and is answered OK. -/
theorem exec_volumeCreate_created {s : State} (h : s.ctlServes) (tag : Nat) {v size reserve : Nat} (offsite : Bool)
    {cap : Nat} (hc : createVolCheck s v size reserve cap = none) :
    exec (.volumeCreate tag v size reserve offsite cap) s =
      .next ((s.setVol v (newVolume size reserve offsite cap)).answered 8 tag .ok []) := by
  obtain ⟨hup, -, hqueue⟩ := h.1
  refine congrArg Host.Outcome.next (runEvent_of_reply h.1 ⟨tag, .volumeCreate v size reserve offsite cap⟩
    (t := s.setVol v (newVolume size reserve offsite cap)) ?_ hup hqueue (.inl nofun) (.inl nofun))
  have hq : createVolCheck (s.executes ⟨tag, .volumeCreate v size reserve offsite cap⟩) v size reserve cap
      = none := hc
  rw [perform_volumeCreate (executes_part_ne h _), doVolumeCreate, hq]
  rfl

/-- Settles O24: the first check that fails names the refusal, and with none the new record is made. -/
theorem volumeCreateChecksAndCreates : Obligations.VolumeCreateChecksAndCreates := by
  intro s tag v size reserve offsite cap h
  have hcheck := createVolCheck_eq s v size reserve cap
  dsimp only
  split_ifs at hcheck ⊢
  case neg => exact exec_volumeCreate_created h tag offsite hcheck
  all_goals exact exec_volumeCreate_refused h tag offsite hcheck

end Sys2Proof.Machine
end

section
/-! PROOFS. Control requests and notices: the status reads CONFIG READ (R186) and NOTICE FETCH (R190). Both execute in
every part state. CONFIG READ leaves the state; NOTICE FETCH takes its notices where the event's end completes its reply. -/

namespace Sys2Proof.Machine

/-! ### Status reads -/

/-- A status read executes in every part state, RECOVERING included (R180). -/
theorem perform_configRead (e : Event) : perform .configRead e = doConfigRead e := if_neg fun h => h.2 rfl

theorem perform_noticeFetch (e : Event) : perform .noticeFetch e = doNoticeFetch e := if_neg fun h => h.2 rfl

/-! ### CONFIG READ (R186) -/

/-- The sixteen fields in the order of 11.4, a pool threshold as 0 while the format record is not VALID. -/
theorem configFields_eq (s : State) :
    configFields s =
      let c := s.ctl.config
      let mark := fun n => if s.format.cond = .valid then n else 0
      [mark s.format.floor, mark s.format.low, mark s.format.clear, c.grace, c.band, c.drainTimeout, c.shelfTimeout,
        c.yieldHigh, c.yieldLow, c.partnerSite, c.window, c.ackTimeout, c.retryLimit, c.nightRate, c.dayRate,
        s.sched.rate.value] := by
  by_cases hv : s.format.cond = .valid <;> simp [configFields, storedFields, hv]

/-- Settles O18: a request that only reads is answered with the fields as the state has them. -/
theorem configReadReportsTheRecord : Obligations.ConfigReadReportsTheRecord := by
  intro s tag h c mark
  refine congrArg Host.Outcome.next ((runEvent_of_read h ⟨tag, .configRead⟩
    (perform_configRead _) (.inl nofun) (.inl nofun)).trans ?_)
  change s.answered 3 tag .ok (configFields s ++ [s.format.cond.value, s.format.k, s.format.pool]) = _
  rw [configFields_eq]
  rfl

/-! ### NOTICE FETCH (R190) -/

/-- The overflow mark stands only while the fetch leaves a notice in the queue. -/
theorem fetched_eq (c : Control) :
    c.fetched = { c with notices := c.notices.drop 8, lost := if c.notices.drop 8 = [] then false else c.lost } := by
  have hlost : (c.lost && !(c.notices.drop 8).isEmpty) = if c.notices.drop 8 = [] then false else c.lost := by
    split_ifs with hq <;> simp [hq]
  exact congrArg (fun b => { c with notices := c.notices.drop 8, lost := b }) hlost

/-- The reply to a FETCH takes its notices, and its flags show the queue that it leaves. -/
theorem completeReply_fetch (c : Control) (tag : Nat) (result : List Nat) :
    completeReply c 38 tag .ok result =
      (c.fetched, .control (!c.fetched.notices.isEmpty) c.fetched.lost 38 tag .ok c.fetchWords) := rfl

/-- A FETCH that executes at once: the whole event. -/
theorem exec_noticeFetch {s : State} (h : s.ctlFree) (tag : Nat) :
    exec (.noticeFetch tag) s = .next (({ s with ctl := s.ctl.fetched }).answered 38 tag .ok s.ctl.fetchWords) := by
  have ⟨hup, _, hqueue⟩ := h
  refine congrArg Host.Outcome.next ?_
  rw [runEvent, controlArrive_of_free h, perform_noticeFetch, doNoticeFetch,
    close_reply (s := s.executes ⟨tag, .noticeFetch⟩) (x := ⟨tag, 38⟩) rfl hqueue hup rfl, completeReply_fetch]
  rfl

/-- Settles O20: the fetch leaves the queue without its eight oldest notices and returns those. -/
theorem noticeFetchTakesTheOldest : Obligations.NoticeFetchTakesTheOldest := by
  intro s tag h left
  rw [exec_noticeFetch h, fetched_eq]
  rfl

end Sys2Proof.Machine
end

section
/-! PROOFS. The block as a whole: the queue of commands, the state of a new part, the evaluations at the end of an event,
and frames that are no request. -/

namespace Sys2Proof.Machine

/-! ### The queue of commands and the new part -/

/-- Settles O1: by the two cases of the queue. -/
theorem stepRunsFrontCommand : Obligations.StepRunsFrontCommand := by
  refine ⟨fun s c rest h => ?_, fun s h => ?_⟩
  · simp only [step, h]
  · simp only [step, h]

/-- A new part has no work in flight, so nothing that the work law speaks of exists. -/
theorem workLaw_reset : workLaw State.reset := by
  refine ⟨?_, ?_, ?_, ?_, ?_, ?_, ?_⟩
  · simp [entryLaw, State.reset]
  · simp [busyLaw, State.reset]
  · simp [jobLaw, State.reset]
  · simp [shelfLaw, State.reset, Shelf.cmds, Shelf.abandoned, Shelf.atReset]
  · simp [volumeLaw, State.reset, Format.none, Run.fresh]
  · simp [askLaw, State.reset, State.works, State.restoreAsks]
  · simp [recoveryLaw, State.reset, Run.fresh]

/-- A new part has no account in use, no PCN, no frame and no volume. -/
theorem safe_reset : Safe State.reset := by
  refine ⟨rfl, ⟨by decide, by decide⟩, ?_, ?_, ?_, ?_, ?_, workLaw_reset, ?_, fun o => ⟨?_, ?_⟩⟩
  · simp [State.reset]
  · simp [marksLaw, State.reset, Format.none]
  · simp [reserveLaw, State.reset]
  · simp [outstandingLaw, State.reset, Port.atReset, Config.default]
  · simp [runLaw, State.reset, Run.fresh, Port.atReset, State.runAsks, State.works]
  · simp [poolLaw, State.reset, State.claimedPcns, Format.none]
  · simp [chargeLaw, State.reset, State.mappedOf, State.acct, tget, tfind, Account.fresh]
  · simp [reservationLaw, State.reset, State.acct, tget, tfind, Account.fresh]

/-- Settles O2: every value stands in the definition of the new part, and `safe_reset` gives the laws. -/
theorem resetIsANewPartInStandby : Obligations.ResetIsANewPartInStandby := by
  refine ⟨rfl, rfl, rfl, rfl, rfl, rfl, rfl, rfl, rfl, rfl, rfl, rfl, rfl, rfl, rfl, rfl, rfl, rfl, rfl, rfl, rfl,
    rfl, rfl, rfl, rfl, safe_reset⟩

/-! ### The watermark and the reserve-over flag -/

/-- The evaluation of the pool by the table of R5: its two changes, each from its own state. -/
theorem evalPool_eq (s : State) :
    evalPool s = (if s.ctl.part = .recovering ∨ s.format.cond ≠ .valid then (s, [])
      else if s.poolLow = false ∧ s.free.length < s.format.low then
        ({ s with poolLow := true }, [s.notice .poolLow 0 s.free.length s.format.low])
      else if s.poolLow = true ∧ s.format.clear ≤ s.free.length then
        ({ s with poolLow := false }, [s.notice .poolRecovered 0 s.free.length s.format.clear])
      else (s, [])) := by
  unfold evalPool State.freeCount
  cases s.poolLow <;> simp

/-- The release figure of R84: the limit less the band, 0 if the band is greater. -/
theorem le_reserveRelease_iff (usage limit band : Nat) :
    usage ≤ limit - band ↔ if band ≤ limit then usage + band ≤ limit else usage = 0 := by
  split_ifs <;> omega

/-- A volume is usable unless it is ABSENT or DELETING. -/
theorem not_usable_iff (x : Volume) : ¬ x.usable = true ↔ x.state = .absent ∨ x.state = .deleting := by
  unfold Volume.usable
  cases x.state <;> simp

/-- The reserve notice test by the table of R84. -/
theorem evalReserve_eq (s : State) (v : Nat) :
    evalReserve s v = (if s.ctl.part = .recovering ∨ (s.vol v).state = .absent ∨ (s.vol v).state = .deleting then (s, [])
      else if (s.vol v).reserveOver = false ∧ (s.vol v).reserveLimit ≠ noLimit ∧
          (s.vol v).reserveLimit < (s.vol v).reserveUsage then
        (s.setVol v { s.vol v with reserveOver := true },
          [s.notice .reserveOver v (s.vol v).reserveUsage (s.vol v).reserveLimit])
      else if (s.vol v).reserveOver = true ∧ (s.vol v).reserveUsage ≤ (s.vol v).reserveLimit - s.ctl.config.band then
        (s.setVol v { s.vol v with reserveOver := false },
          [s.notice .reserveCleared v (s.vol v).reserveUsage (s.vol v).reserveLimit])
      else (s, [])) := by
  unfold evalReserve
  simp only [not_usable_iff]
  cases (s.vol v).reserveOver <;> simp

/-- Settles O11: the two tables, the model's cases in the order of the manual. -/
theorem watermarkAndReserveEvaluations : Obligations.WatermarkAndReserveEvaluations := by
  intro s v f x usage note
  refine ⟨evalPool_eq s, ?_⟩
  rw [evalReserve_eq]
  simp only [le_reserveRelease_iff]
  rfl

/-! ### Frames that are no request -/

/-- An event whose only effect is one on the state, with nothing put on the links. -/
theorem runEvent_silent {s t : State} {f : Event → Event} (hf : f (openEvent s) = { st := { t with out := [] } }) :
    runEvent s f = t.closed := by
  rw [runEvent, hf, runTodo_of_none (turn_of_idle rfl), closeEvent_silent rfl]
  rfl

/-- A front reply that goes out in an event that does nothing else; it is dropped while the link is down. -/
theorem runEvent_replyFront (s : State) (addr kind tag : Nat) (code : Code) :
    runEvent s (replyFront addr kind code tag) = if s.frontUp then s.replied addr kind code tag else s.closed := by
  split_ifs with hu
  · have hf : replyFront addr kind code tag (openEvent s) =
        { st := { s with out := [.front addr kind code tag 0 []] } } := by
      simp [replyFront, emitFront, openEvent, Event.upd, hu]
    rw [runEvent, hf, runTodo_of_none (turn_of_idle rfl), closeEvent_plain,
      completeReplies_plain _ _ _ _ _ _ (by simp [Output.isPlain])]
    simp [State.replied, Verdicts.due, Causes.join, unionAsc, State.headDue]
  · exact runEvent_silent (emitFront_down _ (by simpa using hu))

/-- While the front link is down no front request arrives (R39). -/
theorem frontArrive_down {e : Event} (h : e.st.frontUp = false) (kind : FrontKind)
    (tag vol view start count owner len : Nat) (data : List Block) :
    frontArrive kind tag vol view start count owner len data e = e := by
  simp [frontArrive, h]

/-- While the front link is down no control frame arrives (R39). -/
theorem controlBytes_down {e : Event} (h : e.st.frontUp = false) (f : List Byte) : controlBytes f e = e := by
  unfold controlBytes
  cases controlOf f with
  | none => rfl
  | some q => simp [controlArrive, h]

/-- A link event changes the link's state and nothing else; frames that are no request are answered or discarded. -/
theorem exec_frontFrames (s : State) (addr kind tag len : Nat) :
    exec (.frontFrameBadAddress addr kind tag) s =
       .next (if s.frontUp then s.replied addr 0 .malformed tag else s.closed) ∧
     exec (.malformedRequestKind addr kind tag) s =
       .next (if s.frontUp then s.replied addr kind .malformed tag else s.closed) ∧
     exec (.shortFrameDiscard addr len) s = .next s.closed ∧
     exec .frontLinkDown s = .next { s.closed with frontUp := false } ∧
     exec .frontLinkUp s = .next { s.closed with frontUp := true } :=
  ⟨congrArg Host.Outcome.next (runEvent_replyFront ..), congrArg Host.Outcome.next (runEvent_replyFront ..),
    congrArg Host.Outcome.next (runEvent_silent rfl),
    congrArg Host.Outcome.next (runEvent_silent (t := { s with frontUp := false }) rfl),
    congrArg Host.Outcome.next (runEvent_silent (t := { s with frontUp := true }) rfl)⟩

theorem exec_linkDown {s : State} (h : s.frontUp = false) (tag len vol view start count owner : Nat) (data : List Block)
    (f : List Byte) :
    exec (.read tag vol view start count owner len) s = .next s.closed ∧
       exec (.write tag vol start count owner len data) s = .next s.closed ∧
       exec (.discard tag vol start count owner len) s = .next s.closed ∧
       exec (.controlRequestArrival f) s = .next s.closed := by
  have ho : (openEvent s).st.frontUp = false := h
  exact ⟨congrArg Host.Outcome.next (runEvent_silent (frontArrive_down ho ..)),
    congrArg Host.Outcome.next (runEvent_silent (frontArrive_down ho ..)),
    congrArg Host.Outcome.next (runEvent_silent (frontArrive_down ho ..)),
    congrArg Host.Outcome.next (runEvent_silent (controlBytes_down ho f))⟩

/-- The number of some bytes is 0 only where each of them is. -/
theorem rd_eq_zero {bs : List Byte} (h : rd bs = 0) : ∀ b ∈ bs, b = 0#8 := by
  have key : ∀ (bs : List Byte) (a : Nat), bs.foldl (fun a b => a * 256 + b.toNat) a = 0 → a = 0 ∧ ∀ b ∈ bs, b = 0#8 := by
    intro bs
    induction bs with
    | nil => intro a h; exact ⟨h, by simp⟩
    | cons b bs ih =>
      intro a h
      obtain ⟨h1, h2⟩ := ih _ h
      replace h1 : a * 256 + BitVec.toNat b = 0 := h1
      have hb : BitVec.toNat b = 0 := by omega
      refine ⟨by omega, fun c hc => ?_⟩
      rcases List.mem_cons.mp hc with rfl | hc
      · exact BitVec.eq_of_toNat_eq (by simpa using hb)
      · exact h2 c hc
  exact (key bs 0 h).2

/-- A frame of another length, with a payload or of another kind is none of the partner's (R143, R192). -/
theorem partnerOf_none {f : List Byte} (h : f.length ≠ 48 ∨ (∃ b ∈ (f.drop 20).take 4, b ≠ 0#8) ∨
    ∀ b, f.head? = some b → b ∉ [17#8, 18#8, 19#8, 20#8, 21#8]) : partnerOf f = none := by
  unfold partnerOf
  split_ifs with hc
  · rfl
  · obtain ⟨hlen, hpay⟩ := not_or.mp hc
    rw [not_not] at hlen hpay
    rcases h with h | ⟨b, hb, hne⟩ | h
    · exact absurd hlen h
    · exact absurd (rd_eq_zero hpay b hb) hne
    · match f, hlen with
      | a :: t, _ =>
        have hk := h a rfl
        simp only [List.mem_cons, List.not_mem_nil, or_false, not_or] at hk
        obtain ⟨h1, h2, h3, h4, h5⟩ := hk
        have hr : rd ((a :: t).take 1) = BitVec.toNat a := by simp [rd]
        have hv : ∀ n (hn : n < 256), a ≠ BitVec.ofNat 8 n → BitVec.toNat a ≠ n := by
          intro n hn hne ht
          exact hne (BitVec.eq_of_toNat_eq (by simp [ht, Nat.mod_eq_of_lt hn]))
        have g1 := hv 17 (by omega) h1
        have g2 := hv 18 (by omega) h2
        have g3 := hv 19 (by omega) h3
        have g4 := hv 20 (by omega) h4
        have g5 := hv 21 (by omega) h5
        dsimp only
        rw [hr]
        split <;> first | rfl | contradiction

/-- Settles O17: each frame's event does nothing but answer or count it. -/
theorem framesThatAreNoRequestAreAnsweredOrCounted : Obligations.FramesThatAreNoRequestAreAnsweredOrCounted := by
  refine ⟨fun s addr kind tag len => ?_, fun s f h => ?_⟩
  · obtain ⟨h1, h2, h3, h4, h5⟩ := exec_frontFrames s addr kind tag len
    exact ⟨h1, h2, h3, h4, h5, fun hd vol view start count owner data f => exec_linkDown hd ..⟩
  · refine congrArg Host.Outcome.next (runEvent_silent (t := { s with port := { s.port with ignored := s.port.ignored + 1 } }) ?_)
    simp [partnerBytes, partnerOf_none h, ignoreFrame, Event.updPort, Event.upd, openEvent]

end Sys2Proof.Machine
end

section
/-! PROOFS. Two statements on steps that fail. Each counterexample meets every premise and is no state of the reset's
making: what it shows is that the premises do not shut it out, and so that the statement needs a stronger one. -/

namespace Sys2Proof.Machine

/-! ### A drain timer of an ABSENT volume (R5, R12, R84)

`reserveLaw` says nothing of a volume that is ABSENT, and `recoveryLaw` lets one be listed with a freeze's drain. The drain
timer makes any volume with such a drain NORMAL, and an event evaluates the reserve only of the volumes whose retained
sets it touched. -/

/-- An ABSENT volume with one retained entry above its limit of 0, and a freeze's drain in hand. -/
def overdrawn : Volume :=
  { Volume.absent with
    snaps := [(1, { kind := .user, series := none, gen := 0, label := 0, created := 0, held := false, state := .ready,
                    retained := [{ lcn := 0, pcn := 0, born := 0 }], inUse := 0, freed := 0 })],
    gen := 1, drain := some { work := .refusing [], members := [], timeout := 20 } }

def overdrawnPart : State :=
  { State.reset with
    vols := [(0, overdrawn)], ctl := { State.reset.ctl with part := .running }, pending := [.drainTimeout 0] }

theorem overdrawnPart_reserveLaw : reserveLaw overdrawnPart := by
  intro p hp
  obtain rfl := List.mem_singleton.mp hp
  exact fun h => absurd h (by decide)

theorem overdrawnPart_recoveryLaw : recoveryLaw overdrawnPart := by
  unfold recoveryLaw; decide

/-- What its step leaves: volume 0 NORMAL, its usage 1, its limit 0 and its flag clear. -/
theorem overdrawnPart_step :
    ∃ t, step overdrawnPart = .next t ∧ ∃ p ∈ t.vols, p.2.usable = true ∧ p.2.reserveOver = false ∧
      p.2.reserveLimit ≠ noLimit ∧ ¬ p.2.reserveUsage ≤ p.2.reserveLimit :=
  ⟨_, rfl, by decide⟩

/-- Refutes O6: the drain timer brings back an ABSENT volume that is above its reserve limit, unevaluated. -/
theorem not_stepKeepsWatermarkLaw : ¬ Obligations.StepKeepsWatermarkLaw := by
  unfold Obligations.StepKeepsWatermarkLaw
  intro h
  obtain ⟨t, hstep, p, hp, husable, hflag, hlimit, hover⟩ := overdrawnPart_step
  have hlaw : reserveLaw t := (h _ _ (by decide) overdrawnPart_recoveryLaw hstep).2 overdrawnPart_reserveLaw (by decide)
  exact (hlaw p hp husable hflag).elim hlimit hover

/-! ### A PCN that is pending return twice (R116)

`shelfLaw` asks only that the pending-return list holds a PCN at least as often as there are abandoned writes of it, so it
lets a PCN be pending return twice with two writes of it, one in a slot and one waiting. The fall of the shelf link ends
the write in the slot, and the return takes the PCN off the list altogether; the other write still waits. -/

def abandonedWrite : ShelfCmd :=
  { kind := .write, cls := .restore, pcn := 7, first := 0, count := 1, data := [0], owner := .abandoned 7 }

def twiceAbandoned : State :=
  { State.reset with
    ctl := { State.reset.ctl with part := .running }, returns := [7, 7], claims := 2, pending := [.shelfLinkDown]
    shelf := { Shelf.atReset 1 with
      up := true, fgQueue := [abandonedWrite], slots := [(0, { cmd := abandonedWrite, epoch := 1, use := 1, timeout := 50 })] } }

theorem twiceAbandoned_outstandingLaw : outstandingLaw twiceAbandoned ∧ runLaw twiceAbandoned := by
  unfold outstandingLaw runLaw; decide

theorem twiceAbandoned_shelfLaw : shelfLaw twiceAbandoned := by
  refine ⟨?_, by decide, by decide⟩
  intro c hc
  have hcmds : twiceAbandoned.shelf.cmds = [abandonedWrite, abandonedWrite] := rfl
  obtain rfl : c = abandonedWrite := by simpa [hcmds] using hc
  trivial

theorem twiceAbandoned_workLaw : workLaw twiceAbandoned := by
  have hentry : entryLaw twiceAbandoned := by simp [entryLaw, twiceAbandoned, State.reset]
  have hbusy : busyLaw twiceAbandoned := by simp [busyLaw, twiceAbandoned, State.reset]
  have hjob : jobLaw twiceAbandoned := by simp [jobLaw, twiceAbandoned, State.reset]
  have hvolume : volumeLaw twiceAbandoned := by
    simp [volumeLaw, twiceAbandoned, State.reset, Format.none]
  have hask : askLaw twiceAbandoned := by unfold askLaw; decide
  have hrecovery : recoveryLaw twiceAbandoned := by unfold recoveryLaw; decide
  exact ⟨hentry, hbusy, hjob, twiceAbandoned_shelfLaw, hvolume, hask, hrecovery⟩

theorem twiceAbandoned_step :
    ∃ t, step twiceAbandoned = .next t ∧ ∃ n ∈ t.shelf.abandoned, ¬ t.shelf.abandoned.count n ≤ t.returns.count n :=
  ⟨_, rfl, by decide⟩

/-- Refutes O8: the end of one of two abandoned writes of a PCN takes it off the pending-return list. -/
theorem not_stepKeepsWorkLaw : ¬ Obligations.StepKeepsWorkLaw := by
  unfold Obligations.StepKeepsWorkLaw
  intro h
  obtain ⟨t, hstep, n, hn, hcount⟩ := twiceAbandoned_step
  obtain ⟨houtstanding, hrun⟩ := twiceAbandoned_outstandingLaw
  obtain ⟨-, -, -, ⟨-, -, hshelf⟩, -⟩ :=
    h _ _ (by decide) houtstanding hrun twiceAbandoned_workLaw hstep
  exact hcount (hshelf n hn)

end Sys2Proof.Machine
end

section
/-! PROOFS. What the operations of an event can change, said once. A predicate on states that the rules below keep is kept by
every operation (`Base`, `Full`), and so by every step; each law that holds at every point of an event is one such
predicate. -/

namespace Sys2Proof.Machine

/-! ### Splitting a table at a key -/

theorem tfind_of_above {α : Type} {k i : Nat} {t : Table α} (h : Table.above k t = true) (hi : i ≤ k) :
    tfind t i = none := by
  induction t with
  | nil => rfl
  | cons p t ih =>
    obtain ⟨j, w⟩ := p
    simp only [Table.above, List.all_cons, Bool.and_eq_true, decide_eq_true_eq] at h
    rw [tfind, if_neg (by omega)]
    exact ih h.2

/-- A listed key splits the table: a write replaces its value in place, an unlisting takes it out. -/
theorem exists_split {α : Type} {i : Nat} {v : α} {t : Table α} (h : tfind t i = some v) (hs : Table.sorted t = true) :
    ∃ a b, t = a ++ (i, v) :: b ∧ (∀ w, tput i w t = a ++ (i, w) :: b) ∧ tdel i t = a ++ b := by
  induction t with
  | nil => simp [tfind] at h
  | cons p t ih =>
    obtain ⟨k, x⟩ := p
    simp only [Table.sorted, Bool.and_eq_true] at hs
    rw [tfind] at h
    split_ifs at h with hk
    · subst hk
      obtain rfl : x = v := by simpa using h
      refine ⟨[], t, rfl, fun w => by simp [tput], ?_⟩
      rw [tdel, if_pos rfl, tdel_none i t (tfind_of_above hs.1 le_rfl)]
      rfl
    · obtain ⟨a, b, ht, hput, hdel⟩ := ih h hs.2
      have hki : ¬ i < k := by
        intro hlt
        rw [tfind_of_above hs.1 hlt.le] at h
        cases h
      refine ⟨(k, x) :: a, b, by rw [ht]; rfl, fun w => ?_, ?_⟩
      · rw [tput, if_neg hki, if_neg hk, hput]
        rfl
      · rw [tdel, if_neg hk, hdel]
        rfl

/-- A key that is not listed is written into its place among the others. -/
theorem tput_split_of_none {α : Type} {i : Nat} {t : Table α} (h : tfind t i = none) (w : α) :
    ∃ a b, t = a ++ b ∧ tput i w t = a ++ (i, w) :: b := by
  induction t with
  | nil => exact ⟨[], [], rfl, rfl⟩
  | cons p t ih =>
    obtain ⟨k, x⟩ := p
    rw [tfind] at h
    split_ifs at h with hk
    rw [tput]
    split_ifs with hlt
    · exact ⟨[], (k, x) :: t, rfl, rfl⟩
    · obtain ⟨a, b, ht, hput⟩ := ih h
      exact ⟨(k, x) :: a, b, by rw [ht]; rfl, by rw [hput]; rfl⟩

theorem mem_of_tfind {α : Type} {i : Nat} {v : α} {t : Table α} (h : tfind t i = some v) : (i, v) ∈ t := by
  induction t with
  | nil => simp [tfind] at h
  | cons p t ih =>
    obtain ⟨k, x⟩ := p
    rw [tfind] at h
    split_ifs at h with hk
    · subst hk
      obtain rfl : x = v := by simpa using h
      exact List.mem_cons_self ..
    · exact List.mem_cons_of_mem _ (ih h)

theorem tfind_of_mem {α : Type} {p : Nat × α} {t : Table α} (hs : Table.sorted t = true) (h : p ∈ t) :
    tfind t p.1 = some p.2 := by
  induction t with
  | nil => simp at h
  | cons q t ih =>
    obtain ⟨k, x⟩ := q
    simp only [Table.sorted, Bool.and_eq_true] at hs
    rw [tfind]
    rcases List.mem_cons.mp h with rfl | h
    · simp
    · have hk : k < p.1 := by
        have := List.all_eq_true.mp hs.1 p h
        simpa using this
      rw [if_neg (by omega)]
      exact ih hs.2 h

/-- What every listed record has, and the default, the record of any key has. -/
theorem tget_of_forall {α : Type} {Q : α → Prop} {d : α} {t : Table α} (hd : Q d) (h : ∀ p ∈ t, Q p.2) (i : Nat) :
    Q (tget d t i) := by
  unfold tget
  cases hf : tfind t i with
  | none => exact hd
  | some v => exact h _ (mem_of_tfind hf)

/-- What every listed record has, and the record written, every listed record has after the write. -/
theorem forall_tset {α : Type} [DecidableEq α] {Q : α → Prop} {d v : α} {t : Table α} {i : Nat}
    (h : ∀ p ∈ t, Q p.2) (hv : Q v) : ∀ p ∈ tset d i v t, Q p.2 := by
  intro p hp
  unfold tset at hp
  split_ifs at hp
  · exact h p (mem_tdel hp)
  · rcases mem_tput hp with rfl | hp
    · exact hv
    · exact h p hp

/-! ### What an operation does to the records -/

/-- The tables that an operation may write keep their form; the volumes and the two queues of the control unit stand. -/
structure State.Near (s t : State) : Prop where
  vols : t.vols = s.vols
  accounts : Table.wf Account.fresh s.accounts = true → Table.wf Account.fresh t.accounts = true
  jobs : Table.sorted s.jobs = true → Table.sorted t.jobs = true
  slots : Table.sorted s.shelf.slots = true → Table.sorted t.shelf.slots = true
  uses : Table.wf 0 s.shelf.uses = true → Table.wf 0 t.shelf.uses = true
  bankA : Table.wf unusedEntry s.sched.bankA = true → Table.wf unusedEntry t.sched.bankA = true
  bankB : Table.wf unusedEntry s.sched.bankB = true → Table.wf unusedEntry t.sched.bankB = true
  queue : t.ctl.queue = s.ctl.queue
  notices : t.ctl.notices = s.ctl.notices

/-- The offsite engine, its port, the plan and the configuration stand. -/
structure State.SameRun (s t : State) : Prop where
  run : t.run = s.run
  port : t.port = s.port
  plan : t.plan = s.plan
  config : t.ctl.config = s.ctl.config

/-- A change of a volume record that keeps its form and the generation law (R80, R82). -/
structure Volume.Keeps (x y : Volume) : Prop where
  wf : x.wf = true → y.wf = true
  gen : x.wf = true → x.genLaw → y.genLaw

/-! ### The rules -/

/-- The rules for operations that touch neither the run nor the drains of a volume. -/
structure Base (P : State → Prop) : Prop where
  calm : ∀ {s t : State}, s.Near t → s.SameRun t → P s → P t
  vol : ∀ {s : State} {v : Nat} {y : Volume}, (s.vol v).Keeps y → y.works = (s.vol v).works → P s → P (s.setVol v y)

/-- The rules for all operations on volumes and on the offsite engine. -/
structure Full (P : State → Prop) : Prop extends Base P where
  run : ∀ {s t : State}, s.Near t → P s → P t
  works : ∀ {s : State} {v : Nat} {y : Volume}, (s.vol v).Keeps y → P s → P (s.setVol v y)

end Sys2Proof.Machine
end

section
/-! PROOFS. Which changes of a volume record keep its form, the generation law (R80, R82) and its reserve usage (R84). -/

namespace Sys2Proof.Machine

/-- A MAPPED form is born by a generation. -/
def Form.bornBy (f : Form) (g : Nat) : Prop :=
  match f with
  | .mapped _ born _ => born ≤ g
  | .unmapped _ => True

theorem genLaw_iff (x : Volume) : x.genLaw ↔
    (x.snaps.map fun p => p.2.gen).Nodup ∧
      (∀ p ∈ x.snaps, p.2.gen < x.gen ∧ ∀ r ∈ p.2.retained, r.born ≤ p.2.gen) ∧
      ∀ p ∈ x.map, p.2.form.bornBy x.gen := Iff.rfl

theorem Volume.wf_iff (x : Volume) : x.wf = true ↔ Table.wf MapEntry.fresh x.map = true ∧ Table.sorted x.snaps = true := by
  simp [Volume.wf]

/-- The entry of every LCN is born by G (R80). -/
theorem Volume.genLaw.entry {x : Volume} (h : x.genLaw) (l : Nat) : (x.entry l).form.bornBy x.gen :=
  tget_of_forall (Q := fun m : MapEntry => m.form.bornBy x.gen) (d := MapEntry.fresh) trivial ((genLaw_iff x).mp h).2.2 l

theorem Form.bornBy.mono {f : Form} {g g' : Nat} (h : f.bornBy g) (hg : g ≤ g') : f.bornBy g' := by
  cases f with
  | mapped p b o => exact Nat.le_trans h hg
  | unmapped c => trivial

theorem genLaw_absent : Volume.absent.genLaw := by simp [Volume.genLaw, Volume.absent]

/-! ### The map and the snapshots stand -/

theorem Volume.Keeps.of_same {x y : Volume} (hm : y.map = x.map) (hs : y.snaps = x.snaps) (hg : y.gen = x.gen) :
    x.Keeps y := by
  constructor
  · rw [Volume.wf_iff, Volume.wf_iff, hm, hs]
    exact id
  · intro _
    rw [genLaw_iff, genLaw_iff, hm, hs, hg]
    exact id

/-! ### A map entry is written -/

theorem Volume.Keeps.of_map {x y : Volume} {l : Nat} {m : MapEntry} (hb : x.genLaw → m.form.bornBy x.gen)
    (hm : y.map = tset MapEntry.fresh l m x.map) (hs : y.snaps = x.snaps) (hg : y.gen = x.gen) : x.Keeps y := by
  constructor
  · rw [Volume.wf_iff, Volume.wf_iff, hm, hs]
    exact fun h => ⟨wf_tset l m h.1, h.2⟩
  · intro _ h
    have hm' := hb h
    rw [genLaw_iff] at h ⊢
    rw [hm, hs, hg]
    obtain ⟨h1, h2, h3⟩ := h
    exact ⟨h1, h2, forall_tset (Q := fun e : MapEntry => e.form.bornBy x.gen) h3 hm'⟩

/-- An entry is mapped or unmapped at G. -/
theorem Volume.keeps_setForm_mapped (x : Volume) (l pcn owner : Nat) : x.Keeps (x.setForm l (.mapped pcn x.gen owner)) :=
  .of_map (l := l) (m := { x.entry l with form := .mapped pcn x.gen owner }) (fun _ => Nat.le_refl x.gen) rfl rfl rfl

theorem Volume.keeps_setForm_unmapped (x : Volume) (l g : Nat) : x.Keeps (x.setForm l (.unmapped g)) :=
  .of_map (l := l) (m := { x.entry l with form := .unmapped g }) (fun _ => trivial) rfl rfl rfl

/-- The stamp of an entry is written, its form kept. -/
theorem Volume.Keeps.of_stamp {x y : Volume} {l : Nat} {st : Option Nat}
    (hm : y.map = tset MapEntry.fresh l { x.entry l with stamp := st } x.map) (hs : y.snaps = x.snaps)
    (hg : y.gen = x.gen) : x.Keeps y :=
  .of_map (m := { x.entry l with stamp := st }) (fun h => h.entry l) hm hs hg

/-! ### A snapshot record is replaced -/

/-- The total of a figure over a table after one record is replaced. -/
theorem sum_tput {α : Type} (f : Nat × α → Nat) {t : Table α} {i : Nat} {v w : α} (h : tfind t i = some v)
    (hs : Table.sorted t = true) : ((tput i w t).map f).sum + f (i, v) = (t.map f).sum + f (i, w) := by
  obtain ⟨a, b, ht, hput, -⟩ := exists_split h hs
  rw [hput, ht]
  simp only [List.map_append, List.map_cons, List.sum_append, List.sum_cons]
  omega

theorem sum_tdel {α : Type} (f : Nat × α → Nat) {t : Table α} {i : Nat} {v : α} (h : tfind t i = some v)
    (hs : Table.sorted t = true) : ((tdel i t).map f).sum + f (i, v) = (t.map f).sum := by
  obtain ⟨a, b, ht, -, hdel⟩ := exists_split h hs
  rw [hdel, ht]
  simp only [List.map_append, List.map_cons, List.sum_append, List.sum_cons]
  omega

theorem usage_eq (x : Volume) : x.reserveUsage = (x.snaps.map fun p => p.2.retained.length).sum := rfl

/-- A snapshot's record is replaced by one of its generation whose set is born by it. -/
theorem Volume.Keeps.of_snap {x y : Volume} {i : Nat} {d d' : Snap} (hf : tfind x.snaps i = some d)
    (hg : d'.gen = d.gen) (hr : x.wf = true → x.genLaw → ∀ r ∈ d'.retained, r.born ≤ d.gen) (hm : y.map = x.map)
    (hs : y.snaps = tput i d' x.snaps) (hG : y.gen = x.gen) : x.Keeps y := by
  constructor
  · rw [Volume.wf_iff, Volume.wf_iff, hm, hs]
    exact fun h => ⟨h.1, sorted_tput i d' h.2⟩
  · intro hw h
    have hr' := hr hw h
    rw [genLaw_iff] at h ⊢
    rw [hm, hs, hG]
    obtain ⟨h1, h2, h3⟩ := h
    obtain ⟨a, b, ht, hput, -⟩ := exists_split hf ((Volume.wf_iff x).mp hw).2
    rw [hput]
    have hd := h2 (i, d) (mem_of_tfind hf)
    refine ⟨?_, ?_, h3⟩
    · rw [ht] at h1
      simpa [hg] using h1
    · intro p hp
      rcases List.mem_append.mp hp with hp | hp
      · exact h2 p (by rw [ht]; exact List.mem_append_left _ hp)
      · rcases List.mem_cons.mp hp with rfl | hp
        · exact ⟨by rw [hg]; exact hd.1, fun r hr => by rw [hg]; exact hr' r hr⟩
        · exact h2 p (by rw [ht]; exact List.mem_append_right _ (List.mem_cons_of_mem _ hp))

/-- A snapshot's record is replaced, its generation and its set kept. -/
theorem Volume.Keeps.of_snap_same {x y : Volume} {i : Nat} {d d' : Snap} (hf : tfind x.snaps i = some d)
    (hg : d'.gen = d.gen) (hr : d'.retained = d.retained) (hm : y.map = x.map)
    (hs : y.snaps = tput i d' x.snaps) (hG : y.gen = x.gen) : x.Keeps y :=
  .of_snap hf hg (fun _ h => by rw [hr]; exact (h.2.1 (i, d) (mem_of_tfind hf)).2) hm hs hG

/-! ### A snapshot leaves its slot, or is made -/

theorem Volume.Keeps.of_unslot {x y : Volume} {i : Nat} (hm : y.map = x.map) (hs : y.snaps = tdel i x.snaps)
    (hG : y.gen = x.gen) : x.Keeps y := by
  have hsub : List.Sublist (tdel i x.snaps) x.snaps := by
    generalize x.snaps = t
    induction t with
    | nil => exact List.Sublist.refl _
    | cons p t ih =>
      obtain ⟨k, w⟩ := p
      rw [tdel]
      split_ifs
      · exact ih.trans (List.sublist_cons_self ..)
      · exact ih.cons_cons _
  constructor
  · rw [Volume.wf_iff, Volume.wf_iff, hm, hs]
    exact fun h => ⟨h.1, sorted_tdel i h.2⟩
  · intro _ h
    rw [genLaw_iff] at h ⊢
    rw [hm, hs, hG]
    exact ⟨h.1.sublist (hsub.map _), fun p hp => h.2.1 p (mem_tdel hp), h.2.2⟩

/-- A new snapshot of generation G, with an empty set, in an empty slot; G steps (R80). -/
theorem Volume.Keeps.of_create {x y : Volume} {i : Nat} {d : Snap} (hf : tfind x.snaps i = none) (hg : d.gen = x.gen)
    (hr : d.retained = []) (hm : y.map = x.map) (hs : y.snaps = tput i d x.snaps) (hG : y.gen = x.gen + 1) :
    x.Keeps y := by
  constructor
  · rw [Volume.wf_iff, Volume.wf_iff, hm, hs]
    exact fun h => ⟨h.1, sorted_tput i d h.2⟩
  · intro _ h
    rw [genLaw_iff] at h ⊢
    rw [hm, hs, hG]
    obtain ⟨h1, h2, h3⟩ := h
    obtain ⟨a, b, ht, hput⟩ := tput_split_of_none hf d
    refine ⟨?_, fun p hp => ?_, fun p hp => (h3 p hp).mono (Nat.le_succ _)⟩
    · have hperm : (a ++ (i, d) :: b).Perm ((i, d) :: x.snaps) := by rw [ht]; exact List.perm_middle
      rw [hput, (hperm.map _).nodup_iff, List.map_cons, List.nodup_cons]
      refine ⟨fun hmem => ?_, h1⟩
      obtain ⟨p, hp, hpg⟩ := List.mem_map.mp hmem
      have hlt := (h2 p hp).1
      have he : p.2.gen = d.gen := hpg
      omega
    · rcases mem_tput hp with rfl | hp
      · exact ⟨by simp [hg], by simp [hr]⟩
      · obtain ⟨h4, h5⟩ := h2 p hp
        exact ⟨by omega, h5⟩

/-! ### The newest snapshot of a kind -/

theorem newestSnap_append (p : Snap → Bool) (t : Table Snap) (y : Nat × Snap) :
    newestSnap p (t ++ [y]) =
      if p y.2 then
        match newestSnap p t with
        | none => some y
        | some z => if z.2.gen < y.2.gen then some y else some z
      else newestSnap p t := by
  unfold newestSnap
  rw [List.foldl_append, List.foldl_cons, List.foldl_nil]
  split_ifs
  · split <;> simp_all
  · rfl

/-- The search names a snapshot of the greatest generation among those accepted, and none only where none is. -/
theorem newestSnap_spec (p : Snap → Bool) (t : Table Snap) :
    (newestSnap p t = none ∧ ∀ q ∈ t, p q.2 = false) ∨
      ∃ x, newestSnap p t = some x ∧ x ∈ t ∧ p x.2 = true ∧ ∀ q ∈ t, p q.2 = true → q.2.gen ≤ x.2.gen := by
  induction t using List.reverseRecOn with
  | nil => exact .inl ⟨rfl, by simp⟩
  | append_singleton t y ih =>
    rw [newestSnap_append]
    simp only [List.mem_append, List.mem_singleton, or_imp, forall_and, forall_eq]
    by_cases hp : p y.2 = true
    · rw [if_pos hp]
      rcases ih with ⟨hn, h⟩ | ⟨x, hx, hmem, hpx, hmax⟩
      · rw [hn]
        exact .inr ⟨y, rfl, .inr rfl, hp, fun q hq hpq => absurd hpq (by simp [h q hq]), fun _ => le_rfl⟩
      · rw [hx]
        dsimp only
        split_ifs with hlt
        · exact .inr ⟨y, rfl, .inr rfl, hp, fun q hq hpq => (hmax q hq hpq).trans hlt.le, fun _ => le_rfl⟩
        · exact .inr ⟨x, rfl, .inl hmem, hpx, hmax, fun _ => not_lt.mp hlt⟩
    · rw [if_neg hp]
      rcases ih with ⟨hn, h⟩ | ⟨x, hx, hmem, hpx, hmax⟩
      · exact .inl ⟨hn, h, by simpa using hp⟩
      · exact .inr ⟨x, hx, .inl hmem, hpx, hmax, fun h => absurd h hp⟩

theorem newestSnap_some {p : Snap → Bool} {t : Table Snap} {x : Nat × Snap} (h : newestSnap p t = some x) :
    x ∈ t ∧ p x.2 = true ∧ ∀ q ∈ t, p q.2 = true → q.2.gen ≤ x.2.gen := by
  rcases newestSnap_spec p t with ⟨hn, -⟩ | ⟨y, hy, h1⟩
  · rw [h] at hn; cases hn
  · obtain rfl : x = y := by rw [h] at hy; simpa using hy
    exact h1

theorem newestSnap_none {p : Snap → Bool} {t : Table Snap} (h : newestSnap p t = none) : ∀ q ∈ t, p q.2 = false := by
  rcases newestSnap_spec p t with ⟨-, h1⟩ | ⟨y, hy, -⟩
  · exact h1
  · rw [h] at hy; cases hy

end Sys2Proof.Machine
end

section
/-! PROOFS. The operations that keep what the rules of `Base` keep: those on records, notices, replies, the pool, the map, the
change lists, snapshots and jobs. -/

namespace Sys2Proof.Machine

variable {P : State → Prop} {e : Event}

/-! ### Updates of one field -/

/-- The fields that no rule names may take any value. -/
theorem Base.plain (K : Base P) {s : State} {frontUp : Bool} {format : Format} {free : List Nat} {claims : Nat}
    {poolLow : Bool} {inflight : List Entry} {busy : List BusyItem} {mirror : List MirrorRec} {nextArrival : Nat}
    {expiryQueue : List (Nat × Nat)} {firing yielding : Bool} {returns : List Nat} {out : List Output} {pending : List Instr}
    (h : P s) : P { s with
      frontUp := frontUp, format := format, free := free, claims := claims, poolLow := poolLow, inflight := inflight,
      busy := busy, mirror := mirror, nextArrival := nextArrival, expiryQueue := expiryQueue, firing := firing,
      yielding := yielding, returns := returns, out := out, pending := pending } :=
  K.calm (s := s) ⟨rfl, id, id, id, id, id, id, rfl, rfl⟩ ⟨rfl, rfl, rfl, rfl⟩ h

theorem Base.accounts (K : Base P) {s : State} {t : Table Account}
    (ht : Table.wf Account.fresh s.accounts = true → Table.wf Account.fresh t = true) (h : P s) :
    P { s with accounts := t } :=
  K.calm (s := s) ⟨rfl, ht, id, id, id, id, id, rfl, rfl⟩ ⟨rfl, rfl, rfl, rfl⟩ h

theorem Base.jobs (K : Base P) {s : State} {t : Table Job} (ht : Table.sorted s.jobs = true → Table.sorted t = true)
    (h : P s) : P { s with jobs := t } :=
  K.calm (s := s) ⟨rfl, id, ht, id, id, id, id, rfl, rfl⟩ ⟨rfl, rfl, rfl, rfl⟩ h

theorem Base.shelf (K : Base P) {s : State} {p : Shelf}
    (hs : Table.sorted s.shelf.slots = true → Table.sorted p.slots = true)
    (hu : Table.wf 0 s.shelf.uses = true → Table.wf 0 p.uses = true) (h : P s) : P { s with shelf := p } :=
  K.calm (s := s) ⟨rfl, id, id, hs, hu, id, id, rfl, rfl⟩ ⟨rfl, rfl, rfl, rfl⟩ h

theorem Base.sched (K : Base P) {s : State} {d : Schedule}
    (hA : Table.wf unusedEntry s.sched.bankA = true → Table.wf unusedEntry d.bankA = true)
    (hB : Table.wf unusedEntry s.sched.bankB = true → Table.wf unusedEntry d.bankB = true) (h : P s) :
    P { s with sched := d } :=
  K.calm (s := s) ⟨rfl, id, id, id, id, hA, hB, rfl, rfl⟩ ⟨rfl, rfl, rfl, rfl⟩ h

/-- The control unit but for its queues and the configuration. -/
theorem Base.ctl (K : Base P) {s : State} {c : Control} (hq : c.queue = s.ctl.queue) (hn : c.notices = s.ctl.notices)
    (hc : c.config = s.ctl.config) (h : P s) : P { s with ctl := c } :=
  K.calm (s := s) ⟨rfl, id, id, id, id, id, id, hq, hn⟩ ⟨rfl, rfl, rfl, hc⟩ h

theorem Base.touchAcct (K : Base P) (t : Nat) (h : P e.st) : P (e.touchAcct t).st := by
  have := K
  rwa [Event.touchAcct_st]

/-- What every step of a fold keeps, the fold keeps. -/
theorem foldl_keeps {Q : Event → Prop} {α : Type} {f : Event → α → Event} (hf : ∀ e a, Q e → Q (f e a)) (l : List α)
    {e : Event} (h : Q e) : Q (l.foldl f e) := by
  induction l generalizing e with
  | nil => exact h
  | cons a l ih => exact ih (hf e a h)

/-! ### Claims, charges and replies -/

theorem Base.claimPcns (K : Base P) (n : Nat) (h : P e.st) : P (claimPcns n e).2.st := by
  rw [(claimPcns_st n e).2]
  exact K.plain h

theorem Base.freePcns (K : Base P) (ps : List Nat) (h : P e.st) : P (freePcns ps e).st := by
  rw [freePcns_st]
  exact K.plain h

theorem Base.returnClaims (K : Base P) (ps : List Nat) (h : P e.st) : P (returnClaims ps e).st := by
  rw [returnClaims_st]
  exact K.plain h

theorem Base.commitClaims (K : Base P) (n : Nat) (h : P e.st) : P (commitClaims n e).st := K.plain h

theorem Base.updAcct (K : Base P) (t : Nat) (f : Account → Account) (h : P e.st) : P (e.updAcct t f).st :=
  K.accounts (t := tset Account.fresh t (f (e.st.acct t)) e.st.accounts) (wf_tset t _) h

theorem Base.applyCharges (K : Base P) (sign : Int) (l : List (Nat × Int)) (h : P e.st) :
    P (applyCharges sign l e).st := by
  rw [applyCharges_frame]
  exact K.accounts (wf_applyCharges sign l) h

theorem Base.uncharge (K : Base P) (t : Nat) (h : P e.st) : P (uncharge t e).st := K.applyCharges 1 _ h

theorem Base.reserveChunks (K : Base P) (t n : Nat) (h : P e.st) : P (reserveChunks t n e).st :=
  K.touchAcct _ (K.updAcct _ _ h)

theorem Base.releaseChunks (K : Base P) (t n : Nat) (h : P e.st) : P (releaseChunks t n e).st := by
  unfold Machine.releaseChunks
  split_ifs
  · exact h
  · exact K.touchAcct _ (K.updAcct _ _ h)

theorem Base.transferChunk (K : Base P) (t : Nat) (h : P e.st) : P (transferChunk t e).st :=
  K.touchAcct _ (K.updAcct _ _ h)

theorem Base.emit (K : Base P) (o : Output) (h : P e.st) : P (emit o e).st := K.plain h

theorem Base.emitFront (K : Base P) (o : Output) (h : P e.st) : P (emitFront o e).st := by
  unfold Machine.emitFront
  split_ifs
  · exact K.plain h
  · exact h

theorem Base.emitControl (K : Base P) (number tag : Nat) (code : Code) (result : List Nat) (h : P e.st) :
    P (emitControl number tag code result e).st := K.plain h

theorem Base.answerWith (K : Base P) (code : Code) (result : List Nat) (job : Option Nat) (h : P e.st) :
    P (answerWith code result job e).st := by
  unfold Machine.answerWith
  split
  · exact h
  · exact K.ctl (c := { e.st.ctl with executing := none }) rfl rfl rfl h

theorem Base.reply (K : Base P) (code : Code) (result : List Nat) (h : P e.st) : P (reply code result e).st :=
  K.answerWith code result none h

/-! ### The map and the change lists -/

theorem Base.updVol (K : Base P) (v : Nat) (f : Volume → Volume) (hk : (e.st.vol v).Keeps (f (e.st.vol v)))
    (hw : (f (e.st.vol v)).works = (e.st.vol v).works) (h : P e.st) : P (e.updVol v f).st :=
  K.vol hk hw h

/-- A change of the fields of a volume that no law reads. -/
theorem Base.updVol_same (K : Base P) (v : Nat) (f : Volume → Volume) (hm : ∀ x, (f x).map = x.map)
    (hs : ∀ x, (f x).snaps = x.snaps) (hg : ∀ x, (f x).gen = x.gen) (hw : ∀ x, (f x).works = x.works) (h : P e.st) :
    P (e.updVol v f).st :=
  K.updVol v f (.of_same (hm _) (hs _) (hg _)) (hw _) h

theorem Base.mapEntry (K : Base P) (v lcn pcn owner : Nat) (h : P e.st) : P (mapEntry v lcn pcn owner e).st :=
  K.updVol v _ (Volume.keeps_setForm_mapped _ _ _ _) rfl h

theorem Base.unmapEntry (K : Base P) (v lcn : Nat) (h : P e.st) : P (unmapEntry v lcn e).st :=
  K.updVol v _ (Volume.keeps_setForm_unmapped _ _ _) rfl h

theorem Base.logLcn (K : Base P) (v lcn : Nat) (h : P e.st) : P (logLcn v lcn e).st := by
  unfold Machine.logLcn
  dsimp only
  have hfull : P (e.updVol v fun y => { y with activeIncomplete := true, overflow := true }).st :=
    K.updVol_same v _ (fun _ => rfl) (fun _ => rfl) (fun _ => rfl) (fun _ => rfl) h
  split
  · exact h
  split
  · exact h
  split
  · exact K.updVol v _ (.of_stamp (l := lcn) rfl rfl rfl) rfl h
  split
  · exact hfull
  · exact hfull

theorem Base.logLcns (K : Base P) (v : Nat) (ls : List Nat) (h : P e.st) : P (logLcns v ls e).st :=
  foldl_keeps (Q := fun e => P e.st) (fun _ l he => K.logLcn v l he) ls h

/-- A chunk born by a snapshot's generation joins its set. -/
theorem Volume.keeps_file {x : Volume} {slot lcn pcn born : Nat} {q : Snap} (hmem : (slot, q) ∈ x.snaps)
    (hb : born ≤ q.gen) :
    x.Keeps (x.setSnap slot { q with retained := q.retained ++ [{ lcn := lcn, pcn := pcn, born := born }] }) := by
  have hk : x.wf = true → x.Keeps (x.setSnap slot
      { q with retained := q.retained ++ [{ lcn := lcn, pcn := pcn, born := born }] }) := by
    intro hw
    refine Volume.Keeps.of_snap (tfind_of_mem ((Volume.wf_iff _).mp hw).2 hmem) (d' := { q with
      retained := q.retained ++ [{ lcn := lcn, pcn := pcn, born := born }] }) rfl ?_ rfl rfl rfl
    intro _ hg r hr
    rcases List.mem_append.mp hr with hr | hr
    · exact (hg.2.1 _ hmem).2 r hr
    · rw [List.mem_singleton.mp hr]
      exact hb
  exact ⟨fun hw => (hk hw).wf hw, fun hw => (hk hw).gen hw⟩

theorem Base.fileDisplaced (K : Base P) (v lcn pcn born g : Nat) (h : P e.st) :
    P (fileDisplaced v lcn pcn born g e).st := by
  unfold Machine.fileDisplaced
  split
  · rename_i slot q hq
    obtain ⟨hmem, -, -⟩ := newestSnap_some hq
    split_ifs with hb
    · have hk : (e.st.vol v).wf = true → tfind (e.st.vol v).snaps slot = some q :=
        fun hw => tfind_of_mem ((Volume.wf_iff _).mp hw).2 hmem
      exact K.updVol v (fun x => x.setSnap slot
        { q with retained := q.retained ++ [{ lcn := lcn, pcn := pcn, born := born }] })
        (Volume.keeps_file hmem hb) rfl h
    · exact K.freePcns _ h
  · exact K.freePcns _ h

/-! ### The shelf queues and the busy set -/

theorem Base.handOver (K : Base P) (c : ShelfCmd) (h : P e.st) : P (handOver c e).st := by
  refine K.shelf ?_ ?_ h
  all_goals cases c.cls <;> exact id

theorem Base.handOvers (K : Base P) (cs : List ShelfCmd) (h : P e.st) : P (cs.foldl (fun e c => Machine.handOver c e) e).st :=
  foldl_keeps (Q := fun e => P e.st) (fun _ c he => K.handOver c he) cs h

theorem Base.withdrawCmds (K : Base P) (own : CmdOwner → Bool) (h : P e.st) : P (withdrawCmds own e).st :=
  K.shelf id id h

/-- Giving the slots of some commands another owner keeps the slots. -/
theorem reownSlots_slots (own : CmdOwner → Bool) (new : CmdOwner) (t : Table SlotRec) :
    (t.map fun x => if own x.2.cmd.owner then (x.1, { x.2 with cmd := { x.2.cmd with owner := new } }) else x) =
      t.map fun x => (x.1, if own x.2.cmd.owner then { x.2 with cmd := { x.2.cmd with owner := new } } else x.2) := by
  refine List.map_congr_left fun x _ => ?_
  split_ifs <;> rfl

theorem Base.reownSlots (K : Base P) (own : CmdOwner → Bool) (new : CmdOwner) (h : P e.st) :
    P (reownSlots own new e).st := by
  refine K.shelf (fun hs => ?_) id h
  dsimp only
  rw [reownSlots_slots, sorted_map_snd]
  exact hs

theorem Base.enterBusy (K : Base P) (i : BusyItem) (h : P e.st) : P (enterBusy i e).st := K.plain h

theorem Base.markProceeded (K : Base P) (o : BusyOwner) (h : P e.st) : P (markProceeded o e).st := K.plain h

theorem Base.setEntry (K : Base P) (x : Entry) (h : P e.st) : P (setEntry x e).st := K.plain h

theorem works_of_drain {x y : Volume} (hd : y.drain.map Drain.work = x.drain.map Drain.work) (hw : y.waiting = x.waiting) :
    y.works = x.works := by
  rw [Volume.works, Volume.works, hd, hw]

theorem Base.leaveBusy (K : Base P) (o : BusyOwner) (v : Nat) (h : P e.st) : P (leaveBusy o v e).st := by
  refine K.updVol_same (e := e.upd fun s => { s with busy := s.busy.filter fun i => i.owner != o }) v
    (fun x => { x with drain := x.drain.map fun d => { d with members := d.members.filter fun m => m != o } })
    (fun _ => rfl) (fun _ => rfl) (fun _ => rfl) (fun x => works_of_drain ?_ rfl) (K.plain h)
  cases x.drain <;> rfl

theorem Base.finishEntry (K : Base P) (x : Entry) (code : Code) (blocks : Nat) (data : List Block) (h : P e.st) :
    P (finishEntry x code blocks data e).st := by
  refine K.leaveBusy _ _ ?_
  exact K.plain (K.emitFront (.front x.req.vol x.req.kind.value code x.req.tag blocks data) h)

theorem Base.eraseMirror (K : Base P) (a : Nat) (h : P e.st) : P (eraseMirror a e).st := K.plain h

theorem Base.addMirror (K : Base P) (r : MirrorRec) (h : P e.st) : P (addMirror r e).st := K.plain h

/-! ### Snapshots -/

/-- The record of a snapshot is replaced, its generation and set kept. -/
theorem Base.setSnap (K : Base P) {v slot : Nat} {d d' : Snap} (f : Volume → Volume)
    (hf : tfind (e.st.vol v).snaps slot = some d) (hg : d'.gen = d.gen) (hr : d'.retained = d.retained)
    (hm : ∀ x, (f x).map = x.map) (hs : ∀ x, (f x).snaps = tput slot d' x.snaps) (hG : ∀ x, (f x).gen = x.gen)
    (hw : ∀ x, (f x).works = x.works) (h : P e.st) : P (e.updVol v f).st :=
  K.updVol v f (.of_snap_same hf hg hr (hm _) (hs _) (hG _)) (hw _) h

theorem Base.endWalk (K : Base P) (v slot : Nat) (h : P e.st) : P (endWalk v slot e).st := by
  have h1 : P (e.updVol v fun x => { x with snaps := tdel slot x.snaps, deleteQueue := x.deleteQueue.drop 1 }).st :=
    K.updVol v _ (.of_unslot rfl rfl rfl) rfl h
  unfold Machine.endWalk
  dsimp only
  split_ifs <;> exact h1

theorem Base.startHead (K : Base P) (v : Nat) (n : Nat) (h : P e.st) : P (startHead v n e).st := by
  induction n generalizing e with
  | zero => exact h
  | succ n ih =>
    unfold Machine.startHead
    split
    · exact h
    · rename_i slot rest hq
      split
      · exact h
      · rename_i d hd
        have h1 : P (e.updVol v fun x => x.setSnap slot { d with state := .deleting }).st :=
          K.setSnap (d' := { d with state := .deleting }) _ hd rfl rfl (fun _ => rfl) (fun _ => rfl) (fun _ => rfl)
            (fun _ => rfl) h
        dsimp only
        split_ifs with hc
        · exact ih (K.endWalk v slot h1)
        · exact h1

theorem Base.queueDeletion (K : Base P) (v slot : Nat) (h : P e.st) : P (queueDeletion v slot e).st := by
  unfold Machine.queueDeletion
  split
  · exact h
  · rename_i d hd
    have h1 : P (e.updVol v fun x =>
        { x.setSnap slot { d with state := .deletePending } with deleteQueue := x.deleteQueue ++ [slot] }).st :=
      K.setSnap (d' := { d with state := .deletePending }) _ hd rfl rfl (fun _ => rfl) (fun _ => rfl) (fun _ => rfl)
        (fun _ => rfl) h
    dsimp only
    split_ifs
    · exact K.startHead v _ h1
    · exact h1

/-- The step of a merge walk that hands an entry to an older snapshot. -/
theorem Volume.keeps_handDown {x : Volume} {slot ps : Nat} {d p : Snap} {r : RetEntry} {rest : List RetEntry}
    (hd : tfind x.snaps slot = some d) (hr : d.retained = r :: rest) (hp : (ps, p) ∈ x.snaps) (hlt : p.gen < d.gen)
    (hb : r.born ≤ p.gen) :
    x.Keeps ((x.setSnap slot { d with retained := rest }).setSnap ps { p with retained := p.retained ++ [r] }) := by
  have hne : x.wf = true → tfind (x.setSnap slot { d with retained := rest }).snaps ps = some p := by
    intro hw
    have hps : tfind x.snaps ps = some p := tfind_of_mem ((Volume.wf_iff x).mp hw).2 hp
    rw [Volume.setSnap_snaps, tfind_tput_ne _ _ _ _ (fun he => ?_)]
    · exact hps
    · rw [he, hd] at hps
      obtain rfl : d = p := by simpa using hps
      exact lt_irrefl _ hlt
  have k1 : x.Keeps (x.setSnap slot { d with retained := rest }) := by
    refine .of_snap (d' := { d with retained := rest }) hd rfl (fun _ hg q hq => ?_) rfl rfl rfl
    exact (hg.2.1 (slot, d) (mem_of_tfind hd)).2 q (by rw [hr]; exact List.mem_cons_of_mem _ hq)
  have k2 := fun hw => Volume.Keeps.of_snap (x := x.setSnap slot { d with retained := rest })
    (y := (x.setSnap slot { d with retained := rest }).setSnap ps { p with retained := p.retained ++ [r] })
    (d' := { p with retained := p.retained ++ [r] }) (hne hw) rfl (fun _ hg q hq => by
      rcases List.mem_append.mp hq with hq | hq
      · exact (hg.2.1 (ps, p) (mem_of_tfind (hne hw))).2 q hq
      · rw [List.mem_singleton.mp hq]
        exact hb) rfl rfl rfl
  exact ⟨fun hw => (k2 hw).wf (k1.wf hw), fun hw hg => (k2 hw).gen (k1.wf hw) (k1.gen hw hg)⟩

theorem Base.mergeStep (K : Base P) (v : Nat) (h : P e.st) : P (mergeStep v e).st := by
  unfold Machine.mergeStep
  dsimp only
  split
  · exact h
  split
  · exact h
  rename_i slot t hq
  split
  · exact h
  rename_i d hd
  split
  · exact h
  rename_i r rest hr
  have hfree : P (Machine.freePcns [r.pcn] (e.updVol v fun y =>
      y.setSnap slot { d with retained := rest, freed := d.freed + 1 })).st := by
    refine K.freePcns _ (K.updVol v (fun y => y.setSnap slot { d with retained := rest, freed := d.freed + 1 })
      (.of_snap (d' := { d with retained := rest, freed := d.freed + 1 }) hd rfl
      (fun _ hg q hq => ?_) rfl rfl rfl) rfl h)
    exact (hg.2.1 (slot, d) (mem_of_tfind hd)).2 q (by rw [hr]; exact List.mem_cons_of_mem _ hq)
  have hstep : ∀ e' : Event, P e'.st →
      P (if rest = [] then Machine.startHead v (Config.snapSlots + 1) (Machine.endWalk v slot e') else e').st := by
    intro e' h'
    split_ifs
    · exact K.startHead v _ (K.endWalk v slot h')
    · exact h'
  apply hstep
  split
  · rename_i ps p hp
    obtain ⟨hmem, hacc, -⟩ := newestSnap_some hp
    split_ifs with hb
    · simp only [Bool.and_eq_true, decide_eq_true_eq] at hacc
      exact K.updVol v (fun y => (y.setSnap slot { d with retained := rest }).setSnap ps
        { p with retained := p.retained ++ [r] }) (Volume.keeps_handDown hd hr hmem hacc.2 hb) rfl h
    · exact hfree
  · exact hfree

/-- A create that passes its checks has an empty slot. -/
theorem createCheck_slot {kind : SnapKind} {x : Volume} (h : createCheck kind x = none) :
    tfind x.snaps (if kind = .run then 0 else x.emptySlot.getD 0) = none := by
  unfold createCheck at h
  by_cases hk : kind = .run
  · simp only [hk, if_true] at h ⊢
    by_contra hc
    rw [if_pos (by simpa using hc)] at h
    cases h
  · simp only [hk, if_false] at h ⊢
    cases hs : x.emptySlot with
    | none => simp [hs] at h
    | some i => simpa using List.find?_some hs

theorem Base.createEvent (K : Base P) (v : Nat) (c : CreateReq) (h : P e.st) : P (createEvent v c e).2.st := by
  cases hc : createCheck c.kind (e.st.vol v) with
  | some code => simpa only [Machine.createEvent, hc] using h
  | none =>
    have hf := createCheck_slot hc
    simp only [Machine.createEvent, hc]
    exact K.updVol v _ (.of_create hf rfl rfl rfl rfl rfl) rfl h

theorem Base.rotateOver (K : Base P) (v keep : Nat) (l : List (Nat × Snap)) (n : Nat) (h : P e.st) :
    P (rotateOver v keep l n e).2.st := by
  induction l generalizing n e with
  | nil => exact h
  | cons p l ih =>
    unfold Machine.rotateOver
    split_ifs
    · exact h
    · exact ih _ h
    · exact ih _ (K.queueDeletion v _ h)

theorem Base.rotate (K : Base P) (v q keep slot : Nat) (h : P e.st) : P (rotate v q keep slot e).st := by
  have h1 := K.rotateOver v keep (rotationCandidates (e.st.vol v) q slot)
    ((rotationCandidates (e.st.vol v) q slot).length + 1) h
  unfold Machine.rotate
  dsimp only
  split_ifs <;> exact h1

theorem Base.pinSnap (K : Base P) (v slot : Nat) (up : Bool) (h : P e.st) : P (pinSnap v slot up e).st := by
  unfold Machine.pinSnap
  split
  · exact h
  · rename_i s hs
    exact K.setSnap (d' := { s with inUse := if up then s.inUse + 1 else s.inUse - 1 }) _ hs rfl rfl (fun _ => rfl)
      (fun _ => rfl) (fun _ => rfl) (fun _ => rfl) h

/-! ### Front requests -/

theorem Base.admitRequest (K : Base P) (r : FrontReq) (data : List Block) (h : P e.st) :
    P (admitRequest r data e).st := by
  have h1 : ∀ l n, P (e.upd fun s => { s with inflight := l, nextArrival := n }).st := fun _ _ => K.plain h
  unfold Machine.admitRequest
  dsimp only
  split_ifs
  · exact K.updVol_same r.vol (fun y => { y with holdList := y.holdList ++ [e.st.nextArrival] })
      (fun _ => rfl) (fun _ => rfl) (fun _ => rfl) (fun _ => rfl) (h1 _ _)
  · exact K.enterBusy _ (h1 _ _)

theorem Base.requestFail (K : Base P) (x : Entry) (h : P e.st) : P (requestFail x e).st :=
  K.finishEntry _ _ _ _ (K.eraseMirror _ (K.logLcns _ _ (K.applyCharges _ _ (K.returnClaims _ h))))

theorem Base.completeRead (K : Base P) (x : Entry) (h : P e.st) : P (completeRead x e).st := by
  unfold Machine.completeRead
  split_ifs <;> exact K.finishEntry _ _ _ _ h

theorem Base.markFailed (K : Base P) (x : Entry) (h : P e.st) : P (markFailed x e).2.st :=
  K.setEntry _ (K.withdrawCmds _ h)

theorem Base.acceptWrite (K : Base P) (x : Entry) (h : P e.st) : P (acceptWrite x e).st := by
  unfold Machine.acceptWrite
  dsimp only
  split
  · exact K.finishEntry _ _ _ _ h
  · exact K.finishEntry _ _ _ _ h
  split
  · exact K.finishEntry _ _ _ _ h
  · exact K.handOvers _ (K.setEntry _ (K.addMirror _ (K.applyCharges _ _ (K.claimPcns _ h))))

theorem Base.discardChunk (K : Base P) (v g c : Nat) (h : P e.st) : P (discardChunk v g c e).st := by
  unfold Machine.discardChunk
  split
  · exact h
  · refine K.logLcn _ _ (K.unmapEntry _ _ ?_)
    split_ifs
    · exact K.freePcns _ h
    · exact K.fileDisplaced _ _ _ _ _ h

theorem Base.acceptDiscard (K : Base P) (x : Entry) (h : P e.st) : P (acceptDiscard x e).st :=
  K.finishEntry _ _ _ _
    (foldl_keeps (Q := fun e => P e.st) (fun _ _ he => K.discardChunk _ _ _ he) _ (K.applyCharges _ _ h))

theorem Base.acceptRead (K : Base P) (x : Entry) (h : P e.st) : P (acceptRead x e).st := by
  unfold Machine.acceptRead
  dsimp only
  split
  · exact K.finishEntry _ _ _ _ h
  split
  · exact K.completeRead _ (K.setEntry _ h)
  · exact K.handOvers _ (K.setEntry _ h)

theorem Base.acceptFront (K : Base P) (a : Nat) (h : P e.st) : P (acceptFront a e).st := by
  unfold Machine.acceptFront
  split
  · exact h
  · split
    · exact K.acceptWrite _ h
    · exact K.acceptDiscard _ h
    · exact K.acceptRead _ h

theorem Base.commitChunk (K : Base P) (v owner g : Nat) (p : ChunkPlan) (h : P e.st) :
    P (commitChunk v owner g p e).st := by
  unfold Machine.commitChunk
  split
  · exact h
  · exact K.mapEntry _ _ _ _ h
  · split
    · exact K.fileDisplaced _ _ _ _ _ (K.mapEntry _ _ _ _ h)
    · exact K.mapEntry _ _ _ _ h
  · exact h

theorem Base.commitWrite (K : Base P) (x : Entry) (h : P e.st) : P (commitWrite x e).st :=
  K.finishEntry _ _ _ _ (K.eraseMirror _ (K.logLcns _ _ (K.commitClaims _
    (foldl_keeps (Q := fun e => P e.st) (fun _ _ he => K.commitChunk _ _ _ _ he) _ h))))

theorem Base.takeData (K : Base P) (x : Entry) (lcn : Nat) (why : Purpose) (first : Nat) (data : List Block)
    (h : P e.st) : P (takeData x lcn why first data e).2.st := by
  unfold Machine.takeData
  dsimp only
  split
  · exact h
  · split
    · split
      · exact h
      · exact K.handOver _ h
    · exact h
  · exact h
  · exact h

theorem Base.requestOver (K : Base P) (x : Entry) (h : P e.st) : P (requestOver x e).st := by
  unfold Machine.requestOver
  split
  · split
    · exact K.requestFail _ h
    · split
      · exact K.completeRead _ h
      · exact K.commitWrite _ h
      · exact K.finishEntry _ _ _ _ h
  · exact h

theorem Base.requestCmdEnd (K : Base P) (a lcn : Nat) (why : Purpose) (first : Nat) (data : Option (List Block))
    (h : P e.st) : P (requestCmdEnd a lcn why first data e).st := by
  unfold Machine.requestCmdEnd
  split
  · exact h
  · dsimp only
    split
    · exact K.requestOver _ (K.setEntry _ (K.takeData _ _ _ _ _ h))
    · exact K.requestOver _ (K.markFailed _ h)

/-! ### Restore jobs -/

theorem Base.updJob (K : Base P) (j : Nat) (f : Job → Job) (h : P e.st) : P (e.updJob j f).st := by
  unfold Event.updJob
  split
  · exact h
  · rename_i x _
    exact K.jobs (t := tput j (f x) e.st.jobs) (sorted_tput j _) h

theorem Base.endJob (K : Base P) (j : Nat) (s : JobState) (h : P e.st) : P (endJob j s e).st := by
  unfold Machine.endJob
  split
  · exact h
  · rename_i x _
    have h1 : P (Machine.pinSnap x.srcVol x.srcSlot false (Machine.releaseChunks x.owner x.remaining e)).st :=
      K.pinSnap _ _ _ (K.releaseChunks _ _ h)
    refine K.updJob _ _ ?_
    split
    · exact K.pinSnap _ _ _ h1
    · exact h1

theorem Base.abandonCopy (K : Base P) (j : Nat) (x : Job) (c : Copy) (h : P e.st) : P (abandonCopy j x c e).st := by
  have h1 := K.withdrawCmds (ofJob j) (K.uncharge x.owner (K.leaveBusy (.restore j) x.dstVol h))
  unfold Machine.abandonCopy
  dsimp only
  split_ifs
  · exact K.reownSlots (e := { Machine.withdrawCmds (ofJob j) (Machine.uncharge x.owner
      (Machine.leaveBusy (.restore j) x.dstVol e)) with st := _ }) _ _ (K.plain h1)
  · exact K.returnClaims _ (K.reownSlots _ _ h1)

theorem Base.abortJob (K : Base P) (j : Nat) (h : P e.st) : P (abortJob j e).st := by
  unfold Machine.abortJob
  split
  · exact h
  · rename_i x _
    refine K.endJob _ _ ?_
    have h1 : P (if x.waiting then Machine.leaveBusy (.restore j) x.dstVol e else e).st := by
      split_ifs
      · exact K.leaveBusy _ _ h
      · exact h
    split
    · exact K.abandonCopy _ _ _ h1
    · exact h1

theorem Base.failJob (K : Base P) (j pcn : Nat) (h : P e.st) : P (failJob j pcn e).st := by
  unfold Machine.failJob
  split
  · exact h
  · split
    · exact h
    · exact K.endJob _ _ (K.updJob _ _ (K.abandonCopy _ _ _ h))

theorem Base.withdrawVisit (K : Base P) (j : Nat) (h : P e.st) : P (withdrawVisit j e).st := by
  unfold Machine.withdrawVisit
  split
  · exact h
  · split_ifs
    · exact K.leaveBusy _ _ (K.updJob _ _ h)
    · exact h

theorem Base.beginVisit (K : Base P) (j : Nat) (x : Job) (h : P e.st) : P (beginVisit j x e).st := by
  unfold Machine.beginVisit
  split
  · exact h
  · split_ifs
    · exact K.updJob _ _ h
    · exact K.enterBusy _ (K.updJob _ _ h)

theorem Base.afterVisit (K : Base P) (j : Nat) (h : P e.st) : P (afterVisit j e).st := by
  unfold Machine.afterVisit
  split
  · exact h
  · split_ifs
    · exact K.endJob _ _ h
    · exact K.updJob _ _ h
    · exact K.updJob _ _ h
    · exact h

theorem Base.closeVisit (K : Base P) (j : Nat) (x : Job) (count : Job → Job) (h : P e.st) :
    P (closeVisit j x count e).st :=
  K.afterVisit _ (K.leaveBusy _ _ (K.updJob _ _ (K.releaseChunks _ _ h)))

theorem Base.displace (K : Base P) (v lcn g : Nat) (old : MapEntry) (h : P e.st) : P (displace v lcn g old e).st := by
  unfold Machine.displace
  split
  · exact K.fileDisplaced _ _ _ _ _ (K.uncharge _ h)
  · exact h

theorem Base.clearChunk (K : Base P) (v lcn : Nat) (h : P e.st) : P (clearChunk v lcn e).st :=
  K.logLcn _ _ (K.displace _ _ _ _ (K.unmapEntry _ _ h))

theorem Base.acceptCopy (K : Base P) (j : Nat) (x : Job) (dst srcPcn : Nat) (h : P e.st) :
    P (acceptCopy j x dst srcPcn e).st := by
  unfold Machine.acceptCopy
  dsimp only
  split
  · exact K.leaveBusy _ _ (K.updJob _ _ h)
  · exact K.handOver _ (K.updJob _ _ (K.transferChunk _ (K.claimPcns _ h)))

theorem Base.decideVisit (K : Base P) (j : Nat) (h : P e.st) : P (decideVisit j e).st := by
  unfold Machine.decideVisit
  split
  · exact h
  split
  · exact h
  dsimp only
  split
  · exact K.closeVisit _ _ _ h
  · exact K.closeVisit _ _ _ h
  · exact K.closeVisit _ _ _ (K.clearChunk _ _ h)
  · exact K.acceptCopy _ _ _ _ h

theorem Base.commitCopy (K : Base P) (j : Nat) (x : Job) (c : Copy) (h : P e.st) : P (commitCopy j x c e).st :=
  K.afterVisit _ (K.leaveBusy _ _ (K.updJob _ _ (K.logLcn _ _ (K.commitClaims _
    (K.displace _ _ _ _ (K.mapEntry _ _ _ _ h))))))

theorem Base.restoreCmdEnd (K : Base P) (j : Nat) (cmd : ShelfCmd) (data : Option (List Block)) (h : P e.st) :
    P (restoreCmdEnd j cmd data e).st := by
  unfold Machine.restoreCmdEnd
  split
  · exact K.failJob _ _ h
  split
  · exact h
  split
  · exact h
  split
  · exact K.handOver _ (K.updJob _ _ h)
  · exact K.commitCopy _ _ _ h

theorem Base.completeReturn (K : Base P) (pcn : Nat) (h : P e.st) : P (completeReturn pcn e).st :=
  K.returnClaims (e := { e with st := { e.st with returns := _ } }) _ (K.plain h)

/-- A change of the state of some jobs keeps the job slots. -/
theorem moveJobs_jobs (p : Job → Bool) (j : JobState) (t : Table Job) :
    (t.map fun x => if p x.2 then (x.1, { x.2 with state := j }) else x) =
      t.map fun x => (x.1, if p x.2 then { x.2 with state := j } else x.2) := by
  refine List.map_congr_left fun x _ => ?_
  split_ifs <;> rfl

theorem Base.moveJobs (K : Base P) (p : Job → Bool) (j : JobState) (h : P e.st) : P (moveJobs p j e).st := by
  refine K.jobs (fun hs => ?_) h
  rw [moveJobs_jobs, sorted_map_snd]
  exact hs

theorem Base.yieldJobs (K : Base P) (h : P e.st) : P (yieldJobs e).st :=
  foldl_keeps (Q := fun e => P e.st) (fun _ _ he => K.updJob _ _ (K.withdrawVisit _ he)) _ h

theorem Base.wakeJobs (_ : Base P) (h : P e.st) : P (wakeJobs e).st := h

theorem Base.testYield (K : Base P) (h : P e.st) : P (testYield e).st := by
  have h1 : P (e.upd fun s => { s with yielding := yieldAfter e.st }).st := K.plain h
  unfold Machine.testYield
  dsimp only
  split_ifs
  · exact h
  · exact K.yieldJobs h1
  · exact K.wakeJobs (K.moveJobs _ _ h1)

theorem Base.resumePool (K : Base P) (h : P e.st) : P (resumePool e).st := by
  unfold Machine.resumePool
  split_ifs
  · exact K.wakeJobs (K.moveJobs _ _ h)
  · exact h

theorem Base.resumeFrozen (K : Base P) (v : Nat) (h : P e.st) : P (resumeFrozen v e).st :=
  K.wakeJobs (K.moveJobs _ _ h)

theorem Base.suspendJob (K : Base P) (j : Nat) (x : Job) (h : P e.st) : P (suspendJob j x e).st := by
  unfold Machine.suspendJob
  split
  · split_ifs
    · exact K.updJob _ _ h
    · exact K.updJob _ _ (K.withdrawVisit _ h)
  · exact K.updJob _ _ h
  · exact K.updJob _ _ h
  · exact K.updJob _ _ h
  · exact h

theorem Base.resumeJob (K : Base P) (j : Nat) (x : Job) (h : P e.st) : P (resumeJob j x e).st := by
  unfold Machine.resumeJob
  split
  · exact K.updJob _ _ h
  · exact K.updJob _ _ h
  · exact h

theorem Base.answerRestore (K : Base P) (j : Nat) (a : CreateAnswer) (h : P e.st) : P (answerRestore j a e).st := by
  unfold Machine.answerRestore
  split
  · exact h
  · rename_i x _
    split
    · exact K.reply _ _ (K.updJob (e := Machine.pinSnap _ _ true e) _ _ (K.pinSnap _ _ _ h))
    · refine K.reply (e := { Machine.pinSnap x.srcVol x.srcSlot false (Machine.releaseChunks x.owner x.remaining e) with
        st := _ }) _ _ (K.jobs (sorted_tdel j) (K.pinSnap _ _ _ (K.releaseChunks _ _ h)))

theorem Base.takeFollowUp (K : Base P) (r : Option Nat) (h : P e.st) : P (takeFollowUp r e).2.st := by
  cases r with
  | none => exact h
  | some n => exact K.sched id id h

theorem Base.proceed (K : Base P) (i : BusyItem) (h : P e.st) : P (proceed i e).st := by
  have h1 := K.markProceeded i.owner h
  unfold Machine.proceed
  dsimp only
  split
  · exact K.acceptFront _ h1
  · exact K.decideVisit _ h1

/-! ### The arbiter -/

theorem Base.markSlotted (K : Base P) (c : ShelfCmd) (h : P e.st) : P (markSlotted c e).st := by
  unfold Machine.markSlotted
  split
  · exact K.plain h
  · exact h

theorem Base.grantTo (K : Base P) (slot : Nat) (cls : ShelfClass) (c : ShelfCmd) (h : P e.st) :
    P (grantTo slot cls c e).st := by
  refine K.emit _ (K.markSlotted _ (K.shelf (fun hs => ?_) (fun hu => ?_) h))
  · cases cls <;> exact sorted_tput _ _ hs
  · cases cls <;> exact wf_tset _ _ hu

theorem Base.grants (K : Base P) (n : Nat) (h : P e.st) : P (grants n e).st := by
  induction n generalizing e with
  | zero => exact h
  | succ n ih =>
    unfold Machine.grants
    dsimp only
    split
    · exact h
    · split
      · split
        · exact ih (K.grantTo _ _ _ h)
        · exact h
      · exact h

end Sys2Proof.Machine
end

section
/-! PROOFS. The operations that keep what the rules of `Full` keep: those on drains, the offsite engine and its port, the
schedule unit and the shelf port. -/

namespace Sys2Proof.Machine

variable {P : State → Prop} {e : Event}

/-! ### Updates -/

/-- The offsite engine, its port, the plan and the links may take any value. -/
theorem Full.runPort (K : Full P) {s : State} {run : Run} {port : Port} {plan : List Nat} {out : List Output} (h : P s) :
    P { s with run := run, port := port, plan := plan, out := out } :=
  K.run (s := s) ⟨rfl, id, id, id, id, id, id, rfl, rfl⟩ h

theorem Full.updRun (K : Full P) (f : Run → Run) (h : P e.st) : P (e.updRun f).st :=
  K.runPort (port := e.st.port) (plan := e.st.plan) (out := e.st.out) h

theorem Full.updPort (K : Full P) (f : Port → Port) (h : P e.st) : P (e.updPort f).st :=
  K.runPort (run := e.st.run) (plan := e.st.plan) (out := e.st.out) h

theorem Full.updVol (K : Full P) (v : Nat) (f : Volume → Volume) (hk : (e.st.vol v).Keeps (f (e.st.vol v)))
    (h : P e.st) : P (e.updVol v f).st := K.works hk h

/-- A change of the fields of a volume other than its map, its snapshots and its generation. -/
theorem Full.updVol_same (K : Full P) (v : Nat) (f : Volume → Volume) (hm : ∀ x, (f x).map = x.map)
    (hs : ∀ x, (f x).snaps = x.snaps) (hg : ∀ x, (f x).gen = x.gen) (h : P e.st) : P (e.updVol v f).st :=
  K.updVol v f (.of_same (hm _) (hs _) (hg _)) h

theorem Full.wakeEngine (_ : Full P) (h : P e.st) : P (wakeEngine e).st := h

theorem Full.wakePort (_ : Full P) (h : P e.st) : P (wakePort e).st := h

/-! ### The offsite engine -/

theorem Full.readyFrame (K : Full P) (f : State → Frame) (h : P e.st) : P (readyFrame f e).st :=
  K.runPort (s := e.st) h

theorem Full.beginSequence (K : Full P) (n : Nat) (h : P e.st) : P (beginSequence n e).st := K.updPort _ h

theorem Full.emptyPort (K : Full P) (h : P e.st) : P (emptyPort e).st := K.updPort _ h

theorem Full.openPass (K : Full P) (h : P e.st) : P (openPass e).st :=
  K.readyFrame _ (K.beginSequence _ (K.updRun _ h))

theorem Full.nextVolume (K : Full P) (h : P e.st) : P (nextVolume e).st := by
  unfold Machine.nextVolume
  dsimp only
  split_ifs
  · exact K.wakeEngine (K.updRun _ (K.updRun _ h))
  · exact K.readyFrame _ (K.updRun _ (K.updRun _ h))

theorem Full.skipVolume (K : Full P) (v : Nat) (h : P e.st) : P (skipVolume v e).st := K.nextVolume (K.updRun _ h)

theorem Full.volumeFreeze (K : Full P) (v gen : Nat) (h : P e.st) : P (volumeFreeze v gen e).st := by
  have h1 : P (e.updVol v fun y => { y with
      runCounter := stepWrap Config.maxRunCounter (e.st.vol v).runCounter, runList := y.activeList,
      runIncomplete := y.activeIncomplete, activeList := [], activeIncomplete := false,
      fullScan := y.fullScan || stepWrap Config.maxRunCounter (e.st.vol v).runCounter == 0 }).st :=
    K.updVol_same v _ (fun _ => rfl) (fun _ => rfl) (fun _ => rfl) h
  exact K.wakeEngine (K.readyFrame _ (K.updRun _ h1))

theorem Full.answerRun (K : Full P) (v : Nat) (a : CreateAnswer) (h : P e.st) : P (answerRun v a e).st := by
  unfold Machine.answerRun
  split
  · exact K.volumeFreeze _ _ h
  · exact K.wakeEngine (K.updRun _ h)
  · exact K.skipVolume _ h
  · exact K.updRun _ h

theorem Full.sealAcked (K : Full P) (h : P e.st) : P (sealAcked e).st := by
  unfold Machine.sealAcked
  split
  · exact h
  · rename_i v _
    refine K.nextVolume (K.queueDeletion _ _ (K.updRun _ ?_))
    exact K.updVol_same v (fun x => { x with
      fullScan := x.fullScan && e.st.run.keep, overflow := x.overflow && !(e.st.run.fullScan && !x.activeIncomplete),
      everSealed := true, runList := [], runIncomplete := false }) (fun _ => rfl) (fun _ => rfl) (fun _ => rfl) h

theorem Full.closeAcked (K : Full P) (h : P e.st) : P (closeAcked e).st := by
  unfold Machine.closeAcked
  dsimp only
  split
  · exact K.emptyPort (K.updRun _ h)
  · exact K.openPass (K.updRun _ h)

theorem Full.prepareLcn (K : Full P) (v lcn : Nat) (h : P e.st) : P (prepareLcn v lcn e).st := by
  unfold Machine.prepareLcn
  split
  · exact K.handOver _ (K.updRun _ h)
  · exact K.readyFrame _ h

theorem Full.toSeal (K : Full P) (v : Nat) (h : P e.st) : P (toSeal v e).st := K.readyFrame _ (K.updRun _ h)

theorem Full.sendNext (K : Full P) (v : Nat) (h : P e.st) : P (sendNext v e).st := by
  unfold Machine.sendNext
  dsimp only
  split_ifs
  · exact h
  · exact K.prepareLcn _ _ h
  · exact K.toSeal _ h
  · exact h
  · split
    · exact K.prepareLcn _ _ h
    · exact K.toSeal _ h

/-- A sweep of a stamp. -/
theorem Full.sweep (K : Full P) (v l : Nat) (h : P e.st) :
    P (e.updVol v fun y => y.setEntry l { (e.st.vol v).entry l with stamp := none }).st :=
  K.updVol v (fun y => y.setEntry l { (e.st.vol v).entry l with stamp := none }) (.of_stamp rfl rfl rfl) h

theorem Full.scanStep (K : Full P) (h : P e.st) : P (scanStep e).st := by
  unfold Machine.scanStep
  split
  · exact h
  · rename_i v _
    dsimp only
    split
    · exact h
    have hsweep := K.sweep v e.st.run.pos h
    split <;> split <;> split
    all_goals first
      | exact K.readyFrame _ (K.updRun _ h)
      | exact K.readyFrame _ (K.updRun _ hsweep)
      | exact K.wakeEngine (K.updRun _ h)
      | exact K.wakeEngine (K.updRun _ hsweep)

theorem Full.frameTaken (K : Full P) (f : Frame) (h : P e.st) : P (frameTaken f e).st := K.wakeEngine (K.updRun _ h)

theorem Full.sendReadDone (K : Full P) (data : List Block) (h : P e.st) : P (sendReadDone data e).st := by
  unfold Machine.sendReadDone
  split
  · exact K.readyFrame _ (K.updRun _ h)
  · exact h

theorem Full.suspendShelf (K : Full P) (h : P e.st) : P (suspendShelf e).st := K.updRun _ h

theorem Full.sendReadError (K : Full P) (cmd : ShelfCmd) (b : Bool) (h : P e.st) : P (sendReadError cmd b e).st := by
  unfold Machine.sendReadError
  split
  · exact h
  · split_ifs
    · exact K.suspendShelf h
    · exact K.handOver _ (K.updRun _ h)

theorem Full.resumeShelf (K : Full P) (h : P e.st) : P (resumeShelf e).st := by
  unfold Machine.resumeShelf
  split_ifs
  · exact K.wakeEngine (K.updRun _ h)
  · exact h

theorem Full.engineLinkDown (K : Full P) (h : P e.st) : P (engineLinkDown e).st := by
  unfold Machine.engineLinkDown
  split_ifs
  · exact h
  · exact K.updRun _ h

theorem Full.engineLinkUp (K : Full P) (h : P e.st) : P (engineLinkUp e).st := by
  unfold Machine.engineLinkUp
  split_ifs
  · exact h
  · exact K.wakeEngine (K.updRun _ h)

theorem Full.startRun (K : Full P) (m : RunMode) (n : Nat) (h : P e.st) : P (startRun m n e).st :=
  K.openPass (e := e.upd fun s => { s with run := { s.run with
        mode := m, deadline := nextMinute s.sched.clock n, sealedVols := 0,
        skippedVols := 0, dataFrames := 0, clearFrames := 0, retries := 0, pass := 1,
        linkMark := false, shelfMark := false, frames := [], reading := none } }) (K.runPort (s := e.st) h)

/-! ### Answers and drains -/

theorem Full.answerCreate (K : Full P) (v : Nat) (c : CreateReq) (a : CreateAnswer) (h : P e.st) :
    P (answerCreate v c a e).st := by
  unfold Machine.answerCreate
  split
  · split
    · exact K.reply _ _ h
    · exact K.reply _ _ h
  · split
    · exact K.rotate _ _ _ _ h
    · exact h
  · exact K.answerRestore _ _ h
  · exact K.answerRun _ _ h

theorem Full.makeSnapshot (K : Full P) (v : Nat) (c : CreateReq) (h : P e.st) : P (makeSnapshot v c e).st :=
  K.answerCreate _ _ _ (K.createEvent _ _ h)

theorem Full.answerFreeze (K : Full P) (v : Nat) (code : Code) (a : FreezeAsker) (h : P e.st) :
    P (answerFreeze v code a e).st := by
  unfold Machine.answerFreeze
  split
  · exact K.reply _ _ h
  · rename_i index record
    have h1 := K.takeFollowUp record h
    dsimp only
    split_ifs
    · split
      · exact K.makeSnapshot _ _ h1
      · exact h1
    · exact h1

theorem Full.answerFreezes (K : Full P) (v : Nat) (code : Code) (fs : List FreezeAsker) (h : P e.st) :
    P (fs.foldl (fun e a => Machine.answerFreeze v code a e) e).st :=
  foldl_keeps (Q := fun e => P e.st) (fun _ _ he => K.answerFreeze _ _ _ he) _ h

theorem Full.drainAction (K : Full P) (v : Nat) (d : Drain) (how : DrainEnd) (h : P e.st) :
    P (drainAction v d how e).st := by
  unfold Machine.drainAction
  split
  · exact K.makeSnapshot _ _ h
  · exact K.answerCreate _ _ _ h
  · exact h
  · exact K.answerFreezes _ _ _ (K.updVol v _ (.of_same rfl rfl rfl) h)

theorem Full.releaseHeld (K : Full P) (a : Nat) (h : P e.st) : P (releaseHeld a e).st := by
  unfold Machine.releaseHeld
  split
  · exact h
  · exact K.enterBusy _ (K.plain h)

theorem Full.finishDrain (K : Full P) (v : Nat) (how : DrainEnd) (h : P e.st) : P (finishDrain v how e).st := by
  unfold Machine.finishDrain
  split
  · exact h
  · exact foldl_keeps (Q := fun e => P e.st) (fun _ _ he => K.releaseHeld _ he) _
      (K.updVol_same v (fun x => { x with drain := none, holdList := [] }) (fun _ => rfl) (fun _ => rfl) (fun _ => rfl)
        (K.drainAction _ _ _ h))

theorem Full.beginDrain (K : Full P) (v : Nat) (w : DrainWork) (h : P e.st) : P (beginDrain v w e).st := by
  have hset : ∀ {e : Event} (d : Drain), P e.st → P (e.updVol v fun x => { x with drain := some d }).st :=
    fun _ h => K.updVol_same v _ (fun _ => rfl) (fun _ => rfl) (fun _ => rfl) h
  unfold Machine.beginDrain
  dsimp only
  split
  · split
    · exact K.finishDrain _ _ (hset _ h)
    · exact hset _ h
  · split
    · exact K.answerFreezes _ _ _ h
    · have h1 : P (e.updVol v fun x => { x with state := .freezing }).st :=
        K.updVol_same v _ (fun _ => rfl) (fun _ => rfl) (fun _ => rfl) h
      split
      · exact K.finishDrain _ _ (hset _ h1)
      · exact hset _ h1

theorem Full.askDrain (K : Full P) (v : Nat) (w : DrainWork) (h : P e.st) : P (askDrain v w e).st := by
  unfold Machine.askDrain
  dsimp only
  split_ifs
  · exact K.beginDrain _ _ h
  · exact K.updVol_same v (fun x => { x with waiting := x.waiting ++ [w] }) (fun _ => rfl) (fun _ => rfl) (fun _ => rfl) h

theorem Full.beginNext (K : Full P) (v : Nat) (h : P e.st) : P (beginNext v e).st := by
  unfold Machine.beginNext
  split
  · exact h
  · rename_i w t _
    exact K.beginDrain _ _ (K.updVol_same v (fun x => { x with waiting := t }) (fun _ => rfl) (fun _ => rfl)
      (fun _ => rfl) h)

theorem Full.askCreate (K : Full P) (v : Nat) (c : CreateReq) (h : P e.st) : P (askCreate v c e).st := by
  unfold Machine.askCreate
  split_ifs
  · exact K.makeSnapshot _ _ h
  · exact K.askDrain _ _ h

theorem Full.askFreeze (K : Full P) (v : Nat) (a : FreezeAsker) (h : P e.st) : P (askFreeze v a e).st := by
  unfold Machine.askFreeze
  split
  · exact K.answerFreeze _ _ _ h
  · exact K.answerFreeze _ _ _ h
  · exact K.answerFreeze _ _ _ h
  · exact K.updVol v _ (.of_same rfl rfl rfl) h
  · exact K.askDrain _ _ h

theorem Full.thawVolume (K : Full P) (v : Nat) (h : P e.st) : P (thawVolume v e).2.st := by
  unfold Machine.thawVolume
  split
  · exact h
  · exact h
  · exact h
  · exact K.resumeFrozen _ (K.updVol_same v (fun x => { x with state := .normal }) (fun _ => rfl) (fun _ => rfl)
      (fun _ => rfl) h)
  · exact K.finishDrain _ _ h

theorem Full.snapAction (K : Full P) (v : Nat) (c : CreateReq) (h : P e.st) : P (snapAction v c e).st := by
  unfold Machine.snapAction
  dsimp only
  split
  · exact K.answerCreate _ _ _ h
  · split
    · exact K.answerCreate _ _ _ h
    · exact K.askCreate _ _ h

theorem Full.askRunCreate (K : Full P) (v : Nat) (h : P e.st) : P (askRunCreate v e).st := K.askCreate _ _ (K.updRun _ h)

theorem Full.beginFreezes (K : Full P) (n : Nat) (h : P e.st) : P (beginFreezes n e).st := by
  induction n generalizing e with
  | zero => exact h
  | succ n ih =>
    unfold Machine.beginFreezes
    split
    · exact h
    · exact ih (K.askRunCreate _ h)

theorem Full.engineTurn (K : Full P) (h : P e.st) : P (engineTurn e).st := by
  unfold Machine.engineTurn
  split
  · exact h
  · split
    · exact h
    · split_ifs
      · exact K.askRunCreate _ h
      · exact K.sendNext _ h
      · exact h

/-! ### The early end of a run -/

theorem Full.withdrawRunDrain (K : Full P) (v : Nat) (h : P e.st) : P (withdrawRunDrain v e).st := by
  have h1 : P (e.updVol v fun x => { x with waiting := x.waiting.filter fun w => !w.isRun }).st :=
    K.updVol_same v _ (fun _ => rfl) (fun _ => rfl) (fun _ => rfl) h
  unfold Machine.withdrawRunDrain
  split
  · split_ifs
    · exact K.finishDrain _ _ h
    · exact h1
  · exact h1

theorem Full.mergeBack (K : Full P) (v : Nat) (h : P e.st) : P (mergeBack v e).st :=
  K.queueDeletion _ _ (K.updVol_same v (fun x => { x with runList := [], runIncomplete := false }) (fun _ => rfl)
    (fun _ => rfl) (fun _ => rfl) (K.logLcns _ _ h))

theorem Full.endRun (K : Full P) (r : RunResult) (h : P e.st) : P (endRun r e).st := by
  have h1 : P (match e.st.currentVol with
      | none => e
      | some v => if e.st.run.phase = Phase.freeze then Machine.withdrawRunDrain v e else Machine.mergeBack v e).st := by
    split
    · exact h
    · split_ifs
      · exact K.withdrawRunDrain _ h
      · exact K.mergeBack _ h
  exact K.runPort (port := _) (K.emptyPort (K.reownSlots ofSend .dropped (K.withdrawCmds ofSend h1)))

theorem Full.sendCmdEnd (K : Full P) (cmd : ShelfCmd) (data : Option (List Block)) (b : Bool) (h : P e.st) :
    P (sendCmdEnd cmd data b e).st := by
  unfold Machine.sendCmdEnd
  split_ifs
  · exact K.endRun _ h
  · split
    · exact K.sendReadDone _ h
    · exact K.sendReadError _ _ h

/-! ### The offsite port -/

theorem Full.resend (K : Full P) (n : Nat) (f : Frame) (h : P e.st) : P (resend n f e).st := K.emit _ (K.updPort _ h)

theorem Full.sendNew (K : Full P) (f : Frame) (h : P e.st) : P (sendNew f e).st :=
  K.frameTaken _ (K.emit _ (K.updPort _ h))

theorem Full.portTurn (K : Full P) (h : P e.st) : P (portTurn e).st := by
  unfold Machine.portTurn
  dsimp only
  split
  · exact h
  · split
    · split
      · exact K.resend _ _ h
      · exact h
    · split
      · split_ifs
        · exact K.sendNew _ h
        · exact h
      · exact h

theorem Full.linkLost (K : Full P) (n : Nat) (h : P e.st) : P (linkLost n e).st := K.engineLinkDown (K.updPort _ h)

theorem Full.retryFrom (K : Full P) (n : Nat) (h : P e.st) : P (retryFrom n e).st := by
  have h1 : P (e.updPort fun p => { p with retry := p.retry + 1 }).st := K.updPort _ h
  unfold Machine.retryFrom
  dsimp only
  split_ifs
  · exact K.linkLost _ h1
  · exact K.wakePort (K.updPort _ h1)

theorem Full.ignoreFrame (K : Full P) (h : P e.st) : P (ignoreFrame e).st := K.updPort _ h

theorem Full.reportAcked (K : Full P) (fs : List Frame) (h : P e.st) : P (reportAcked fs e).st := by
  refine foldl_keeps (Q := fun e => P e.st) (fun e f he => ?_) fs h
  split
  · exact K.sealAcked he
  · exact K.closeAcked he
  · exact he

theorem Full.takeAck (K : Full P) (n : Nat) (h : P e.st) : P (takeAck n e).st := by
  unfold Machine.takeAck
  dsimp only
  split
  · exact h
  · split_ifs
    · exact h
    · exact K.reportAcked _ (K.updPort _ h)

theorem Full.takeNak (K : Full P) (n : Nat) (h : P e.st) : P (takeNak n e).st := by
  unfold Machine.takeNak
  split_ifs
  · exact K.retryFrom _ h
  · exact h

theorem Full.takeHold (K : Full P) (h : P e.st) : P (takeHold e).st := by
  unfold Machine.takeHold
  split_ifs
  · exact h
  · exact K.updPort _ h

theorem Full.takeResume (K : Full P) (h : P e.st) : P (takeResume e).st := by
  unfold Machine.takeResume
  split_ifs
  · exact K.wakePort (K.updPort _ h)
  · exact h

theorem Full.carrierLost (K : Full P) (h : P e.st) : P (carrierLost e).st := by
  unfold Machine.carrierLost
  split_ifs
  · exact K.linkLost _ h
  · exact h

theorem Full.ackTimerIn (K : Full P) (h : P e.st) : P (ackTimerIn e).st := by
  unfold Machine.ackTimerIn
  split
  · exact K.retryFrom _ (K.updPort _ h)
  · exact h

theorem Full.holdTimerIn (K : Full P) (h : P e.st) : P (holdTimerIn e).st := by
  unfold Machine.holdTimerIn
  split_ifs
  · exact K.linkLost _ h
  · exact h

theorem Full.paceTo (K : Full P) (n : Nat) (h : P e.st) : P (paceTo n e).st := K.wakePort (K.updPort _ h)

/-! ### The shelf port -/

theorem Full.cmdEnd (K : Full P) (cmd : ShelfCmd) (data : Option (List Block)) (b : Bool) (h : P e.st) :
    P (cmdEnd cmd data b e).st := by
  unfold Machine.cmdEnd
  split
  · exact K.requestCmdEnd _ _ _ _ _ h
  · exact K.restoreCmdEnd _ _ _ h
  · exact K.completeReturn _ h
  · exact K.sendCmdEnd _ _ _ h
  · exact h

theorem Full.endSlot (K : Full P) (slot : Nat) (r : SlotRec) (result : Except Nat (List Block)) (h : P e.st) :
    P (endSlot slot r result e).st := by
  have h1 : P (e.updShelf fun p => { p with slots := tdel slot p.slots }).st :=
    K.shelf (fun hs => sorted_tdel slot hs) id h
  unfold Machine.endSlot
  dsimp only
  split
  · exact K.cmdEnd _ _ _ h1
  · exact K.cmdEnd _ _ _ h1

theorem Full.shelfReplyIn (K : Full P) (slot epoch use : Nat) (w : Bool) (r : ShelfResult) (h : P e.st) :
    P (shelfReplyIn slot epoch use w r e).st := by
  have h1 : P (e.updShelf fun p => { p with ignored := p.ignored + 1 }).st := K.shelf id id h
  unfold Machine.shelfReplyIn
  dsimp only
  split
  · exact h1
  · split_ifs
    · exact K.endSlot _ _ _ h
    · exact h1

theorem Full.shelfTimeoutIn (K : Full P) (slot : Nat) (h : P e.st) : P (shelfTimeoutIn slot e).st := by
  unfold Machine.shelfTimeoutIn
  split
  · exact h
  · exact K.endSlot _ _ _ h

theorem Full.tellOwners (K : Full P) (rs : List SlotRec) (h : P e.st) : P (tellOwners rs e).st :=
  foldl_keeps (Q := fun e => P e.st) (fun _ _ he => K.cmdEnd _ _ _ he) _ h

theorem Full.shelfDown (K : Full P) (h : P e.st) : P (shelfDown e).st := by
  unfold Machine.shelfDown
  split
  · exact h
  · refine K.tellOwners _ (foldl_keeps (Q := fun e => P e.st) (fun _ _ he => K.completeReturn _ he) _
      (K.tellOwners _ (K.tellOwners _ ?_)))
    exact K.shelf (fun _ => rfl) id h

theorem Full.shelfUp (K : Full P) (h : P e.st) : P (shelfUp e).st := by
  unfold Machine.shelfUp
  split_ifs
  · exact h
  · exact K.resumeShelf (K.shelf id id h)

/-! ### The schedule unit -/

theorem Full.fireFreeze (K : Full P) (i : Nat) (x : SchedEntry) (h : P e.st) : P (fireFreeze i x e).st := by
  unfold Machine.fireFreeze
  split_ifs
  · exact K.askFreeze _ _ h
  · exact K.askFreeze _ _ (K.sched id id h)
  · exact K.askFreeze _ _ h

theorem Full.fireThaw (K : Full P) (i : Nat) (x : SchedEntry) (h : P e.st) : P (fireThaw i x e).st := by
  have h1 := K.thawVolume x.volume h
  unfold Machine.fireThaw
  dsimp only
  split_ifs
  · exact h1
  · exact h1

theorem Full.fireRun (K : Full P) (i : Nat) (x : SchedEntry) (h : P e.st) : P (fireRun i x e).st := by
  unfold Machine.fireRun
  split
  · exact h
  · exact K.beginFreezes _ (K.startRun _ _ h)

theorem Full.fireEntry (K : Full P) (i : Nat) (x : SchedEntry) (h : P e.st) : P (fireEntry i x e).st := by
  unfold Machine.fireEntry
  split
  · exact K.snapAction _ _ h
  · exact K.fireFreeze _ _ h
  · exact K.fireThaw _ _ h
  · exact K.fireRun _ _ h
  · exact K.sched id id h
  · exact h

theorem Full.midnightSwap (K : Full P) (h : P e.st) : P (midnightSwap e).st := by
  unfold Machine.midnightSwap
  split
  · exact h
  · exact K.sched id id h

theorem Full.minuteBoundary (K : Full P) (h : P e.st) : P (minuteBoundary e).st := by
  have h1 : P (if e.st.sched.clock % Config.daySeconds = 0 ∧ e.st.ctl.part ≠ .recovering then Machine.midnightSwap e
      else e).st := by
    split_ifs
    · exact K.midnightSwap h
    · exact h
  unfold Machine.minuteBoundary
  dsimp only
  generalize (if e.st.sched.clock % Config.daySeconds = 0 ∧ e.st.ctl.part ≠ .recovering then Machine.midnightSwap e
      else e) = e' at h1 ⊢
  split_ifs
  · exact foldl_keeps (Q := fun e => P e.st) (fun _ _ he => K.fireEntry _ _ he) _ h1
  · exact h1

theorem Full.beginPass (K : Full P) (h : P e.st) : P (beginPass e).st := by
  unfold Machine.beginPass
  split_ifs
  · exact h
  · exact K.plain h

theorem Full.fireExpiry (K : Full P) (h : P e.st) : P (fireExpiry e).st := by
  unfold Machine.fireExpiry
  split
  · exact h
  · rename_i x tag rest _
    split_ifs
    · exact h
    · exact K.touchAcct _ (K.updAcct (e := e.upd fun s => { s with expiryQueue := rest }) _ _ (K.plain h))

end Sys2Proof.Machine
end

section
/-! PROOFS. What every step keeps: the rules that are left (the two queues of the control unit, a new or a deleted volume, the
reset), the operations that use them, and the event as a whole. -/

namespace Sys2Proof.Machine

/-- The rules for all operations of an event: those of `Full`, and one for the control queue, the notice queue, a volume record
that is replaced whole, and the reset. -/
structure Whole (P : State → Prop) extends Full P where
  queue : ∀ {s : State} {q : List ControlReq} {x : Option Executing},
    q.length ≤ s.ctl.queue.length ∨ q.length ≤ Config.controlQueueSize → P s →
      P { s with ctl := { s.ctl with executing := x, queue := q } }
  notices : ∀ {s : State} {ns : List Notice} {b : Bool},
    (s.ctl.notices.length ≤ Config.noticeQueueSize → ns.length ≤ Config.noticeQueueSize) → P s →
      P { s with ctl := { s.ctl with notices := ns, lost := b } }
  fresh : ∀ {s : State} {v : Nat} {y : Volume}, y.wf = true → y.genLaw → P s → P (s.setVol v y)
  reset : ∀ {s : State} {b : Bool}, P s → P (resetState b s)

variable {P : State → Prop} {e : Event}

/-! ### The evaluations at the end of an event -/

theorem Base.setAcct (K : Base P) {s : State} (t : Nat) (a : Account) (h : P s) : P (s.setAcct t a) :=
  K.accounts (wf_tset t a) h

theorem Base.evalPool (K : Base P) {s : State} (h : P s) : P (evalPool s).1 := by
  obtain ⟨b, hb⟩ := evalPool_frame s
  rw [hb]
  exact K.plain h

theorem Base.reportAccount (K : Base P) {s : State} (t : Nat) (h : P s) : P (reportAccount s t).1 := by
  unfold Machine.reportAccount
  split_ifs
  · exact h
  · exact K.setAcct _ _ h

theorem Base.evaluateAccount (K : Base P) {s : State} (t : Nat) (h : P s) : P (evaluateAccount s t).1 := by
  obtain ⟨x, b, q, hq⟩ := settleAccount_frame s t
  unfold Machine.evaluateAccount
  rw [hq]
  split_ifs
  · exact h
  · exact K.reportAccount _ (K.plain (K.setAcct _ _ h))

theorem Base.evalReserve (K : Base P) {s : State} (v : Nat) (h : P s) : P (evalReserve s v).1 := by
  rcases evalReserve_frame s v with hr | ⟨b, hr⟩
  · rwa [hr]
  · rw [hr]
    exact K.vol (.of_same rfl rfl rfl) rfl h

theorem Base.evalAccounts (K : Base P) (c : Causes) {s : State} (h : P s) : P (c.evalAccounts s).1 := by
  refine evalEach_keeps (fun s k hs => ?_) _ _ h
  split_ifs
  · exact K.evaluateAccount _ hs
  · exact K.reportAccount _ hs

theorem Base.evaluated (K : Base P) (h : P e.st) : P e.evaluated := by
  refine evalEach_keeps (fun s k hs => K.evalReserve k hs) _ _ (K.evalAccounts _ ?_)
  split_ifs
  · exact K.evalPool h
  · exact h

theorem Base.settleAccounts (K : Base P) (h : P e.st) : P e.settleAccounts.st := K.evalAccounts _ h

/-- The end of an event offers its notices, and a FETCH takes some. -/
theorem completeReplies_le (up : Bool) (v : Verdicts) (c : Control) (due : Causes) (ps : List Causes) (l : List Output)
    (h : c.notices.length ≤ Config.noticeQueueSize) :
    (completeReplies up v c due ps l).1.notices.length ≤ Config.noticeQueueSize := by
  induction l generalizing c due ps with
  | nil => exact foldl_offer_le _ _ h
  | cons o l ih =>
    cases o with
    | control p q number tag code result =>
      simp only [completeReplies]
      split_ifs with ht
      · refine ih _ _ _ ?_
        have hl := foldl_offer_le (v.due (due.join ((ps.headD {}).lastBefore ps.tail))) c h
        simp only [completeReply, ht, if_true, Control.fetched, List.length_drop]
        omega
      · exact ih _ _ _ h
    | _ => exact ih _ _ _ h

theorem Whole.closeEvent (K : Whole P) (h : P e.st) : P (closeEvent e) := by
  obtain ⟨ns, b, hr⟩ := completeReplies_ctl e.evaluated.frontUp e.evaluate.2 e.evaluated.ctl {} e.parts e.evaluated.out
  have hle := completeReplies_le e.evaluated.frontUp e.evaluate.2 e.evaluated.ctl {} e.parts e.evaluated.out
  unfold Machine.closeEvent
  dsimp only
  rw [hr] at hle ⊢
  rw [foldl_offer]
  exact K.plain (K.notices (fun hn => foldl_offer_le _ _ (hle hn)) (K.evaluated h))

/-! ### Reset and recovery -/

theorem Full.endRecovery (K : Full P) (h : P e.st) : P (endRecovery e).st := by
  have hlow : ∀ b c, c.queue = e.st.ctl.queue → c.notices = e.st.ctl.notices → c.config = e.st.ctl.config →
      P { e.st with poolLow := b, ctl := c } := fun b c hq hn hc => K.plain (K.ctl hq hn hc h)
  unfold Machine.endRecovery
  dsimp only
  split_ifs <;> exact hlow _ _ rfl rfl rfl

theorem Full.advanceRecovery (K : Full P) (n : Nat) (h : P e.st) : P (advanceRecovery n e).st := by
  induction n generalizing e with
  | zero => exact h
  | succ n ih =>
    have h1 := K.settleAccounts h
    unfold Machine.advanceRecovery
    dsimp only
    split
    · exact h1
    split
    · exact K.endRecovery h1
    · exact ih (K.ctl rfl rfl rfl h1)

theorem Full.goOnRecovering (K : Full P) (h : P e.st) : P (goOnRecovering e).st := K.advanceRecovery _ h

theorem Whole.resetPart (K : Whole P) (b : Bool) (h : P e.st) : P (resetPart b e).st :=
  K.goOnRecovering (e := { st := resetState b e.st }) (K.reset h)

theorem Full.recoverMirror (K : Full P) (h : P e.st) : P (recoverMirror e).st := by
  unfold Machine.recoverMirror
  split
  · exact h
  · rename_i r rest _
    split
    · exact h
    · have h1 := K.logLcns r.vol r.inPlace (K.applyCharges (-1) r.charges (K.returnClaims r.claims h))
      exact K.goOnRecovering (e := Event.upd _ _)
        (K.calm (s := (Machine.logLcns r.vol r.inPlace (Machine.applyCharges (-1) r.charges
          (Machine.returnClaims r.claims e))).st) ⟨rfl, id, id, id, id, id, id, rfl, rfl⟩ ⟨rfl, rfl, rfl, rfl⟩ h1)

theorem Full.recoverReturn (K : Full P) (h : P e.st) : P (recoverReturn e).st := by
  unfold Machine.recoverReturn
  split
  · exact h
  · rename_i p rest _
    split
    · exact h
    · exact K.goOnRecovering (K.returnClaims (e := e.upd fun s => { s with returns := rest }) _ (K.plain h))

theorem Full.recoverJob (K : Full P) (h : P e.st) : P (recoverJob e).st := by
  unfold Machine.recoverJob
  split
  · exact h
  split
  · exact h
  rename_i j x _
  have h1 : P (match x.copy with
      | some c => Machine.uncharge x.owner (Machine.returnClaims [c.pcn] e)
      | none => e).st := by
    split
    · exact K.uncharge _ (K.returnClaims _ h)
    · exact h
  exact K.goOnRecovering (K.ctl rfl rfl rfl (K.updJob j _ h1))

theorem Full.endRunNow (K : Full P) (r : RunResult) (h : P e.st) : P (endRunNow r e).st := by
  unfold Machine.endRunNow
  dsimp only
  split_ifs
  · exact K.goOnRecovering (K.endRun _ h)
  · exact K.endRun _ h

theorem Full.recoverRun (K : Full P) (h : P e.st) : P (recoverRun e).st := by
  unfold Machine.recoverRun
  split_ifs
  · exact K.endRunNow _ h
  · exact h

theorem Full.testDeadline (K : Full P) (h : P e.st) : P (testDeadline e).st := by
  unfold Machine.testDeadline
  split_ifs
  · exact K.endRunNow _ h
  · exact h

theorem Full.rebuildExpiry (K : Full P) (h : P e.st) : P (rebuildExpiry e).st := by
  unfold Machine.rebuildExpiry
  split
  · exact h
  · exact K.endRecovery (foldl_keeps (Q := fun e => P e.st) (fun _ _ he => K.updAcct _ _ he) _ (K.plain h))

theorem Full.advanceClock (K : Full P) (h : P e.st) : P (advanceClock e).st := by
  unfold Machine.advanceClock
  split
  · exact h
  · have h1 := K.beginPass (K.testDeadline (e := e.updSched fun d => { d with clock := d.clock + 1 }) (K.sched id id h))
    dsimp only
    split_ifs
    · exact K.minuteBoundary h1
    · exact h1

theorem Full.setClock (K : Full P) (n : Nat) (h : P e.st) : P (setClock n e).st :=
  K.testDeadline (K.beginPass (K.sched id id h))

theorem Full.takeHello (K : Full P) (site : Nat) (h : P e.st) : P (takeHello site e).st := by
  have hport : ∀ e' : Event, e'.st = e.st → P (e'.updPort fun p => { p with up := true, site := some site }).st := by
    intro e' he
    exact K.updPort (e := e') _ (by rwa [he])
  have h1 : P ((if ¬ e.st.port.up ∨ e.st.port.site ≠ some site then
      e.note .linkUp site (flag (site == e.st.ctl.config.partnerSite)) 0 else e).updPort fun p =>
        { p with up := true, site := some site }).st := by
    split_ifs <;> exact hport _ rfl
  unfold Machine.takeHello
  dsimp only
  generalize (if ¬ e.st.port.up = true ∨ e.st.port.site ≠ some site then
      e.note .linkUp site (flag (site == e.st.ctl.config.partnerSite)) 0 else e) = e' at h1 ⊢
  split
  · exact K.wakePort (K.engineLinkUp (K.updPort _ h1))
  · split
    · exact h1
    · exact K.endRunNow _ h1

theorem Full.partnerFrame (K : Full P) (f : Partner) (h : P e.st) : P (partnerFrame f e).st := by
  unfold Machine.partnerFrame
  dsimp only
  split
  · exact K.takeHello _ h
  all_goals split
  · exact K.takeHold h
  · exact K.ignoreFrame h
  · exact K.takeResume h
  · exact K.ignoreFrame h
  · exact K.takeAck _ h
  · exact K.ignoreFrame h
  · exact K.takeNak _ h
  · exact K.ignoreFrame h

theorem Full.partnerBytes (K : Full P) (l : List Byte) (h : P e.st) : P (partnerBytes l e).st := by
  unfold Machine.partnerBytes
  split
  · exact K.partnerFrame _ h
  · exact K.ignoreFrame h

/-! ### The delete walk and the fill -/

theorem Base.walkFree (K : Base P) (v pcn : Nat) (h : P e.st) : P (walkFree v pcn e).st :=
  K.freePcns _ (K.updVol_same v _ (fun _ => rfl) (fun _ => rfl) (fun _ => rfl) (fun _ => rfl) h)

theorem Base.walkEntry (K : Base P) (v : Nat) (h : P e.st) : P (walkEntry v e).st := by
  have hnext : ∀ {e : Event}, P e.st → P (e.updVol v fun y => { y with deletePos := y.deletePos + 1 }).st :=
    fun h => K.updVol_same v _ (fun _ => rfl) (fun _ => rfl) (fun _ => rfl) (fun _ => rfl) h
  unfold Machine.walkEntry
  dsimp only
  split
  · exact hnext h
  · refine K.uncharge _ (K.walkFree _ _ (hnext ?_))
    exact K.updVol v (fun y => y.setForm (e.st.vol v).deletePos (.unmapped (e.st.vol v).gen))
      (Volume.keeps_setForm_unmapped _ _ _) rfl h

/-- A retained entry leaves a snapshot's set, and an emptied set its slot. -/
theorem Volume.keeps_dropRetained {x : Volume} {slot : Nat} {d : Snap} {r : RetEntry} {rest : List RetEntry}
    (hd : tfind x.snaps slot = some d) (hr : d.retained = r :: rest) :
    x.Keeps (if rest = [] then { x with snaps := tdel slot x.snaps } else x.setSnap slot { d with retained := rest }) := by
  split_ifs
  · exact .of_unslot rfl rfl rfl
  · refine .of_snap (d' := { d with retained := rest }) hd rfl (fun _ hg q hq => ?_) rfl rfl rfl
    exact (hg.2.1 (slot, d) (mem_of_tfind hd)).2 q (by rw [hr]; exact List.mem_cons_of_mem _ hq)

theorem Whole.walkSnaps (K : Whole P) (v : Nat) (h : P e.st) : P (walkSnaps v e).st := by
  unfold Machine.walkSnaps
  dsimp only
  split
  · exact K.fresh rfl genLaw_absent h
  · rename_i slot d t hs
    have hd : tfind (e.st.vol v).snaps slot = some d := by rw [hs, tfind, if_pos rfl]
    split
    · exact K.updVol v (fun y => { y with snaps := tdel slot y.snaps }) (.of_unslot rfl rfl rfl) h
    · rename_i r rest hr
      refine K.walkFree _ _ (K.updVol v (fun y => if rest = [] then { y with snaps := tdel slot y.snaps }
        else y.setSnap slot { d with retained := rest }) (Volume.keeps_dropRetained hd hr) h)

theorem Whole.deleteWalkStep (K : Whole P) (v : Nat) (h : P e.st) : P (deleteWalkStep v e).st := by
  unfold Machine.deleteWalkStep
  dsimp only
  split
  · exact h
  · split
    · exact K.walkEntry _ h
    · exact K.walkSnaps _ h

theorem Base.fillStep (K : Base P) (h : P e.st) : P (fillStep e).st := by
  have h1 := K.freePcns [e.st.freeCount] h
  unfold Machine.fillStep
  dsimp only
  split
  · exact h
  · split
    · exact h1
    · exact K.plain h1

/-! ### Front requests -/

theorem Base.replyFront (K : Base P) (addr kind : Nat) (code : Code) (tag : Nat) (h : P e.st) :
    P (replyFront addr kind code tag e).st := K.emitFront _ h

theorem Base.frontArrive (K : Base P) (kind : FrontKind) (tag vol view start count owner len : Nat) (data : List Block)
    (h : P e.st) : P (frontArrive kind tag vol view start count owner len data e).st := by
  unfold Machine.frontArrive
  split
  · exact h
  · split
    · exact K.replyFront _ _ _ _ h
    · exact K.admitRequest _ _ h

/-! ### Control requests -/

theorem Base.refuse (K : Base P) (c : Code) (h : P e.st) : P (refuse c e).st := K.reply _ _ h

theorem Base.doFormat (K : Base P) (k p floor low clear : Nat) (h : P e.st) : P (doFormat k p floor low clear e).st := by
  unfold Machine.doFormat
  dsimp only
  split
  · exact K.refuse _ h
  · split
    · exact K.refuse _ h
    · exact K.reply _ _ (K.plain h)

theorem Full.doConfigSet (K : Full P) (p : ConfigPatch) (h : P e.st) : P (doConfigSet p e).st := by
  have h1 : P (patchState p e.st) :=
    K.run (s := e.st) ⟨rfl, id, id, id, id, id, id, rfl, rfl⟩ h
  unfold Machine.doConfigSet
  split
  · exact K.refuse _ h
  · exact K.reply (e := { e.upd (patchState p) with poolTouched := _, todo := _ }) _ _ h1

theorem Full.doTimeSet (K : Full P) (t : Nat) (h : P e.st) : P (doTimeSet t e).st := K.reply _ _ (K.setClock _ h)

theorem Base.wakeWalks (K : Base P) (h : P e.st) : P (wakeWalks e).st := by
  refine foldl_keeps (Q := fun e => P e.st) (fun e v he => ?_) _ h
  split_ifs
  · exact K.startHead _ _ he
  · exact he

theorem Base.doGo (K : Base P) (h : P e.st) : P (doGo e).st := by
  unfold Machine.doGo
  split
  · exact K.reply _ _ h
  · split
    · exact K.refuse _ h
    · exact K.reply _ _ (K.wakeJobs (K.wakeWalks (K.ctl rfl rfl rfl h)))

theorem Whole.doReset (K : Whole P) (h : P e.st) : P (doReset e).st := by
  unfold Machine.doReset
  split
  · exact h
  · have h1 := K.emitControl ‹Executing›.number ‹Executing›.tag .ok [] h
    exact K.resetPart false (e := Event.upd _ _) (K.plain (K.evalAccounts _ h1))

theorem Whole.doVolumeCreate (K : Whole P) (v size reserve : Nat) (o : Bool) (cap : Nat) (h : P e.st) :
    P (doVolumeCreate v size reserve o cap e).st := by
  unfold Machine.doVolumeCreate
  split
  · exact K.refuse _ h
  · refine K.reply _ _ (K.fresh rfl ?_ h)
    simp [Volume.genLaw, newVolume, Volume.absent]

theorem Base.doVolumeDelete (K : Base P) (v : Nat) (h : P e.st) : P (doVolumeDelete v e).st := by
  unfold Machine.doVolumeDelete
  split
  · exact K.refuse _ h
  · exact K.reply _ _ (K.updVol_same v (fun x =>
      { x with state := .deleting, deleteQueue := [], deletePos := 0, walkFreed := 0 }) (fun _ => rfl) (fun _ => rfl)
      (fun _ => rfl) (fun _ => rfl) h)

theorem Base.doVolumeRead (K : Base P) (v : Nat) (h : P e.st) : P (doVolumeRead v e).st := by
  unfold Machine.doVolumeRead
  split_ifs <;> exact K.reply _ _ h

theorem Full.doFreeze (K : Full P) (v : Nat) (h : P e.st) : P (doFreeze v e).st := by
  unfold Machine.doFreeze
  split_ifs
  · exact K.askFreeze _ _ h
  · exact K.refuse _ h

theorem Full.doThaw (K : Full P) (v : Nat) (h : P e.st) : P (doThaw v e).st := by
  unfold Machine.doThaw
  split
  · exact K.refuse _ h
  · exact K.reply _ _ (K.thawVolume _ h)

theorem Full.doSetFullScan (K : Full P) (v : Nat) (h : P e.st) : P (doSetFullScan v e).st := by
  unfold Machine.doSetFullScan
  split
  · exact K.refuse _ h
  · split
    · exact K.refuse _ h
    · exact K.reply _ _ (K.updRun _ (K.updVol_same v (fun x => { x with fullScan := true }) (fun _ => rfl)
        (fun _ => rfl) (fun _ => rfl) h))

theorem Base.doAccountSet (K : Base P) (tag soft hard : Nat) (h : P e.st) : P (doAccountSet tag soft hard e).st := by
  unfold Machine.doAccountSet
  split
  · exact K.refuse _ h
  split
  · exact K.refuse _ h
  split
  · exact K.refuse _ h
  · exact K.reply _ _ (K.touchAcct _ (K.updAcct _ _ h))

theorem Base.readAccount (K : Base P) (tag : Nat) (h : P e.st) : P (readAccount tag e).st := by
  have h1 : P (if e.all.accts.contains tag then e else e.touchAcct tag).st := by
    split_ifs
    · exact h
    · exact K.touchAcct _ h
  exact K.reply _ _ (K.ctl rfl rfl rfl h1)

theorem Base.doAccountRead (K : Base P) (tag : Nat) (h : P e.st) : P (doAccountRead tag e).st := by
  unfold Machine.doAccountRead
  split_ifs
  · exact K.readAccount _ h
  · exact K.refuse _ h

theorem Full.doSnapshotCreate (K : Full P) (v kind label : Nat) (series : Option Nat) (h : P e.st) :
    P (doSnapshotCreate v kind label series e).st := by
  unfold Machine.doSnapshotCreate
  split
  · exact K.refuse _ h
  · exact K.askCreate _ _ h

theorem Base.doSnapshotDelete (K : Base P) (v slot : Nat) (h : P e.st) : P (doSnapshotDelete v slot e).st := by
  unfold Machine.doSnapshotDelete
  split
  · exact K.refuse _ h
  · split_ifs
    · exact K.refuse _ h
    · exact K.reply _ _ h
    · exact K.refuse _ h
    · exact K.refuse _ h
    · exact K.reply _ _ (K.queueDeletion _ _ h)

/-- The snapshot that a request names stands in its slot. -/
theorem findSnap_ok {s : State} {v slot : Nat} {d : Snap} (h : findSnap s v slot = .ok d) :
    tfind (s.vol v).snaps slot = some d := by
  unfold findSnap at h
  split_ifs at h
  split at h
  · rename_i d' hd
    cases h
    exact hd
  · cases h

theorem Base.setHeld (K : Base P) {v slot : Nat} {d : Snap} (b : Bool) (hd : tfind (e.st.vol v).snaps slot = some d)
    (h : P e.st) : P (setHeld v slot d b e).st :=
  K.setSnap (d' := { d with held := b }) (fun x => x.setSnap slot { d with held := b }) hd rfl rfl (fun _ => rfl)
    (fun _ => rfl) (fun _ => rfl) (fun _ => rfl) h

theorem Base.doSnapshotHold (K : Base P) (v slot : Nat) (h : P e.st) : P (doSnapshotHold v slot e).st := by
  unfold Machine.doSnapshotHold
  split
  · exact K.refuse _ h
  · rename_i d hd
    split_ifs
    · exact K.refuse _ h
    · exact K.reply _ _ (K.setHeld true (findSnap_ok hd) h)

theorem Base.doSnapshotRelease (K : Base P) (v slot : Nat) (h : P e.st) : P (doSnapshotRelease v slot e).st := by
  unfold Machine.doSnapshotRelease
  split
  · exact K.refuse _ h
  · rename_i d hd
    exact K.reply _ _ (K.setHeld false (findSnap_ok hd) h)

theorem Base.doSnapshotList (K : Base P) (v : Nat) (h : P e.st) : P (doSnapshotList v e).st := by
  unfold Machine.doSnapshotList
  split_ifs <;> exact K.reply _ _ h

theorem Full.doRestoreStart (K : Full P) (a b c o : Nat) (d : Bool) (rs : List Range) (h : P e.st) :
    P (doRestoreStart a b c o d rs e).st := by
  unfold Machine.doRestoreStart
  split
  · exact K.refuse _ h
  · exact K.askCreate _ _ (K.pinSnap _ _ _ (K.reserveChunks (e := e.upd fun s => { s with jobs := tput _ _ s.jobs }) _ _
      (K.jobs (sorted_tput _ _) h)))

theorem Base.doRestoreSuspend (K : Base P) (j : Nat) (h : P e.st) : P (doRestoreSuspend j e).st := by
  unfold Machine.doRestoreSuspend
  split
  · exact K.refuse _ h
  · exact K.answerWith _ _ _ (K.suspendJob _ _ h)

theorem Base.doRestoreResume (K : Base P) (j : Nat) (h : P e.st) : P (doRestoreResume j e).st := by
  unfold Machine.doRestoreResume
  split
  · exact K.refuse _ h
  · exact K.answerWith _ _ _ (K.resumeJob _ _ h)

theorem Base.doRestoreAbort (K : Base P) (j : Nat) (h : P e.st) : P (doRestoreAbort j e).st := by
  unfold Machine.doRestoreAbort
  split
  · exact K.refuse _ h
  · exact K.reply _ _ (K.abortJob _ h)

theorem Base.doRestoreStatus (K : Base P) (j : Nat) (h : P e.st) : P (doRestoreStatus j e).st := by
  unfold Machine.doRestoreStatus
  split
  · exact K.refuse _ h
  · exact K.reply _ _ h

theorem Base.doRestoreClear (K : Base P) (j : Nat) (h : P e.st) : P (doRestoreClear j e).st := by
  unfold Machine.doRestoreClear
  split
  · exact K.refuse _ h
  · split
    · exact K.refuse _ h
    · exact K.reply _ _ (K.jobs (sorted_tdel j) h)

theorem Full.doRunPlanSet (K : Full P) (vs : List Nat) (h : P e.st) : P (doRunPlanSet vs e).st := by
  unfold Machine.doRunPlanSet
  split
  · exact K.refuse _ h
  split
  · exact K.refuse _ h
  split
  · exact K.refuse _ h
  · exact K.reply _ _ (K.runPort (s := e.st) h)

theorem Base.refuseStart (K : Base P) (r : Nat × Nat) (h : P e.st) : P (refuseStart r e).st := K.reply _ _ h

theorem Full.doRunStart (K : Full P) (mode minute : Nat) (h : P e.st) : P (doRunStart mode minute e).st := by
  unfold Machine.doRunStart
  split
  · exact K.refuse _ h
  split
  · exact K.refuse _ h
  split
  · exact K.refuse _ h
  split
  · exact K.refuseStart _ h
  · exact K.reply _ _ (K.startRun _ _ h)

theorem Full.doRunStop (K : Full P) (h : P e.st) : P (doRunStop e).st := by
  unfold Machine.doRunStop
  dsimp only
  split
  · exact K.refuse _ h
  split
  · exact K.reply _ _ h
  split
  · exact K.reply _ _ (K.updRun _ h)
  · exact K.reply _ _ (K.endRun _ h)

theorem Base.doPlan (K : Base P) (minute : Nat) (h : P e.st) : P (doPlan minute e).st := by
  unfold Machine.doPlan
  split
  · exact K.refuse _ h
  split
  · exact K.refuse _ h
  split
  · exact K.refuseStart _ h
  · exact K.reply _ _ h

theorem Base.writeEntry (K : Base P) (b : Bool) (i : Nat) (x : SchedEntry) (h : P e.st) : P (writeEntry b i x e).st := by
  have h1 : P (e.updSched fun d => d.store b i x).st := by
    cases b
    · exact K.sched (d := e.st.sched.store false i x) (wf_tset i _) id h
    · exact K.sched (d := e.st.sched.store true i x) id (wf_tset i _) h
  exact K.reply _ _ (K.ctl rfl rfl rfl h1)

theorem Base.doScheduleWrite (K : Base P) (bank i : Nat) (x : SchedEntry) (h : P e.st) :
    P (doScheduleWrite bank i x e).st := by
  unfold Machine.doScheduleWrite
  split
  · exact K.refuse _ h
  split
  · exact K.refuse _ h
  · exact K.writeEntry _ _ _ h

theorem Base.doScheduleWriteNext (K : Base P) (x : SchedEntry) (h : P e.st) : P (doScheduleWriteNext x e).st := by
  unfold Machine.doScheduleWriteNext
  dsimp only
  split
  · exact K.refuse _ h
  · exact K.writeEntry _ _ _ h

theorem Base.doScheduleRead (K : Base P) (bank i : Nat) (h : P e.st) : P (doScheduleRead bank i e).st := by
  unfold Machine.doScheduleRead
  split
  · exact K.refuse _ h
  · exact K.reply _ _ h

/-- Every request that executes keeps what the rules keep. -/
theorem Whole.perform (K : Whole P) (r : Request) (h : P e.st) : P (perform r e).st := by
  unfold Machine.perform
  split
  · exact K.refuse _ h
  split
  · exact K.doFormat _ _ _ _ _ h
  · exact K.doConfigSet _ h
  · exact K.reply _ _ h
  · exact K.doTimeSet _ h
  · exact K.doGo h
  · exact K.doReset h
  · exact K.reply _ _ h
  · exact K.doVolumeCreate _ _ _ _ _ h
  · exact K.doVolumeDelete _ h
  · exact K.doVolumeRead _ h
  · exact K.doFreeze _ h
  · exact K.doThaw _ h
  · exact K.doSetFullScan _ h
  · exact K.doAccountSet _ _ _ h
  · exact K.doAccountRead _ h
  · exact K.readAccount _ h
  · exact K.doSnapshotCreate _ _ _ _ h
  · exact K.doSnapshotDelete _ _ h
  · exact K.doSnapshotHold _ _ h
  · exact K.doSnapshotRelease _ _ h
  · exact K.doSnapshotList _ h
  · exact K.doRestoreStart _ _ _ _ _ _ h
  · exact K.doRestoreSuspend _ h
  · exact K.doRestoreResume _ h
  · exact K.doRestoreAbort _ h
  · exact K.doRestoreStatus _ h
  · exact K.doRestoreClear _ h
  · exact K.doRunPlanSet _ h
  · exact K.doRunStart _ _ h
  · exact K.doRunStop h
  · exact K.reply _ _ h
  · exact K.doPlan _ h
  · exact K.doScheduleWrite _ _ _ h
  · exact K.doScheduleWriteNext _ h
  · exact K.doScheduleRead _ _ h
  · exact K.reply _ _ (K.sched id id h)
  · exact K.reply _ _ (K.sched id id h)
  · exact K.reply _ _ h
  · exact K.refuse _ h

theorem Whole.execute (K : Whole P) (q : ControlReq) (h : P e.st) : P (execute q e).st :=
  K.perform _ (K.ctl rfl rfl rfl h)

theorem Whole.executeHead (K : Whole P) (h : P e.st) : P (executeHead e).st := by
  unfold Machine.executeHead
  split
  · exact h
  · rename_i q t hq
    refine K.execute q (K.queue (q := t) (x := e.st.ctl.executing) (.inl ?_) h)
    rw [hq]
    exact Nat.le_succ _

theorem Whole.controlArrive (K : Whole P) (q : ControlReq) (h : P e.st) : P (controlArrive q e).st := by
  unfold Machine.controlArrive
  split
  · exact h
  split
  · exact K.execute q h
  split
  · rename_i hlt
    refine K.queue (q := e.st.ctl.queue ++ [q]) (x := e.st.ctl.executing) (.inr ?_) h
    rw [List.length_append]
    exact hlt
  · exact K.emitControl _ _ _ _ h

theorem Whole.controlBytes (K : Whole P) (f : List Byte) (h : P e.st) : P (controlBytes f e).st := by
  unfold Machine.controlBytes
  split
  · exact K.controlArrive _ h
  · exact h

/-! ### The event as a whole -/

theorem Whole.turn (K : Whole P) {e' : Event} (ht : turn e = some e') (h : P e.st) : P e'.st := by
  have hretest : P (retestTurn e).st := by
    unfold retestTurn
    split
    · exact K.proceed _ h
    · exact h
  have hdrain : P (drainTurn e).st := by
    unfold drainTurn
    split
    · exact K.finishDrain _ _ h
    · exact h
  have hjob : P (jobTurn e).st := by
    unfold jobTurn
    split
    · exact K.beginVisit _ _ h
    · exact h
  have hcontrol : P (controlTurn e).st := by
    unfold controlTurn
    split
    · exact K.executeHead h
    · exact h
  unfold Machine.turn at ht
  dsimp only at ht
  split at ht
  · cases ht; exact hretest
  split at ht
  · cases ht; exact hdrain
  split at ht
  · cases ht; exact K.testYield (e := { e with todo := _ }) h
  split at ht
  · cases ht; exact K.resumePool (e := { e with todo := _ }) h
  split at ht
  · cases ht; exact hjob
  split at ht
  · cases ht
    split
    · exact K.beginNext (e := { e with todo := _ }) _ h
    · exact h
  split at ht
  · cases ht; exact K.engineTurn (e := { e with todo := _ }) h
  split at ht
  · cases ht; exact K.portTurn (e := { e with todo := _ }) h
  split at ht
  · cases ht; exact K.emitControl _ _ _ _ h
  split at ht
  · cases ht; exact hcontrol
  split at ht
  · cases ht; exact K.grants (e := { e with todo := _ }) _ h
  · cases ht

theorem Whole.runTodo (K : Whole P) (n : Nat) (h : P e.st) : P (runTodo n e).st := by
  induction n generalizing e with
  | zero => exact h
  | succ n ih =>
    unfold Machine.runTodo
    split
    · exact h
    · rename_i e' ht
      exact ih (K.turn ht h)

theorem Whole.runEvent (K : Whole P) {s : State} {f : Event → Event} (hf : ∀ e : Event, P e.st → P (f e).st) (h : P s) :
    P (runEvent s f) :=
  K.closeEvent (K.runTodo _ (hf _ (K.plain (s := s) h)))

/-- Every command keeps what the rules keep. -/
theorem Whole.exec (K : Whole P) {s t : State} (i : Instr) (hs : exec i s = .next t) (h : P s) : P t := by
  have hrun : ∀ f : Event → Event, (∀ e : Event, P e.st → P (f e).st) → Machine.exec i s = .next (Machine.runEvent s f) →
      P t := by
    intro f hf he
    rw [he] at hs
    cases hs
    exact K.runEvent hf h
  cases i
  case powerOn => exact hrun _ (fun _ h => K.resetPart _ h) rfl
  case mirrorRecordRecovery => exact hrun _ (fun _ h => K.recoverMirror h) rfl
  case pendingReturnRecovery => exact hrun _ (fun _ h => K.recoverReturn h) rfl
  case restoreJobRecovery => exact hrun _ (fun _ h => K.recoverJob h) rfl
  case runRecovery => exact hrun _ (fun _ h => K.recoverRun h) rfl
  case expiryQueueRebuild => exact hrun _ (fun _ h => K.rebuildExpiry h) rfl
  case frontLinkDown => exact hrun (fun e => e.upd fun s => { s with frontUp := false }) (fun _ h => K.plain h) rfl
  case frontLinkUp => exact hrun (fun e => e.upd fun s => { s with frontUp := true }) (fun _ h => K.plain h) rfl
  case frontFrameBadAddress => exact hrun _ (fun _ h => K.replyFront _ _ _ _ h) rfl
  case shortFrameDiscard => exact hrun _ (fun _ h => h) rfl
  case read => exact hrun _ (fun _ h => K.frontArrive _ _ _ _ _ _ _ _ _ h) rfl
  case write => exact hrun _ (fun _ h => K.frontArrive _ _ _ _ _ _ _ _ _ h) rfl
  case discard => exact hrun _ (fun _ h => K.frontArrive _ _ _ _ _ _ _ _ _ h) rfl
  case drainTimeout => exact hrun _ (fun _ h => K.finishDrain _ _ h) rfl
  case controlRequestArrival => exact hrun _ (fun _ h => K.controlBytes _ h) rfl
  case formatFillStep => exact hrun _ (fun _ h => K.fillStep h) rfl
  case volumeDeleteWalkStep => exact hrun _ (fun _ h => K.deleteWalkStep _ h) rfl
  case mergeWalkStep => exact hrun _ (fun _ h => K.mergeStep _ h) rfl
  case fullScanStep => exact hrun _ (fun _ h => K.scanStep h) rfl
  case hello => exact hrun _ (fun _ h => K.partnerFrame _ h) rfl
  case ack => exact hrun _ (fun _ h => K.partnerFrame _ h) rfl
  case nak => exact hrun _ (fun _ h => K.partnerFrame _ h) rfl
  case hold => exact hrun _ (fun _ h => K.partnerFrame _ h) rfl
  case resume => exact hrun _ (fun _ h => K.partnerFrame _ h) rfl
  case offsiteFrameIgnored => exact hrun _ (fun _ h => K.partnerBytes _ h) rfl
  case offsiteCarrierLoss => exact hrun _ (fun _ h => K.carrierLost h) rfl
  case ackTimerExpiry => exact hrun _ (fun _ h => K.ackTimerIn h) rfl
  case holdTimerExpiry => exact hrun _ (fun _ h => K.holdTimerIn h) rfl
  case pacingTimeReached => exact hrun _ (fun _ h => K.paceTo _ h) rfl
  case shelfReply => exact hrun _ (fun _ h => K.shelfReplyIn _ _ _ _ _ h) rfl
  case shelfCommandTimeout => exact hrun _ (fun _ h => K.shelfTimeoutIn _ h) rfl
  case shelfLinkDown => exact hrun _ (fun _ h => K.shelfDown h) rfl
  case shelfLinkUp => exact hrun _ (fun _ h => K.shelfUp h) rfl
  case clockAdvance => exact hrun _ (fun _ h => K.advanceClock h) rfl
  case graceExpiryFire => exact hrun _ (fun _ h => K.fireExpiry h) rfl
  case malformedRequestKind => exact hrun _ (fun _ h => K.replyFront _ _ _ _ h) rfl
  all_goals exact hrun _ (fun _ h => K.controlArrive _ h) rfl

theorem Whole.step (K : Whole P) {s t : State} (hs : step s = .next t) (h : P s) : P t := by
  unfold Machine.step at hs
  split at hs
  · cases hs
    exact h
  · exact K.exec _ hs (K.plain (s := s) h)

end Sys2Proof.Machine
end

section
/-! PROOFS. The laws that hold at every point of an event: the bounds of the control unit's queues, the canonical form of the
tables, and the generation law. Each is shown to keep the rules of `Whole`, and so every step keeps it. -/

namespace Sys2Proof.Machine

theorem State.wf_iff (s : State) : s.wf = true ↔
    Table.wf Volume.absent s.vols = true ∧ (∀ p ∈ s.vols, p.2.wf = true) ∧ Table.wf Account.fresh s.accounts = true ∧
      Table.sorted s.jobs = true ∧ Table.sorted s.shelf.slots = true ∧ Table.wf 0 s.shelf.uses = true ∧
      Table.wf unusedEntry s.sched.bankA = true ∧ Table.wf unusedEntry s.sched.bankB = true := by
  simp [State.wf, and_assoc]

/-! ### The bounds of the queues (R183, R189) -/

theorem whole_queuesBounded : Whole queuesBounded where
  calm := by
    rintro s t hn - ⟨hq, hc⟩
    exact ⟨by rwa [hn.queue], by rwa [hn.notices]⟩
  vol := fun _ _ h => h
  run := by
    rintro s t hn ⟨hq, hc⟩
    exact ⟨by rwa [hn.queue], by rwa [hn.notices]⟩
  works := fun _ h => h
  queue := fun hle h => ⟨hle.elim (fun hl => hl.trans h.1) id, h.2⟩
  notices := fun hle h => ⟨h.1, hle h.2⟩
  fresh := fun _ _ h => h
  reset := fun _ => ⟨Nat.zero_le _, Nat.zero_le _⟩

/-- Settles O3: the bounds hold at every point of an event. -/
theorem stepKeepsQueueBounds : Obligations.StepKeepsQueueBounds := by
  unfold Obligations.StepKeepsQueueBounds
  intro s t h hs
  exact whole_queuesBounded.step hs h

/-! ### The canonical form of the tables -/

theorem State.Near.wf {s t : State} (hn : s.Near t) (h : s.wf = true) : t.wf = true := by
  rw [State.wf_iff] at h ⊢
  obtain ⟨h1, h2, h3, h4, h5, h6, h7, h8⟩ := h
  exact ⟨by rwa [hn.vols], by rwa [hn.vols], hn.accounts h3, hn.jobs h4, hn.slots h5, hn.uses h6, hn.bankA h7, hn.bankB h8⟩

theorem State.wf_vol {s : State} (h : s.wf = true) (v : Nat) : (s.vol v).wf = true :=
  tget_of_forall (Q := fun x : Volume => x.wf = true) rfl ((State.wf_iff s).mp h).2.1 v

/-- A record in canonical form is written. -/
theorem State.wf_setVol {s : State} (h : s.wf = true) (v : Nat) {y : Volume} (hy : y.wf = true) :
    (s.setVol v y).wf = true := by
  rw [State.wf_iff] at h ⊢
  obtain ⟨h1, h2, hrest⟩ := h
  exact ⟨wf_tset v y h1, forall_tset (Q := fun x : Volume => x.wf = true) h2 hy, hrest⟩

theorem resetVolume_wf {x : Volume} (h : x.wf = true) : (resetVolume x).wf = true := by
  rw [Volume.wf_iff] at h ⊢
  obtain ⟨hm, hs⟩ := h
  exact ⟨hm, by rw [← hs]; exact sorted_map_snd _ _⟩

/-- What the changed value of every listed record has, every listed record has after the change. -/
theorem forall_tmap {α : Type} [DecidableEq α] {Q : α → Prop} {d : α} {f : α → α} {t : Table α}
    (h : ∀ p ∈ t, Q (f p.2)) : ∀ p ∈ tmap d f t, Q p.2 := by
  induction t with
  | nil => simp [tmap]
  | cons q t ih =>
    obtain ⟨k, v⟩ := q
    have hcons := List.forall_mem_cons.mp h
    rw [tmap]
    split_ifs
    · exact ih hcons.2
    · exact List.forall_mem_cons.mpr ⟨hcons.1, ih hcons.2⟩

theorem resetState_wf {s : State} (b : Bool) (h : s.wf = true) : (resetState b s).wf = true := by
  rw [State.wf_iff] at h ⊢
  obtain ⟨h1, h2, h3, h4, -, -, h7, h8⟩ := h
  simp only [Table.wf, Bool.and_eq_true] at h1 h3
  refine ⟨wf_tmap h1.1, ?_, wf_tmap h3.1, ?_, rfl, rfl, h7, h8⟩
  · exact forall_tmap (Q := fun x : Volume => x.wf = true) fun p hp => resetVolume_wf (h2 p hp)
  · rw [← h4]
    exact sorted_map_snd _ _

theorem whole_wf : Whole (fun s => s.wf = true) where
  calm := fun hn _ h => hn.wf h
  vol := fun hk _ h => State.wf_setVol h _ (hk.wf (State.wf_vol h _))
  run := fun hn h => hn.wf h
  works := fun hk h => State.wf_setVol h _ (hk.wf (State.wf_vol h _))
  queue := fun _ h => h
  notices := fun _ h => h
  fresh := fun hy _ h => State.wf_setVol h _ hy
  reset := fun h => resetState_wf _ h

/-- Settles O4: the canonical form holds at every point of an event. -/
theorem stepKeepsTablesCanonical : Obligations.StepKeepsTablesCanonical := by
  unfold Obligations.StepKeepsTablesCanonical
  intro s t h hs
  exact whole_wf.step hs h

/-! ### The generation law (R80, R82) -/

/-- The generation law of every volume, with the canonical form it rests on. -/
def State.genLaws (s : State) : Prop := s.wf = true ∧ ∀ p ∈ s.vols, p.2.genLaw

theorem State.genLaws.vol {s : State} (h : s.genLaws) (v : Nat) : (s.vol v).genLaw :=
  tget_of_forall genLaw_absent h.2 v

theorem State.genLaws_setVol {s : State} (h : s.genLaws) (v : Nat) {y : Volume} (hw : y.wf = true) (hg : y.genLaw) :
    (s.setVol v y).genLaws :=
  ⟨State.wf_setVol h.1 v hw, forall_tset h.2 hg⟩

theorem State.genLaws_keeps {s : State} (h : s.genLaws) (v : Nat) {y : Volume} (hk : (s.vol v).Keeps y) :
    (s.setVol v y).genLaws :=
  State.genLaws_setVol h v (hk.wf (State.wf_vol h.1 v)) (hk.gen (State.wf_vol h.1 v) (h.vol v))

theorem resetVolume_genLaw {x : Volume} (h : x.genLaw) : (resetVolume x).genLaw := by
  rw [genLaw_iff] at h ⊢
  obtain ⟨h1, h2, h3⟩ := h
  refine ⟨by simpa [resetVolume, Function.comp_def] using h1, ?_, h3⟩
  intro p hp
  obtain ⟨q, hq, rfl⟩ := List.mem_map.mp hp
  exact h2 q hq

theorem whole_genLaws : Whole State.genLaws where
  calm := fun hn _ h => ⟨hn.wf h.1, by rw [hn.vols]; exact h.2⟩
  vol := fun hk _ h => State.genLaws_keeps h _ hk
  run := fun hn h => ⟨hn.wf h.1, by rw [hn.vols]; exact h.2⟩
  works := fun hk h => State.genLaws_keeps h _ hk
  queue := fun _ h => h
  notices := fun _ h => h
  fresh := fun hw hg h => State.genLaws_setVol h _ hw hg
  reset := fun h => ⟨resetState_wf _ h.1, forall_tmap fun p hp => resetVolume_genLaw (h.2 p hp)⟩

/-- Settles O5: the generation law, with the canonical form, holds at every point of an event. -/
theorem stepKeepsGenerationLaw : Obligations.StepKeepsGenerationLaw := by
  unfold Obligations.StepKeepsGenerationLaw
  intro s t hw hg hs
  exact (whole_genLaws.step hs ⟨hw, hg⟩).2

end Sys2Proof.Machine
end

section
/-! PROOFS. Control requests that are decided in their arrival with nothing left to do: the event from the rule of the request
to the reply, with the evaluations and the notices that the rule calls for. -/

namespace Sys2Proof.Machine

/-! ### A request decided at once -/

/-- The row of an instruction is the arrival of a request (R183). -/
def Arrives (i : Instr) (tag : Nat) (r : Request) : Prop :=
  ∀ s, exec i s = .next (runEvent s (controlArrive ⟨tag, r⟩))

/-- The event of a decided reply, before it goes out: the executing slot is free. -/
def Event.freed (e : Event) : Event := e.updCtl fun c => { c with executing := none }

theorem reply_eq {e : Event} {x : Executing} (hx : e.st.ctl.executing = some x) (code : Code) (result : List Nat) :
    reply code result e = { e.freed with
      todo := { e.todo with answer := some { number := x.number, tag := x.tag, code := code, result := result, job := none } } } := by
  simp only [reply, answerWith, hx]
  rfl

/-- An event with nothing to do but its reply, which is not that of a FETCH or a STATUS. -/
theorem close_decided {e : Event} {x : Executing} (hx : e.st.ctl.executing = some x) (ht : e.todo = {})
    (hd : e.done = []) (hs : e.sent = []) (hl : e.late = []) (ho : e.st.out = []) (hu : e.st.frontUp = true)
    (hq : e.st.ctl.queue = []) (h38 : x.number ≠ 38) (h7 : x.number ≠ 7) (code : Code) (result : List Nat) :
    closeEvent (runTodo turnBound (reply code result e)) =
      State.answered { e.freed.evaluated with ctl := e.freed.offered } x.number x.tag code result := by
  let f : Event := { e.freed with
    todo := { answer := some { number := x.number, tag := x.tag, code := code, result := result, job := none } } }
  have hf : reply code result e = f := by rw [reply_eq hx, ht]
  have hturns : runTodo turnBound f = f.sendAnswer := runTodo_of_answer (turnBound - 2) rfl hq
  obtain ⟨b, vs, as, q, he⟩ := evaluate_frame e.freed
  have hsame : f.evaluated = e.freed.evaluated := rfl
  have hexec : e.freed.offered.executing = none := by
    unfold Event.offered
    rw [foldl_offer, he]
    rfl
  rw [hf, hturns, closeEvent_answer (e := f) (a := ⟨x.number, x.tag, code, result, none⟩) rfl hu hd
    (by rw [show f.st.out = [] from ho]; simp)]
  dsimp only
  rw [completeReply_read _ _ _ _ _ (.inl h38) (.inl h7), show f.late = [] from hl, show f.sent = [] from hs,
    show f.st.out = [] from ho, show f.offered = e.freed.offered from rfl]
  simp only [List.foldl_nil, List.nil_append, State.answered]
  rw [show ({ e.freed.offered with executing := none } : Control) = e.freed.offered from by
    cases hc : e.freed.offered
    rw [hc] at hexec
    cases hexec
    rfl]
  rfl

/-- A served request that its rule decides at once: the whole event, with its evaluations and its notices. -/
theorem exec_decided {s : State} (h : s.ctlServes) {i : Instr} {tag : Nat} {r : Request} (hrow : Arrives i tag r)
    {f : Event → Event} (hf : ∀ e : Event, e.st.ctl.part ≠ .recovering → perform r e = f e) {e : Event} {code : Code}
    {result : List Nat} (hd : f { st := s.executes ⟨tag, r⟩ } = reply code result e)
    (hx : e.st.ctl.executing = some ⟨tag, r.number⟩) (ht : e.todo = {}) (hdone : e.done = []) (hs : e.sent = [])
    (hl : e.late = []) (ho : e.st.out = []) (hu : e.st.frontUp = true) (hq : e.st.ctl.queue = [])
    (h38 : r.number ≠ 38) (h7 : r.number ≠ 7) :
    exec i s = .next (State.answered { e.freed.evaluated with ctl := e.freed.offered } r.number tag code result) := by
  rw [hrow, runEvent, controlArrive_of_free h.1, hf _ (executes_part_ne h _), hd,
    close_decided hx ht hdone hs hl ho hu hq h38 h7]

/-- A served request that its rule decides at once, with nothing to evaluate and no notice. -/
theorem exec_plain {s : State} (h : s.ctlServes) {i : Instr} {tag : Nat} {r : Request} (hrow : Arrives i tag r)
    {f : Event → Event} (hf : ∀ e : Event, e.st.ctl.part ≠ .recovering → perform r e = f e) (t : State) {code : Code}
    {result : List Nat} (hd : f { st := s.executes ⟨tag, r⟩ } = reply code result { st := t.executes ⟨tag, r⟩ })
    (hu : t.frontUp = s.frontUp) (hq : t.ctl.queue = s.ctl.queue) (h38 : r.number ≠ 38) (h7 : r.number ≠ 7) :
    exec i s = .next (t.answered r.number tag code result) := by
  rw [hrow]
  refine congrArg _ (runEvent_of_reply h.1 ⟨tag, r⟩ ?_ (hu.trans h.1.1) (hq.trans h.1.2.2) (.inl h38) (.inl h7))
  rw [hf _ (executes_part_ne h _), hd]

/-- A served request that its rule refuses, or that only reads. -/
theorem exec_stands {s : State} (h : s.ctlServes) {i : Instr} {tag : Nat} {r : Request} (hrow : Arrives i tag r)
    {f : Event → Event} (hf : ∀ e : Event, e.st.ctl.part ≠ .recovering → perform r e = f e) {code : Code}
    {result : List Nat} (hd : f { st := s.executes ⟨tag, r⟩ } = reply code result { st := s.executes ⟨tag, r⟩ })
    (h38 : r.number ≠ 38) (h7 : r.number ≠ 7) : exec i s = .next (s.answered r.number tag code result) :=
  exec_plain h hrow hf s hd rfl rfl h38 h7

/-- A volume number in the words of the manual. -/
theorem not_lt_volumes (v : Nat) : ¬ v < Config.volumes ↔ 63 < v := by
  unfold Config.volumes
  omega

/-- A RECOVERING part refuses a request that is no status read (R180). -/
theorem exec_recovering {s : State} (h : s.ctlFree) (hp : s.ctl.part = .recovering) {i : Instr} {tag : Nat}
    {r : Request} (hrow : Arrives i tag r) (hr : statusRead r.number = false) (h38 : r.number ≠ 38) (h7 : r.number ≠ 7) :
    exec i s = .next (s.answered r.number tag .recovering []) := by
  rw [hrow]
  exact congrArg _ (runEvent_of_read h ⟨tag, r⟩ (perform_recovering hp hr) (.inl h38) (.inl h7))

end Sys2Proof.Machine
end

section
/-! PROOFS. Control requests on volumes, snapshots, the run's plan and the schedule that are decided by their checks:
VOLUME DELETE and READ (R8, R9), SET FULL SCAN and RUN PLAN SET (R122, R124), SNAPSHOT HOLD, RELEASE and LIST (R93, R97),
and the requests on the schedule (R176, R177). -/

namespace Sys2Proof.Machine

/-! ### VOLUME DELETE and VOLUME READ (R8, R9) -/

/-- The checks of R9 in their order, in the words of the manual. -/
theorem deleteVolCheck_eq (s : State) (v : Nat) :
    deleteVolCheck s v =
      let x := s.vol v
      if 63 < v then some .range
      else if x.state = .absent ∨ x.state = .deleting then some .badVol
      else if x.state = .freezing ∨ x.state = .frozen then some .frozen
      else if (∃ y ∈ s.inflight, y.req.vol = v) ∨ x.drain ≠ none ∨ x.waiting ≠ [] then some .active
      else if ∃ p ∈ x.snaps, p.2.held = true then some .held
      else if (∃ p ∈ s.jobs, p.2.state.ended = false ∧ (p.2.srcVol = v ∨ p.2.dstVol = v)) ∨
        (s.run.state ≠ .idle ∧ v ∈ s.plan) then some .inUse
      else none := by
  have hactive : ((s.inflight.any fun y => y.req.vol == v) ∨ (s.vol v).drain.isSome ∨ (s.vol v).waiting ≠ []) ↔
      ((∃ y ∈ s.inflight, y.req.vol = v) ∨ (s.vol v).drain ≠ none ∨ (s.vol v).waiting ≠ []) := by
    simp [Option.isSome_iff_ne_none]
  have hheld : ((s.vol v).snaps.any fun p => p.2.held) = true ↔ ∃ p ∈ (s.vol v).snaps, p.2.held = true := by simp
  have huse : ((s.jobs.any fun p => p.2.names v) ∨ (s.run.state ≠ .idle ∧ v ∈ s.plan)) ↔
      ((∃ p ∈ s.jobs, p.2.state.ended = false ∧ (p.2.srcVol = v ∨ p.2.dstVol = v)) ∨
        (s.run.state ≠ .idle ∧ v ∈ s.plan)) := by
    simp [Job.names]
  simp only [deleteVolCheck, not_lt_volumes, not_usable_iff, hactive, hheld, huse]

theorem exec_volumeDelete_refused {s : State} (h : s.ctlServes) (tag : Nat) {v : Nat} {code : Code}
    (hc : deleteVolCheck s v = some code) : exec (.volumeDelete tag v) s = .next (s.answered 9 tag code []) := by
  refine exec_stands h (r := .volumeDelete v) (fun _ => rfl) (f := doVolumeDelete v)
    (fun _ hp => if_neg fun hr => hp hr.1) ?_ nofun nofun
  have hq : deleteVolCheck (s.executes ⟨tag, .volumeDelete v⟩) v = some code := hc
  rw [doVolumeDelete, hq]
  rfl

theorem exec_volumeDelete_begins {s : State} (h : s.ctlServes) (tag : Nat) {v : Nat} (hc : deleteVolCheck s v = none) :
    exec (.volumeDelete tag v) s = .next ((s.setVol v
      { s.vol v with state := .deleting, deleteQueue := [], deletePos := 0, walkFreed := 0 }).answered 9 tag .ok []) := by
  refine exec_plain h (r := .volumeDelete v) (fun _ => rfl) (f := doVolumeDelete v)
    (fun _ hp => if_neg fun hr => hp hr.1) _ ?_ rfl rfl nofun nofun
  have hq : deleteVolCheck (s.executes ⟨tag, .volumeDelete v⟩) v = none := hc
  rw [doVolumeDelete, hq]
  rfl

/-- The values of VOLUME READ in the words of the manual. -/
theorem volumeFields_eq (x : Volume) :
    volumeFields x =
      [x.state.value, x.size,
        (x.map.filter fun p => match p.2.form with | .mapped .. => true | .unmapped _ => false).length,
        x.gen, x.snaps.length, x.reserveLimit, (x.snaps.map fun p => p.2.retained.length).sum, flag x.offsite,
        x.cap, x.runCounter, flag x.fullScan, flag x.overflow, flag x.everSealed, x.activeList.length,
        x.runList.length, flag (x.drain.isSome || x.waiting.length != 0)]
        ++ if x.state = .deleting then [1, x.deletePos] else [0, 0] := by
  have hwait : (!x.waiting.isEmpty) = (x.waiting.length != 0) := by cases x.waiting <;> rfl
  have hpos : optField (if x.state = .deleting then some x.deletePos else none) =
      if x.state = .deleting then [1, x.deletePos] else [0, 0] := by
    split_ifs <;> rfl
  simp only [volumeFields, hwait, hpos]
  rfl

theorem exec_volumeRead {s : State} (h : s.ctlServes) (tag v : Nat) {code : Code} {result : List Nat}
    (hd : doVolumeRead v { st := s.executes ⟨tag, .volumeRead v⟩ } =
      reply code result { st := s.executes ⟨tag, .volumeRead v⟩ }) :
    exec (.volumeRead tag v) s = .next (s.answered 10 tag code result) :=
  exec_stands h (r := .volumeRead v) (fun _ => rfl) (fun _ hp => if_neg fun hr => hp hr.1) hd nofun nofun

/-- Settles O25: the first check of R9 that fails names the refusal; a read reports the record. -/
theorem volumeDeleteBeginsAndReadReports : Obligations.VolumeDeleteBeginsAndReadReports := by
  refine ⟨fun s tag v h => ?_, fun s tag v h => ?_⟩
  · have hcheck := deleteVolCheck_eq s v
    dsimp only at hcheck ⊢
    split_ifs at hcheck ⊢
    case neg => exact exec_volumeDelete_begins h tag hcheck
    all_goals exact exec_volumeDelete_refused h tag hcheck
  · dsimp only
    split
    case isTrue hp => exact exec_recovering h hp (r := .volumeRead v) (fun _ => rfl) rfl nofun nofun
    case isFalse hp =>
    split
    case isTrue hv => exact exec_volumeRead ⟨h, hp⟩ tag v (if_pos ((not_lt_volumes v).mpr hv))
    case isFalse hv =>
    split
    case isTrue ha =>
      exact exec_volumeRead ⟨h, hp⟩ tag v ((if_neg ((not_lt_volumes v).not.mpr hv)).trans (if_pos ha))
    case isFalse ha =>
      exact (exec_volumeRead ⟨h, hp⟩ tag v ((if_neg ((not_lt_volumes v).not.mpr hv)).trans (if_neg ha))).trans
        (congrArg (fun l => Host.Outcome.next (s.answered 10 tag .ok l)) (volumeFields_eq (s.vol v)))

/-! ### SET FULL SCAN and RUN PLAN SET (R122, R124) -/

/-- The volume's frozen send is the current one of a run that is not IDLE (R122). -/
theorem sendFrozen_iff (s : State) (v : Nat) :
    sendFrozen s v = true ↔ s.run.state ≠ .idle ∧ s.plan[s.run.planIndex]? = some v ∧ s.run.phase ≠ .freeze := by
  simp [sendFrozen, State.currentVol, and_assoc]

theorem keep_or_sendFrozen (s : State) (v : Nat) :
    (s.run.keep || sendFrozen s v) =
      if s.run.state ≠ .idle ∧ s.plan[s.run.planIndex]? = some v ∧ s.run.phase ≠ .freeze then true else s.run.keep := by
  cases hs : sendFrozen s v with
  | true => rw [if_pos ((sendFrozen_iff s v).mp hs), Bool.or_true]
  | false => rw [if_neg fun hf => by simp [(sendFrozen_iff s v).mpr hf] at hs, Bool.or_false]

theorem exec_setFullScan {s t : State} (h : s.ctlServes) (tag v : Nat) {code : Code}
    (hd : doSetFullScan v { st := s.executes ⟨tag, .setFullScan v⟩ } =
      reply code [] { st := t.executes ⟨tag, .setFullScan v⟩ })
    (hu : t.frontUp = s.frontUp) (hq : t.ctl.queue = s.ctl.queue) :
    exec (.setFullScan tag v) s = .next (t.answered 13 tag code []) :=
  exec_plain h (r := .setFullScan v) (fun _ => rfl) (fun _ hp => if_neg fun hr => hp hr.1) t hd hu hq nofun nofun

/-- A list names a number twice. -/
theorem hasRepeat_iff (vs : List Nat) : hasRepeat vs = true ↔ ¬ vs.Nodup := by
  induction vs with
  | nil => simp [hasRepeat]
  | cons v vs ih =>
    simp only [hasRepeat, Bool.or_eq_true, List.contains_iff_mem, ih, List.nodup_cons, not_and_or, not_not]

theorem exec_runPlanSet {s t : State} (h : s.ctlServes) (tag : Nat) (vs : List Nat) {code : Code}
    (hd : doRunPlanSet vs { st := s.executes ⟨tag, .runPlanSet vs⟩ } =
      reply code [] { st := t.executes ⟨tag, .runPlanSet vs⟩ })
    (hu : t.frontUp = s.frontUp) (hq : t.ctl.queue = s.ctl.queue) :
    exec (.runPlanSet tag vs) s = .next (t.answered 28 tag code []) :=
  exec_plain h (r := .runPlanSet vs) (fun _ => rfl) (fun _ hp => if_neg fun hr => hp hr.1) t hd hu hq nofun nofun

/-- Settles O26: each request is refused by its first check that fails, and else writes its flag or its plan. -/
theorem setFullScanAndRunPlanSet : Obligations.SetFullScanAndRunPlanSet := by
  refine ⟨fun s tag v h => ?_, fun s tag vs h => ?_⟩
  · dsimp only
    rw [← keep_or_sendFrozen]
    split_ifs with hv ha
    · exact exec_setFullScan h tag v (if_pos ((not_lt_volumes v).mpr hv)) rfl rfl
    · exact exec_setFullScan h tag v ((if_neg ((not_lt_volumes v).not.mpr hv)).trans
        (if_pos ((not_usable_iff _).mpr ha))) rfl rfl
    · exact exec_setFullScan h tag v ((if_neg ((not_lt_volumes v).not.mpr hv)).trans
        (if_neg ((not_usable_iff _).not.mpr ha))) rfl rfl
  · have hlen : (vs = [] ∨ 64 < vs.length) ↔ (vs.length = 0 ∨ 64 < vs.length) := by rw [List.length_eq_zero_iff]
    have hrange : ((vs.any fun v => !decide (v < Config.volumes)) ∨ hasRepeat vs) ↔
        ((∃ v ∈ vs, 63 < v) ∨ ¬ vs.Nodup) := by
      rw [hasRepeat_iff]
      simp only [List.any_eq_true, Bool.not_eq_true', decide_eq_false_iff_not, not_lt_volumes]
    split_ifs with hl ha hr
    · exact exec_runPlanSet h tag vs (if_pos (hlen.mpr hl)) rfl rfl
    · exact exec_runPlanSet h tag vs ((if_neg (hlen.not.mpr hl)).trans (if_pos ha)) rfl rfl
    · exact exec_runPlanSet h tag vs ((if_neg (hlen.not.mpr hl)).trans ((if_neg ha).trans
        (if_pos (hrange.mpr hr)))) rfl rfl
    · exact exec_runPlanSet h tag vs (t := { s with plan := vs })
        ((if_neg (hlen.not.mpr hl)).trans ((if_neg ha).trans (if_neg (hrange.not.mpr hr)))) rfl rfl

/-! ### SNAPSHOT HOLD, RELEASE and LIST (R93, R97) -/

theorem findSnap_range {s : State} {v slot : Nat} (h : 63 < v ∨ 15 < slot) : findSnap s v slot = .error .range := by
  refine if_pos ?_
  simp only [Config.volumes, Config.snapSlots]
  omega

/-- Within the ranges the volume and the slot decide (R87, steps 2 and 3). -/
theorem findSnap_eq {s : State} {v slot : Nat} (hv : v ≤ 63) (hs : slot ≤ 15) :
    findSnap s v slot =
      if ¬ (s.vol v).usable then .error .badVol
      else match tfind (s.vol v).snaps slot with
        | some d => .ok d
        | none => .error .notFound := by
  refine if_neg ?_
  simp only [Config.volumes, Config.snapSlots]
  omega

theorem findSnap_badVol {s : State} {v slot : Nat} (hv : v ≤ 63) (hs : slot ≤ 15)
    (h : (s.vol v).state = .absent ∨ (s.vol v).state = .deleting) : findSnap s v slot = .error .badVol := by
  rw [findSnap_eq hv hs, if_pos ((not_usable_iff _).mpr h)]

/-- On a volume that stands the slot decides. -/
theorem findSnap_usable {s : State} {v slot : Nat} (hv : v ≤ 63) (hs : slot ≤ 15) (h1 : (s.vol v).state ≠ .absent)
    (h2 : (s.vol v).state ≠ .deleting) :
    findSnap s v slot = match tfind (s.vol v).snaps slot with
      | some d => .ok d
      | none => .error .notFound := by
  rw [findSnap_eq hv hs, if_neg ((not_usable_iff _).not.mpr (by tauto))]

theorem exec_snapshotHold {s t : State} (h : s.ctlServes) (tag v slot : Nat) {code : Code}
    (hd : doSnapshotHold v slot { st := s.executes ⟨tag, .snapshotHold v slot⟩ } =
      reply code [] { st := t.executes ⟨tag, .snapshotHold v slot⟩ })
    (hu : t.frontUp = s.frontUp) (hq : t.ctl.queue = s.ctl.queue) :
    exec (.snapshotHold tag v slot) s = .next (t.answered 19 tag code []) :=
  exec_plain h (r := .snapshotHold v slot) (fun _ => rfl) (fun _ hp => if_neg fun hr => hp hr.1) t hd hu hq nofun nofun

theorem exec_snapshotRelease {s t : State} (h : s.ctlServes) (tag v slot : Nat) {code : Code}
    (hd : doSnapshotRelease v slot { st := s.executes ⟨tag, .snapshotRelease v slot⟩ } =
      reply code [] { st := t.executes ⟨tag, .snapshotRelease v slot⟩ })
    (hu : t.frontUp = s.frontUp) (hq : t.ctl.queue = s.ctl.queue) :
    exec (.snapshotRelease tag v slot) s = .next (t.answered 20 tag code []) :=
  exec_plain h (r := .snapshotRelease v slot) (fun _ => rfl) (fun _ hp => if_neg fun hr => hp hr.1) t hd hu hq nofun
    nofun

/-- Both requests are refused by the checks that they share with SNAPSHOT DELETE. -/
theorem exec_hold_release_refused {s : State} (h : s.ctlServes) (tag : Nat) {v slot : Nat} {code : Code}
    (hc : findSnap s v slot = .error code) :
    exec (.snapshotHold tag v slot) s = .next (s.answered 19 tag code []) ∧
      exec (.snapshotRelease tag v slot) s = .next (s.answered 20 tag code []) := by
  constructor
  · refine exec_snapshotHold h tag v slot ?_ rfl rfl
    rw [doSnapshotHold, show findSnap (s.executes ⟨tag, .snapshotHold v slot⟩) v slot = .error code from hc]
    rfl
  · refine exec_snapshotRelease h tag v slot ?_ rfl rfl
    rw [doSnapshotRelease, show findSnap (s.executes ⟨tag, .snapshotRelease v slot⟩) v slot = .error code from hc]
    rfl

theorem exec_snapshotHold_found {s : State} (h : s.ctlServes) (tag : Nat) {v slot : Nat} {d : Snap}
    (hc : findSnap s v slot = .ok d) :
    exec (.snapshotHold tag v slot) s = .next
      (if slot = 0 ∨ d.state ≠ .ready then s.answered 19 tag .active []
       else (s.setVol v ((s.vol v).setSnap slot { d with held := true })).answered 19 tag .ok []) := by
  have hq : findSnap (s.executes ⟨tag, .snapshotHold v slot⟩) v slot = .ok d := hc
  split_ifs with hr
  · refine exec_snapshotHold h tag v slot ?_ rfl rfl
    rw [doSnapshotHold, hq]
    exact if_pos hr
  · refine exec_snapshotHold h tag v slot (t := s.setVol v _) ?_ rfl rfl
    rw [doSnapshotHold, hq]
    exact if_neg hr

theorem exec_snapshotRelease_found {s : State} (h : s.ctlServes) (tag : Nat) {v slot : Nat} {d : Snap}
    (hc : findSnap s v slot = .ok d) :
    exec (.snapshotRelease tag v slot) s = .next
      ((s.setVol v ((s.vol v).setSnap slot { d with held := false })).answered 20 tag .ok []) := by
  refine exec_snapshotRelease h tag v slot (t := s.setVol v _) ?_ rfl rfl
  rw [doSnapshotRelease, show findSnap (s.executes ⟨tag, .snapshotRelease v slot⟩) v slot = .ok d from hc]
  rfl

/-- The sixteen slots of a LIST, one after the other. -/
theorem slots_listed (x : Volume) {f : Nat → List Nat} (hf : ∀ i, slotFields x i = f i) :
    (List.range Config.snapSlots).flatMap (slotFields x) =
      f 0 ++ f 1 ++ f 2 ++ f 3 ++ f 4 ++ f 5 ++ f 6 ++ f 7 ++ f 8 ++ f 9 ++ f 10 ++ f 11 ++ f 12 ++ f 13 ++ f 14 ++
        f 15 := by
  have hr : List.range Config.snapSlots = [0, 1, 2, 3, 4, 5, 6, 7, 8, 9, 10, 11, 12, 13, 14, 15] := rfl
  simp only [hr, List.flatMap_cons, List.flatMap_nil, List.append_nil, List.append_assoc, hf]

theorem exec_snapshotList {s : State} (h : s.ctlServes) (tag v : Nat) {code : Code} {result : List Nat}
    (hd : doSnapshotList v { st := s.executes ⟨tag, .snapshotList v⟩ } =
      reply code result { st := s.executes ⟨tag, .snapshotList v⟩ }) :
    exec (.snapshotList tag v) s = .next (s.answered 21 tag code result) :=
  exec_stands h (r := .snapshotList v) (fun _ => rfl) (fun _ hp => if_neg fun hr => hp hr.1) hd nofun nofun

/-- Settles O33: the shared checks refuse; then HOLD and RELEASE write the flag; a LIST goes through the slots. -/
theorem holdReleaseAndSnapshotList : Obligations.HoldReleaseAndSnapshotList := by
  refine ⟨fun s tag v slot h => ?_, fun s tag v h => ?_⟩
  · refine ⟨fun hr => exec_hold_release_refused h tag (findSnap_range hr), fun hv hs => ⟨fun hb => ?_, fun h1 h2 => ?_⟩⟩
    · exact exec_hold_release_refused h tag (findSnap_badVol hv hs hb)
    · have hf := findSnap_usable hv hs h1 h2
      refine ⟨fun hn => exec_hold_release_refused h tag (by rw [hf, hn]), fun d hd => ?_⟩
      rw [hd] at hf
      exact ⟨exec_snapshotHold_found h tag hf, exec_snapshotRelease_found h tag hf⟩
  · intro x slotOf
    split_ifs with hp hv ha
    · exact exec_recovering h hp (r := .snapshotList v) (fun _ => rfl) rfl nofun nofun
    · exact exec_snapshotList ⟨h, hp⟩ tag v (if_pos ((not_lt_volumes v).mpr hv))
    · exact exec_snapshotList ⟨h, hp⟩ tag v ((if_neg ((not_lt_volumes v).not.mpr hv)).trans
        (if_pos ((not_usable_iff _).mpr ha)))
    · refine (exec_snapshotList ⟨h, hp⟩ tag v ((if_neg ((not_lt_volumes v).not.mpr hv)).trans
        (if_neg ((not_usable_iff _).not.mpr ha)))).trans (congrArg (fun l => Host.Outcome.next (s.answered 21 tag .ok l)) ?_)
      have hslot : ∀ i, slotFields x i = slotOf i := by
        intro i
        simp only [slotFields, slotOf]
        cases tfind x.snaps i with
        | none => rfl
        | some d =>
          refine congrArg (fun l => [d.kind.value] ++ l ++ [d.gen, d.label, d.created, flag d.held, d.state.value,
            d.retained.length, d.inUse]) ?_
          cases d.series <;> rfl
      exact congrArg₂ (· ++ ·) rfl (slots_listed x hslot)

end Sys2Proof.Machine
end

section
/-! PROOFS. The requests on the schedule (R176, R177), the accounts (R67, R72, R73) and SNAPSHOT DELETE (R87 to R91). -/

namespace Sys2Proof.Machine

/-! ### The schedule -/

/-- Every field that the action of an entry uses lies in its range (R171). -/
abbrev fieldsInRange (x : SchedEntry) : Prop :=
  x.minute < 1440 ∧ x.weekdays < 128 ∧
    ((x.action = 1 → x.volume < 64 ∧ x.param ≤ 7 ∧ 1 ≤ x.keep ∧ x.keep ≤ 15) ∧
     (x.action = 2 → x.volume < 64 ∧ x.snapOpt ≤ 1 ∧ (x.snapOpt = 1 → x.param ≤ 7 ∧ 1 ≤ x.keep ∧ x.keep ≤ 15)) ∧
     (x.action = 3 → x.volume < 64) ∧
     (x.action = 4 → x.param ≤ 1 ∧ x.deadline < 1440) ∧
     (x.action = 5 → x.param ≤ 1))

theorem entryRange_iff {x : SchedEntry} (h : 1 ≤ x.action ∧ x.action ≤ 5) : entryRange x = true ↔ fieldsInRange x := by
  obtain ⟨used, action, minute, weekdays, volume, snapOpt, param, keep, deadline, label⟩ := x
  dsimp only at h
  have hcases : action = 1 ∨ action = 2 ∨ action = 3 ∨ action = 4 ∨ action = 5 := by omega
  rcases hcases with rfl | rfl | rfl | rfl | rfl <;> simp [entryRange, fieldsInRange, and_assoc]
  intro _ _ _ hopt
  have : snapOpt = 0 ∨ snapOpt = 1 := by omega
  rcases this with rfl | rfl <;> simp

/-- Checks 2 to 4 of R176 in their order, in the words of the manual. -/
theorem entryCheck_eq (d : Schedule) (b : Bool) (x : SchedEntry) :
    entryCheck d b x =
      if b = d.activeB then some .active
      else if x.used = true ∧ (x.action = 0 ∨ 5 < x.action) then some .malformed
      else if x.used = true ∧ ¬ fieldsInRange x then some .range
      else none := by
  have hact : ¬ (1 ≤ x.action ∧ x.action ≤ 5) ↔ (x.action = 0 ∨ 5 < x.action) := by omega
  unfold entryCheck
  simp only [hact]
  by_cases hm : x.used = true ∧ (x.action = 0 ∨ 5 < x.action)
  · simp only [if_pos hm]
  · simp only [if_neg hm]
    have hr : (x.used = true ∧ ¬ entryRange x = true) ↔ (x.used = true ∧ ¬ fieldsInRange x) :=
      and_congr_right fun hu => not_congr (entryRange_iff (not_not.mp fun hn => hm ⟨hu, hact.mp hn⟩))
    rw [if_congr hr rfl rfl]

/-- The state with an entry stored and the cursor at its place. -/
def State.withEntry (s : State) (b : Bool) (i : Nat) (x : SchedEntry) : State :=
  { s with sched := s.sched.store b i x, ctl := { s.ctl with schedBankB := b, schedIndex := i } }

/-- What a write to a bank and an index answers and leaves (R176). -/
def State.entryWritten (s : State) (tag number : Nat) (b : Bool) (i : Nat) (x : SchedEntry) : State :=
  match entryCheck s.sched b x with
  | some c => s.answered number tag c []
  | none => (s.withEntry b i x).answered number tag .ok []

theorem exec_scheduleWrite {s : State} (h : s.ctlServes) (tag bank i : Nat) (x : SchedEntry) :
    exec (.scheduleWrite tag bank i x) s = .next
      (if 1 < bank ∨ 47 < i then s.answered 33 tag .range [] else s.entryWritten tag 33 (bank == 1) i x) := by
  have hdo : ∀ {t : State} {code : Code}, t.frontUp = s.frontUp → t.ctl.queue = s.ctl.queue →
      doScheduleWrite bank i x { st := s.executes ⟨tag, .scheduleWrite bank i x⟩ } =
        reply code [] { st := t.executes ⟨tag, .scheduleWrite bank i x⟩ } →
      exec (.scheduleWrite tag bank i x) s = .next (t.answered 33 tag code []) :=
    fun hu hq hd => exec_plain h (r := .scheduleWrite bank i x) (fun _ => rfl) (fun _ hp => if_neg fun hr => hp hr.1) _
      hd hu hq nofun nofun
  have hrange : (1 < bank ∨ ¬ i < Config.bankSize) ↔ (1 < bank ∨ 47 < i) := by
    unfold Config.bankSize
    omega
  split_ifs with hr
  · exact hdo rfl rfl (if_pos (hrange.mpr hr))
  · have hcheck : (s.executes ⟨tag, .scheduleWrite bank i x⟩).sched = s.sched := rfl
    unfold State.entryWritten
    cases hc : entryCheck s.sched (bank == 1) x with
    | some c => exact hdo rfl rfl ((if_neg (hrange.not.mpr hr)).trans (by rw [hcheck, hc]; rfl))
    | none =>
      exact hdo (t := s.withEntry (bank == 1) i x) rfl rfl
        ((if_neg (hrange.not.mpr hr)).trans (by rw [hcheck, hc]; rfl))

theorem exec_scheduleWriteNext {s : State} (h : s.ctlServes) (tag : Nat) (x : SchedEntry) :
    exec (.scheduleWriteNext tag x) s = .next
      (s.entryWritten tag 34 s.ctl.schedBankB (stepWrap 47 s.ctl.schedIndex) x) := by
  have hdo : ∀ {t : State} {code : Code}, t.frontUp = s.frontUp → t.ctl.queue = s.ctl.queue →
      doScheduleWriteNext x { st := s.executes ⟨tag, .scheduleWriteNext x⟩ } =
        reply code [] { st := t.executes ⟨tag, .scheduleWriteNext x⟩ } →
      exec (.scheduleWriteNext tag x) s = .next (t.answered 34 tag code []) :=
    fun hu hq hd => exec_plain h (r := .scheduleWriteNext x) (fun _ => rfl) (fun _ hp => if_neg fun hr => hp hr.1) _
      hd hu hq nofun nofun
  have hcheck : (s.executes ⟨tag, .scheduleWriteNext x⟩).sched = s.sched := rfl
  have hcursor : (s.executes ⟨tag, .scheduleWriteNext x⟩).ctl.schedBankB = s.ctl.schedBankB := rfl
  unfold State.entryWritten
  cases hc : entryCheck s.sched s.ctl.schedBankB x with
  | some c =>
    refine hdo rfl rfl ?_
    simp only [doScheduleWriteNext, hcheck, hcursor, hc]
    rfl
  | none =>
    refine hdo (t := s.withEntry s.ctl.schedBankB (stepWrap 47 s.ctl.schedIndex) x) rfl rfl ?_
    simp only [doScheduleWriteNext, hcheck, hcursor, hc]
    rfl

/-- A write in the words of the manual. -/
theorem entryWritten_eq (s : State) (tag number : Nat) (b : Bool) (i : Nat) (x : SchedEntry) :
    s.entryWritten tag number b i x =
      if b = s.sched.activeB then s.answered number tag .active []
      else if x.used = true ∧ (x.action = 0 ∨ 5 < x.action) then s.answered number tag .malformed []
      else if x.used = true ∧ ¬ fieldsInRange x then s.answered number tag .range []
      else
        let bank := tset unusedEntry i (storedEntry x) (s.sched.bank b)
        ({ s with
          sched := { s.sched with
            bankA := if b then s.sched.bankA else bank, bankB := if b then bank else s.sched.bankB },
          ctl := { s.ctl with schedBankB := b, schedIndex := i } } : State).answered number tag .ok [] := by
  have hwritten : (s.withEntry b i x) =
      { s with
        sched := { s.sched with
          bankA := if b then s.sched.bankA else tset unusedEntry i (storedEntry x) (s.sched.bank b),
          bankB := if b then tset unusedEntry i (storedEntry x) (s.sched.bank b) else s.sched.bankB },
        ctl := { s.ctl with schedBankB := b, schedIndex := i } } := by
    cases b <;> rfl
  unfold State.entryWritten
  rw [entryCheck_eq, hwritten]
  split_ifs <;> rfl

/-- What is stored of an entry, in the words of the manual. -/
theorem storedEntry_eq (x : SchedEntry) :
    storedEntry x =
      if x.used = false then unusedEntry
      else if x.action = 2 ∧ x.snapOpt = 0 then { x with param := 0, keep := 0, label := 0 } else x := by
  simp only [storedEntry, Bool.not_eq_true]

theorem exec_scheduleRead {s : State} (h : s.ctlServes) (tag bank i : Nat) {code : Code} {result : List Nat}
    (hd : doScheduleRead bank i { st := s.executes ⟨tag, .scheduleRead bank i⟩ } =
      reply code result { st := s.executes ⟨tag, .scheduleRead bank i⟩ }) :
    exec (.scheduleRead tag bank i) s = .next (s.answered 35 tag code result) :=
  exec_stands h (r := .scheduleRead bank i) (fun _ => rfl) (fun _ hp => if_neg fun hr => hp hr.1) hd nofun nofun

theorem stepWrap_eq (m n : Nat) : stepWrap m n = if n ≥ m then 0 else n + 1 := by
  unfold stepWrap
  split_ifs <;> omega

/-- Settles O54: the checks of a write and what it stores; a read, a swap and its cancelling. -/
theorem scheduleRequestsActOnTheBanks : Obligations.ScheduleRequestsActOnTheBanks := by
  intro s tag bank i x h
  refine ⟨?_, ?_, ?_, ?_, ?_⟩
  · rw [exec_scheduleWrite h, entryWritten_eq, storedEntry_eq]
    rfl
  · rw [exec_scheduleWriteNext h, stepWrap_eq, entryWritten_eq, storedEntry_eq]
    rfl
  · have hrange : (1 < bank ∨ ¬ i < Config.bankSize) ↔ (1 < bank ∨ 47 < i) := by
      unfold Config.bankSize
      omega
    split_ifs with hr
    · exact exec_scheduleRead h tag bank i (if_pos (hrange.mpr hr))
    · exact exec_scheduleRead h tag bank i (if_neg (hrange.not.mpr hr))
  · exact exec_plain h (r := .scheduleSwap) (fun _ => rfl) (f := doScheduleSwap) (fun _ hp => if_neg fun hr => hp hr.1)
      { s with sched := { s.sched with swap := true } } rfl rfl rfl nofun nofun
  · exact exec_plain h (r := .scheduleCancel) (fun _ => rfl) (f := doScheduleCancel)
      (fun _ hp => if_neg fun hr => hp hr.1) { s with sched := { s.sched with swap := false } } rfl rfl rfl nofun nofun

end Sys2Proof.Machine
end

section
/-! PROOFS. The requests on accounts (R67, R72, R73), with the one evaluation that each calls for. -/

namespace Sys2Proof.Machine

/-! ### The evaluation reads neither the links nor the queues of the control unit -/

/-- A choice between two states passes the links and the control unit through when both do. -/
theorem ite_st_ctl {p : Prop} [Decidable p] {a b a' b' : State} {o : List Output} {c : Control}
    (ha : a' = { a with out := o, ctl := c }) (hb : b' = { b with out := o, ctl := c }) :
    (if p then a' else b') = { (if p then a else b) with out := o, ctl := c } := by
  split_ifs <;> assumption

/-- The same for two results of a test. -/
theorem ite_ctl {α : Type} {p : Prop} [Decidable p] {a b a' b' : State × α} {o : List Output} {c : Control}
    (ha : a' = ({ a.1 with out := o, ctl := c }, a.2)) (hb : b' = ({ b.1 with out := o, ctl := c }, b.2)) :
    (if p then a' else b') = ({ (if p then a else b).1 with out := o, ctl := c }, (if p then a else b).2) := by
  split_ifs <;> assumption

theorem settleAccount_ctl (s : State) (t : Nat) (o : List Output) {c : Control} (hc : c.config = s.ctl.config)
    (hp : c.part = s.ctl.part) :
    settleAccount { s with out := o, ctl := c } t = { settleAccount s t with out := o, ctl := c } := by
  simp only [settleAccount, State.acct, hc, hp]
  split
  · rfl
  · exact ite_st_ctl rfl rfl

theorem evaluateAccount_ctl (s : State) (t : Nat) (o : List Output) {c : Control} (hc : c.config = s.ctl.config)
    (hp : c.part = s.ctl.part) :
    evaluateAccount { s with out := o, ctl := c } t =
      ({ (evaluateAccount s t).1 with out := o, ctl := c }, (evaluateAccount s t).2) := by
  have hreport : ∀ u : State, reportAccount { u with out := o, ctl := c } t =
      ({ (reportAccount u t).1 with out := o, ctl := c }, (reportAccount u t).2) :=
    fun _ => ite_ctl rfl rfl
  unfold evaluateAccount
  rw [settleAccount_ctl s t o hc hp, hreport]
  exact ite_ctl rfl rfl

/-- The notices of an evaluation name its account. -/
theorem evaluateAccount_subject (s : State) (t : Nat) : ∀ n ∈ (evaluateAccount s t).2, n.subject = t := by
  have hnote : ∀ u : State, (stateNotice u t).subject = t := by
    intro u
    simp only [stateNotice]
    cases u.derived t <;> rfl
  unfold evaluateAccount reportAccount
  split_ifs
  · simp
  · simp
  · simpa using hnote _

theorem evaluateAccount_ctl_eq (s : State) (t : Nat) : (evaluateAccount s t).1.ctl = s.ctl := by
  obtain ⟨as, q, h⟩ := evaluateAccount_frame s t
  rw [h]

/-! ### An event that calls for one evaluation -/

/-- The accounts that an event which touches one account evaluates at its end: none for tag 0 (R60). -/
def touched (o : Nat) : List Nat := if o = 0 then [] else [o]

theorem evaluate_touched (s : State) (o : Nat) :
    ({ st := s, accts := touched o } : Event).evaluate = ((evaluateAccount s o).1, { accts := (evaluateAccount s o).2 }) := by
  by_cases ho : o = 0
  · subst ho
    rfl
  · have hall : ({ st := s, accts := [o] } : Event).all = { accts := [o] } := rfl
    simp [touched, ho, Event.evaluate, hall, Causes.evalAccounts, unionAsc, evalEach]

/-- The evaluation's notice is queued at the end of the event. -/
theorem offered_touched (s : State) (o : Nat) :
    ({ st := s, accts := touched o } : Event).offered = (evaluateAccount s o).2.foldl offer s.ctl := by
  have hdue : ({ accts := (evaluateAccount s o).2 } : Verdicts).due { accts := touched o } = (evaluateAccount s o).2 := by
    have hsubject := evaluateAccount_subject s o
    by_cases ho : o = 0
    · subst ho
      rfl
    · simp only [Verdicts.due, Bool.false_eq_true, if_false, List.nil_append, List.append_nil]
      rw [List.filter_eq_self.mpr fun n hn => by simp [touched, ho, hsubject n hn]]
      simp
  simp only [Event.offered, Event.evaluated, evaluate_touched, evaluateAccount_ctl_eq]
  exact congrArg (fun l => l.foldl offer s.ctl) hdue

/-- Offering notices leaves the executing slot and the cursors. -/
theorem foldl_offer_frame (l : List Notice) (c : Control) (x : Option Executing) (n : Nat) :
    l.foldl offer { c with executing := x, acctCursor := n } = { l.foldl offer c with executing := x, acctCursor := n } := by
  induction l generalizing c with
  | nil => rfl
  | cons a l ih =>
    rw [List.foldl_cons, List.foldl_cons, ← ih]
    refine congrArg (fun c => l.foldl offer c) ?_
    simp only [offer]
    split_ifs <;> rfl

/-- A served request that its rule decides at once, one account evaluated at the end of its event. -/
theorem exec_evaluating {s : State} (h : s.ctlServes) {i : Instr} {tag : Nat} {r : Request} (hrow : Arrives i tag r)
    {f : Event → Event} (hf : ∀ e : Event, e.st.ctl.part ≠ .recovering → perform r e = f e) (t : State) (n o : Nat)
    {code : Code} {result : List Nat}
    (hd : f { st := s.executes ⟨tag, r⟩ } = reply code result
      { st := ({ t with ctl := { t.ctl with acctCursor := n } } : State).executes ⟨tag, r⟩, accts := touched o })
    (hu : t.frontUp = s.frontUp) (hq : t.ctl.queue = s.ctl.queue) (h38 : r.number ≠ 38) (h7 : r.number ≠ 7) :
    exec i s = .next
      (State.answered { (evaluateAccount t o).1 with
        ctl := { (evaluateAccount t o).2.foldl offer (evaluateAccount t o).1.ctl with acctCursor := n } }
        r.number tag code result) := by
  rw [exec_decided h hrow hf hd rfl rfl rfl rfl rfl rfl (hu.trans h.1.1) (hq.trans h.1.2.2) h38 h7]
  let c : Control := { t.ctl with acctCursor := n, executing := none }
  change Host.Outcome.next (State.answered
    { ({ st := { t with out := [], ctl := c }, accts := touched o } : Event).evaluated with
      ctl := ({ st := { t with out := [], ctl := c }, accts := touched o } : Event).offered } r.number tag code result) = _
  rw [offered_touched, Event.evaluated, evaluate_touched, evaluateAccount_ctl t o [] (c := c) rfl rfl]
  simp only [State.answered, c]
  rw [foldl_offer_frame, evaluateAccount_ctl_eq]
  rfl

/-! ### ACCOUNT SET, READ and READ NEXT -/

theorem touchAcct_executes (s : State) (o : Nat) : Event.touchAcct { st := s } o = { st := s, accts := touched o } := by
  unfold Event.touchAcct touched
  split_ifs <;> rfl

theorem evaluated_touched (s : State) (o : Nat) :
    ({ st := s, accts := touched o } : Event).evaluated = (evaluateAccount s o).1 :=
  congrArg Prod.fst (evaluate_touched s o)

/-- The state in which an account has new limits (R67). -/
def State.limited (s : State) (o soft hard : Nat) : State :=
  s.setAcct o { s.acct o with soft := min soft hard, hard := hard }

theorem exec_accountSet_refused {s : State} (h : s.ctlServes) (tag o soft hard : Nat) {code : Code}
    (hd : doAccountSet o soft hard { st := s.executes ⟨tag, .accountSet o soft hard⟩ } =
      reply code [] { st := s.executes ⟨tag, .accountSet o soft hard⟩ }) :
    exec (.accountSet tag o soft hard) s = .next (s.answered 14 tag code []) :=
  exec_stands h (r := .accountSet o soft hard) (fun _ => rfl) (fun _ hp => if_neg fun hr => hp hr.1) hd nofun nofun

theorem exec_accountSet_stores {s : State} (h : s.ctlServes) (tag o soft hard : Nat) (h1 : o < 65536) (h2 : o ≠ 0)
    (h3 : ¬ (noLimit < soft ∨ noLimit < hard)) :
    let r := evaluateAccount (s.limited o soft hard) o
    let b := r.1.acct o
    exec (.accountSet tag o soft hard) s = .next
      (({ r.1 with ctl := r.2.foldl offer r.1.ctl }).answered 14 tag .ok
        ([b.soft, b.hard] ++ optField b.expiry ++ [(r.1.derived o).value])) := by
  intro r b
  have hdo : doAccountSet o soft hard { st := s.executes ⟨tag, .accountSet o soft hard⟩ } =
      reply .ok ([b.soft, b.hard] ++ optField b.expiry ++ [(r.1.derived o).value])
        { st := State.executes { s.limited o soft hard with ctl := { (s.limited o soft hard).ctl with
          acctCursor := s.ctl.acctCursor } } ⟨tag, .accountSet o soft hard⟩, accts := touched o } := by
    refine (if_neg (not_not.mpr h1)).trans ((if_neg h2).trans ((if_neg h3).trans ?_))
    have hst : (Event.updAcct { st := s.executes ⟨tag, .accountSet o soft hard⟩ } o fun a =>
        { a with soft := min soft hard, hard := hard }).touchAcct o =
        { st := { s.limited o soft hard with
            out := [], ctl := { s.ctl with executing := some ⟨tag, 14⟩ } }, accts := touched o } :=
      touchAcct_executes _ o
    simp only [hst, evaluated_touched,
      evaluateAccount_ctl (s.limited o soft hard) o [] (c := { s.ctl with executing := some ⟨tag, 14⟩ }) rfl rfl]
    rfl
  have hfinal := exec_evaluating h (i := .accountSet tag o soft hard) (r := .accountSet o soft hard) (fun _ => rfl)
    (fun _ hp => if_neg fun hr => hp hr.1) (s.limited o soft hard) s.ctl.acctCursor o hdo rfl rfl nofun nofun
  have hcursor : ({ r.2.foldl offer r.1.ctl with acctCursor := s.ctl.acctCursor } : Control) = r.2.foldl offer r.1.ctl := by
    have : r.1.ctl = s.ctl := evaluateAccount_ctl_eq _ _
    rw [this, foldl_offer]
  refine hfinal.trans ?_
  change Host.Outcome.next (State.answered
    { r.1 with ctl := { r.2.foldl offer r.1.ctl with acctCursor := s.ctl.acctCursor } } 14 tag .ok _) = _
  rw [hcursor]

/-- A read of an account shows the record that its evaluation leaves, and sets the cursor (R72). -/
theorem readAccount_executes (s : State) (q : ControlReq) (n : Nat) :
    readAccount n { st := s.executes q } =
      reply .ok (acctFields (evaluateAccount s n).1 n)
        { st := State.executes { s with ctl := { s.ctl with acctCursor := n } } q, accts := touched n } := by
  have htouch : readAccount n { st := s.executes q } =
      reply .ok (acctFields ({ st := { s with
        out := [], ctl := { s.ctl with executing := some ⟨q.tag, q.req.number⟩, acctCursor := n } }, accts := touched n }
          : Event).evaluated n)
        { st := State.executes { s with ctl := { s.ctl with acctCursor := n } } q, accts := touched n } := by
    have hall : (({ st := s.executes q } : Event).all.accts.contains n) = false := rfl
    simp only [readAccount, hall, Bool.false_eq_true, if_false, touchAcct_executes]
    rfl
  rw [htouch, evaluated_touched, evaluateAccount_ctl s n []
    (c := { s.ctl with executing := some ⟨q.tag, q.req.number⟩, acctCursor := n }) rfl rfl]
  rfl

theorem exec_accountRead {s : State} (h : s.ctlServes) (tag o : Nat) :
    let u := evaluateAccount s o
    exec (.accountRead tag o) s = .next
      (if o ≤ 65535 then ({ u.1 with ctl := { u.2.foldl offer u.1.ctl with acctCursor := o } }).answered 15 tag .ok
        (acctFields u.1 o) else s.answered 15 tag .range []) := by
  intro u
  split_ifs with ho
  · exact exec_evaluating h (r := .accountRead o) (f := doAccountRead o) (fun _ => rfl)
      (fun _ hp => if_neg fun hr => hp hr.1) s o o
      ((if_pos (by omega)).trans (readAccount_executes s ⟨tag, .accountRead o⟩ o)) rfl rfl nofun nofun
  · exact exec_stands h (r := .accountRead o) (f := doAccountRead o) (fun _ => rfl)
      (fun _ hp => if_neg fun hr => hp hr.1) (if_neg (by omega)) nofun nofun

theorem exec_accountReadNext {s : State} (h : s.ctlServes) (tag : Nat) :
    let n := stepWrap 65535 s.ctl.acctCursor
    let u := evaluateAccount s n
    exec (.accountReadNext tag) s = .next
      (({ u.1 with ctl := { u.2.foldl offer u.1.ctl with acctCursor := n } }).answered 16 tag .ok (acctFields u.1 n)) :=
  exec_evaluating h (r := .accountReadNext) (f := doAccountReadNext) (fun _ => rfl)
    (fun _ hp => if_neg fun hr => hp hr.1) s _ _
    (readAccount_executes s ⟨tag, .accountReadNext⟩ (stepWrap 65535 s.ctl.acctCursor)) rfl rfl nofun nofun

/-- Settles O30: the limits are stored and the account evaluated; a read shows what its evaluation leaves. -/
theorem accountRequestsStoreAndReport : Obligations.AccountRequestsStoreAndReport := by
  refine ⟨fun s tag o soft hard h => ?_, fun s tag o h => ⟨exec_accountRead h tag o, ?_⟩⟩
  · intro a s1 r b
    have hlimit : s1 = s.limited o soft hard := by
      have hmin : (if hard < soft then hard else soft) = min soft hard := by
        split_ifs <;> omega
      simp only [s1, hmin]
      rfl
    split_ifs with h1 h2 h3
    · exact exec_accountSet_refused h tag o soft hard (if_pos (by omega))
    · exact exec_accountSet_refused h tag o soft hard ((if_neg (by omega)).trans (if_pos h2))
    · exact exec_accountSet_refused h tag o soft hard ((if_neg (by omega)).trans ((if_neg h2).trans (if_pos h3)))
    · have hset := exec_accountSet_stores h tag o soft hard (by omega) h2 h3
      rw [← hlimit] at hset
      refine hset.trans (congrArg (fun l => Host.Outcome.next (State.answered _ 14 tag .ok
        ([b.soft, b.hard] ++ l ++ [(r.1.derived o).value]))) ?_)
      cases b.expiry <;> rfl
  · have hread := exec_accountReadNext h tag
    rw [stepWrap_eq] at hread
    exact hread

end Sys2Proof.Machine
end

section
/-! PROOFS. The arrival checks of a front request (R19, R20). -/

namespace Sys2Proof.Machine

/-- `k` holds of the code of the first arrival check that a request for the blocks from `start` on of volume `x` fails. -/
def FirstRefusal (s : State) (x : Volume) (start count : Nat) (malformed frozen noView : Prop) (k : Code → Prop) : Prop :=
  (malformed → k .malformed) ∧
  (¬ malformed → s.ctl.part ≠ .running → k .notReady) ∧
  (¬ malformed → s.ctl.part = .running →
    (256 ≤ s.inflight.length → k .busy) ∧
    (s.inflight.length < 256 →
      (x.state = .absent ∨ x.state = .deleting → k .badVol) ∧
      (x.state ≠ .absent → x.state ≠ .deleting →
        (x.size * 2 ^ s.format.k < start + count → k .range) ∧
        (start + count ≤ x.size * 2 ^ s.format.k → (frozen → k .frozen) ∧ (¬ frozen → noView → k .noView)))))

/-- The arrival checks in their order name the refusal. -/
theorem admission_first {s : State} {kind : FrontKind} {vol view start count len : Nat} {malformed frozen noView : Prop}
    (hm : malformed ↔ malformedFront kind view count len = true)
    (hf : frozen ↔ kind ≠ .read ∧ ((s.vol vol).state = .freezing ∨ (s.vol vol).state = .frozen))
    (hn : ¬ malformed → noView → kind = .read ∧ ((viewOf view).getD none).any (fun slot => !readySnap (s.vol vol) slot) = true)
    {k : Code → Prop} (hk : ∀ c, admission s kind vol view start count len = some c → k c) :
    FirstRefusal s (s.vol vol) start count malformed frozen noView k := by
  obtain rfl := propext hm
  obtain rfl := propext hf
  unfold admission at hk
  simp only [not_usable_iff] at hk
  refine ⟨fun h => hk _ (if_pos h), fun h hp => hk _ ((if_neg h).trans (if_pos hp)), fun h hp => ⟨fun hb => ?_, fun hb => ?_⟩⟩
  all_goals rw [if_neg h, if_neg (not_not.mpr hp)] at hk
  · exact hk _ (if_pos hb)
  · rw [if_neg (show ¬ Config.inflightSize ≤ s.occupancy from Nat.not_le.mpr hb)] at hk
    refine ⟨fun hv => hk _ (if_pos hv), fun h1 h2 => ?_⟩
    rw [if_neg (not_or.mpr ⟨h1, h2⟩)] at hk
    refine ⟨fun hr => hk _ (if_pos hr), fun hr => ?_⟩
    rw [if_neg (Nat.not_lt.mpr hr)] at hk
    exact ⟨fun hz => hk _ (if_pos hz), fun hz hw => hk _ ((if_neg hz).trans (if_pos (hn h hw)))⟩

/-- A front request that an arrival check refuses is answered with its code, and nothing else happens. -/
theorem runEvent_refused {s : State} (hu : s.frontUp = true) {kind : FrontKind} {tag vol view start count owner len : Nat}
    (hl : 16 ≤ len) (data : List Block) {c : Code} (hc : admission s kind vol view start count len = some c) :
    runEvent s (frontArrive kind tag vol view start count owner len data) = s.replied vol kind.value c tag := by
  have hf : frontArrive kind tag vol view start count owner len data (openEvent s) =
      replyFront vol kind.value c tag (openEvent s) := by
    have ha : admission (openEvent s).st kind vol view start count len = some c := hc
    have hg : ¬ (¬ (openEvent s).st.frontUp = true ∨ len < 16) := by
      rw [openEvent_st]
      simp only [hu, not_true_eq_false, false_or]
      omega
    rw [frontArrive, if_neg hg, ha]
  have hr := runEvent_replyFront s vol kind.value tag c
  rw [if_pos hu] at hr
  rw [runEvent, hf]
  exact hr

/-- A request is malformed by its counts, its view or its length. -/
theorem malformedFront_iff (kind : FrontKind) (view count len : Nat) :
    malformedFront kind view count len = true ↔
      (count = 0 ∨ 256 < count) ∨ (kind = .read ∧ view ≠ 128 ∧ 15 < view) ∨ len ≠ frontLength kind count := by
  have hview : (viewOf view).isNone = true ↔ view ≠ 128 ∧ 15 < view := by
    unfold viewOf
    split_ifs <;> simp <;> omega
  simp only [malformedFront, Bool.or_eq_true, Bool.and_eq_true, hview, beq_iff_eq, bne_iff_ne, decide_eq_true_eq, or_assoc]

/-- A view that is not malformed and names no READY snapshot. -/
theorem viewOf_notReady {x : Volume} {view : Nat} (hv : view ≤ 15) (h : ∀ d, tfind x.snaps view = some d → d.state ≠ .ready) :
    ((viewOf view).getD none).any (fun slot => !readySnap x slot) = true := by
  have hview : viewOf view = some (some view) := by
    rw [viewOf, if_neg (by omega), if_pos (by omega)]
  have hready : readySnap x view = false := by
    unfold readySnap
    split
    case h_1 d hd => simpa using h d hd
    case h_2 => rfl
  simp [hview, hready]

/-- Settles O55: the checks of `admission` are those of R20 in their order. -/
theorem frontRefusalsInOrder : Obligations.FrontRefusalsInOrder := by
  intro s tag vol view start count owner len data hu hl x first counts frozen
  have refused : ∀ (kind : FrontKind) (w : Nat) (ds : List Block) (c : Code),
      admission s kind vol w start count len = some c →
        runEvent s (frontArrive kind tag vol w start count owner len ds) = s.replied vol kind.value c tag :=
    fun _ _ ds _ => runEvent_refused hu hl ds
  refine ⟨admission_first ((or_congr_right (by simp [frontLength])).trans (malformedFront_iff .read view count len).symm)
      (by simp) (fun hm hw => ?_) fun c hc => congrArg Host.Outcome.next (refused .read view [] c hc),
    admission_first ((or_congr_right (by simp [frontLength, Config.blockBytes])).trans
        (malformedFront_iff .write 0 count len).symm) (by simp [frozen, x]) (fun _ => False.elim)
      fun c hc => congrArg Host.Outcome.next (refused .write 0 data c hc),
    admission_first ((or_congr_right (by simp [frontLength])).trans (malformedFront_iff .discard 0 count len).symm)
      (by simp [frozen, x]) (fun _ => False.elim)
      fun c hc => congrArg Host.Outcome.next (refused .discard 0 [] c hc)⟩
  obtain ⟨h128, hnot⟩ := hw
  refine ⟨rfl, viewOf_notReady ?_ hnot⟩
  by_contra hbig
  exact hm (.inr (.inl ⟨h128, by omega⟩))

end Sys2Proof.Machine
end

section
/-! PROOFS. The values derived from records: the sharing generation (R82), the view lookup (R85), the deadline (R125) and the
rebuilt grace expiry queue (R75). -/

namespace Sys2Proof.Machine

/-! ### The sharing generation and the view lookup -/

theorem shares_iff (d : Snap) : d.shares = true ↔ d.state ≠ .deleting := by
  simp [Snap.shares]

/-- The sharing generation is that of the newest snapshot that is not DELETING. -/
theorem sharingGen_spec (x : Volume) :
    (∀ p ∈ x.snaps, p.2.state ≠ .deleting → p.2.gen ≤ x.sharingGen) ∧
      ((∃ p ∈ x.snaps, p.2.state ≠ .deleting ∧ p.2.gen = x.sharingGen) ∨
        ((∀ p ∈ x.snaps, p.2.state = .deleting) ∧ x.sharingGen = 0)) := by
  unfold Volume.sharingGen
  rcases newestSnap_spec Snap.shares x.snaps with ⟨hn, hall⟩ | ⟨d, hd, hmem, hshares, hmax⟩
  · have hdel : ∀ p ∈ x.snaps, p.2.state = .deleting := fun p hp => by
      have := hall p hp
      rwa [← Bool.not_eq_true, shares_iff, not_not] at this
    rw [hn]
    exact ⟨fun p hp h => absurd (hdel p hp) h, .inr ⟨hdel, rfl⟩⟩
  · rw [hd]
    exact ⟨fun p hp h => hmax p hp ((shares_iff _).mpr h), .inl ⟨d, hmem, (shares_iff _).mp hshares, rfl⟩⟩

/-- Insertion keeps an ascending list ascending. -/
theorem insertByKey_sorted {α : Type} (key : α → Nat) (x : α) {l : List α} (h : l.Pairwise fun a b => key a ≤ key b) :
    (insertByKey key x l).Pairwise fun a b => key a ≤ key b := by
  induction l with
  | nil => simp [insertByKey]
  | cons y t ih =>
    obtain ⟨hy, ht⟩ := List.pairwise_cons.mp h
    rw [insertByKey]
    split_ifs with hlt
    · refine List.pairwise_cons.mpr ⟨fun z hz => ?_, h⟩
      rcases List.mem_cons.mp hz with rfl | hz
      · exact hlt.le
      · exact hlt.le.trans (hy z hz)
    · refine List.pairwise_cons.mpr ⟨fun z hz => ?_, ih ht⟩
      rcases List.mem_cons.mp ((insertByKey_perm key x t).mem_iff.mp hz) with rfl | hz
      · exact Nat.le_of_not_lt hlt
      · exact hy z hz

/-- A sorted list is ascending, and has the elements of the list. -/
theorem sortByKey_spec {α : Type} (key : α → Nat) (l : List α) :
    (sortByKey key l).Pairwise (fun a b => key a ≤ key b) ∧ (sortByKey key l).Perm l := by
  have fold : ∀ (l acc : List α), acc.Pairwise (fun a b => key a ≤ key b) →
      (l.foldl (fun acc x => insertByKey key x acc) acc).Pairwise (fun a b => key a ≤ key b) ∧
        (l.foldl (fun acc x => insertByKey key x acc) acc).Perm (acc ++ l) := by
    intro l
    induction l with
    | nil => exact fun acc h => ⟨h, by simp⟩
    | cons x l ih =>
      intro acc h
      obtain ⟨hs, hp⟩ := ih (insertByKey key x acc) (insertByKey_sorted key x h)
      exact ⟨hs, hp.trans (((insertByKey_perm key x acc).append_right l).trans List.perm_middle.symm)⟩
  exact fold l [] .nil

/-- No snapshot of the list holds the LCN: nothing is found. -/
theorem firstRetained_none {lcn : Nat} {l : List Snap} (h : ∀ d ∈ l, ¬ ∃ r ∈ d.retained, r.lcn = lcn) :
    firstRetained lcn l = none := by
  induction l with
  | nil => rfl
  | cons d t ih =>
    have hd : d.retained.find? (fun r => r.lcn == lcn) = none := by
      rw [List.find?_eq_none]
      intro r hr hl
      exact h d (List.mem_cons_self ..) ⟨r, hr, by simpa using hl⟩
    rw [firstRetained, hd]
    exact ih fun e he => h e (List.mem_cons_of_mem _ he)

/-- The first holder in ascending generation order is the one of least generation. -/
theorem firstRetained_least {lcn : Nat} {l : List Snap} (hs : l.Pairwise fun a b => a.gen ≤ b.gen) {d : Snap} (hd : d ∈ l)
    (hone : ∀ e ∈ l, e.gen = d.gen → e = d)
    (hmin : ∀ e ∈ l, (∃ r ∈ e.retained, r.lcn = lcn) → d.gen ≤ e.gen) {r : RetEntry}
    (hr : d.retained.find? (fun r => r.lcn == lcn) = some r) : firstRetained lcn l = some r := by
  induction l with
  | nil => simp at hd
  | cons e t ih =>
    obtain ⟨he, ht⟩ := List.pairwise_cons.mp hs
    rw [firstRetained]
    rcases List.mem_cons.mp hd with rfl | hd
    · rw [hr]
    · cases hf : e.retained.find? (fun r => r.lcn == lcn) with
      | none =>
        exact ih ht hd (fun a ha => hone a (List.mem_cons_of_mem _ ha)) fun a ha => hmin a (List.mem_cons_of_mem _ ha)
      | some q =>
        have hholds : d.gen ≤ e.gen :=
          hmin e (List.mem_cons_self ..) ⟨q, List.mem_of_find?_eq_some hf, by simpa using List.find?_some hf⟩
        obtain rfl := hone e (List.mem_cons_self ..) (Nat.le_antisymm (he d hd) hholds)
        rw [← hf, hr]

/-- The snapshots that a view lookup looks at. -/
theorem mem_snapsFrom {x : Volume} {g : Nat} {d : Snap} : d ∈ x.snapsFrom g ↔ (∃ p ∈ x.snaps, p.2 = d) ∧ g ≤ d.gen := by
  rw [Volume.snapsFrom, (sortByKey_spec _ _).2.mem_iff]
  simp

theorem viewLookup_spec (x : Volume) (g lcn : Nat) :
    let holds := fun (p : Nat × Snap) => g ≤ p.2.gen ∧ ∃ r ∈ p.2.retained, r.lcn = lcn
    ((∀ p ∈ x.snaps, ¬ holds p) →
      viewLookup x g lcn = match (x.entry lcn).form with
        | .mapped pcn born _ => if born ≤ g then some pcn else none
        | .unmapped _ => none) ∧
    ((x.snaps.map fun p => p.2.gen).Nodup →
      ∀ p ∈ x.snaps, holds p → (∀ q ∈ x.snaps, holds q → p.2.gen ≤ q.2.gen) →
        ∀ r, p.2.retained.find? (fun r => r.lcn == lcn) = some r →
          viewLookup x g lcn = if r.born ≤ g then some r.pcn else none) := by
  intro holds
  refine ⟨fun hnone => ?_, fun hgens p hp hold hmin r hr => ?_⟩
  · have hf : firstRetained lcn (x.snapsFrom g) = none := by
      refine firstRetained_none fun d hd hl => ?_
      obtain ⟨⟨p, hp, rfl⟩, hg⟩ := mem_snapsFrom.mp hd
      exact hnone p hp ⟨hg, hl⟩
    rw [viewLookup, hf] <;> rfl
  · have hf : firstRetained lcn (x.snapsFrom g) = some r := by
      refine firstRetained_least (sortByKey_spec _ _).1 (mem_snapsFrom.mpr ⟨⟨p, hp, rfl⟩, hold.1⟩) (fun e he hgen => ?_)
        (fun e he hl => ?_) hr
      · obtain ⟨⟨q, hq, rfl⟩, -⟩ := mem_snapsFrom.mp he
        exact congrArg Prod.snd (List.inj_on_of_nodup_map hgens hq hp hgen)
      · obtain ⟨⟨q, hq, rfl⟩, hg⟩ := mem_snapsFrom.mp he
        exact hmin q hq ⟨hg, hl⟩
    rw [viewLookup, hf]

/-! ### The deadline -/

theorem nextMinute_eq {now minute t : Nat} (hm : minute < 1440) (hlt : now < t) (hle : t ≤ 4294967295)
    (ht : t % 86400 = minute * 60) (hfirst : ∀ u, now < u → u % 86400 = minute * 60 → t ≤ u) :
    nextMinute now minute = t := by
  have hday : (if dayOf now * Config.daySeconds + minute * 60 > now then dayOf now * Config.daySeconds + minute * 60
      else dayOf now * Config.daySeconds + minute * 60 + Config.daySeconds) = t := by
    have h0 := hfirst (now / 86400 * 86400 + minute * 60)
    have h1 := hfirst (now / 86400 * 86400 + minute * 60 + 86400)
    unfold dayOf Config.daySeconds
    split_ifs with h <;> omega
  simp only [nextMinute, hday]
  exact if_pos hle

/-! ### The grace expiry queue -/

/-- The order of the grace expiry queue (R62). -/
def Sooner (a b : Nat × Nat) : Prop := a.1 < b.1 ∨ (a.1 = b.1 ∧ a.2 < b.2)

theorem Sooner.trans {a b c : Nat × Nat} (h : Sooner a b) (g : Sooner b c) : Sooner a c := by
  unfold Sooner at *
  omega

theorem sooner_of_not {a b : Nat × Nat} (h : ¬ Sooner a b) (hne : a ≠ b) : Sooner b a := by
  have : ¬ (a.1 = b.1 ∧ a.2 = b.2) := fun he => hne (Prod.ext he.1 he.2)
  unfold Sooner at *
  omega

theorem insertExpiry_perm (x tag : Nat) (q : List (Nat × Nat)) : (insertExpiry x tag q).Perm ((x, tag) :: q) := by
  induction q with
  | nil => exact .refl _
  | cons p t ih =>
    rw [insertExpiry]
    split_ifs
    · exact .refl _
    · exact (ih.cons p).trans (.swap ..)

theorem insertExpiry_sorted {x tag : Nat} {q : List (Nat × Nat)} (hq : q.Pairwise Sooner) (hnew : (x, tag) ∉ q) :
    (insertExpiry x tag q).Pairwise Sooner := by
  induction q with
  | nil => simp [insertExpiry]
  | cons p t ih =>
    obtain ⟨hp, ht⟩ := List.pairwise_cons.mp hq
    obtain ⟨hne, hnt⟩ := not_or.mp (List.mem_cons.not.mp hnew)
    rw [insertExpiry]
    split_ifs with hlt
    · refine List.pairwise_cons.mpr ⟨fun z hz => ?_, hq⟩
      rcases List.mem_cons.mp hz with rfl | hz
      · exact hlt
      · exact Sooner.trans (b := p) hlt (hp z hz)
    · refine List.pairwise_cons.mpr ⟨fun z hz => ?_, ih ht hnt⟩
      rcases List.mem_cons.mp ((insertExpiry_perm x tag t).mem_iff.mp hz) with rfl | hz
      · exact sooner_of_not hlt hne
      · exact hp z hz

/-- Distinct entries inserted one by one stand in order. -/
theorem foldl_insertExpiry (l : List (Nat × Nat)) (q : List (Nat × Nat)) (hq : q.Pairwise Sooner) (hd : (q ++ l).Nodup) :
    (l.foldl (fun q p => insertExpiry p.1 p.2 q) q).Pairwise Sooner ∧
      (l.foldl (fun q p => insertExpiry p.1 p.2 q) q).Perm (q ++ l) := by
  induction l generalizing q with
  | nil => exact ⟨hq, by simp⟩
  | cons p l ih =>
    have hperm : (insertExpiry p.1 p.2 q ++ l).Perm (q ++ p :: l) :=
      ((insertExpiry_perm p.1 p.2 q).append_right l).trans List.perm_middle.symm
    have hnew : p ∉ q := fun hp => (List.disjoint_of_nodup_append hd) hp (List.mem_cons_self ..)
    obtain ⟨hs, hp⟩ := ih _ (insertExpiry_sorted hq hnew) (hperm.nodup_iff.mpr hd)
    exact ⟨hs, hp.trans hperm⟩

/-- The entries of the accounts with an expiry, in tag order (R75). -/
def expiring (t : Table Account) : List (Nat × Nat) :=
  t.filterMap fun p =>
    match p.2.expiry with
    | some x => if p.1 = 0 then none else some (x, p.1)
    | none => none

theorem mem_expiring {t : Table Account} {p : Nat × Nat} :
    p ∈ expiring t ↔ p.2 ≠ 0 ∧ ∃ a, (p.2, a) ∈ t ∧ a.expiry = some p.1 := by
  obtain ⟨x, tag⟩ := p
  simp only [expiring, List.mem_filterMap, Prod.exists]
  constructor
  · rintro ⟨k, a, hmem, hx⟩
    cases he : a.expiry with
    | none => simp [he] at hx
    | some y =>
      rw [he] at hx
      dsimp only at hx
      split_ifs at hx with hk
      obtain ⟨rfl, rfl⟩ := Prod.mk.inj (Option.some.inj hx)
      exact ⟨hk, a, hmem, he⟩
  · rintro ⟨h0, a, hmem, he⟩
    exact ⟨tag, a, hmem, by rw [he]; exact if_neg h0⟩

/-- Keys strictly rise along a sorted table. -/
theorem pairwise_of_sorted {α : Type} {t : Table α} (h : Table.sorted t = true) : t.Pairwise fun p q => p.1 < q.1 := by
  induction t with
  | nil => exact .nil
  | cons p t ih =>
    obtain ⟨k, v⟩ := p
    simp only [Table.sorted, Bool.and_eq_true] at h
    refine List.pairwise_cons.mpr ⟨fun q hq => ?_, ih h.2⟩
    simpa using List.all_eq_true.mp h.1 q hq

theorem expiring_nodup {t : Table Account} (h : Table.sorted t = true) : (expiring t).Nodup := by
  refine List.pairwise_filterMap.mpr ((pairwise_of_sorted h).imp fun {p q} hlt a ha b hb hab => ?_)
  have hkey : ∀ {r : Nat × Account} {c : Nat × Nat},
      (match r.2.expiry with
        | some x => if r.1 = 0 then none else some (x, r.1)
        | none => none) = some c → c.2 = r.1 := by
    intro r c hc
    cases he : r.2.expiry with
    | none => simp [he] at hc
    | some x =>
      rw [he] at hc
      dsimp only at hc
      split_ifs at hc
      rw [← Option.some.inj hc]
  have := hkey ha
  have := hkey hb
  rw [hab] at *
  omega

theorem rebuiltQueue_spec {accounts : Table Account} (h : Table.sorted accounts = true) :
    let q := rebuiltQueue accounts
    q.length ≤ 4096 ∧ q.Pairwise Sooner ∧
    (∀ p ∈ q, p.2 ≠ 0 ∧ ∃ a, tfind accounts p.2 = some a ∧ a.expiry = some p.1) ∧
    ∀ p ∈ accounts, p.1 ≠ 0 → ∀ x, p.2.expiry = some x →
      (x, p.1) ∈ q ∨ (q.length = 4096 ∧ ∀ a ∈ q, Sooner a (x, p.1)) := by
  intro q
  obtain ⟨l, hl, hsorted, hperm⟩ : ∃ l : List (Nat × Nat), q = l.take 4096 ∧ l.Pairwise Sooner ∧ l.Perm (expiring accounts) :=
    ⟨_, rfl, foldl_insertExpiry (expiring accounts) [] .nil (by simpa using expiring_nodup h)⟩
  rw [hl]
  refine ⟨List.length_take_le .., hsorted.sublist (List.take_sublist ..), fun p hp => ?_, fun p hp h0 x hx => ?_⟩
  · obtain ⟨h0, a, ha, hx⟩ := mem_expiring.mp (hperm.mem_iff.mp (List.mem_of_mem_take hp))
    exact ⟨h0, a, tfind_of_mem h ha, hx⟩
  · have hmem : (x, p.1) ∈ l := hperm.mem_iff.mpr (mem_expiring.mpr ⟨h0, p.2, hp, hx⟩)
    rw [← List.take_append_drop 4096 l] at hmem hsorted
    rcases List.mem_append.mp hmem with hin | hout
    · exact .inl hin
    · have hlen : 4096 < l.length := by
        by_contra hshort
        rw [List.drop_eq_nil_of_le (by omega)] at hout
        simp at hout
      exact .inr ⟨List.length_take_of_le hlen.le, fun a ha => (List.pairwise_append.mp hsorted).2.2 a ha _ hout⟩

/-- Settles O12: each name by the specification of its search. -/
theorem derivedValues : Obligations.DerivedValues :=
  ⟨sharingGen_spec, viewLookup_spec, fun _ _ _ hm hlt hle ht hfirst => nextMinute_eq hm hlt hle ht hfirst,
    fun _ h => rebuiltQueue_spec h⟩

end Sys2Proof.Machine
end

section
/-! PROOFS. The evaluation of an account (R58 to R62, R66). -/

namespace Sys2Proof.Machine

/-- An account other than tag 0 with the sum, the limits and the expiry of R58. -/
theorem derived_eq {s : State} {tag : Nat} (h : tag ≠ 0) :
    s.derived tag = stateOf (s.acct tag).sum (s.acct tag).hard (s.acct tag).expiry s.sched.clockSet s.sched.clock :=
  if_neg h

/-- The expiry in the words of the manual (R59). -/
theorem settleExpiry_eq (a : Account) (grace band : Nat) (clockSet : Bool) (now : Nat) :
    settleExpiry a grace band clockSet now = match a.expiry with
      | none =>
        if a.soft < a.charge + a.reserved ∧ a.soft ≠ 268435455 ∧ clockSet = true then
          some (if now + grace ≤ 4294967295 then now + grace else 4294967295)
        else none
      | some x => if a.charge + a.reserved + band ≤ a.soft ∨ a.charge + a.reserved = 0 then none else some x := by
  unfold settleExpiry
  cases a.expiry with
  | none => rfl
  | some x =>
    have hiff : a.sum ≤ releaseThreshold a.soft band ↔ (a.charge + a.reserved + band ≤ a.soft ∨ a.charge + a.reserved = 0) := by
      unfold Account.sum releaseThreshold
      omega
    exact if_congr hiff rfl rfl

/-- What an account's expiry asks of the grace expiry queue (R62, R66). -/
def joinsQueue (s : State) (a : Account) (x : Nat) : Prop :=
  a.queued = false ∧ s.ctl.part ≠ .recovering ∧ s.sched.clockSet = true ∧ s.sched.clock < x ∧ s.expiryQueue.length < 4096

/-- The first step of an evaluation: the expiry, the queued flag and the queue, and nothing else. -/
theorem settleAccount_spec (s : State) (tag : Nat) :
    let a := s.acct tag
    let x := settleExpiry a s.ctl.config.grace s.ctl.config.band s.sched.clockSet s.sched.clock
    ∃ queued queue, settleAccount s tag =
        { s.setAcct tag { a with expiry := x, queued := queued } with expiryQueue := queue } ∧
      (x = none → queued = false ∧ queue = if a.queued then s.expiryQueue.filter (fun p => p.2 != tag) else s.expiryQueue) ∧
      ∀ t, x = some t →
        (joinsQueue s a t → queued = true ∧ queue = insertExpiry t tag s.expiryQueue) ∧
        (¬ joinsQueue s a t → queued = a.queued ∧ queue = s.expiryQueue) := by
  intro a x
  cases hx : x with
  | none =>
    have heq : settleAccount s tag = { s.setAcct tag { a with expiry := none, queued := false } with
        expiryQueue := if a.queued then removeExpiry tag s.expiryQueue else s.expiryQueue } := by
      unfold settleAccount
      simp only [show settleExpiry (s.acct tag) s.ctl.config.grace s.ctl.config.band s.sched.clockSet s.sched.clock = none
        from hx]
      rfl
    exact ⟨_, _, heq, fun _ => ⟨rfl, rfl⟩, nofun⟩
  | some t =>
    have hjoins : (¬ a.queued ∧ s.ctl.part ≠ .recovering ∧ s.sched.clockSet ∧ t > s.sched.clock
        ∧ s.expiryQueue.length < Config.expiryQueueSize) ↔ joinsQueue s a t := by
      unfold joinsQueue
      simp only [Bool.not_eq_true]
      rfl
    have heq : settleAccount s tag = if ¬ a.queued ∧ s.ctl.part ≠ .recovering ∧ s.sched.clockSet ∧ t > s.sched.clock
        ∧ s.expiryQueue.length < Config.expiryQueueSize then
        { s.setAcct tag { a with expiry := some t, queued := true } with expiryQueue := insertExpiry t tag s.expiryQueue }
      else s.setAcct tag { a with expiry := some t } := by
      unfold settleAccount
      simp only [show settleExpiry (s.acct tag) s.ctl.config.grace s.ctl.config.band s.sched.clockSet s.sched.clock = some t
        from hx]
      rfl
    by_cases hj : joinsQueue s a t
    · refine ⟨true, _, heq.trans (if_pos (hjoins.mpr hj)), nofun, fun u hu => ⟨fun _ => ⟨rfl, ?_⟩, fun hn => ?_⟩⟩
      · rw [Option.some.inj hu]
      · exact absurd (Option.some.inj hu ▸ hj) hn
    · refine ⟨a.queued, _, heq.trans (if_neg (hjoins.not.mpr hj)), nofun, fun u hu => ⟨fun hy => ?_, fun _ => ⟨rfl, rfl⟩⟩⟩
      exact absurd (Option.some.inj hu ▸ hy) hj

/-- The second step of an evaluation: the state becomes the last-reported one, with a notice if it is another. -/
theorem reportAccount_spec {s : State} {tag : Nat} (h : tag ≠ 0) :
    (reportAccount s tag).1.acct tag = { s.acct tag with last := s.derived tag } ∧
    (reportAccount s tag).2 = (if s.derived tag = (s.acct tag).last then [] else [stateNotice s tag]) ∧
    (∀ o, o ≠ tag → (reportAccount s tag).1.acct o = s.acct o) ∧
    (reportAccount s tag).1 = { s with accounts := (reportAccount s tag).1.accounts } := by
  unfold reportAccount
  by_cases hd : s.derived tag = (s.acct tag).last
  · rw [if_pos (.inr hd), if_pos hd]
    refine ⟨?_, rfl, fun _ _ => rfl, rfl⟩
    rw [hd]
  · rw [if_neg (not_or.mpr ⟨h, hd⟩), if_neg hd]
    exact ⟨State.acct_setAcct .., rfl, fun o ho => State.acct_setAcct_ne _ _ _ _ ho, rfl⟩

/-- The state rules of R58 with an expiry behind the hard limit. -/
theorem stateOf_eq (sum hard now : Nat) (expiry : Option Nat) (set : Bool) :
    stateOf sum hard expiry set now =
      if hard ≠ 268435455 ∧ hard < sum then .over
      else match expiry with
        | some x => if set = true ∧ x ≤ now then .lapsed else .grace
        | none => .under := by
  unfold stateOf
  cases expiry <;> rfl

/-- Insertion splits the queue at the first entry that comes after the new one. -/
theorem insertExpiry_split (x tag : Nat) (q : List (Nat × Nat)) :
    ∃ front back, q = front ++ back ∧ insertExpiry x tag q = front ++ (x, tag) :: back ∧
      (∀ p ∈ front, ¬ Sooner (x, tag) p) ∧ ∀ p, back.head? = some p → Sooner (x, tag) p := by
  induction q with
  | nil => exact ⟨[], [], rfl, rfl, by simp, by simp⟩
  | cons p t ih =>
    obtain ⟨y, u⟩ := p
    rw [insertExpiry]
    by_cases h : x < y ∨ (x = y ∧ tag < u)
    · rw [if_pos h]
      refine ⟨[], (y, u) :: t, rfl, rfl, by simp, fun p hp => ?_⟩
      rw [← Option.some.inj hp]
      exact h
    · obtain ⟨front, back, hq, hi, hf, hb⟩ := ih
      rw [if_neg h]
      refine ⟨(y, u) :: front, back, by rw [hq]; rfl, by rw [hi]; rfl, fun p hp => ?_, hb⟩
      rcases List.mem_cons.mp hp with rfl | hp
      · exact h
      · exact hf p hp

/-- Settles O13: the settled expiry, then the report of the state derived from it. -/
theorem accountEvaluationSettlesAndReports : Obligations.AccountEvaluationSettlesAndReports := by
  intro s tag a sum now r b after
  refine ⟨fun h => if_pos h, fun h => ?_⟩
  obtain ⟨queued, queue, hsettle, hnone, hsome⟩ := settleAccount_spec s tag
  have hr : r = reportAccount (settleAccount s tag) tag := if_neg h
  obtain ⟨hb, hnotes, hothers, hframe⟩ := reportAccount_spec (s := settleAccount s tag) h
  rw [← hr] at hb hnotes hothers hframe
  have hacct : (settleAccount s tag).acct tag = { a with
      expiry := settleExpiry a s.ctl.config.grace s.ctl.config.band s.sched.clockSet s.sched.clock, queued := queued } := by
    rw [hsettle]
    exact tget_tset_same ..
  have hrecord : b = { a with
      expiry := settleExpiry a s.ctl.config.grace s.ctl.config.band s.sched.clockSet s.sched.clock, queued := queued,
      last := (settleAccount s tag).derived tag } := hb.trans (by rw [hacct])
  have hqueue : r.1.expiryQueue = queue := by
    rw [hframe, hsettle]
  have hderived : (settleAccount s tag).derived tag = stateOf sum a.hard b.expiry s.sched.clockSet now := by
    rw [derived_eq h, show b.expiry = _ from congrArg Account.expiry hb, hacct, hsettle]
    rfl
  have hlast : b.last = stateOf sum a.hard b.expiry s.sched.clockSet now :=
    (congrArg Account.last hb).trans hderived
  have hexpiry : b.expiry = settleExpiry a s.ctl.config.grace s.ctl.config.band s.sched.clockSet s.sched.clock :=
    congrArg Account.expiry hrecord
  have hqueued : b.queued = queued := congrArg Account.queued hrecord
  refine ⟨hexpiry.trans (settleExpiry_eq ..), by rw [hrecord], by rw [hrecord], by rw [hrecord], by rw [hrecord],
    fun hx => ?_, fun x hx => ?_, ?_, ?_, fun o ho => ?_, ?_⟩
  · rw [hqueue, hqueued]
    exact hnone (hexpiry.symm.trans hx)
  · intro joins
    obtain ⟨hin, hout⟩ := hsome x (hexpiry.symm.trans hx)
    refine ⟨fun hj => ?_, fun hj => ?_⟩
    · obtain ⟨h1, h2⟩ := hin hj
      rw [hqueue, hqueued, h2]
      exact ⟨h1, insertExpiry_split x tag s.expiryQueue⟩
    · rw [hqueue, hqueued]
      exact hout hj
  · exact hlast.trans (stateOf_eq ..)
  · rw [hnotes, hacct]
    refine if_congr (by rw [hderived, hlast]) rfl ?_
    have hnotice : stateNotice (settleAccount s tag) tag =
        let details : NoticeKind × Nat := match b.last with
          | .grace => (.graceStarted, b.expiry.getD 0)
          | .lapsed => (.lapsed, b.expiry.getD 0)
          | .over => (.over, a.hard)
          | .under => (.cleared, a.soft)
        { kind := details.1, time := (settleAccount s tag).stamp, subject := tag, d1 := sum, d2 := details.2 } := by
      unfold stateNotice
      rw [hderived, ← hlast, hacct, hexpiry]
      cases b.last <;> rfl
    rw [hnotice, hsettle]
    rfl
  · rw [hothers o ho, hsettle]
    exact tget_tset_ne _ _ _ _ _ ho
  · rw [hframe, hsettle]
    rfl

end Sys2Proof.Machine
end

section
/-! PROOFS. Frames on the front link: a request read back from its own frame (12.1 to 12.3, R191). -/

namespace Sys2Proof.Machine

/-! ### Numbers and fields (R191) -/

@[simp] theorem be_length (n v : Nat) : (be n v).length = n := by
  induction n generalizing v with
  | zero => rfl
  | succ n ih => simp [be, ih]

theorem rd_append (bs : List Byte) (b : Byte) : rd (bs ++ [b]) = rd bs * 256 + b.toNat := by
  simp [rd]

/-- A number is read back from its bytes. -/
theorem rd_be {n v : Nat} (h : v < 256 ^ n) : rd (be n v) = v := by
  induction n generalizing v with
  | zero =>
    rw [pow_zero] at h
    obtain rfl : v = 0 := by omega
    rfl
  | succ n ih =>
    rw [be, rd_append, ih (by rw [pow_succ] at h; omega), BitVec.toNat_ofNat]
    omega

theorem wordBytes_length (ws : List Nat) : (wordBytes ws).length = 4 * ws.length := by
  induction ws with
  | nil => rfl
  | cons w ws ih =>
    have hsplit : wordBytes (w :: ws) = be 4 w ++ wordBytes ws := rfl
    rw [hsplit, List.length_append, be_length, ih, List.length_cons]
    omega

/-- Four-byte fields are read back from their bytes. -/
theorem words_wordBytes {ws : List Nat} (h : ∀ w ∈ ws, u32 w = true) : words (wordBytes ws) = ws := by
  induction ws with
  | nil => rfl
  | cons w ws ih =>
    have hw : w < 256 ^ 4 := by
      have := h w (List.mem_cons_self ..)
      simpa [u32] using this
    have hcons : words (wordBytes (w :: ws)) = rd (be 4 w) :: words (wordBytes ws) := rfl
    rw [hcons, rd_be hw, ih fun v hv => h v (List.mem_cons_of_mem _ hv)]

/-! ### The parameters of the requests (12.3, 12.5) -/

theorem flagOf_flag (b : Bool) : flagOf (flag b) = some b := by
  cases b <;> rfl

theorem flag_le_one (b : Bool) : flag b ≤ 1 := by
  cases b <;> decide

theorem maskOf_lt (l : List (Option Nat)) : maskOf l < 2 ^ l.length := by
  induction l with
  | nil => decide
  | cons f t ih =>
    have := flag_le_one f.isSome
    rw [maskOf, List.length_cons, pow_succ]
    omega

theorem presentFields_absent {n m : Nat} (h : ¬ m % 2 = 1) (vs : List Nat) :
    presentFields (n + 1) m vs = (presentFields n (m / 2) vs).map fun fs => none :: fs := if_neg h

theorem presentFields_present {n m : Nat} (h : m % 2 = 1) (v : Nat) (t : List Nat) :
    presentFields (n + 1) m (v :: t) = (presentFields n (m / 2) t).map fun fs => some v :: fs := if_pos h

/-- The fields that a mask names are read back. -/
theorem presentFields_maskOf (l : List (Option Nat)) : presentFields l.length (maskOf l) (l.filterMap id) = some l := by
  induction l with
  | nil => rfl
  | cons f t ih =>
    rw [List.length_cons, maskOf]
    cases f with
    | none =>
      have hbit : ¬ (flag (none : Option Nat).isSome + 2 * maskOf t) % 2 = 1 := by simp [flag]
      have hrest : (flag (none : Option Nat).isSome + 2 * maskOf t) / 2 = maskOf t := by simp [flag]
      rw [presentFields_absent hbit, hrest, List.filterMap_cons_none rfl, ih]
      rfl
    | some n =>
      have hbit : (flag (some n).isSome + 2 * maskOf t) % 2 = 1 := by simp [flag, Nat.add_mod]
      have hrest : (flag (some n).isSome + 2 * maskOf t) / 2 = maskOf t := by simp only [flag, Option.isSome_some, if_true]; omega
      change presentFields (t.length + 1) _ (n :: t.filterMap id) = _
      rw [presentFields_present hbit, hrest, ih]
      rfl

theorem patchFields_length (p : ConfigPatch) : (patchFields p).length = 16 := rfl

theorem maskOf_patchFields_lt (p : ConfigPatch) : maskOf (patchFields p) < 65536 := by
  have hlt := maskOf_lt (patchFields p)
  rw [patchFields_length] at hlt
  exact hlt

theorem patchOf_patchFields (p : ConfigPatch) :
    patchOf (maskOf (patchFields p)) ((patchFields p).filterMap id) = some p := by
  have hfields := presentFields_maskOf (patchFields p)
  rw [patchFields_length] at hfields
  have hlt := maskOf_patchFields_lt p
  rw [patchOf, if_neg (by omega), hfields]
  rfl

theorem rangesOf_fields (rs : List Range) :
    rangesOf rs.length (rs.flatMap fun r => [r.src, r.count, r.dst]) = some rs := by
  induction rs with
  | nil => rfl
  | cons r rs ih =>
    have hcons : rangesOf (r :: rs).length ((r :: rs).flatMap fun r => [r.src, r.count, r.dst]) =
        (rangesOf rs.length (rs.flatMap fun r => [r.src, r.count, r.dst])).map
          fun rs => { src := r.src, count := r.count, dst := r.dst } :: rs := rfl
    rw [hcons, ih]
    rfl

/-- The bounds of the fields of a schedule entry (12.5). -/
theorem schedEntry_wf_iff (x : SchedEntry) : x.wf = true ↔
    x.action < 256 ∧ x.minute < 65536 ∧ x.weekdays < 256 ∧ x.volume < 256 ∧ x.snapOpt < 256 ∧ x.param < 256 ∧
      x.keep < 256 ∧ x.deadline < 65536 ∧ x.label < 4294967296 := by
  simp [SchedEntry.wf, u8, u16, u32, and_assoc]

/-- What stands above a field of `n` values. -/
theorem above_field {a b n : Nat} (h : b < n) : (a * n + b) / n = a := by
  rw [Nat.add_comm, Nat.add_mul_div_right _ _ (by omega), Nat.div_eq_of_lt h, Nat.zero_add]

/-- A field of `n` values. -/
theorem below_field {a b n : Nat} (h : b < n) : (a * n + b) % n = b := by
  rw [Nat.add_comm, Nat.add_mul_mod_self_right, Nat.mod_eq_of_lt h]

/-- The four fields of the record of an entry. -/
theorem entryOfWords_entryWords {x : SchedEntry} (h : x.wf = true) :
    entryOfWords (flag x.used * 16777216 + x.action * 65536 + x.minute)
      (x.weekdays * 16777216 + x.volume * 65536 + x.snapOpt * 256 + x.param) (x.keep * 16777216 + x.deadline) x.label =
        some x := by
  obtain ⟨h1, h2, h3, h4, h5, h6, h7, h8, -⟩ := (schedEntry_wf_iff x).mp h
  have hflag : (flag x.used * 16777216 + x.action * 65536 + x.minute) / 16777216 = flag x.used := by omega
  rw [entryOfWords, hflag, flagOf_flag]
  refine congrArg some ?_
  obtain ⟨used, action, minute, weekdays, volume, snapOpt, param, keep, deadline, label⟩ := x
  dsimp only at h1 h2 h3 h4 h5 h6 h7 h8 ⊢
  have hfirst : flag used * 16777216 + action * 65536 + minute = (flag used * 256 + action) * 65536 + minute := by ring
  have hsecond : weekdays * 16777216 + volume * 65536 + snapOpt * 256 + param =
      ((weekdays * 256 + volume) * 256 + snapOpt) * 256 + param := by ring
  have hbyte : ∀ n, n / 16777216 = n / 256 / 256 / 256 ∧ n / 65536 = n / 256 / 256 := fun n => by
    refine ⟨?_, ?_⟩ <;> omega
  have hkeep : (keep * 16777216 + deadline) / 16777216 = keep := above_field (by omega)
  have hdeadline : (keep * 16777216 + deadline) % 65536 = deadline := by
    rw [show keep * 16777216 + deadline = (keep * 256) * 65536 + deadline by ring, below_field h8]
  rw [hkeep, hdeadline, hfirst, hsecond, above_field h2, below_field h2, below_field h1, (hbyte _).1, (hbyte _).2,
    above_field h6, above_field h5, above_field h4, below_field h4, below_field h5, below_field h6]

theorem entryWords_u32 {x : SchedEntry} (h : x.wf = true) : ∀ w ∈ entryWords x, u32 w = true := by
  obtain ⟨h1, h2, h3, h4, h5, h6, h7, h8, h9⟩ := (schedEntry_wf_iff x).mp h
  have := flag_le_one x.used
  simp only [entryWords, List.mem_cons, List.not_mem_nil, or_false, forall_eq_or_imp, forall_eq, u32, decide_eq_true_eq]
  refine ⟨?_, ?_, ?_, ?_⟩ <;> omega

theorem requestOf_configSet (m : Nat) (vs : List Nat) : requestOf 2 (m :: vs) = (patchOf m vs).map .configSet := rfl

theorem requestOf_scheduleWrite (b i w x y z : Nat) :
    requestOf 33 [b, i, w, x, y, z] = (entryOfWords w x y z).map fun e => .scheduleWrite b i e := rfl

theorem requestOf_scheduleWriteNext (w x y z : Nat) :
    requestOf 34 [w, x, y, z] = (entryOfWords w x y z).map .scheduleWriteNext := rfl

theorem requestOf_restoreStart (a b c d o n : Nat) (rs : List Nat) :
    requestOf 22 (a :: b :: c :: d :: o :: n :: rs) =
      (flagOf o).bind fun o => (rangesOf n rs).map fun rs => .restoreStart a b c d o rs := rfl

/-- The parameter fields of a request name it. -/
theorem requestOf_requestWords {r : Request} (hw : r.wf = true) (hm : ∀ n, r ≠ .malformed n) :
    requestOf r.number (requestWords r) = some r := by
  cases r
  case configSet p => exact (requestOf_configSet _ _).trans (by rw [patchOf_patchFields]; rfl)
  case volumeCreate v s r o c => exact congrArg (Option.map fun o => Request.volumeCreate v s r o c) (flagOf_flag o)
  case snapshotCreate v k l q =>
    refine (congrArg (Option.map fun p => Request.snapshotCreate v k l (if p then some (q.getD 0) else none))
      (flagOf_flag q.isSome)).trans ?_
    cases q <;> rfl
  case restoreStart a b c d o rs =>
    refine (requestOf_restoreStart a b c d (flag o) rs.length (rs.flatMap fun r => [r.src, r.count, r.dst])).trans ?_
    rw [flagOf_flag, rangesOf_fields]
    rfl
  case runPlanSet vs => exact if_pos rfl
  case scheduleWrite b i x =>
    have hx : x.wf = true := by
      simp only [Request.wf, Bool.and_eq_true] at hw
      exact hw.2
    exact (requestOf_scheduleWrite ..).trans (by rw [entryOfWords_entryWords hx]; rfl)
  case scheduleWriteNext x =>
    exact (requestOf_scheduleWriteNext ..).trans (by rw [entryOfWords_entryWords (by exact hw)]; rfl)
  case malformed n => exact absurd rfl (hm n)
  all_goals rfl

theorem u32_of_le {n m : Nat} (h : n ≤ m) (hm : m < 4294967296) : u32 n = true := by
  simp only [u32, decide_eq_true_eq]
  omega

theorem optField_u32 {o : Option Nat} (h : optU32 o = true) : u32 (flag o.isSome) = true ∧ u32 (o.getD 0) = true := by
  refine ⟨u32_of_le (flag_le_one _) (by decide), ?_⟩
  cases o with
  | none => rfl
  | some n => exact h

theorem filterMap_u32 {l : List (Option Nat)} (h : ∀ o ∈ l, optU32 o = true) : ∀ w ∈ l.filterMap id, u32 w = true := by
  intro w hw
  obtain ⟨o, ho, rfl⟩ := List.mem_filterMap.mp hw
  exact h _ ho

theorem patchFields_u32 {p : ConfigPatch} (h : p.wf = true) : ∀ o ∈ patchFields p, optU32 o = true := by
  simp only [ConfigPatch.wf, Bool.and_eq_true, and_assoc] at h
  simpa [patchFields] using h

/-- The fields of a well-formed request fit their places. -/
theorem requestWords_u32 {r : Request} (hw : r.wf = true) : ∀ w ∈ requestWords r, u32 w = true := by
  have hflag : ∀ b, u32 (flag b) = true := fun b => u32_of_le (flag_le_one b) (by decide)
  cases r
  case configSet p =>
    refine List.forall_mem_cons.mpr ⟨u32_of_le (maskOf_patchFields_lt p).le (by decide), filterMap_u32 (patchFields_u32 hw)⟩
  case snapshotCreate v k l q =>
    simp only [Request.wf, Bool.and_eq_true] at hw
    obtain ⟨hp, hq⟩ := optField_u32 hw.2
    simp [requestWords, hw, hp, hq]
  case restoreStart a b c d o rs =>
    simp only [Request.wf, Bool.and_eq_true, List.all_eq_true, Range.wf] at hw
    obtain ⟨⟨⟨⟨⟨ha, hb⟩, hc⟩, hd⟩, hl⟩, hr⟩ := hw
    simp only [requestWords, List.mem_append, List.mem_cons, List.not_mem_nil, or_false, List.mem_flatMap]
    rintro w ((rfl | rfl | rfl | rfl | rfl | rfl) | ⟨r, hr', rfl | rfl | rfl⟩)
    · exact ha
    · exact hb
    · exact hc
    · exact hd
    · exact hflag o
    · exact hl
    · exact (hr r hr').1.1
    · exact (hr r hr').1.2
    · exact (hr r hr').2
  case runPlanSet vs =>
    simp only [Request.wf, Bool.and_eq_true, List.all_eq_true] at hw
    exact List.forall_mem_cons.mpr hw
  case scheduleWrite b i x =>
    simp only [Request.wf, Bool.and_eq_true] at hw
    exact List.forall_mem_cons.mpr ⟨hw.1.1, List.forall_mem_cons.mpr ⟨hw.1.2, entryWords_u32 hw.2⟩⟩
  case scheduleWriteNext x => exact entryWords_u32 hw
  all_goals
    simp only [Request.wf, Bool.and_eq_true] at hw
    simp [requestWords, hw, hflag]

theorem number_lt (r : Request) (hw : r.wf = true) : r.number < 65536 := by
  cases r
  case malformed n => simpa [Request.wf, u16, Request.number] using hw
  all_goals simp [Request.number]

/-- A control frame has its fields at their places. -/
theorem controlFrame_fields (tag : Nat) (r : Request) :
    let f := controlFrame tag r
    f.length = 12 + 4 * (requestWords r).length ∧ (f.drop 2).take 2 = be 2 r.number ∧ (f.drop 4).take 4 = be 4 tag ∧
      (f.drop 8).take 4 = be 4 (4 * (requestWords r).length) ∧ f.drop 12 = wordBytes (requestWords r) := by
  refine ⟨?_, rfl, rfl, rfl, rfl⟩
  simp only [controlFrame, List.length_append, be_length, wordBytes_length]

/-- Settles O14: each field is read back from its place, and the fields name the request. -/
theorem controlFrameRoundTrip : Obligations.ControlFrameRoundTrip := by
  intro tag r ht hw hm hl
  obtain ⟨hlen, hnumber, htag, hsize, hdata⟩ := controlFrame_fields tag r
  have ht' : tag < 256 ^ 4 := by simpa [u32] using ht
  simp only [controlOf, hlen, hnumber, htag, hsize, hdata]
  have hn : r.number < 256 ^ 2 := number_lt r hw
  have hs : 4 * (requestWords r).length < 256 ^ 4 := by omega
  rw [if_neg (by omega), rd_be hn, rd_be ht', rd_be hs, if_neg (by omega), words_wordBytes (requestWords_u32 hw),
    requestOf_requestWords hw hm]
  rfl

/-! ### Front requests (12.2) -/

theorem blockBytes_length (b : Block) : (blockBytes b).length = Config.blockBytes := be_length _ _

/-- A block is read back from its bytes. -/
theorem rd_blockBytes {b : Block} (h : Block.wf b = true) : rd (blockBytes b) = b := by
  have hbits : 8 * Config.blockBytes = 32768 := rfl
  have hlt : b < 2 ^ 32768 := of_decide_eq_true h
  rw [← hbits, pow_mul] at hlt
  exact rd_be hlt

theorem dataBytes_length (ds : List Block) : (dataBytes ds).length = ds.length * Config.blockBytes := by
  induction ds with
  | nil => simp [dataBytes]
  | cons d ds ih =>
    have hsplit : dataBytes (d :: ds) = blockBytes d ++ dataBytes ds := rfl
    rw [hsplit, List.length_append, blockBytes_length, ih, List.length_cons, Nat.succ_mul, Nat.add_comm]

/-- The blocks of a payload are read back. -/
theorem blocksOf_dataBytes {ds : List Block} (h : ∀ d ∈ ds, Block.wf d = true) (rest : List Byte) :
    blocksOf ds.length (dataBytes ds ++ rest) = ds := by
  induction ds with
  | nil => rfl
  | cons d ds ih =>
    have hsplit : dataBytes (d :: ds) ++ rest = blockBytes d ++ (dataBytes ds ++ rest) := List.append_assoc ..
    rw [hsplit, List.length_cons, blocksOf, List.take_left' (blockBytes_length d), List.drop_left' (blockBytes_length d),
      rd_blockBytes (h d (List.mem_cons_self ..)), ih fun e he => h e (List.mem_cons_of_mem _ he)]

theorem padTo_length {len : Nat} {f : List Byte} (h : f.length ≤ len) : (padTo len f).length = len := by
  rw [padTo, List.length_append, List.length_replicate]
  omega

/-- The command of a front request of `len` bytes with its payload. -/
def volumeCommand (vol kind view tag start count owner len : Nat) (rest : List Byte) : Instr :=
  match kind with
  | 1 => .read tag vol view start count owner len
  | 2 => .write tag vol start count owner len (blocksOf ((len - 16) / Config.blockBytes) rest)
  | 3 => .discard tag vol start count owner len
  | _ => .malformedRequestKind vol kind tag

/-- A frame behind the header of a front request is the command of its kind. -/
theorem decode_frontHeader {vol kind view tag start count owner : Nat} (hv : vol < 64) (hk : kind < 4) (hw : view < 256)
    (ht : tag < 4294967296) (hs : start < 4294967296) (hc : count < 65536) (ho : owner < 65536) (rest : List Byte) :
    decodeFrontFrame (frontHeader vol kind view tag start count owner ++ rest) =
      some (volumeCommand vol kind view tag start count owner
        (frontHeader vol kind view tag start count owner ++ rest).length rest) := by
  have hhead : frontHeader vol kind view tag start count owner ++ rest =
      BitVec.ofNat 8 vol :: ((frontHeader vol kind view tag start count owner ++ rest).drop 1) := rfl
  have hvol : (BitVec.ofNat 8 vol).toNat = vol := by
    rw [BitVec.toNat_ofNat]
    omega
  have hlen : 16 ≤ (frontHeader vol kind view tag start count owner ++ rest).length := by
    rw [List.length_append]
    exact Nat.le_add_right 16 rest.length
  have hdecode : decodeFrontFrame (frontHeader vol kind view tag start count owner ++ rest) =
      some (decodeVolumeFrame (frontHeader vol kind view tag start count owner ++ rest)) := by
    rw [hhead, decodeFrontFrame, ← hhead, hvol, if_neg (by omega), if_neg (by omega), if_pos hv]
  have h0 : rd ((frontHeader vol kind view tag start count owner ++ rest).take 1) = vol := rd_be (n := 1) (by omega)
  have h1 : rd (((frontHeader vol kind view tag start count owner ++ rest).drop 1).take 1) = kind := rd_be (n := 1) (by omega)
  have h2 : rd (((frontHeader vol kind view tag start count owner ++ rest).drop 2).take 1) = view := rd_be (n := 1) (by omega)
  have h4 : rd (((frontHeader vol kind view tag start count owner ++ rest).drop 4).take 4) = tag := rd_be (n := 4) (by omega)
  have h8 : rd (((frontHeader vol kind view tag start count owner ++ rest).drop 8).take 4) = start := rd_be (n := 4) (by omega)
  have h12 : rd (((frontHeader vol kind view tag start count owner ++ rest).drop 12).take 2) = count :=
    rd_be (n := 2) (by omega)
  have h14 : rd (((frontHeader vol kind view tag start count owner ++ rest).drop 14).take 2) = owner :=
    rd_be (n := 2) (by omega)
  have h16 : (frontHeader vol kind view tag start count owner ++ rest).drop 16 = rest := rfl
  rw [hdecode]
  simp only [decodeVolumeFrame, h0, h1, h2, h4, h8, h12, h14, h16]
  rfl

/-- Settles O15: the header's fields, and behind those of a WRITE its blocks. -/
theorem frontFrameRoundTrip : Obligations.FrontFrameRoundTrip := by
  intro i f hw hf
  have hheader : ∀ v k w t b n o, (frontHeader v k w t b n o).length = 16 := Laws.Operands.frontHeader_length
  cases i
  case read t v w b n o l =>
    simp only [Instr.wf, u32, u16, u8, Bool.and_eq_true, decide_eq_true_eq] at hw
    obtain ⟨⟨⟨⟨⟨⟨ht, hv⟩, hw⟩, hb⟩, hn⟩, ho⟩, hl⟩ := hw
    rw [← Option.some.inj hf]
    refine (decode_frontHeader hv (by omega) hw ht hb hn ho _).trans (congrArg (fun n => some (Instr.read t v w b _ o n)) ?_)
    exact padTo_length (by rw [hheader]; exact hl)
  case write t v b n o l d =>
    simp only [Instr.wf, u32, u16, Bool.and_eq_true, decide_eq_true_eq, List.all_eq_true] at hw
    obtain ⟨⟨⟨⟨⟨⟨⟨ht, hv⟩, hb⟩, hn⟩, ho⟩, hl⟩, hd⟩, hlen⟩ := hw
    rw [← Option.some.inj hf, padTo, List.append_assoc]
    have hfits : (frontHeader v 2 0 t b n o ++ dataBytes d).length ≤ l := by
      rw [List.length_append, hheader, dataBytes_length, hlen]
      unfold Config.blockBytes
      omega
    have hblocks : (l - 16) / Config.blockBytes = d.length := hlen.symm
    have hlength : (frontHeader v 2 0 t b n o ++ (dataBytes d ++ List.replicate
        (l - (frontHeader v 2 0 t b n o ++ dataBytes d).length) 0#8)).length = l := by
      rw [← List.append_assoc]
      exact padTo_length hfits
    refine (decode_frontHeader hv (by omega) (by omega) ht hb hn ho _).trans ?_
    rw [hlength, volumeCommand, hblocks, blocksOf_dataBytes hd]
  case discard t v b n o l =>
    simp only [Instr.wf, u32, u16, Bool.and_eq_true, decide_eq_true_eq] at hw
    obtain ⟨⟨⟨⟨⟨ht, hv⟩, hb⟩, hn⟩, ho⟩, hl⟩ := hw
    rw [← Option.some.inj hf]
    refine (decode_frontHeader hv (by omega) (by omega) ht hb hn ho _).trans
      (congrArg (fun n => some (Instr.discard t v b _ o n)) ?_)
    exact padTo_length (by rw [hheader]; exact hl)
  all_goals cases hf

end Sys2Proof.Machine
end

section
/-! PROOFS. The reads STATUS (R188), RUN STATUS (R140) and PLAN (R141). -/

namespace Sys2Proof.Machine

theorem perform_status (e : Event) : perform .status e = doStatus e := if_neg fun h => h.2 rfl

/-- STATUS at a free control unit: the values of the state, completed by those of the notice queue as they are. -/
theorem exec_status {s : State} (h : s.ctlFree) (tag : Nat) :
    exec (.status tag) s = .next (s.answered 7 tag .ok (statusFields s)) := by
  have ⟨hup, hslot, hqueue⟩ := h
  have hdo : doStatus { st := s.executes ⟨tag, .status⟩ } = reply .ok (statusFields s) { st := s.executes ⟨tag, .status⟩ } :=
    rfl
  have hfree : ({ (s.executes ⟨tag, .status⟩).ctl with executing := none } : Control) = s.ctl := by
    rw [← hslot]
    rfl
  refine congrArg Host.Outcome.next ?_
  rw [runEvent, controlArrive_of_free h, perform_status, hdo,
    close_reply (s := s.executes ⟨tag, .status⟩) (x := ⟨tag, 7⟩) rfl hqueue hup rfl, hfree, completeReply_status]
  simp only [State.answered]
  rw [← hslot]
  rfl

theorem optField_match (o : Option Nat) : optField o = match o with | some n => [1, n] | none => [0, 0] := by
  cases o <;> rfl

/-- RUN STATUS in the words of the manual. -/
theorem runFields_eq (s : State) :
    runFields s =
      let r := s.run
      let opt := fun (o : Option Nat) => match o with | some n => [1, n] | none => [0, 0]
      let waits := r.phase = .freeze ∧ s.plan[r.planIndex]? ≠ none
      [r.state.value, r.result.value, r.mode.value, r.deadline, r.runId, r.pass]
        ++ (if r.state = .idle then [0]
            else [1, r.planIndex] ++ opt s.plan[r.planIndex]? ++
              [r.phase.value, flag r.fullScan, r.reasons, r.pos, r.clearStart, r.clearCount, r.volData, r.volClear,
                if waits ∧ r.asked = false then 1 else 0, if waits ∧ r.asked = true then 1 else 0])
        ++ [r.sealedVols, r.skippedVols, r.dataFrames, r.clearFrames, r.retries] := by
  have hflag : ∀ (b : Bool) (p : Prop) [Decidable p], (b = true ↔ p) → flag b = if p then 1 else 0 :=
    fun b p _ hb => if_congr hb rfl rfl
  have hslot : waitsSlot s = true ↔ (s.run.phase = .freeze ∧ s.plan[s.run.planIndex]? ≠ none) ∧ s.run.asked = false := by
    simp only [waitsSlot, State.currentVol, Bool.and_eq_true, beq_iff_eq, Bool.not_eq_true', Option.isSome_iff_ne_none]
    tauto
  have hdrain : waitsDrain s = true ↔ (s.run.phase = .freeze ∧ s.plan[s.run.planIndex]? ≠ none) ∧ s.run.asked = true := by
    simp only [waitsDrain, State.currentVol, Bool.and_eq_true, beq_iff_eq, Option.isSome_iff_ne_none]
    tauto
  simp only [runFields, hflag _ _ hslot, hflag _ _ hdrain, optField_match]
  rfl

theorem wouldScan_iff (x : Volume) :
    wouldScan x = true ↔ x.fullScan = true ∨ x.overflow = true ∨ x.everSealed = false ∨ x.runCounter = 65534 := by
  simp [wouldScan, Config.maxRunCounter, or_assoc]

/-- The plan has no volume that fails a check. -/
theorem planCheck_none {s : State} (h : s.plan ≠ [])
    (hv : ∀ v ∈ s.plan, (s.vol v).state ≠ .absent ∧ (s.vol v).state ≠ .deleting ∧ (s.vol v).offsite = true) :
    planCheck s = none := by
  have husable : (s.plan.find? fun v => !(s.vol v).usable) = none := by
    rw [List.find?_eq_none]
    intro v hm
    obtain ⟨h1, h2, -⟩ := hv v hm
    simp [Volume.usable, h1, h2]
  have hoffsite : (s.plan.find? fun v => !(s.vol v).offsite) = none := by
    rw [List.find?_eq_none]
    intro v hm
    simp [(hv v hm).2.2]
  simp only [planCheck, if_neg h, husable, hoffsite, Option.map_none]

theorem exec_plan {s : State} (h : s.ctlServes) (tag minute : Nat) {code : Code} {result : List Nat}
    (hd : doPlan minute { st := s.executes ⟨tag, .plan minute⟩ } = reply code result { st := s.executes ⟨tag, .plan minute⟩ }) :
    exec (.plan tag minute) s = .next (s.answered 32 tag code result) :=
  exec_stands h (r := .plan minute) (fun _ => rfl) (fun _ hp => if_neg fun hr => hp hr.1) hd nofun nofun

/-- Settles O19: each read replies with the values of the state. -/
theorem statusRunStatusAndPlanReport : Obligations.StatusRunStatusAndPlanReport := by
  refine ⟨fun s tag h => exec_status h tag, fun s tag minute h => ?_⟩
  intro r opt waits scan n bytes rate seconds now deadline
  refine ⟨?_, fun hm => ?_, fun hm hc => ?_, fun hm hc hp => ?_, fun hm hc hp hv => ?_⟩
  · have hread : exec (.runStatus tag) s = .next (s.answered 31 tag .ok (runFields s)) :=
      exec_stands h (r := .runStatus) (f := doRunStatus) (fun _ => rfl) (fun _ hp => if_neg fun hr => hp hr.1) rfl
        nofun nofun
    rw [runFields_eq] at hread
    exact hread
  · exact exec_plan h tag minute (if_pos hm)
  · exact exec_plan h tag minute ((if_neg (Nat.not_lt.mpr hm)).trans (if_pos (show ¬ s.sched.clockSet = true by simp [hc])))
  · refine exec_plan h tag minute ((if_neg (Nat.not_lt.mpr hm)).trans ((if_neg (not_not.mpr hc)).trans ?_))
    have hcheck : planCheck (s.executes ⟨tag, .plan minute⟩) = some (2, 0) := if_pos hp
    rw [hcheck]
    rfl
  · have hread : exec (.plan tag minute) s = .next (s.answered 32 tag .ok (planFields s minute)) := by
      refine exec_plan h tag minute ((if_neg (Nat.not_lt.mpr hm)).trans ((if_neg (not_not.mpr hc)).trans ?_))
      have hcheck : planCheck (s.executes ⟨tag, .plan minute⟩) = none := planCheck_none hp hv
      rw [hcheck]
      rfl
    have hitems : ∀ x, planItems x = n x := fun x => if_congr (wouldScan_iff x) rfl rfl
    have hscans : ∀ x, flag (wouldScan x) = if scan x then 1 else 0 := fun x => if_congr (wouldScan_iff x) rfl rfl
    have hfits : ∀ a b : Nat, flag (decide (a ≤ b)) = if a ≤ b then 1 else 0 := fun a b => if_congr decide_eq_true_iff rfl rfl
    have hbytes : planBytes s = bytes := by
      simp only [planBytes, hitems]
      rfl
    simp only [planFields, hbytes, hitems, hscans, hfits] at hread
    exact hread

end Sys2Proof.Machine
end

section
/-! PROOFS. Events that take turns before their reply; TIME SET and GO (R169, R179). -/

namespace Sys2Proof.Machine

/-! ### An event and its decided reply -/

/-- The end of an event whose only frame is its decided reply. -/
theorem close_answered {e : Event} {a : Answer} (ha : e.todo.answer = some a) (hj : a.job = none)
    (hx : e.st.ctl.executing = none) (hu : e.st.frontUp = true) (ho : e.st.out = []) (hd : e.done = []) (hs : e.sent = [])
    (hl : e.late = []) (h38 : a.number ≠ 38) (h7 : a.number ≠ 7) :
    closeEvent e.sendAnswer = State.answered { e.evaluated with ctl := e.offered } a.number a.tag a.code a.result := by
  obtain ⟨b, vs, as, q, he⟩ := evaluate_frame e
  have hexec : e.offered.executing = none := by
    unfold Event.offered
    rw [foldl_offer, he]
    exact hx
  rw [closeEvent_answer ha hu hd (by rw [ho]; simp), hj]
  dsimp only
  rw [completeReply_read _ _ _ _ _ (.inl h38) (.inl h7), hl, hs, ho]
  simp only [List.foldl_nil, List.nil_append, State.answered]
  rw [show ({ e.offered with executing := none } : Control) = e.offered from by
    cases hc : e.offered
    rw [hc] at hexec
    cases hexec
    rfl]
  rfl

/-- A served request whose event ends with its decided reply: the state as the evaluations leave it, its notices queued. -/
theorem exec_sends {s : State} (h : s.ctlServes) {i : Instr} {tag : Nat} {r : Request} (hrow : Arrives i tag r)
    {f : Event → Event} (hf : ∀ e : Event, e.st.ctl.part ≠ .recovering → perform r e = f e) {g : Event} {a : Answer}
    (hrun : runTodo turnBound (f { st := s.executes ⟨tag, r⟩ }) = g.sendAnswer) (ha : g.todo.answer = some a)
    (hj : a.job = none) (hx : g.st.ctl.executing = none) (hu : g.st.frontUp = true) (ho : g.st.out = []) (hd : g.done = [])
    (hs : g.sent = []) (hl : g.late = []) (h38 : a.number ≠ 38) (h7 : a.number ≠ 7) :
    exec i s = .next (State.answered { g.evaluated with ctl := g.offered } a.number a.tag a.code a.result) := by
  rw [hrow, runEvent, controlArrive_of_free h.1, hf _ (executes_part_ne h _), hrun,
    close_answered ha hj hx hu ho hd hs hl h38 h7]

/-- The turns of an event are far fewer than their bound. -/
theorem Ends.runTodo {k : Nat} {e r : Event} (h : Ends k e r) (hk : k ≤ 1000) : runTodo turnBound e = r := by
  have := h (turnBound - k)
  rwa [Nat.sub_add_cancel (by unfold turnBound; omega)] at this

/-- An event with no work but its decided reply. -/
theorem ends_answerOnly {e : Event} {a : Answer} (ht : e.todo = { answer := some a }) (hq : e.st.ctl.queue = []) :
    Ends 2 e e.sendAnswer := by
  intro n
  rw [runTodo_of_answer n ht hq, Event.sendAnswer, ht]
  rfl

/-- No job begins a visit: the turn of the jobs changes nothing. -/
theorem ends_jobs {k : Nat} {e r : Event} {ao : Option Answer} (ht : e.todo = { jobs := true, answer := ao })
    (hj : ∀ p ∈ e.st.jobs, canVisit e.st p.2 = false) (h : Ends k { e with todo := { answer := ao } } r) :
    Ends (k + 1) e r := by
  refine Ends.turn ?_ h
  have hturn : turn e = some (jobTurn e) := by
    unfold turn
    simp only [ht]
    rfl
  rw [hturn, jobTurn_none hj, ht]

theorem canVisit_of_state {s : State} {x : Job} (h : x.state ≠ .running) : canVisit s x = false := by
  simp [canVisit, h]

/-! ### TIME SET (R169) -/

theorem testDeadline_of_not {e : Event} (h : e.st.run.state = .idle ∨ e.st.sched.clock < e.st.run.deadline) :
    testDeadline e = e := by
  refine if_neg fun hd => ?_
  rcases h with h | h
  · exact hd.1 h
  · exact absurd hd.2 (Nat.not_le.mpr h)

theorem exec_timeSet {s : State} (h : s.ctlServes) (tag t : Nat) (hd : s.run.state = .idle ∨ t < s.run.deadline) :
    exec (.timeSet tag t) s = .next
      (({ s with sched := { s.sched with clockSet := true, clock := t }, firing := true }).answered 4 tag .ok [t]) := by
  let u : State := { s with sched := { s.sched with clockSet := true, clock := t }, firing := true }
  refine exec_plain h (r := .timeSet t) (fun _ => rfl) (f := doTimeSet t) (fun _ hp => if_neg fun hr => hp hr.1) u ?_
    rfl rfl nofun nofun
  have hpart : ¬ s.ctl.part = .recovering := h.2
  have hset : setClock t { st := s.executes ⟨tag, .timeSet t⟩ } = { st := u.executes ⟨tag, .timeSet t⟩ } := by
    have hpass : beginPass (Event.updSched { st := s.executes ⟨tag, .timeSet t⟩ } fun d =>
        { d with clockSet := true, clock := t }) = { st := u.executes ⟨tag, .timeSet t⟩ } := if_neg hpart
    rw [setClock, hpass]
    exact testDeadline_of_not hd
  rw [doTimeSet, hset]

/-! ### GO (R179) -/

theorem startHead_empty {v : Nat} {e : Event} (h : (e.st.vol v).deleteQueue = []) (n : Nat) : startHead v n e = e := by
  cases n with
  | zero => rfl
  | succ n => simp only [startHead, h]

/-- No snapshot waits for its walk: GO begins none. -/
theorem wakeWalks_none {e : Event} (h : ∀ v, (e.st.vol v).deleteQueue = []) : wakeWalks e = e := by
  have hstep : (fun (e : Event) (v : Nat) => if (e.st.vol v).usable then startHead v (Config.snapSlots + 1) e else e) e = 
      fun v => e := by
    funext v
    dsimp only
    rw [startHead_empty (h v), ite_self]
  have hfold : ∀ l : List Nat, l.foldl (fun e v =>
      if (e.st.vol v).usable then startHead v (Config.snapSlots + 1) e else e) e = e := by
    intro l
    induction l with
    | nil => rfl
    | cons v l ih =>
      rw [List.foldl_cons]
      exact (congrArg (fun e' => l.foldl (fun e v =>
        if (e.st.vol v).usable then startHead v (Config.snapSlots + 1) e else e) e') (congrFun hstep v)).trans ih
  exact hfold _

/-- A volume that is not listed reads as the default. -/
theorem vol_deleteQueue_nil {s : State} (h : ∀ p ∈ s.vols, p.2.deleteQueue = []) (v : Nat) : (s.vol v).deleteQueue = [] :=
  tget_of_forall (Q := fun x : Volume => x.deleteQueue = []) rfl h v

theorem exec_go_starts {s : State} (h : s.ctlServes) (tag : Nat) (hq : ∀ p ∈ s.vols, p.2.deleteQueue = [])
    (hj : ∀ p ∈ s.jobs, p.2.state.ended = true) (hpart : s.ctl.part ≠ .running)
    (hset : ¬ (s.format.cond ≠ .valid ∨ ¬ s.sched.clockSet = true)) :
    exec (.go tag) s = .next (({ s with ctl := { s.ctl with part := .running } }).answered 5 tag .ok []) := by
  let t : State := { s with ctl := { s.ctl with part := .running } }
  have hdo : doGo { st := s.executes ⟨tag, .go⟩ } = reply .ok [] { st := t.executes ⟨tag, .go⟩, todo := { jobs := true } } := by
    have hwalks : wakeWalks { st := t.executes ⟨tag, .go⟩ } = { st := t.executes ⟨tag, .go⟩ } :=
      wakeWalks_none fun v => vol_deleteQueue_nil hq v
    exact (if_neg hpart).trans ((if_neg hset).trans (congrArg (fun e => reply .ok [] (wakeJobs e)) hwalks))
  have hends : Ends 3 (doGo { st := s.executes ⟨tag, .go⟩ }) (doGo { st := s.executes ⟨tag, .go⟩ }).sendAnswer := by
    rw [hdo]
    exact ends_jobs rfl (fun p hp => canVisit_of_state fun hr => by simpa [hr, JobState.ended] using hj p hp)
      (ends_answerOnly rfl h.1.2.2)
  rw [hdo] at hends
  exact exec_sends h (r := .go) (f := doGo) (fun _ => rfl) (fun _ hp => if_neg fun hr => hp hr.1)
    ((congrArg (runTodo turnBound) hdo).trans (hends.runTodo (by omega))) rfl rfl rfl h.1.1 rfl rfl rfl rfl nofun nofun

/-- Settles O23: TIME SET sets the clock and begins the pass; GO passes its checks in their order. -/
theorem timeSetAndGo : Obligations.TimeSetAndGo := by
  refine ⟨fun s tag t h hd => exec_timeSet h tag t hd, fun s tag h hq hj => ?_⟩
  have hrow : Arrives (.go tag) tag .go := fun _ => rfl
  have hf : ∀ e : Event, e.st.ctl.part ≠ .recovering → perform .go e = doGo e := fun _ hp => if_neg fun hr => hp hr.1
  have hclock : (s.format.cond ≠ .valid ∨ s.sched.clockSet = false) ↔ (s.format.cond ≠ .valid ∨ ¬ s.sched.clockSet = true) := by
    rw [Bool.not_eq_true]
  split_ifs with hp hs
  · exact exec_stands h hrow hf (if_pos hp) nofun nofun
  · exact exec_stands h hrow hf ((if_neg hp).trans (if_pos (hclock.mp hs))) nofun nofun
  · exact exec_go_starts h tag hq hj hp (hclock.not.mp hs)

end Sys2Proof.Machine
end

section
/-! PROOFS. An event whose work finds nothing to do: each flag of its work asks only for its own reason. -/

namespace Sys2Proof.Machine

/-- The work that an event still calls for finds nothing to do, flag by flag. -/
structure Event.Settled (e : Event) : Prop where
  busy : e.todo.retest = true → firstProceed [] e.st.busy = none
  drains : e.todo.drains = true → emptyDrain e.st = none
  yields : e.todo.occupancy = true → yieldAfter e.st = e.st.yielding
  pool : e.todo.pool = true → e.st.format.floor + 64 ≤ e.st.free.length → ∀ p ∈ e.st.jobs, p.2.state ≠ .pausedPool
  jobs : e.todo.jobs = true ∨ e.todo.pool = true → ∀ p ∈ e.st.jobs, canVisit e.st p.2 = false
  waits : ∀ v ∈ e.todo.drainBegin, (e.st.vol v).drain = none → (e.st.vol v).waiting = []
  engine : e.todo.engine = true → e.st.EngineRests
  port : e.todo.port = true → e.st.PortRests
  queue : e.todo.control = true ∨ e.todo.answer ≠ none → e.st.ctl.executing = none → e.st.ctl.queue = []
  grant : e.todo.grant = true → e.st.shelf.up = false ∨ e.st.shelf.freeSlot = none ∨ e.st.shelf.choose = none

/-- The grants find nothing to grant. -/
theorem ends_grantFlag (g : Bool) (e : Event)
    (hs : g = true → e.st.shelf.up = false ∨ e.st.shelf.freeSlot = none ∨ e.st.shelf.choose = none) :
    Ends 1 { e with todo := { grant := g } } { e with todo := {} } := by
  cases g with
  | false => exact fun n => runTodo_of_none (turn_of_idle rfl) _
  | true => exact ends_grant true e (hs rfl)

/-- The control queue has nothing to execute. -/
theorem ends_controlFlag (c g : Bool) (e : Event) (hq : c = true → e.st.ctl.executing = none → e.st.ctl.queue = [])
    (hs : g = true → e.st.shelf.up = false ∨ e.st.shelf.freeSlot = none ∨ e.st.shelf.choose = none) :
    Ends 2 { e with todo := { control := c, grant := g } } { e with todo := {} } := by
  cases c with
  | false => exact (ends_grantFlag g e hs).more
  | true =>
    refine Ends.turn ?_ (ends_grantFlag g e hs)
    change some (controlTurn _) = _
    unfold controlTurn
    rw [if_neg]
    rintro ⟨h1, h2⟩
    exact h2 (hq rfl h1)

/-- The decided control reply goes out. -/
theorem ends_answerFlag (ao : Option Answer) (c g : Bool) (e : Event)
    (hq : c = true ∨ ao ≠ none → e.st.ctl.executing = none → e.st.ctl.queue = [])
    (hs : g = true → e.st.shelf.up = false ∨ e.st.shelf.freeSlot = none ∨ e.st.shelf.choose = none) :
    Ends 3 { e with todo := { answer := ao, control := c, grant := g } } { e with todo := { answer := ao } }.sendAnswer := by
  cases ao with
  | none => exact (ends_controlFlag c g e (fun hc => hq (.inl hc)) hs).more
  | some a =>
    refine Ends.turn (e' := answerTurn a { e with todo := { answer := some a, control := c, grant := g } }) rfl ?_
    simp only [answerTurn, Event.sendAnswer, emitControl_todo]
    simp only [emitControl_clear]
    have h := emitControl_ctl a.number a.tag a.code
      (match a.job with
        | some j => [((tfind e.st.jobs j).map Job.stateValue).getD 0]
        | none => a.result) { e with todo := {} }
    have key := ends_controlFlag true g (emitControl a.number a.tag a.code
      (match a.job with
        | some j => [((tfind e.st.jobs j).map Job.stateValue).getD 0]
        | none => a.result) { e with todo := {} }) (fun _ => by rw [h.1]; exact hq (.inr nofun)) (by rw [h.2]; exact hs)
    simp only [emitControl_clear] at key
    exact key

/-- One flag cleared by a turn that changes nothing else. -/
theorem ends_clears {k : Nat} {b : Bool} {f : Bool → Event} {r : Event} (ht : b = true → Machine.turn (f true) = some (f false))
    (h : Ends k (f false) r) : Ends (k + 1) (f b) r := by
  cases b with
  | false => exact h.more
  | true => exact Ends.turn (ht rfl) h

/-- The rest of an event whose work finds nothing to do: the decided control reply goes out, and nothing else happens. -/
theorem ends_settled {e : Event} (hs : e.Settled) : Ends (10 + e.todo.drainBegin.length) e e.sendAnswer := by
  obtain ⟨⟨r, d, o, p, j, l, en, po, ao, c, g⟩, ht⟩ : ∃ t, e.todo = t := ⟨_, rfl⟩
  have he : e = { e with todo := ⟨r, d, o, p, j, l, en, po, ao, c, g⟩ } := by rw [← ht]
  have hr : e.sendAnswer = { e with todo := { answer := ao } }.sendAnswer := by
    unfold Event.sendAnswer
    rw [ht]
  obtain ⟨h1, h2, h3, h4, h5, h6, h7, h8, h9, h10⟩ := hs
  rw [ht] at h1 h2 h3 h4 h5 h6 h7 h8 h9 h10
  dsimp only at h1 h2 h3 h4 h5 h6 h7 h8 h9 h10
  rw [hr, he]
  have port : Ends 4 { e with todo := { port := po, answer := ao, control := c, grant := g } }
      { e with todo := { answer := ao } }.sendAnswer := by
    refine ends_clears (f := fun b => { e with todo := { port := b, answer := ao, control := c, grant := g } })
      (fun hp => ?_) (ends_answerFlag ao c g e h9 h10)
    change some (portTurn { e with todo := { answer := ao, control := c, grant := g } }) = _
    exact congrArg some (h8 hp _ rfl)
  have engine : Ends 5 { e with todo := { engine := en, port := po, answer := ao, control := c, grant := g } }
      { e with todo := { answer := ao } }.sendAnswer := by
    refine ends_clears (f := fun b => { e with todo := { engine := b, port := po, answer := ao, control := c, grant := g } })
      (fun hp => ?_) port
    change some (engineTurn { e with todo := { port := po, answer := ao, control := c, grant := g } }) = _
    exact congrArg some (h7 hp _ rfl)
  have waits : ∀ l : List Nat, (∀ v ∈ l, (e.st.vol v).drain = none → (e.st.vol v).waiting = []) → Ends (5 + l.length)
      { e with todo := { drainBegin := l, engine := en, port := po, answer := ao, control := c, grant := g } }
      { e with todo := { answer := ao } }.sendAnswer := by
    intro l hl
    induction l with
    | nil => exact engine
    | cons v l ih =>
      refine Ends.turn (k := 5 + l.length) ?_ (ih fun w hw => hl w (List.mem_cons_of_mem _ hw))
      change some (if (e.st.vol v).drain = none then beginNext v _ else _) = _
      split_ifs with hd
      · simp only [beginNext]
        rw [hl v (List.mem_cons_self ..) hd]
      · rfl
  have jobs : ∀ j, (j = true → ∀ p ∈ e.st.jobs, canVisit e.st p.2 = false) → Ends (6 + l.length)
      { e with todo := ⟨false, false, false, false, j, l, en, po, ao, c, g⟩ } { e with todo := { answer := ao } }.sendAnswer := by
    intro j hj
    rw [show 6 + l.length = 5 + l.length + 1 from by omega]
    refine ends_clears (f := fun b => { e with todo := ⟨false, false, false, false, b, l, en, po, ao, c, g⟩ })
      (fun hp => ?_) (waits l h6)
    change some (jobTurn _) = _
    rw [jobTurn_none (by exact hj hp)]
  have pool : Ends (7 + l.length)
      { e with todo := ⟨false, false, false, p, j, l, en, po, ao, c, g⟩ } { e with todo := { answer := ao } }.sendAnswer := by
    rw [show 7 + l.length = 6 + l.length + 1 from by omega]
    cases p with
    | false => exact (jobs j fun hj => h5 (.inl hj)).more
    | true =>
      rcases resumePool_none (e := { e with todo := ⟨false, false, false, false, j, l, en, po, ao, c, g⟩ })
        (by exact h4 rfl) with h | h
      · refine (jobs j fun hj => h5 (.inl hj)).turn ?_
        change some (resumePool _) = _
        rw [h]
      · refine (jobs true fun _ => h5 (.inr rfl)).turn ?_
        change some (resumePool _) = _
        rw [h]
        rfl
  have yields : Ends (8 + l.length)
      { e with todo := ⟨false, false, o, p, j, l, en, po, ao, c, g⟩ } { e with todo := { answer := ao } }.sendAnswer := by
    rw [show 8 + l.length = 7 + l.length + 1 from by omega]
    refine ends_clears (f := fun b => { e with todo := ⟨false, false, b, p, j, l, en, po, ao, c, g⟩ }) (fun hp => ?_) pool
    change some (testYield _) = _
    rw [testYield_same (by exact h3 hp)]
  have drains : Ends (9 + l.length)
      { e with todo := ⟨false, d, o, p, j, l, en, po, ao, c, g⟩ } { e with todo := { answer := ao } }.sendAnswer := by
    rw [show 9 + l.length = 8 + l.length + 1 from by omega]
    refine ends_clears (f := fun b => { e with todo := ⟨false, b, o, p, j, l, en, po, ao, c, g⟩ }) (fun hp => ?_) yields
    change some (drainTurn _) = _
    rw [drainTurn_none (by exact h2 hp)]
  rw [show 10 + l.length = 9 + l.length + 1 from by omega]
  refine ends_clears (f := fun b => { e with todo := ⟨b, d, o, p, j, l, en, po, ao, c, g⟩ }) (fun hp => ?_) drains
  change some (retestTurn _) = _
  rw [retestTurn_none (by exact h1 hp)]

/-- The same under the bound of an event. -/
theorem runTodo_settled {e : Event} (hs : e.Settled) (hl : e.todo.drainBegin.length ≤ 900) :
    runTodo turnBound e = e.sendAnswer :=
  (ends_settled hs).runTodo (by omega)

end Sys2Proof.Machine
end

section
/-! PROOFS. A control request decided in its arrival whose event queues notices; the deletion queue of a volume (R88, R89, R91)
and SNAPSHOT DELETE (R87). -/

namespace Sys2Proof.Machine

/-! ### Replies behind notices -/

/-- An event that has changed the state and offered notices, with nothing to evaluate. -/
theorem offered_noted (s : State) (t : Todo) (ns : List Notice) :
    ({ st := s, todo := t, notices := ns } : Event).evaluated = s ∧
      ({ st := s, todo := t, notices := ns } : Event).offered = ns.foldl offer s.ctl := ⟨rfl, rfl⟩

/-- Offering notices passes the executing slot by. -/
theorem foldl_offer_executing (l : List Notice) (c : Control) (x : Option Executing) :
    l.foldl offer { c with executing := x } = { l.foldl offer c with executing := x } := by
  induction l generalizing c with
  | nil => rfl
  | cons a l ih =>
    rw [List.foldl_cons, List.foldl_cons, ← ih]
    refine congrArg (fun c => l.foldl offer c) ?_
    simp only [offer]
    split_ifs <;> rfl

/-- A served request whose event changes the state, queues notices and finds no other work: the whole event. -/
theorem exec_noted {s : State} (h : s.ctlServes) {i : Instr} {tag : Nat} {r : Request} (hrow : Arrives i tag r)
    {f : Event → Event} (hf : ∀ e : Event, e.st.ctl.part ≠ .recovering → perform r e = f e) (t : State) {todo : Todo}
    {ns : List Notice} {code : Code} {result : List Nat}
    (hd : f { st := s.executes ⟨tag, r⟩ } = reply code result { st := t.executes ⟨tag, r⟩, todo := todo, notices := ns })
    (hset : (reply code result { st := t.executes ⟨tag, r⟩, todo := todo, notices := ns }).Settled)
    (hl : todo.drainBegin.length ≤ 900) (hu : t.frontUp = s.frontUp) (h38 : r.number ≠ 38) (h7 : r.number ≠ 7) :
    exec i s = .next (State.answered { t with ctl := ns.foldl offer t.ctl } r.number tag code result) := by
  rw [exec_sends h hrow hf ((congrArg (runTodo turnBound) hd).trans (runTodo_settled hset hl)) rfl rfl rfl
    (hu.trans h.1.1) rfl rfl rfl rfl h38 h7]
  refine congrArg Host.Outcome.next ?_
  change State.answered { t with out := [], ctl := ns.foldl offer { t.ctl with executing := none } } r.number tag code result = _
  rw [foldl_offer_executing]
  rfl

/-- An event with no work but its decided reply is settled. -/
theorem settled_plain {code : Code} {result : List Nat} {s : State} {ns : List Notice} (hx : s.ctl.executing ≠ none)
    (hq : s.ctl.queue = []) : (reply code result { st := s, notices := ns }).Settled := by
  obtain ⟨x, hx⟩ := Option.ne_none_iff_exists'.mp hx
  have hr := reply_eq (e := { st := s, notices := ns }) hx code result
  rw [hr]
  exact ⟨nofun, nofun, nofun, nofun, nofun, nofun, nofun, nofun, fun _ _ => hq, nofun⟩

/-! ### Tables and volumes written twice -/

theorem tdel_tput {α : Type} (i : Nat) (w : α) (t : Table α) : tdel i (tput i w t) = tdel i t := by
  induction t with
  | nil => simp [tput, tdel]
  | cons p t ih =>
    obtain ⟨k, x⟩ := p
    simp only [tput]
    split_ifs with h1 h2
    · simp [tdel]
    · simp [tdel, h2]
    · simp [tdel, h2, ih]

theorem State.setVol_setVol (s : State) (v : Nat) {x y : Volume} (hx : x.state ≠ .absent) (hy : y.state ≠ .absent) :
    (s.setVol v x).setVol v y = s.setVol v y := by
  have hne : ∀ {z : Volume}, z.state ≠ .absent → z ≠ Volume.absent := fun hz he => hz (by rw [he]; rfl)
  simp only [State.setVol, tset_tset _ _ _ _ _ (hne hy) (hne hx)]

theorem Event.updVol_updVol (e : Event) (v : Nat) (f g : Volume → Volume) (hf : (f (e.st.vol v)).state ≠ .absent)
    (hg : (g (f (e.st.vol v))).state ≠ .absent) : (e.updVol v f).updVol v g = e.updVol v fun x => g (f x) := by
  simp only [Event.updVol, Event.upd, State.vol_setVol, State.setVol_setVol _ _ hf hg]

/-! ### The deletion queue (R88, R89, R91) -/

/-- Behind others in the queue a snapshot is DELETE PENDING. -/
theorem queueDeletion_behind {v slot : Nat} {e : Event} {d : Snap} (hd : tfind (e.st.vol v).snaps slot = some d)
    (hq : (e.st.vol v).deleteQueue ≠ []) :
    queueDeletion v slot e = e.updVol v fun x =>
      { x with snaps := tput slot { d with state := .deletePending } x.snaps, deleteQueue := x.deleteQueue ++ [slot] } := by
  have hfalse : (e.st.vol v).deleteQueue.isEmpty = false := by simpa using hq
  simp only [queueDeletion, hd, hfalse]
  rfl

/-- At the head of the queue a snapshot is DELETING, and its walk ends at once if it retains nothing in a RUNNING part. -/
theorem queueDeletion_head {v slot : Nat} {e : Event} {d : Snap} (hd : tfind (e.st.vol v).snaps slot = some d)
    (hq : (e.st.vol v).deleteQueue = []) (hs : (e.st.vol v).state ≠ .absent) :
    queueDeletion v slot e =
      let marked := e.updVol v fun x =>
        { x with snaps := tput slot { d with state := .deleting } x.snaps, deleteQueue := x.deleteQueue ++ [slot] }
      if d.retained = [] ∧ e.st.ctl.part = .running then startHead v Config.snapSlots (endWalk v slot marked)
      else marked := by
  simp only [queueDeletion, hd, hq, List.isEmpty_nil, if_true]
  have hqueue : ((e.updVol v fun x => { x.setSnap slot { d with state := .deletePending } with
      deleteQueue := x.deleteQueue ++ [slot] }).st.vol v).deleteQueue = [slot] := by
    simp [Event.updVol, Event.upd, hq]
  have hfind : tfind ((e.updVol v fun x => { x.setSnap slot { d with state := .deletePending } with
      deleteQueue := x.deleteQueue ++ [slot] }).st.vol v).snaps slot = some { d with state := .deletePending } := by
    simp [Event.updVol, Event.upd, tfind_tput_same]
  simp only [startHead, hqueue, hfind]
  rw [Event.updVol_updVol _ _ _ _ (by exact hs) (by exact hs)]
  simp only [Volume.setSnap, tput_tput]
  rfl

/-- The walk of the only snapshot of the queue ends: its slot and the queue are empty, and DELETE DONE is queued. -/
theorem endWalk_marked {v slot : Nat} {e : Event} {d : Snap} (hq : (e.st.vol v).deleteQueue = [])
    (hs : (e.st.vol v).state ≠ .absent) :
    endWalk v slot (e.updVol v fun x =>
        { x with snaps := tput slot { d with state := .deleting } x.snaps, deleteQueue := x.deleteQueue ++ [slot] }) =
      let ended := (e.updVol v fun x => { x with snaps := tdel slot x.snaps, deleteQueue := [] }).note .deleteDone v slot d.freed
      if slot = 0 then { ended with todo := { ended.todo with engine := true } } else ended := by
  have hfreed : ∀ q : List Nat, ((tfind ((e.updVol v fun x =>
      { x with snaps := tput slot { d with state := .deleting } x.snaps, deleteQueue := x.deleteQueue ++ q }).st.vol v).snaps
        slot).map Snap.freed).getD 0 = d.freed := by
    simp [Event.updVol, Event.upd, tfind_tput_same]
  simp only [endWalk, hfreed]
  rw [Event.updVol_updVol _ _ _ _ (by exact hs) (by exact hs)]
  simp only [tdel_tput]
  have hcong : (e.updVol v fun x => { x with snaps := tdel slot x.snaps, deleteQueue := (x.deleteQueue ++ [slot]).drop 1 }) =
      e.updVol v fun x => { x with snaps := tdel slot x.snaps, deleteQueue := [] } := by
    simp [Event.updVol, Event.upd, hq]
  rw [hcong]

/-- A snapshot that retains nothing is deleted at once in a RUNNING part. -/
theorem queueDeletion_empty {v slot : Nat} {e : Event} {d : Snap} (hd : tfind (e.st.vol v).snaps slot = some d)
    (hq : (e.st.vol v).deleteQueue = []) (hs : (e.st.vol v).state ≠ .absent) (hr : d.retained = [])
    (hp : e.st.ctl.part = .running) :
    queueDeletion v slot e =
      let ended := (e.updVol v fun x => { x with snaps := tdel slot x.snaps, deleteQueue := [] }).note .deleteDone v slot d.freed
      if slot = 0 then { ended with todo := { ended.todo with engine := true } } else ended := by
  rw [queueDeletion_head hd hq hs]
  dsimp only
  rw [if_pos ⟨hr, hp⟩, endWalk_marked hq hs]
  refine startHead_empty ?_ _
  have hempty : ((e.updVol v fun x => { x with snaps := tdel slot x.snaps, deleteQueue := [] }).st.vol v).deleteQueue = [] := by
    simp [Event.updVol, Event.upd]
  dsimp only
  split_ifs <;> exact hempty

/-! ### SNAPSHOT DELETE (R87) -/

theorem exec_snapshotDelete_refused {s : State} (h : s.ctlServes) (tag : Nat) {v slot : Nat} {code : Code}
    (hf : findSnap s v slot = .error code) : exec (.snapshotDelete tag v slot) s = .next (s.answered 18 tag code []) := by
  refine exec_stands h (r := .snapshotDelete v slot) (fun _ => rfl) (f := doSnapshotDelete v slot)
    (fun _ hp => if_neg fun hr => hp hr.1) ?_ nofun nofun
  have hq : findSnap (s.executes ⟨tag, .snapshotDelete v slot⟩) v slot = .error code := hf
  rw [doSnapshotDelete, hq]
  rfl

/-- The checks of R87 behind the first three. -/
theorem exec_snapshotDelete_found {s t : State} (h : s.ctlServes) (tag : Nat) {v slot : Nat} {d : Snap}
    (hf : findSnap s v slot = .ok d) {code : Code} {ns : List Notice}
    (hd : (if slot = 0 then refuse .active { st := s.executes ⟨tag, .snapshotDelete v slot⟩ }
      else if d.state ≠ .ready then reply .ok [] { st := s.executes ⟨tag, .snapshotDelete v slot⟩ }
      else if d.held then refuse .held { st := s.executes ⟨tag, .snapshotDelete v slot⟩ }
      else if 0 < d.inUse then refuse .inUse { st := s.executes ⟨tag, .snapshotDelete v slot⟩ }
      else reply .ok [] (queueDeletion v slot { st := s.executes ⟨tag, .snapshotDelete v slot⟩ })) =
        reply code [] { st := t.executes ⟨tag, .snapshotDelete v slot⟩, notices := ns })
    (hu : t.frontUp = s.frontUp) (hq : t.ctl.queue = s.ctl.queue) :
    exec (.snapshotDelete tag v slot) s = .next (State.answered { t with ctl := ns.foldl offer t.ctl } 18 tag code []) := by
  refine exec_noted h (r := .snapshotDelete v slot) (fun _ => rfl) (f := doSnapshotDelete v slot)
    (fun _ hp => if_neg fun hr => hp hr.1) t (todo := {}) ?_ (settled_plain nofun (hq.trans h.1.2.2)) (by simp) hu nofun nofun
  have hok : findSnap (s.executes ⟨tag, .snapshotDelete v slot⟩) v slot = .ok d := hf
  rw [doSnapshotDelete, hok]
  exact hd

/-- Settles O32: the checks in their order, then the deletion queue. -/
theorem snapshotDeleteChecksAndQueues : Obligations.SnapshotDeleteChecksAndQueues := by
  intro s tag v slot h x answer
  refine ⟨fun hr => exec_snapshotDelete_refused h tag (findSnap_range hr), fun hv hsl => ⟨fun hb => ?_, fun h1 h2 => ?_⟩⟩
  · exact exec_snapshotDelete_refused h tag (findSnap_badVol hv hsl hb)
  have hfind := findSnap_usable hv hsl h1 h2
  refine ⟨fun hn => exec_snapshotDelete_refused h tag (by rw [hfind, hn]), fun d hd => ?_⟩
  rw [hd] at hfind
  refine ⟨fun h0 => ?_, fun h0 hr => ?_, fun h0 hr hh => ?_, fun h0 hr hh hi => ?_, fun h0 hr hh hi => ?_⟩
  · exact exec_snapshotDelete_found (t := s) (ns := []) h tag hfind (if_pos h0) rfl rfl
  · exact exec_snapshotDelete_found (t := s) (ns := []) h tag hfind ((if_neg h0).trans (if_pos hr)) rfl rfl
  · exact exec_snapshotDelete_found (t := s) (ns := []) h tag hfind
      ((if_neg h0).trans ((if_neg (not_not.mpr hr)).trans (if_pos hh))) rfl rfl
  · exact exec_snapshotDelete_found (t := s) (ns := []) h tag hfind
      ((if_neg h0).trans ((if_neg (not_not.mpr hr)).trans ((if_neg (by simp [hh])).trans (if_pos hi)))) rfl rfl
  · intro queued
    let e : Event := { st := s.executes ⟨tag, .snapshotDelete v slot⟩ }
    have hfound : tfind (e.st.vol v).snaps slot = some d := hd
    have passes : ∀ {t : State} {ns : List Notice},
        queueDeletion v slot e = { st := t.executes ⟨tag, .snapshotDelete v slot⟩, notices := ns } →
        t.frontUp = s.frontUp → t.ctl.queue = s.ctl.queue → exec (.snapshotDelete tag v slot) s =
          .next (State.answered { t with ctl := ns.foldl offer t.ctl } 18 tag .ok []) := fun hq hu hc =>
      exec_snapshotDelete_found h tag hfind ((if_neg h0).trans ((if_neg (not_not.mpr hr)).trans ((if_neg (by simp [hh])).trans
        ((if_neg (by omega)).trans (congrArg (reply .ok []) hq))))) hu hc
    refine ⟨fun hq => ?_, fun hq hne => ?_, fun hq hempty hp => ?_⟩
    · exact passes (t := s.setVol v (queued .deletePending)) (ns := []) (queueDeletion_behind hfound hq) rfl rfl
    · refine passes (t := s.setVol v (queued .deleting)) (ns := []) ((queueDeletion_head hfound hq h1).trans ?_) rfl rfl
      exact if_neg fun hand => hne.elim (fun hn => hn hand.1) fun hn => hn hand.2
    · refine passes (t := s.setVol v { x with snaps := tdel slot x.snaps })
        (ns := [s.notice .deleteDone v slot d.freed]) ((queueDeletion_empty hfound hq h1 hempty hp).trans ?_) rfl rfl
      refine (if_neg h0).trans ?_
      have hvol : ({ x with snaps := tdel slot x.snaps, deleteQueue := [] } : Volume) = { x with snaps := tdel slot x.snaps } := by
        rw [← hq]
      rw [← hvol]
      rfl

end Sys2Proof.Machine
end

section
/-! PROOFS. SNAPSHOT CREATE (R77 to R80), the create event and the drain that ends at once (R25, R78). -/

namespace Sys2Proof.Machine

/-! ### The create event (R79, R80) -/

/-- The record of a create (R80). -/
def newSnap (s : State) (v : Nat) (c : CreateReq) : Snap :=
  { kind := c.kind, series := if c.kind = .scheduled then c.series else none, gen := (s.vol v).gen, label := c.label,
    created := s.stamp, held := false, state := .ready, retained := [], inUse := 0, freed := 0 }

/-- A volume with a new snapshot: G has stepped. -/
def Volume.snapped (x : Volume) (slot : Nat) (d : Snap) : Volume :=
  { x with snaps := tput slot d x.snaps, gen := x.gen + 1 }

/-- The slot of a create: slot 0 for the run's, else the lowest empty one (R79, R80). -/
def createSlot (x : Volume) (kind : SnapKind) : Nat := if kind = .run then 0 else x.emptySlot.getD 0

theorem createEvent_made {v : Nat} {c : CreateReq} {e : Event} (h : createCheck c.kind (e.st.vol v) = none) :
    createEvent v c e =
      (.made (createSlot (e.st.vol v) c.kind) (e.st.vol v).gen,
        e.updVol v fun x => x.snapped (createSlot (e.st.vol v) c.kind) (newSnap e.st v c)) := by
  simp only [createEvent, h]
  rfl

theorem createEvent_refused {v : Nat} {c : CreateReq} {e : Event} {code : Code}
    (h : createCheck c.kind (e.st.vol v) = some code) : createEvent v c e = (.refused code, e) := by
  simp only [createEvent, h]

/-- A drain's record does not matter to the checks of a create. -/
theorem createCheck_drain (k : SnapKind) (x : Volume) (d : Option Drain) :
    createCheck k { x with drain := d } = createCheck k x := rfl

/-! ### Replies and changes of records -/

/-- The executing request is decided: what an event does to a volume afterwards could stand before. -/
theorem updVol_reply {e : Event} {x : Executing} (hx : e.st.ctl.executing = some x) (code : Code) (result : List Nat)
    (v : Nat) (f : Volume → Volume) : (reply code result e).updVol v f = reply code result (e.updVol v f) := by
  rw [reply_eq hx, reply_eq (e := e.updVol v f) hx]
  rfl

/-- The same for the work that the event calls for. -/
theorem reply_jobs {e : Event} {x : Executing} (hx : e.st.ctl.executing = some x) (code : Code) (result : List Nat)
    (b : Bool) (l : List Nat) :
    { reply code result e with todo := { (reply code result e).todo with jobs := b, drainBegin := l } } =
      reply code result { e with todo := { e.todo with jobs := b, drainBegin := l } } := by
  rw [reply_eq hx, reply_eq (e := { e with todo := { e.todo with jobs := b, drainBegin := l } }) hx]
  rfl

theorem updVol_st_vol (e : Event) (v : Nat) (f : Volume → Volume) : (e.updVol v f).st.vol v = f (e.st.vol v) :=
  State.vol_setVol ..

/-! ### A drain that finds no work in hand (R25) -/

/-- The drain set is read from the tables of the transaction engine alone. -/
theorem drainSet_updVol (e : Event) (v w : Nat) (f : Volume → Volume) : drainSet (e.updVol v f).st w = drainSet e.st w := rfl

/-- A drain with an empty set ends in the event in which it begins. -/
theorem askDrain_holding_empty {v : Nat} {c : CreateReq} {e : Event} (hd : (e.st.vol v).drain = none)
    (hw : (e.st.vol v).waiting = []) (hm : drainSet e.st v = []) :
    ∃ d, askDrain v (.holding c) e = finishDrain v .taken (e.updVol v fun x => { x with drain := some d }) ∧
      d.work = .holding c := by
  refine ⟨{ work := .holding c, members := drainSet e.st v, timeout := e.st.ctl.config.drainTimeout }, ?_, rfl⟩
  have hask : (e.st.vol v).drain = none ∧ (e.st.vol v).waiting = [] := ⟨hd, hw⟩
  simp only [askDrain, if_pos hask, beginDrain, hm, if_true]

theorem finishDrain_some {v : Nat} {how : DrainEnd} {e : Event} {d : Drain} (hd : (e.st.vol v).drain = some d)
    (hh : ((drainAction v d how e).st.vol v).holdList = []) :
    finishDrain v how e =
      let a := (drainAction v d how e).updVol v fun x => { x with drain := none, holdList := [] }
      { a with todo := { a.todo with jobs := true, drainBegin := insertAsc v a.todo.drainBegin } } := by
  simp only [finishDrain, hd, hh, List.foldl_nil]

/-- A create for a control request that passes its checks with no changing work in hand: the whole rule (R78 to R80). -/
theorem askCreate_control {v : Nat} {k : SnapKind} {q : Option Nat} {label : Nat} {e : Event} {x : Executing}
    (hx : e.st.ctl.executing = some x) (hcheck : createCheck k (e.st.vol v) = none)
    (hstate : (e.st.vol v).state = .normal) (hdrain : (e.st.vol v).drain = none) (hwait : (e.st.vol v).waiting = [])
    (hhold : (e.st.vol v).holdList = []) (hset : drainSet e.st v = []) :
    let c : CreateReq := { kind := k, series := q, label := label, asker := .control }
    askCreate v c e =
      reply .ok [createSlot (e.st.vol v) k, (e.st.vol v).gen]
        { (e.updVol v fun y => y.snapped (createSlot (e.st.vol v) k) (newSnap e.st v c)) with
          todo := { e.todo with jobs := true, drainBegin := insertAsc v e.todo.drainBegin } } := by
  intro c
  obtain ⟨d, hask, hwork⟩ := askDrain_holding_empty (c := c) hdrain hwait hset
  let e1 := e.updVol v fun x => { x with drain := some d }
  have hvol : e1.st.vol v = { e.st.vol v with drain := some d } := updVol_st_vol ..
  have haction : drainAction v d .taken e1 =
      reply .ok [createSlot (e.st.vol v) k, (e.st.vol v).gen]
        (e1.updVol v fun y => y.snapped (createSlot (e.st.vol v) k) (newSnap e.st v c)) := by
    have hc : createCheck c.kind (e1.st.vol v) = none := by
      rw [hvol]
      exact hcheck
    have hgen : (e1.st.vol v).gen = (e.st.vol v).gen := by rw [hvol]
    have hslot : createSlot (e1.st.vol v) c.kind = createSlot (e.st.vol v) k := by rw [hvol]; rfl
    have hnew : newSnap e1.st v c = newSnap e.st v c := by simp only [newSnap, hgen]; rfl
    have hmake : drainAction v d .taken e1 = makeSnapshot v c e1 := by simp only [drainAction, hwork]
    rw [hmake, makeSnapshot, createEvent_made hc, hgen, hslot, hnew]
    rfl
  have hx1 : (e1.updVol v fun y => y.snapped (createSlot (e.st.vol v) k) (newSnap e.st v c)).st.ctl.executing = some x := hx
  have hhold1 : ((drainAction v d .taken e1).st.vol v).holdList = [] := by
    rw [haction, reply_eq hx1]
    change ((e1.updVol v fun y => y.snapped (createSlot (e.st.vol v) k) (newSnap e.st v c)).st.vol v).holdList = []
    rw [updVol_st_vol, hvol]
    exact hhold
  have hnot : ¬ (e.st.vol v).state = .frozen := by rw [hstate]; nofun
  rw [askCreate, if_neg hnot, hask, finishDrain_some (d := d) (by rw [hvol]) hhold1]
  dsimp only
  rw [haction, updVol_reply hx1, reply_jobs (e := (e1.updVol v fun y => y.snapped (createSlot (e.st.vol v) k)
    (newSnap e.st v c)).updVol v fun x => { x with drain := none, holdList := [] }) hx]
  have hcollapse : ((e1.updVol v fun y => y.snapped (createSlot (e.st.vol v) k) (newSnap e.st v c)).updVol v fun x =>
      { x with drain := none, holdList := [] }) =
        e.updVol v fun y => y.snapped (createSlot (e.st.vol v) k) (newSnap e.st v c) := by
    have habsent : (e.st.vol v).state ≠ .absent := by rw [hstate]; nofun
    rw [Event.updVol_updVol _ _ _ _ (by rw [hvol]; exact habsent) (by rw [hvol]; exact habsent),
      Event.updVol_updVol _ _ _ _ (by exact habsent) (by exact habsent)]
    simp only [Event.updVol, Event.upd, Volume.snapped, ← hdrain, ← hhold]
  rw [hcollapse]
  refine congrArg (reply .ok [createSlot (e.st.vol v) k, (e.st.vol v).gen]) ?_
  rw [reply_eq (e := e.updVol v fun y => y.snapped (createSlot (e.st.vol v) k) (newSnap e.st v c)) hx]
  rfl

/-! ### SNAPSHOT CREATE (R77) -/

/-- The checks of R77 on the number, the kind and the series in their order. -/
theorem snapCreateCheck_eq {s : State} {v : Nat} (hv : v ≤ 63) (kind : Nat) (series : Option Nat) :
    ((kind = 0 ∨ 4 < kind) → snapCreateCheck s v kind series = .error .malformed) ∧
    ((kind = 1 ∨ kind = 4) → snapCreateCheck s v kind series = .error .active) ∧
    (kind = 3 → (∀ q, series = some q → 7 < q) → snapCreateCheck s v kind series = .error .range) ∧
    (kind = 2 ∨ (kind = 3 ∧ ∃ q, series = some q ∧ q ≤ 7) → ∀ k, k = (if kind = 2 then SnapKind.user else .scheduled) →
      snapCreateCheck s v kind series =
        if ¬ (s.vol v).usable then .error .badVol
        else match createCheck k (s.vol v) with
          | some c => .error c
          | none => .ok k) := by
  have hlt : ¬ ¬ v < Config.volumes := by rw [not_lt_volumes]; omega
  refine ⟨fun h => ?_, fun h => ?_, fun h hq => ?_, fun h k hk => ?_⟩
  · have hnone : kindOf kind = none := by
      unfold kindOf
      split <;> first | omega | rfl
    rw [snapCreateCheck, if_neg hlt, hnone]
  · rw [snapCreateCheck, if_neg hlt]
    rcases h with rfl | rfl <;> rfl
  · subst h
    have hseries : ¬ series.any (fun q => decide (q ≤ 7)) = true := by
      cases series with
      | none => simp
      | some q => have := hq q rfl; simp; omega
    rw [snapCreateCheck, if_neg hlt]
    exact if_pos ⟨rfl, hseries⟩
  · rw [snapCreateCheck, if_neg hlt]
    rcases h with rfl | ⟨rfl, q, rfl, hq⟩
    · subst hk
      exact if_neg nofun
    · subst hk
      exact if_neg fun hr => hr.2 (by simpa using hq)

theorem emptySlot_none_iff (x : Volume) : x.emptySlot = none ↔ ∀ i, 1 ≤ i → i ≤ 15 → tfind x.snaps i ≠ none := by
  simp only [Volume.emptySlot, List.find?_eq_none, List.mem_range'_1, Option.isNone_iff_eq_none]
  exact ⟨fun h i h1 h2 => h i ⟨h1, by omega⟩, fun h i hi => h i hi.1 (by omega)⟩

/-- The checks of R77 on the slot, the reserve and the generation in their order. -/
theorem createCheck_eq {k : SnapKind} (hk : k = .user ∨ k = .scheduled) (x : Volume) :
    createCheck k x =
      if x.emptySlot = none then some .noSlot
      else if x.reserveLimit ≠ 268435455 ∧ x.reserveLimit ≤ (x.snaps.map fun p => p.2.retained.length).sum then some .reserve
      else if 4294967294 ≤ x.gen then some .genLimit
      else none := by
  have hslot : x.emptySlot.isSome = true ↔ ¬ x.emptySlot = none := Option.isSome_iff_ne_none
  have hrun : ¬ k = .run := by rcases hk with rfl | rfl <;> nofun
  simp only [createCheck, if_neg hrun, hslot, not_not]
  refine if_congr Iff.rfl rfl (if_congr ⟨fun h => h.2, fun h => ⟨hk, h⟩⟩ rfl rfl)

theorem exec_snapshotCreate_refused {s : State} (h : s.ctlServes) (tag : Nat) {v kind label : Nat} {series : Option Nat}
    {code : Code} (hc : snapCreateCheck s v kind series = .error code) :
    exec (.snapshotCreate tag v kind label series) s = .next (s.answered 17 tag code []) := by
  refine exec_stands h (r := .snapshotCreate v kind label series) (fun _ => rfl) (f := doSnapshotCreate v kind label series)
    (fun _ hp => if_neg fun hr => hp hr.1) ?_ nofun nofun
  have hq : snapCreateCheck (s.executes ⟨tag, .snapshotCreate v kind label series⟩) v kind series = .error code := hc
  rw [doSnapshotCreate, hq]
  rfl

/-- A create that passes its checks and finds no changing work in hand. -/
theorem exec_snapshotCreate_made {s : State} (h : s.ctlServes) (tag : Nat) {v kind label : Nat} {series : Option Nat}
    {k : SnapKind} (hc : snapCreateCheck s v kind series = .ok k) (hcheck : createCheck k (s.vol v) = none)
    (hready : (s.vol v).state = .frozen ∨ ((s.vol v).state = .normal ∧ (s.vol v).drain = none ∧ (s.vol v).waiting = [] ∧
      (s.vol v).holdList = [] ∧ drainSet s v = [] ∧ ∀ p ∈ s.jobs, p.2.state ≠ .running)) :
    exec (.snapshotCreate tag v kind label series) s = .next
      ((s.setVol v ((s.vol v).snapped (createSlot (s.vol v) k) (newSnap s v
        { kind := k, series := if k = .scheduled then series else none, label := label, asker := .control }))).answered 17 tag .ok
          [createSlot (s.vol v) k, (s.vol v).gen]) := by
  let c : CreateReq := { kind := k, series := if k = .scheduled then series else none, label := label, asker := .control }
  let t := s.setVol v ((s.vol v).snapped (createSlot (s.vol v) k) (newSnap s v c))
  let e : Event := { st := s.executes ⟨tag, .snapshotCreate v kind label series⟩ }
  have hdo : doSnapshotCreate v kind label series e = askCreate v c e := by
    have hq : snapCreateCheck e.st v kind series = .ok k := hc
    rw [doSnapshotCreate, hq]
  have hrow : Arrives (.snapshotCreate tag v kind label series) tag (.snapshotCreate v kind label series) := fun _ => rfl
  have hf : ∀ e : Event, e.st.ctl.part ≠ .recovering →
      perform (.snapshotCreate v kind label series) e = doSnapshotCreate v kind label series e :=
    fun _ hp => if_neg fun hr => hp hr.1
  rcases hready with hfrozen | ⟨hnormal, hdrain, hwait, hhold, hset, hjobs⟩
  · refine exec_plain h hrow hf t ?_ rfl rfl nofun nofun
    have hfz : (e.st.vol v).state = .frozen := hfrozen
    have hcr : createCheck c.kind (e.st.vol v) = none := hcheck
    refine hdo.trans ?_
    rw [askCreate, if_pos hfz, makeSnapshot, createEvent_made hcr]
    rfl
  · refine exec_noted h hrow hf t (ns := []) (todo := { jobs := true, drainBegin := [v] })
      (hdo.trans (askCreate_control (e := e) rfl hcheck hnormal hdrain hwait hhold hset)) ?_ (by simp) rfl nofun nofun
    rw [reply_eq (x := ⟨tag, 17⟩) rfl]
    refine ⟨nofun, nofun, nofun, nofun, fun _ p hp => canVisit_of_state (hjobs p hp), fun w hw _ => ?_, nofun, nofun,
      fun _ _ => h.1.2.2, nofun⟩
    obtain rfl := List.mem_singleton.mp hw
    change ((s.setVol w ((s.vol w).snapped (createSlot (s.vol w) k) (newSnap s w c))).vol w).waiting = []
    rw [State.vol_setVol]
    exact hwait

/-- Settles O31: the checks in their order, then the create event. -/
theorem snapshotCreateChecksAndCreates : Obligations.SnapshotCreateChecksAndCreates := by
  intro s tag v kind label series h x slot d y refused
  have refuses : ∀ {code : Code}, snapCreateCheck s v kind series = .error code → refused code :=
    fun hc => exec_snapshotCreate_refused h tag hc
  refine ⟨fun hv => refuses (if_pos ((not_lt_volumes v).mpr hv)), fun hv => ?_⟩
  obtain ⟨hmalformed, hactive, hrange, hpasses⟩ := snapCreateCheck_eq (s := s) hv kind series
  refine ⟨fun hk => refuses (hmalformed hk), fun hk => refuses (hactive hk), fun hk hq => refuses (hrange hk hq), fun hk => ?_⟩
  let k : SnapKind := if kind = 2 then .user else .scheduled
  have hkind : k = .user ∨ k = .scheduled := by
    by_cases h2 : kind = 2
    · exact .inl (if_pos h2)
    · exact .inr (if_neg h2)
  have hcheck := hpasses hk k rfl
  have hcreate := createCheck_eq hkind x
  refine ⟨fun hb => refuses (hcheck.trans (if_pos ((not_usable_iff _).mpr hb))), fun h1 h2 => ?_⟩
  rw [if_neg ((not_usable_iff _).not.mpr (not_or.mpr ⟨h1, h2⟩))] at hcheck
  have refuses' : ∀ {code : Code}, createCheck k x = some code → refused code := fun hc => refuses (by rw [hcheck, hc])
  refine ⟨fun hs => refuses' (hcreate.trans (if_pos ((emptySlot_none_iff x).mpr hs))), fun ⟨i, hi1, hi2, hi⟩ => ?_⟩
  have hslot : ¬ x.emptySlot = none := fun hs => (emptySlot_none_iff x).mp hs i hi1 hi2 hi
  rw [if_neg hslot] at hcreate
  refine ⟨fun hfull => refuses' (hcreate.trans (if_pos hfull)), fun hfull hgen => ?_, fun hfull hgen hready => ?_⟩
  · exact refuses' (hcreate.trans ((if_neg hfull).trans (if_pos hgen)))
  · have hnone : createCheck k x = none := hcreate.trans ((if_neg hfull).trans (if_neg (Nat.not_le.mpr hgen)))
    have hmade := exec_snapshotCreate_made (label := label) h tag (by rw [hcheck, hnone]) hnone hready
    have hsl : createSlot x k = slot := by
      have hrun : ¬ k = .run := by rcases hkind with hk | hk <;> rw [hk] <;> nofun
      exact if_neg hrun
    have hd : newSnap s v { kind := k, series := if k = .scheduled then series else none, label := label, asker := .control } =
        d := by
      by_cases h2 : kind = 2
      · simp only [newSnap, d, k, if_pos h2]
        rfl
      · simp only [newSnap, d, k, if_neg h2]
        rfl
    rw [hsl, hd] at hmade
    exact hmade

end Sys2Proof.Machine
end

section
/-! PROOFS. FREEZE and THAW by the state of the volume (R12, R13). -/

namespace Sys2Proof.Machine

/-! ### The rows of FREEZE and THAW -/

theorem freeze_row (tag v : Nat) : Arrives (.freeze tag v) tag (.freeze v) := fun _ => rfl

theorem thaw_row (tag v : Nat) : Arrives (.thaw tag v) tag (.thaw v) := fun _ => rfl

theorem perform_freeze {v : Nat} (e : Event) (hp : e.st.ctl.part ≠ .recovering) : perform (.freeze v) e = doFreeze v e :=
  if_neg fun hr => hp hr.1

theorem perform_thaw {v : Nat} (e : Event) (hp : e.st.ctl.part ≠ .recovering) : perform (.thaw v) e = doThaw v e :=
  if_neg fun hr => hp hr.1

theorem doFreeze_eq {v : Nat} (hv : v ≤ 63) (e : Event) : doFreeze v e = askFreeze v .control e :=
  if_neg ((not_lt_volumes v).not.mpr (by omega))

theorem doThaw_eq {v : Nat} (hv : v ≤ 63) (e : Event) : doThaw v e = reply (thawVolume v e).1 [] (thawVolume v e).2 :=
  if_neg ((not_lt_volumes v).not.mpr (by omega))

/-- A served request that occupies the executing slot and waits, no frame going out. -/
theorem exec_waits {s : State} (h : s.ctlServes) {i : Instr} {tag : Nat} {r : Request} (hrow : Arrives i tag r)
    {f : Event → Event} (hf : ∀ e : Event, e.st.ctl.part ≠ .recovering → perform r e = f e) (t : State)
    (hd : f { st := s.executes ⟨tag, r⟩ } = { st := t.executes ⟨tag, r⟩ }) :
    exec i s = .next { t.closed with ctl := { t.ctl with executing := some ⟨tag, r.number⟩ } } := by
  rw [hrow]
  refine congrArg Host.Outcome.next ((runEvent_silent
    (t := { t with ctl := { t.ctl with executing := some ⟨tag, r.number⟩ } }) ?_).trans rfl)
  rw [controlArrive_of_free h.1, hf _ (executes_part_ne h _), hd]
  rfl

/-! ### A freeze that finds no changing work in hand (R12) -/

theorem askDrain_refusing_empty {v : Nat} {fs : List FreezeAsker} {e : Event} (hd : (e.st.vol v).drain = none)
    (hw : (e.st.vol v).waiting = []) (hm : drainSet e.st v = []) (hs : (e.st.vol v).state = .normal) :
    ∃ d, askDrain v (.refusing fs) e =
        finishDrain v .taken (e.updVol v fun x => { x with state := .freezing, drain := some d }) ∧
      d.work = .refusing fs := by
  refine ⟨{ work := .refusing fs, members := [], timeout := e.st.ctl.config.drainTimeout }, ?_, rfl⟩
  have hask : (e.st.vol v).drain = none ∧ (e.st.vol v).waiting = [] := ⟨hd, hw⟩
  have hnot : ¬ (e.st.vol v).state = .frozen := by rw [hs]; nofun
  have hm' : drainSet (e.updVol v fun x => { x with state := .freezing }).st v = [] := hm
  simp only [askDrain, if_pos hask, beginDrain, if_neg hnot, hm', if_true]
  rw [Event.updVol_updVol _ _ _ _ (by dsimp only; nofun) (by dsimp only; nofun)]
  rfl

/-- A FREEZE of a NORMAL volume with no changing work in hand: the volume is FROZEN, and the answer is OK. -/
theorem askFreeze_control {v : Nat} {e : Event} {x : Executing} (hx : e.st.ctl.executing = some x)
    (hs : (e.st.vol v).state = .normal) (hd : (e.st.vol v).drain = none) (hw : (e.st.vol v).waiting = [])
    (hh : (e.st.vol v).holdList = []) (hm : drainSet e.st v = []) :
    askFreeze v .control e = reply .ok [] { (e.updVol v fun x => { x with state := .frozen }) with
      todo := { e.todo with jobs := true, drainBegin := insertAsc v e.todo.drainBegin } } := by
  obtain ⟨d, hask, hwork⟩ := askDrain_refusing_empty (fs := [.control]) hd hw hm hs
  let e1 := e.updVol v fun x => { x with state := .freezing, drain := some d }
  have hvol : e1.st.vol v = { e.st.vol v with state := .freezing, drain := some d } := updVol_st_vol ..
  have haction : drainAction v d .taken e1 = reply .ok [] (e1.updVol v fun x => { x with state := .frozen }) := by
    simp only [drainAction, hwork]
    rfl
  have hx1 : (e1.updVol v fun x => { x with state := .frozen }).st.ctl.executing = some x := hx
  have hhold : ((drainAction v d .taken e1).st.vol v).holdList = [] := by
    rw [haction, reply_eq hx1]
    change ((e1.updVol v fun x => { x with state := .frozen }).st.vol v).holdList = []
    rw [updVol_st_vol, hvol]
    exact hh
  have hcollapse : ((e1.updVol v fun x => { x with state := .frozen }).updVol v fun x =>
      { x with drain := none, holdList := [] }) = e.updVol v fun x => { x with state := .frozen } := by
    rw [Event.updVol_updVol _ _ _ _ (by dsimp only; nofun) (by dsimp only; nofun),
      Event.updVol_updVol _ _ _ _ (by dsimp only; nofun) (by dsimp only; nofun)]
    simp only [Event.updVol, Event.upd, ← hd, ← hh]
  have hfreeze : askFreeze v .control e = askDrain v (.refusing [.control]) e := by simp only [askFreeze, hs]
  rw [hfreeze, hask, finishDrain_some (d := d) (by rw [hvol]) hhold]
  dsimp only
  rw [haction, updVol_reply hx1,
    reply_jobs (e := (e1.updVol v fun x => { x with state := .frozen }).updVol v fun x => { x with drain := none, holdList := [] })
      hx, hcollapse]
  refine congrArg (reply .ok []) ?_
  rw [reply_eq (e := e.updVol v fun x => { x with state := .frozen }) hx]
  rfl

theorem askFreeze_freezing {v : Nat} {a : FreezeAsker} {e : Event} (hs : (e.st.vol v).state = .freezing) :
    askFreeze v a e = e.updVol v fun x => { x with drain := x.drain.map fun d =>
      { d with work := match d.work with
          | .refusing fs => .refusing (fs ++ [a])
          | .holding c => .holding c } } := by
  rw [askFreeze, hs] <;> rfl

/-! ### A thaw that withdraws a scheduled freeze (R13, R174) -/

/-- The follow-up records without the one of a freeze that does not take place. -/
def Schedule.without (d : Schedule) (record : Option Nat) : Schedule :=
  { d with followUps := match record with
      | none => d.followUps
      | some k => d.followUps.eraseP fun f => f.number == k }

theorem answerFreeze_schedule_refused {v i : Nat} {record : Option Nat} {code : Code} (hc : code ≠ .ok) (e : Event) :
    answerFreeze v code (.schedule i record) e =
      (e.updSched fun d => d.without record).note .freezeSkipped v code.value i := by
  cases record <;> simp only [answerFreeze, takeFollowUp, if_neg hc] <;> rfl

theorem note_updVol (e : Event) (v : Nat) (f : Volume → Volume) (k : NoticeKind) (a b c : Nat) :
    (e.note k a b c).updVol v f = (e.updVol v f).note k a b c := rfl

/-- A THAW of a FREEZING volume whose freeze a scheduled entry asked for. -/
theorem thawVolume_freezing {v i m n} {record : Option Nat} {e : Event} (hs : (e.st.vol v).state = .freezing)
    (hh : (e.st.vol v).holdList = [])
    (hd : (e.st.vol v).drain = some { work := .refusing [.schedule i record], members := m, timeout := n }) :
    thawVolume v e = (.ok, { (((e.updVol v fun x => { x with state := .normal, drain := none }).updSched fun d =>
      d.without record).note .freezeSkipped v 18 i) with
        todo := { e.todo with jobs := true, drainBegin := insertAsc v e.todo.drainBegin } }) := by
  have haction : drainAction v { work := .refusing [.schedule i record], members := m, timeout := n } .withdrawn e =
      ((e.updVol v fun x => { x with state := .normal }).updSched fun d => d.without record).note .freezeSkipped v 18 i := by
    simp only [drainAction, List.foldl_cons, List.foldl_nil]
    exact answerFreeze_schedule_refused (code := .active) (by decide) (e.updVol v fun x => { x with state := .normal })
  have hhold : ((((e.updVol v fun x => { x with state := .normal }).updSched fun d =>
      d.without record).note .freezeSkipped v 18 i).st.vol v).holdList = [] := by
    change ((e.updVol v fun x => { x with state := .normal }).st.vol v).holdList = []
    rw [updVol_st_vol]
    exact hh
  have hcollapse : ((e.updVol v fun x => { x with state := .normal }).updVol v fun x => { x with drain := none, holdList := [] }) =
      e.updVol v fun x => { x with state := .normal, drain := none } := by
    rw [Event.updVol_updVol _ _ _ _ (by dsimp only; nofun) (by dsimp only; nofun)]
    simp only [Event.updVol, Event.upd, ← hh]
  simp only [thawVolume, hs]
  rw [finishDrain_some hd (by rw [haction]; exact hhold)]
  dsimp only
  rw [haction, ← hcollapse]
  rfl

/-- Settles O28: one case for each state of the volume. -/
theorem freezeAndThawByVolumeState : Obligations.FreezeAndThawByVolumeState := by
  intro s tag v h hjobs x wait
  have hslot := h.1.2.1
  have hqueue := h.1.2.2
  refine ⟨fun hv => ?_, fun hv hb => ?_, fun hv hf => ?_, fun hv hf fs m n hd => ?_, fun hv hn hd hw hh hm => ?_, fun hv hn => ?_,
    fun hv hf hw hh i record m n hd => ?_, fun hv hf hy => ?_⟩
  · exact ⟨exec_stands h (freeze_row tag v) perform_freeze (if_pos ((not_lt_volumes v).mpr hv)) nofun nofun,
      exec_stands h (thaw_row tag v) perform_thaw (if_pos ((not_lt_volumes v).mpr hv)) nofun nofun⟩
  · refine ⟨exec_stands h (freeze_row tag v) perform_freeze ((doFreeze_eq hv _).trans ?_) nofun nofun,
      exec_stands h (thaw_row tag v) perform_thaw ((doThaw_eq hv _).trans ?_) nofun nofun⟩
    · have hb' : ((s.executes ⟨tag, .freeze v⟩).vol v).state = .absent ∨ ((s.executes ⟨tag, .freeze v⟩).vol v).state = .deleting :=
        hb
      rcases hb' with hb' | hb' <;> simp only [askFreeze, hb'] <;> rfl
    · have hb' : ((s.executes ⟨tag, .thaw v⟩).vol v).state = .absent ∨ ((s.executes ⟨tag, .thaw v⟩).vol v).state = .deleting := hb
      rcases hb' with hb' | hb' <;> simp only [thawVolume, hb']
  · refine exec_stands h (freeze_row tag v) perform_freeze ((doFreeze_eq hv _).trans ?_) nofun nofun
    have hf' : ((s.executes ⟨tag, .freeze v⟩).vol v).state = .frozen := hf
    simp only [askFreeze, hf']
    rfl
  · refine (exec_waits h (freeze_row tag v) perform_freeze (s.setVol v { x with
        drain := some { work := .refusing (fs ++ [.control]), members := m, timeout := n } }) ((doFreeze_eq hv _).trans ?_)).trans rfl
    have hf' : ((s.executes ⟨tag, .freeze v⟩).vol v).state = .freezing := hf
    have hd' : x.drain = some { work := .refusing fs, members := m, timeout := n } := hd
    rw [askFreeze_freezing (by exact hf')]
    change ({ st := (s.executes ⟨tag, .freeze v⟩).setVol v { x with drain := x.drain.map _ } } : Event) = _
    rw [hd']
    rfl
  · refine exec_noted h (freeze_row tag v) perform_freeze (s.setVol v { x with state := .frozen }) (ns := [])
      (todo := { jobs := true, drainBegin := [v] }) ((doFreeze_eq hv _).trans (askFreeze_control rfl hn hd hw hh hm)) ?_ (by simp)
      rfl nofun nofun
    rw [reply_eq (x := ⟨tag, 11⟩) rfl]
    refine ⟨nofun, nofun, nofun, nofun, fun _ p hp => canVisit_of_state (hjobs p hp), fun w hw' _ => ?_, nofun, nofun,
      fun _ _ => hqueue, nofun⟩
    obtain rfl := List.mem_singleton.mp hw'
    change ((s.setVol w { x with state := .frozen }).vol w).waiting = []
    rw [State.vol_setVol]
    exact hw
  · refine exec_stands h (thaw_row tag v) perform_thaw ((doThaw_eq hv _).trans ?_) nofun nofun
    have hn' : ((s.executes ⟨tag, .thaw v⟩).vol v).state = .normal := hn
    simp only [thawVolume, hn']
  · let t : State := { s.setVol v { x with state := .normal, drain := none } with sched := s.sched.without record }
    refine exec_noted h (thaw_row tag v) perform_thaw t (ns := [s.notice .freezeSkipped v 18 i])
      (todo := { jobs := true, drainBegin := [v] }) ((doThaw_eq hv _).trans ?_) ?_ (by simp) rfl nofun nofun
    · rw [thawVolume_freezing (e := { st := s.executes ⟨tag, .thaw v⟩ }) hf hh hd]
      rfl
    · rw [reply_eq (x := ⟨tag, 12⟩) rfl]
      refine ⟨nofun, nofun, nofun, nofun, fun _ p hp => canVisit_of_state (hjobs p hp), fun w hw' _ => ?_, nofun, nofun,
        fun _ _ => hqueue, nofun⟩
      obtain rfl := List.mem_singleton.mp hw'
      change ((s.setVol w { x with state := .normal, drain := none }).vol w).waiting = []
      rw [State.vol_setVol]
      exact hw
  · let moved := s.jobs.map fun (p : Nat × Job) => if p.2.state = JobState.pausedFrozen ∧ p.2.dstVol = v
      then (p.1, { p.2 with state := .yielded }) else p
    let t : State := { s.setVol v { x with state := .normal } with jobs := moved }
    have hmoved : s.jobs.map (fun y => if (y.2.state == .pausedFrozen && y.2.dstVol == v) = true then
        (y.1, { y.2 with state := runState s }) else y) = moved := by
      refine List.map_congr_left fun p hp => ?_
      simp only [Bool.and_eq_true, beq_iff_eq]
      refine if_ctx_congr Iff.rfl (fun hc => ?_) fun _ => rfl
      rcases hy with hy | hy
      · rw [runState, if_pos hy]
      · exact absurd hc.2 (hy p hp hc.1)
    refine exec_noted h (thaw_row tag v) perform_thaw t (ns := []) (todo := { jobs := true }) ((doThaw_eq hv _).trans ?_) ?_ (by simp)
      rfl nofun nofun
    · have hf' : ((s.executes ⟨tag, .thaw v⟩).vol v).state = .frozen := hf
      simp only [thawVolume, hf']
      refine congrArg (reply .ok []) ?_
      have hstate : ({ s.setVol v { x with state := .normal } with
          jobs := s.jobs.map fun y => if (y.2.state == .pausedFrozen && y.2.dstVol == v) = true then
            (y.1, { y.2 with state := runState s }) else y } : State) = t := by rw [hmoved]
      rw [← hstate]
      rfl
    · rw [reply_eq (x := ⟨tag, 12⟩) rfl]
      refine ⟨nofun, nofun, nofun, nofun, fun _ p hp => ?_, nofun, nofun, nofun, fun _ _ => hqueue, nofun⟩
      have hp' : p ∈ moved := hp
      rcases hy with hy | hy
      · have hyield : t.yielding = true := hy
        change canVisit { t with out := [], ctl := _ } p.2 = false
        simp [canVisit, hyield]
      · obtain ⟨q, hq, rfl⟩ := List.mem_map.mp hp'
        refine canVisit_of_state ?_
        rw [if_neg fun hc => hy q hq hc.1 hc.2]
        exact hjobs q hq

end Sys2Proof.Machine
end

section
/-! PROOFS. Control frames by their bytes, the queue, and the service of the queue (R180, R183, R184). -/

namespace Sys2Proof.Machine

/-! ### The rows of the requests -/

/-- The row of a request is its arrival. -/
theorem arrives_of_row {r : Request} {tag : Nat} {i : Instr} (h : r.row tag = some i) : Arrives i tag r := by
  cases r <;> cases h <;> exact fun _ => rfl

/-- A request with a row is not a malformed one. -/
theorem not_malformed_of_row {r : Request} {tag : Nat} {i : Instr} (h : r.row tag = some i) (n : Nat) : r ≠ .malformed n := by
  rintro rfl
  cases h

/-- The three status reads are the requests that RECOVERING serves. -/
theorem statusRead_of_row {r : Request} {tag : Nat} {i : Instr} (h : r.row tag = some i) (h1 : r ≠ .status)
    (h2 : r ≠ .configRead) (h3 : r ≠ .noticeFetch) : statusRead r.number = false := by
  cases r
  case status => exact absurd rfl h1
  case configRead => exact absurd rfl h2
  case noticeFetch => exact absurd rfl h3
  case malformed => cases h
  all_goals rfl

theorem exec_bytes {f : List Byte} {q : ControlReq} (h : controlOf f = some q) (s : State) :
    exec (.controlRequestArrival f) s = .next (runEvent s (controlArrive q)) := by
  have hb : controlBytes f = controlArrive q := by
    funext e
    simp only [controlBytes, h]
  rw [← hb]
  rfl

theorem statusRead_iff (n : Nat) : statusRead n = true ↔ n = 3 ∨ n = 7 ∨ n = 38 := by
  simp [statusRead, or_assoc]

/-! ### Events whose frames are control replies -/

/-- The frame of a decided reply, with the flags it shows. -/
def Answer.frame (waiting lost : Bool) (a : Answer) : Output := .control waiting lost a.number a.tag a.code a.result

/-- The reply is not that of a FETCH or a STATUS that is served. -/
def Answer.shows (a : Answer) : Prop := (a.number ≠ 38 ∨ a.code ≠ .ok) ∧ (a.number ≠ 7 ∨ a.code ≠ .ok)

/-- An event that has answered some requests and offered nothing. -/
def servedEvent (t : State) (todo : Todo) (rs : List Answer) : Event :=
  { st := { t with out := rs.map (Answer.frame false false) }, todo := todo, done := rs.map fun _ => {} }

theorem completeReplies_shows (c : Control) (rs : List Answer) (hr : ∀ a ∈ rs, a.shows) :
    completeReplies true {} c {} ((rs.map fun _ => ({} : Causes)) ++ [({} : Causes)]) (rs.map (Answer.frame false false)) =
      (c, rs.map (Answer.frame (!c.notices.isEmpty) c.lost)) := by
  induction rs with
  | nil => rfl
  | cons a rs ih =>
    obtain ⟨h38, h7⟩ := hr a (List.mem_cons_self ..)
    have htakes : takes a.number a.code = false := by
      simpa only [takes, Bool.and_eq_false_iff, beq_eq_false_iff_ne] using h38
    have hnow : Causes.join {} (Causes.lastBefore {} ((rs.map fun _ => ({} : Causes)) ++ [({} : Causes)])) = {} := rfl
    simp only [List.map_cons, List.cons_append, Answer.frame, completeReplies, List.headD_cons, List.tail_cons, hnow]
    have hoffer : (Verdicts.due {} {}).foldl offer c = c := rfl
    rw [hoffer, completeReply_read _ _ _ _ _ h38 h7, htakes]
    simp only [Bool.false_eq_true, if_false, if_true]
    rw [ih fun b hb => hr b (List.mem_cons_of_mem _ hb)]

/-- The end of such an event: each reply shows the queue as it is, and nothing else happens. -/
theorem close_served {t : State} (hu : t.frontUp = true) (todo : Todo) {rs : List Answer} (hr : ∀ a ∈ rs, a.shows) :
    closeEvent (servedEvent t todo rs) =
      { t.closed with out := rs.map (Answer.frame (!t.ctl.notices.isEmpty) t.ctl.lost) } := by
  have hall : (servedEvent t todo rs).all = {} := by
    change (rs.map fun _ => ({} : Causes)).foldr Causes.join {} = {}
    clear hr
    induction rs with
    | nil => rfl
    | cons a rs ih =>
      rw [List.map_cons, List.foldr_cons, ih]
      rfl
  have hev : (servedEvent t todo rs).evaluate = ({ t with out := rs.map (Answer.frame false false) }, {}) := by
    unfold Event.evaluate
    rw [hall]
    rfl
  have hparts : (servedEvent t todo rs).parts = (rs.map fun _ => ({} : Causes)) ++ [({} : Causes)] := rfl
  have hreplies : completeReplies t.frontUp {} t.ctl {} ((rs.map fun _ => ({} : Causes)) ++ [({} : Causes)])
      (rs.map (Answer.frame false false)) = (t.ctl, rs.map (Answer.frame (!t.ctl.notices.isEmpty) t.ctl.lost)) := by
    rw [hu, completeReplies_shows _ _ hr]
  unfold closeEvent Event.evaluated
  rw [hev, hparts]
  dsimp only
  rw [hreplies]
  rfl

/-- A decided reply takes its place behind the others. -/
theorem answerTurn_served {a : Answer} (ha : a.job = none) (t : State) (todo : Todo) (rs : List Answer) :
    answerTurn a (servedEvent t todo rs) = servedEvent t { todo with answer := none, control := true } (rs ++ [a]) := by
  unfold answerTurn servedEvent
  rw [ha, List.map_append, List.map_append]
  rfl

/-- One reply on a part that does nothing else. -/
theorem closeEvent_emitControl {s : State} (hu : s.frontUp = true) {number : Nat} {code : Code} (tag : Nat) (result : List Nat)
    (h38 : number ≠ 38 ∨ code ≠ .ok) (h7 : number ≠ 7 ∨ code ≠ .ok) :
    closeEvent (emitControl number tag code result (openEvent s)) =
      { s.closed with out := [.control (!s.ctl.notices.isEmpty) s.ctl.lost number tag code result] } :=
  close_served (t := s) hu {} (rs := [⟨number, tag, code, result, none⟩]) (by simpa [Answer.shows] using ⟨h38, h7⟩)

/-! ### A frame that finds the unit in use (R183) -/

theorem exec_busyFrame {f : List Byte} {q : ControlReq} (h : controlOf f = some q) {s : State} (hu : s.frontUp = true)
    (hbusy : s.ctl.executing ≠ none ∨ s.ctl.queue ≠ []) :
    exec (.controlRequestArrival f) s =
      .next (if s.ctl.queue.length < 8 then { s.closed with ctl := { s.ctl with queue := s.ctl.queue ++ [q] } }
        else { s.closed with out := [.control (!s.ctl.notices.isEmpty) s.ctl.lost q.req.number q.tag .busy []] }) := by
  rw [exec_bytes h]
  refine congrArg Host.Outcome.next ?_
  have hfree : ¬ (s.ctl.executing = none ∧ s.ctl.queue = []) := by tauto
  have harrive : controlArrive q (openEvent s) =
      if s.ctl.queue.length < 8 then (openEvent s).updCtl fun c => { c with queue := c.queue ++ [q] }
      else emitControl q.req.number q.tag .busy [] (openEvent s) :=
    (if_neg (not_not.mpr hu)).trans (if_neg hfree)
  split_ifs with hl
  · rw [if_pos hl] at harrive
    exact (runEvent_silent (t := { s with ctl := { s.ctl with queue := s.ctl.queue ++ [q] } }) harrive).trans rfl
  · rw [if_neg hl] at harrive
    rw [runEvent, harrive, runTodo_of_none (turn_of_idle rfl)]
    exact closeEvent_emitControl hu q.tag [] (.inr nofun) (.inr nofun)

/-- A frame with an unknown command number or a wrong length, at a free unit. -/
theorem exec_malformedFrame {f : List Byte} {q : ControlReq} (h : controlOf f = some q) {s : State} (hfree : s.ctlFree)
    {n : Nat} (hq : q.req = .malformed n) :
    exec (.controlRequestArrival f) s = .next (s.answered n q.tag
      (if s.ctl.part = .recovering ∧ n ≠ 3 ∧ n ≠ 7 ∧ n ≠ 38 then .recovering else .malformed) []) := by
  rw [exec_bytes h]
  refine congrArg Host.Outcome.next ?_
  have hnum : q.req.number = n := by rw [hq]; rfl
  have hread : (n ≠ 3 ∧ n ≠ 7 ∧ n ≠ 38) ↔ ¬ statusRead n = true := by rw [statusRead_iff]; tauto
  rw [← hnum]
  refine runEvent_of_read hfree q ?_ (.inr ?_) (.inr ?_)
  · rw [hq]
    by_cases hp : s.ctl.part = .recovering ∧ n ≠ 3 ∧ n ≠ 7 ∧ n ≠ 38
    · rw [show (Request.malformed n).number = n from rfl, if_pos hp]
      exact if_pos ⟨hp.1, hread.mp hp.2⟩
    · rw [show (Request.malformed n).number = n from rfl, if_neg hp]
      exact if_neg fun hr => hp ⟨hr.1, hread.mpr hr.2⟩
  all_goals split_ifs <;> nofun

/-! ### The service of the queue (R183) -/

/-- A request that is answered by its own values alone. -/
def ControlReq.readsOnly (q : ControlReq) : Prop := q.req = .configRead ∨ ∃ n, q.req = .malformed n

/-- Its reply. -/
def ControlReq.answerAt (s : State) (q : ControlReq) : Answer :=
  match q.req with
  | .malformed n => { number := n, tag := q.tag, code := .malformed, result := [], job := none }
  | _ => { number := 3, tag := q.tag, code := .ok,
           result := configFields s ++ [s.format.cond.value, s.format.k, s.format.pool], job := none }

theorem answerAt_shows (s : State) (q : ControlReq) : (q.answerAt s).shows := by
  unfold ControlReq.answerAt
  split
  · exact ⟨.inr nofun, .inr nofun⟩
  · exact ⟨.inl nofun, .inl nofun⟩

/-- The state with a control queue and a free slot. -/
def State.queued (s : State) (l : List ControlReq) : State := { s with ctl := { s.ctl with executing := none, queue := l } }

theorem perform_readsOnly {q : ControlReq} (hq : q.readsOnly) {e : Event} (hp : e.st.ctl.part ≠ .recovering)
    {x : Executing} (hx : e.st.ctl.executing = some x) (hn : x = ⟨q.tag, q.req.number⟩) :
    perform q.req e = { e.freed with todo := { e.todo with answer := some (q.answerAt e.st) } } := by
  rcases hq with hq | ⟨n, hq⟩
  · rw [hq, perform_configRead, doConfigRead, reply_eq hx, hn]
    simp only [ControlReq.answerAt, hq, Request.number]
  · rw [hq]
    have hdo : perform (.malformed n) e = reply .malformed [] e := if_neg fun hr => hp hr.1
    rw [hdo, reply_eq hx, hn]
    simp only [ControlReq.answerAt, hq, Request.number]

theorem controlTurn_readsOnly {s : State} (hp : s.ctl.part ≠ .recovering) {q : ControlReq} (hq : q.readsOnly)
    (more : List ControlReq) (rs : List Answer) :
    controlTurn (servedEvent (s.queued (q :: more)) { control := true } rs) =
      servedEvent (s.queued more) { control := true, answer := some (q.answerAt s) } rs := by
  have hturn : controlTurn (servedEvent (s.queued (q :: more)) { control := true } rs) =
      execute q ((servedEvent (s.queued (q :: more)) { control := true } rs).updCtl fun c => { c with queue := more }) :=
    if_pos ⟨rfl, nofun⟩
  rw [hturn, execute, perform_readsOnly hq (x := ⟨q.tag, q.req.number⟩) (by exact hp) rfl rfl]
  rfl

/-- Each request at the head executes once the reply before it is out. -/
theorem ends_queue {s : State} (hp : s.ctl.part ≠ .recovering) {k : Nat} {r : Event} (qs more : List ControlReq)
    (hq : ∀ q ∈ qs, q.readsOnly) (rs : List Answer)
    (h : Ends k (servedEvent (s.queued more) { control := true } (rs ++ qs.map (ControlReq.answerAt s))) r) :
    Ends (k + 2 * qs.length) (servedEvent (s.queued (qs ++ more)) { control := true } rs) r := by
  induction qs generalizing rs with
  | nil => simpa using h
  | cons q qs ih =>
    rw [List.length_cons, show k + 2 * (qs.length + 1) = k + 2 * qs.length + 1 + 1 from by omega]
    refine Ends.turn (e' := servedEvent (s.queued (qs ++ more)) { control := true, answer := some (q.answerAt s) } rs)
      (congrArg some (controlTurn_readsOnly hp (hq q (List.mem_cons_self ..)) _ _)) ?_
    refine Ends.turn (e' := servedEvent (s.queued (qs ++ more)) { control := true } (rs ++ [q.answerAt s])) ?_
      (ih (fun p hp => hq p (List.mem_cons_of_mem _ hp)) _ (by simpa using h))
    have hjob : (q.answerAt s).job = none := by
      unfold ControlReq.answerAt
      split <;> rfl
    exact congrArg some (answerTurn_served hjob _ _ _)

/-- Nothing waits any more. -/
theorem ends_queueEmpty (s : State) (rs : List Answer) :
    Ends 1 (servedEvent (s.queued []) { control := true } rs) (servedEvent (s.queued []) {} rs) :=
  Ends.turn (k := 0) (congrArg some (if_neg fun h => h.2 rfl)) fun n => runTodo_of_none (turn_of_idle rfl) n

theorem updVol_eq {e : Event} {v : Nat} {f : Volume → Volume} {y : Volume} (h : f (e.st.vol v) = y) :
    e.updVol v f = { e with st := e.st.setVol v y } := by
  rw [← h]
  rfl

/-- The state in which a FREEZE has joined the freeze of a volume, and holds the slot. -/
def State.joined (s : State) (tag w : Nat) (y : Volume) (more : List ControlReq) : State :=
  { s.setVol w y with ctl := { s.ctl with executing := some ⟨tag, 11⟩, queue := more } }

/-- A FREEZE of a FREEZING volume joins its freeze. -/
theorem controlTurn_freeze {s : State} (hp : s.ctl.part ≠ .recovering) {w tag n : Nat} {m : List BusyOwner}
    {fs : List FreezeAsker} (more : List ControlReq) (rs : List Answer) (hw : w ≤ 63) (hs : (s.vol w).state = .freezing)
    (hd : (s.vol w).drain = some { work := .refusing fs, members := m, timeout := n }) {y : Volume}
    (hy : y = { s.vol w with drain := some { work := .refusing (fs ++ [.control]), members := m, timeout := n } }) :
    controlTurn (servedEvent (s.queued (⟨tag, .freeze w⟩ :: more)) { control := true } rs) =
      servedEvent (s.joined tag w y more) { control := true } rs := by
  have hturn : controlTurn (servedEvent (s.queued (⟨tag, .freeze w⟩ :: more)) { control := true } rs) =
      perform (.freeze w) (servedEvent { s with ctl := { s.ctl with executing := some ⟨tag, 11⟩, queue := more } }
        { control := true } rs) := if_pos ⟨rfl, nofun⟩
  rw [hturn, perform_freeze _ (by exact hp), doFreeze_eq hw, askFreeze_freezing (by exact hs), updVol_eq (y := y)]
  · rfl
  · change ({ s.vol w with drain := (s.vol w).drain.map _ } : Volume) = _
    rw [hy, hd]
    rfl

theorem ends_queueFreeze {s : State} (hp : s.ctl.part ≠ .recovering) {w tag n : Nat} {m : List BusyOwner} {fs : List FreezeAsker}
    (more : List ControlReq) (rs : List Answer) (hw : w ≤ 63) (hs : (s.vol w).state = .freezing)
    (hd : (s.vol w).drain = some { work := .refusing fs, members := m, timeout := n }) {y : Volume}
    (hy : y = { s.vol w with drain := some { work := .refusing (fs ++ [.control]), members := m, timeout := n } }) :
    Ends 2 (servedEvent (s.queued (⟨tag, .freeze w⟩ :: more)) { control := true } rs)
      (servedEvent (s.joined tag w y more) {} rs) :=
  Ends.turn (e' := servedEvent (s.joined tag w y more) { control := true } rs)
    (congrArg some (controlTurn_freeze hp more rs hw hs hd hy))
    (Ends.turn (k := 0) (congrArg some (if_neg fun h => nomatch h.1)) fun n => runTodo_of_none (turn_of_idle rfl) n)

/-! ### The drain timer of a control request, and the queue behind it -/

/-- The volume as the end of such a drain leaves it. -/
def Volume.undrained (x : Volume) (d : Drain) : Volume :=
  { x with drain := none, state := if d.work.freezes then .normal else x.state }

theorem finishDrain_control {s : State} {v : Nat} {d : Drain} {q : Executing} (hd : (s.vol v).drain = some d)
    (hh : (s.vol v).holdList = []) (hw : d.work = .refusing [.control] ∨ ∃ c, d.work = .holding c ∧ c.asker = .control)
    (hx : s.ctl.executing = some q) :
    finishDrain v .timeout (openEvent s) =
      servedEvent ((s.setVol v ((s.vol v).undrained d)).queued s.ctl.queue)
        { jobs := true, drainBegin := [v],
          answer := some { number := q.number, tag := q.tag, code := .timeout, result := [], job := none } } [] := by
  have hcollapse : ∀ t, (if d.work.freezes then VolState.normal else (s.vol v).state) = t →
      ((openEvent s).updVol v fun x => { x with state := t, drain := none, holdList := [] }) =
        (openEvent s).updVol v fun x => x.undrained d := by
    rintro _ rfl
    have hvol : ({ s.vol v with
        state := if d.work.freezes then .normal else (s.vol v).state, drain := none, holdList := [] } : Volume) =
        (s.vol v).undrained d := by rw [← hh]; rfl
    exact congrArg (fun x => ({ st := { s with out := [] }.setVol v x } : Event)) hvol
  rcases hw with hw | ⟨c, hw, hc⟩
  · have haction : drainAction v d .timeout (openEvent s) =
        reply .timeout [] ((openEvent s).updVol v fun x => { x with state := .normal }) := by
      simp only [drainAction, hw]
      rfl
    have hx1 : (((openEvent s).updVol v fun x => { x with state := .normal }).st.ctl).executing = some q := hx
    rw [finishDrain_some (by exact hd) (by
      rw [haction, reply_eq hx1]
      change ((s.setVol v { s.vol v with state := .normal }).vol v).holdList = []
      rw [State.vol_setVol]
      exact hh)]
    dsimp only
    rw [haction, updVol_reply hx1, Event.updVol_updVol _ _ _ _ (by dsimp only; nofun) (by dsimp only; nofun),
      hcollapse .normal (by rw [hw]; rfl), reply_eq (x := q) hx]
    rfl
  · have haction : drainAction v d .timeout (openEvent s) = reply .timeout [] (openEvent s) := by
      simp only [drainAction, hw, answerCreate, hc]
    rw [finishDrain_some (by exact hd) (by
      rw [haction, reply_eq (x := q) hx]
      exact hh)]
    dsimp only
    have hstate : ((openEvent s).updVol v fun x => { x with drain := none, holdList := [] }) =
        (openEvent s).updVol v fun x => x.undrained d := hcollapse (s.vol v).state (by rw [hw]; rfl)
    rw [haction, updVol_reply (x := q) hx, hstate, reply_eq (x := q) hx]
    rfl

/-- The event of the drain timer up to the service of the queue. -/
theorem ends_drainAnswer {s : State} {v : Nat} {a : Answer} {k : Nat} {r : Event} (ha : a.job = none)
    (hd : (s.vol v).drain = none) (hw : (s.vol v).waiting = []) (hj : ∀ p ∈ s.jobs, p.2.state ≠ .running)
    (h : Ends k (servedEvent s { control := true } [a]) r) :
    Ends (k + 3) (servedEvent s { jobs := true, drainBegin := [v], answer := some a } []) r := by
  refine Ends.turn (e' := servedEvent s { drainBegin := [v], answer := some a } []) ?_
    (Ends.turn (e' := servedEvent s { answer := some a } []) ?_
      (Ends.turn (e' := servedEvent s { control := true } [a]) (congrArg some (answerTurn_served ha _ _ [])) h))
  · exact congrArg some (jobTurn_none fun p hp => canVisit_of_state (hj p hp))
  · change some (if (s.vol v).drain = none then beginNext v _ else _) = _
    rw [if_pos hd]
    refine congrArg some ?_
    change beginNext v (servedEvent s { answer := some a } []) = _
    have hw' : ((servedEvent s { answer := some a } []).st.vol v).waiting = [] := hw
    simp only [beginNext, hw']

/-- Settles O16: frames by their bytes, the bounds of the queue, and the queue's service behind a drain's timer. -/
theorem frontFramesReachTheirUnits : Obligations.FrontFramesReachTheirUnits := by
  refine ⟨fun tag r i s ht hwf hl hrow => ?_, ⟨fun f q s hf hu => ⟨exec_busyFrame hf hu, fun n hx hq hm =>
    exec_malformedFrame hf ⟨hu, hx, hq⟩ hm⟩, fun s tag r i hfree hp hrow h1 h2 h3 => ?_, ?_⟩⟩
  · rw [exec_bytes (controlFrameRoundTrip tag r ht hwf (not_malformed_of_row hrow) hl), arrives_of_row hrow]
  · have hr := statusRead_of_row hrow h1 h2 h3
    have hnot : ¬ (r.number = 3 ∨ r.number = 7 ∨ r.number = 38) := by
      rw [← statusRead_iff, hr]
      nofun
    exact exec_recovering hfree hp (arrives_of_row hrow) hr (by tauto) (by tauto)
  · intro s v d q hu hp hd _ hh hw hwork hj hx hlen y c mark reply answer qs hqs served
    let t : State := s.setVol v ((s.vol v).undrained d)
    let a : Answer := { number := q.number, tag := q.tag, code := .timeout, result := [], job := none }
    have ht : t.vol v = (s.vol v).undrained d := State.vol_setVol ..
    have hreads : ∀ r ∈ qs, r.readsOnly := hqs
    have hshows : ∀ b ∈ [a] ++ qs.map (ControlReq.answerAt t), b.shows := by
      intro b hb
      rcases List.mem_append.mp hb with hb | hb
      · rw [List.mem_singleton.mp hb]
        exact ⟨.inr nofun, .inr nofun⟩
      · obtain ⟨r, _, rfl⟩ := List.mem_map.mp hb
        exact answerAt_shows t r
    have hframes : ([a] ++ qs.map (ControlReq.answerAt t)).map (Answer.frame (!s.ctl.notices.isEmpty) s.ctl.lost) =
        reply q.number q.tag .timeout [] :: qs.map answer := by
      rw [List.map_append, List.map_map]
      refine congrArg (List.cons _) (List.map_congr_left fun r hr => ?_)
      rcases hqs r hr with hr | ⟨n, hr⟩
      · simp only [Function.comp, ControlReq.answerAt, hr, answer]
        change Output.control _ _ 3 r.tag .ok (configFields s ++ [s.format.cond.value, s.format.k, s.format.pool]) = _
        rw [configFields_eq]
        rfl
      · simp only [Function.comp, ControlReq.answerAt, hr, answer]
        rfl
    have hrun : ∀ {k : Nat} {more : List ControlReq} {u : State}, s.ctl.queue = qs ++ more → k ≤ 2 → u.frontUp = true →
        u.ctl.notices = s.ctl.notices → u.ctl.lost = s.ctl.lost →
        Ends k (servedEvent (t.queued more) { control := true } ([a] ++ qs.map (ControlReq.answerAt t)))
          (servedEvent u {} ([a] ++ qs.map (ControlReq.answerAt t))) →
        exec (.drainTimeout v) s = .next { u.closed with out := reply q.number q.tag .timeout [] :: qs.map answer } := by
      intro k more u hq hk huu hn hlost hends
      have hql : qs.length ≤ 8 := by
        rw [hq, List.length_append] at hlen
        omega
      have hall : Ends (k + 2 * qs.length + 3) (finishDrain v .timeout (openEvent s))
          (servedEvent u {} ([a] ++ qs.map (ControlReq.answerAt t))) := by
        rw [finishDrain_control hd hh hwork hx, hq]
        refine ends_drainAnswer rfl ?_ ?_ hj (ends_queue (s := t) hp qs more hreads [a] hends)
        · exact congrArg Volume.drain ht
        · exact (congrArg Volume.waiting ht).trans hw
      change Host.Outcome.next (closeEvent (runTodo turnBound (finishDrain v .timeout (openEvent s)))) = _
      rw [hall.runTodo (by omega), close_served huu _ hshows, hn, hlost, hframes]
    constructor
    · intro hq
      exact (hrun (more := []) (u := t.queued []) (by rw [hq, List.append_nil]) (by omega) hu rfl rfl (ends_queueEmpty t _)).trans rfl
    · intro tag w more fs m n hq hw63 hwv hws hwd z u
      have htw : t.vol w = s.vol w := State.vol_setVol_ne _ _ _ _ hwv
      have hends := ends_queueFreeze (s := t) hp (tag := tag) (m := m) (n := n) (fs := fs) more
        ([a] ++ qs.map (ControlReq.answerAt t)) hw63 (by rw [htw]; exact hws) (by rw [htw]; exact hwd) (y := z) (by rw [htw])
      exact (hrun (k := 2) (u := t.joined tag w z more) hq (by omega) hu rfl rfl hends).trans rfl

end Sys2Proof.Machine
end

section
/-! PROOFS. The jobs that go on within an event (R111, R113, R114), and the yield test with its effects. -/

namespace Sys2Proof.Machine

/-! ### A place in a table of jobs -/

theorem tput_append {α : Type} {i : Nat} (v x : α) {a : Table α} (b : Table α) (h : ∀ p ∈ a, p.1 < i) :
    tput i v (a ++ (i, x) :: b) = a ++ (i, v) :: b := by
  induction a with
  | nil => simp [tput]
  | cons p a ih =>
    have hp : p.1 < i := h p (List.mem_cons_self ..)
    rw [List.cons_append, tput, if_neg (by omega), if_neg (by omega), ih fun q hq => h q (List.mem_cons_of_mem _ hq)]
    rfl

theorem tfind_append {α : Type} {i : Nat} (x : α) {a : Table α} (b : Table α) (h : ∀ p ∈ a, p.1 < i) :
    tfind (a ++ (i, x) :: b) i = some x := by
  induction a with
  | nil => simp [tfind]
  | cons p a ih =>
    have hp : p.1 < i := h p (List.mem_cons_self ..)
    rw [List.cons_append, tfind, if_neg (by omega), ih fun q hq => h q (List.mem_cons_of_mem _ hq)]

/-- A job's record changed in its place. -/
theorem updJob_append {e : Event} {a b : Table Job} {i : Nat} {x : Job} (f : Job → Job) (hj : e.st.jobs = a ++ (i, x) :: b)
    (h : ∀ p ∈ a, p.1 < i) : e.updJob i f = e.upd fun s => { s with jobs := a ++ (i, f x) :: b } := by
  have hfind : tfind e.st.jobs i = some x := by rw [hj, tfind_append x b h]
  simp only [Event.updJob, hfind, Event.upd]
  rw [hj, tput_append _ _ _ h]

/-- In a sorted table a record is changed by changing the entries of its key. -/
theorem tput_eq_map {α : Type} {i : Nat} {x v : α} {t : Table α} (hs : Table.sorted t = true) (h : tfind t i = some x) :
    tput i v t = t.map fun q => if q.1 = i then (i, v) else q := by
  obtain ⟨a, b, rfl, hput, -⟩ := exists_split h hs
  have hp := pairwise_of_sorted hs
  rw [List.pairwise_append, List.pairwise_cons] at hp
  obtain ⟨-, ⟨hb, -⟩, hab⟩ := hp
  rw [hput, List.map_append, List.map_cons, if_pos rfl, List.map_congr_left (g := id), List.map_id,
    List.map_congr_left (l := b) (g := id), List.map_id]
  · exact fun q hq => if_neg (hb q hq).ne'
  · exact fun q hq => if_neg (hab q hq _ (List.mem_cons_self ..)).ne

/-! ### Work that waits behind earlier work (R23) -/

theorem firstProceed_append_none {earlier l m : List BusyItem} (hl : firstProceed earlier l = none)
    (hm : ∀ i ∈ m, ∃ j ∈ earlier ++ l, j.conflicts i = true) : firstProceed earlier (l ++ m) = none := by
  induction l generalizing earlier with
  | nil =>
    rw [List.nil_append]
    rw [List.append_nil] at hm
    clear hl
    induction m generalizing earlier with
    | nil => rfl
    | cons i m ih =>
      obtain ⟨j, hj, hc⟩ := hm i (List.mem_cons_self ..)
      have hany : earlier.any (fun p => p.conflicts i) = true := List.any_eq_true.mpr ⟨j, hj, hc⟩
      rw [firstProceed, hany]
      simp only [Bool.not_true, Bool.and_false, Bool.false_eq_true, if_false]
      refine ih fun k hk => ?_
      obtain ⟨j', hj', hc'⟩ := hm k (List.mem_cons_of_mem _ hk)
      exact ⟨j', List.mem_append_left _ hj', hc'⟩
  | cons i l ih =>
    rw [List.cons_append, firstProceed]
    rw [firstProceed] at hl
    split_ifs at hl ⊢
    exact ih hl fun k hk => by simpa using hm k hk

/-! ### A flag of the work at its turn -/

/-- No work stands before the turn of the jobs. -/
def Todo.atJobs (t : Todo) : Prop := t.retest = false ∧ t.drains = false ∧ t.occupancy = false ∧ t.pool = false

theorem turn_jobs {e : Event} (h : e.todo.atJobs) (hj : e.todo.jobs = true) : turn e = some (jobTurn e) := by
  obtain ⟨h1, h2, h3, h4⟩ := h
  simp only [turn, h1, h2, h3, h4, hj, Bool.false_eq_true, if_false, if_true]

theorem turn_pool {e : Event} (h1 : e.todo.retest = false) (h2 : e.todo.drains = false) (h3 : e.todo.occupancy = false)
    (h4 : e.todo.pool = true) : turn e = some (resumePool { e with todo := { e.todo with pool := false } }) := by
  simp only [turn, h1, h2, h3, h4, Bool.false_eq_true, if_false, if_true]

theorem turn_occupancy {e : Event} (h1 : e.todo.retest = false) (h2 : e.todo.drains = false) (h3 : e.todo.occupancy = true) :
    turn e = some (testYield { e with todo := { e.todo with occupancy := false } }) := by
  simp only [turn, h1, h2, h3, Bool.false_eq_true, if_false, if_true]

/-! ### The jobs go on, one visit after the other -/

/-- The jobs that `p` accepts have been told to run again. -/
def State.moved (s : State) (p : Job → Bool) : State :=
  { s with jobs := s.jobs.map fun x => if p x.2 then (x.1, { x.2 with state := runState s }) else x }

/-- The visit that a job begins waits, and the job that it does not let begin stands; `jobsGoOn`, job by job. -/
def State.goesOn (s : State) (p : Job → Bool) (q : Nat × Job) : Nat × Job :=
  if p q.2 then (q.1, { q.2 with
    state := if s.yielding then JobState.yielded
      else if (s.vol q.2.dstVol).drain = none ∧ (s.vol q.2.dstVol).state = .frozen then .pausedFrozen else .running
    waiting := q.2.waiting || (p q.2 && !s.yielding && (s.vol q.2.dstVol).admitsVisit) })
  else q

/-- The jobs whose visit begins. -/
def State.begins (s : State) (p : Job → Bool) (q : Nat × Job) : Bool :=
  p q.2 && !s.yielding && (s.vol q.2.dstVol).admitsVisit

theorem jobsGoOn_eq (s : State) (p : Job → Bool) :
    s.jobsGoOn p = { s with
      jobs := s.jobs.map (s.goesOn p), busy := s.busy ++ (s.jobs.filter (s.begins p)).map fun q => q.2.visitItem q.1 } := rfl

theorem canVisit_false_iff {s : State} {x : Job} : canVisit s x = false ↔
    ¬ (x.state = .running ∧ s.ctl.part = .running ∧ s.yielding = false ∧ x.visiting = false ∧ x.target ≠ none ∧
      (s.vol x.dstVol).drain = none) := by
  rw [← Bool.not_eq_true]
  simp [canVisit, and_assoc, Option.isSome_iff_ne_none]

/-- While the yield flag is set no visit begins. -/
theorem jobsGoOn_yielding {s : State} (p : Job → Bool) (h : s.yielding = true) : s.jobsGoOn p = s.moved p := by
  have hb : s.jobs.filter (s.begins p) = [] := List.filter_eq_nil_iff.mpr fun q _ => by simp [State.begins, h]
  have hj : s.jobs.map (s.goesOn p) = (s.moved p).jobs := by
    refine List.map_congr_left fun q _ => ?_
    simp only [State.goesOn, h, runState, Bool.not_true, Bool.and_false, Bool.false_and, Bool.or_false, if_true]
  rw [jobsGoOn_eq, hb, hj, List.map_nil, List.append_nil]
  rfl

/-- With no such job the jobs are as they were. -/
theorem jobsGoOn_none {s : State} {p : Job → Bool} (h : ∀ q ∈ s.jobs, p q.2 = false) : s.jobsGoOn p = s ∧ s.moved p = s := by
  have hb : s.jobs.filter (s.begins p) = [] := List.filter_eq_nil_iff.mpr fun q hq => by simp [State.begins, h q hq]
  have hj : s.jobs.map (s.goesOn p) = s.jobs :=
    (List.map_congr_left (g := id) fun q hq => by simp [State.goesOn, h q hq]).trans (List.map_id _)
  have hm : (s.moved p).jobs = s.jobs :=
    (List.map_congr_left (g := id) fun q hq => by simp [h q hq]).trans (List.map_id _)
  refine ⟨by rw [jobsGoOn_eq, hb, hj, List.map_nil, List.append_nil], ?_⟩
  change { s with jobs := (s.moved p).jobs } = s
  rw [hm]

section
variable {s : State} {p : Job → Bool}

/-- A job that does not begin a visit is at once as `jobsGoOn` says, but on a FROZEN target. -/
theorem goesOn_stands (hy : s.yielding = false) {q : Nat × Job}
    (h : p q.2 = false ∨ (s.vol q.2.dstVol).drain ≠ none) :
    (if p q.2 then (q.1, { q.2 with state := runState s }) else q) = s.goesOn p q ∧ s.begins p q = false := by
  rcases h with h | h
  · simp [State.goesOn, State.begins, h]
  · have hd : (s.vol q.2.dstVol).admitsVisit = false := by
      have : (s.vol q.2.dstVol).drain.isNone = false := by
        rw [Option.isNone_eq_false_iff, Option.isSome_iff_ne_none]
        exact h
      rw [Volume.admitsVisit, this, Bool.false_and]
    simp only [State.goesOn, State.begins, hd, hy, runState, Bool.and_false, Bool.or_false, Bool.false_eq_true, if_false,
      if_neg fun hc : (s.vol q.2.dstVol).drain = none ∧ (s.vol q.2.dstVol).state = .frozen => h hc.1, and_self]

theorem goesOn_frozen (hy : s.yielding = false) {q : Nat × Job} (hp : p q.2 = true) (hd : (s.vol q.2.dstVol).drain = none)
    (hf : (s.vol q.2.dstVol).state = .frozen) :
    s.goesOn p q = (q.1, { q.2 with state := .pausedFrozen }) ∧ s.begins p q = false := by
  have ha : (s.vol q.2.dstVol).admitsVisit = false := by simp [Volume.admitsVisit, hf]
  simp only [State.goesOn, State.begins, hp, ha, hy, hd, hf, Bool.and_false, Bool.or_false, Bool.false_eq_true, if_false, if_true,
    and_self]

theorem goesOn_begins (hy : s.yielding = false) {q : Nat × Job} (hp : p q.2 = true) (hd : (s.vol q.2.dstVol).drain = none)
    (hf : (s.vol q.2.dstVol).state ≠ .frozen) :
    s.goesOn p q = (q.1, { q.2 with state := .running, waiting := true }) ∧ s.begins p q = true := by
  have ha : (s.vol q.2.dstVol).admitsVisit = true := by simp [Volume.admitsVisit, hd, hf]
  simp only [State.goesOn, State.begins, hp, ha, hy, Bool.not_false, Bool.and_true, Bool.or_true, Bool.false_eq_true, if_false,
    if_true, if_neg fun hc : (s.vol q.2.dstVol).drain = none ∧ (s.vol q.2.dstVol).state = .frozen => hf hc.2, and_self]

/-- A job that has gone on begins no further visit. -/
theorem canVisit_goesOn (hy : s.yielding = false)
    (hrun : ∀ q ∈ s.jobs, q.2.state = .running → q.2.visiting = true ∨ (s.vol q.2.dstVol).drain ≠ none) {q : Nat × Job}
    (hq : q ∈ s.jobs) : canVisit s (s.goesOn p q).2 = false := by
  rw [canVisit_false_iff]
  rintro ⟨hs, -, -, hv, -, hd⟩
  by_cases hp : p q.2 = true
  · have hd' : (s.vol q.2.dstVol).drain = none := by simpa [State.goesOn, hp] using hd
    by_cases hf : (s.vol q.2.dstVol).state = .frozen
    · rw [(goesOn_frozen hy hp hd' hf).1] at hs
      cases hs
    · rw [(goesOn_begins hy hp hd' hf).1] at hv
      simp [Job.visiting] at hv
  · have hg : s.goesOn p q = q := if_neg hp
    rw [hg] at hs hv hd
    rcases hrun q hq hs with h | h
    · rw [h] at hv
      cases hv
    · exact h hd

/-- The state in which the jobs `pre` have gone on, and the jobs `post` have been told to run. -/
def State.partway (s : State) (p : Job → Bool) (pre post : Table Job) : State :=
  { s with
    jobs := pre.map (s.goesOn p) ++ (post.map fun x => if p x.2 then (x.1, { x.2 with state := runState s }) else x)
    busy := s.busy ++ (pre.filter (s.begins p)).map fun q => q.2.visitItem q.1 }

theorem goesOn_fst (q : Nat × Job) : (s.goesOn p q).1 = q.1 := by
  unfold State.goesOn
  split_ifs <;> rfl

/-- The jobs told to run take their turns in job number order: each waits, pauses, or begins its visit and waits. -/
theorem ends_partway (hy : s.yielding = false) (hpart : s.ctl.part = .running) (hsort : Table.sorted s.jobs = true)
    (hbusy : firstProceed [] s.busy = none)
    (hrun : ∀ q ∈ s.jobs, q.2.state = .running → q.2.visiting = true ∨ (s.vol q.2.dstVol).drain ≠ none)
    (hgo : ∀ q ∈ s.jobs, p q.2 = true → q.2.visiting = false ∧ q.2.target ≠ none ∧
      ((s.vol q.2.dstVol).admitsVisit = true → ∃ i ∈ s.busy, i.conflicts (q.2.visitItem q.1) = true))
    {e : Event} {k : Nat} {r : Event} (hT : e.todo.atJobs)
    (h : Ends k { e with st := s.jobsGoOn p, todo := { e.todo with jobs := false } } r) (pre post : Table Job)
    (hpp : s.jobs = pre ++ post) :
    Ends (k + 2 * post.length + 1) { e with st := s.partway p pre post, todo := { e.todo with jobs := true } } r := by
  induction post generalizing pre with
  | nil =>
    rw [List.append_nil] at hpp
    subst hpp
    refine Ends.turn ?_ h
    have hst : s.partway p s.jobs [] = s.jobsGoOn p := by
      rw [jobsGoOn_eq]
      simp only [State.partway, List.map_nil, List.append_nil]
    rw [hst, turn_jobs (by exact hT) rfl, jobTurn_none]
    intro q hq
    obtain ⟨q', hq', rfl⟩ := List.mem_map.mp (show q ∈ s.jobs.map (s.goesOn p) from hq)
    exact canVisit_goesOn hy hrun hq'
  | cons q post ih =>
    have hq : q ∈ s.jobs := by rw [hpp]; simp
    have hnext := ih (pre ++ [q]) (by rw [hpp]; simp)
    by_cases hstand : p q.2 = false ∨ (s.vol q.2.dstVol).drain ≠ none
    · obtain ⟨hg, hb⟩ := goesOn_stands hy hstand
      have heq : s.partway p (pre ++ [q]) post = s.partway p pre (q :: post) := by
        simp only [State.partway, List.map_append, List.map_cons, List.map_nil, List.filter_append, List.filter_cons, hb,
          Bool.false_eq_true, if_false, List.filter_nil, List.append_nil, hg, List.append_assoc, List.singleton_append]
      rw [heq] at hnext
      exact hnext.more.more
    · rw [not_or, Bool.not_eq_false, not_not] at hstand
      obtain ⟨hp, hd⟩ := hstand
      obtain ⟨hvis, htarget, hconf⟩ := hgo q hq hp
      obtain ⟨⟨dst, src⟩, ht⟩ := Option.ne_none_iff_exists'.mp htarget
      have hlt : ∀ x ∈ pre.map (s.goesOn p), x.1 < q.1 := by
        intro x hx
        obtain ⟨x', hx', rfl⟩ := List.mem_map.mp hx
        rw [goesOn_fst]
        have hpw := pairwise_of_sorted hsort
        rw [hpp, List.pairwise_append] at hpw
        exact hpw.2.2 x' hx' q (List.mem_cons_self ..)
      have hmove : (if p q.2 then (q.1, { q.2 with state := runState s }) else q) = (q.1, { q.2 with state := .running }) := by
        simp only [hp, if_true, runState, hy, Bool.false_eq_true, if_false]
      let e1 : Event := { e with st := s.partway p pre (q :: post), todo := { e.todo with jobs := true } }
      have hjobs : e1.st.jobs = pre.map (s.goesOn p) ++ (q.1, { q.2 with state := .running }) ::
          (post.map fun x => if p x.2 then (x.1, { x.2 with state := runState s }) else x) := by
        rw [← hmove]
        rfl
      have hfind : (e1.st.jobs.find? fun x => canVisit e1.st x.2) = some (q.1, { q.2 with state := .running }) := by
        rw [hjobs, List.find?_append, List.find?_eq_none.mpr, Option.none_or, List.find?_cons_of_pos]
        · simp only [canVisit, Bool.and_eq_true, beq_iff_eq, Bool.not_eq_true', Option.isSome_iff_ne_none]
          exact ⟨⟨⟨⟨⟨trivial, hpart⟩, hy⟩, hvis⟩, htarget⟩, by rw [Option.isNone_iff_eq_none]; exact hd⟩
        · intro x hx
          obtain ⟨x', hx', rfl⟩ := List.mem_map.mp hx
          exact Bool.eq_false_iff.mp (canVisit_goesOn hy hrun (by rw [hpp]; exact List.mem_append_left _ hx'))
      have hturn : turn e1 = some (beginVisit q.1 { q.2 with state := .running } e1) := by
        rw [turn_jobs (by exact hT) rfl, jobTurn, hfind]
      by_cases hf : (s.vol q.2.dstVol).state = .frozen
      · obtain ⟨hg, hb⟩ := goesOn_frozen hy hp hd hf
        have hbegin : beginVisit q.1 { q.2 with state := .running } e1 =
            { e with st := s.partway p (pre ++ [q]) post, todo := { e.todo with jobs := true } } := by
          have hframe : beginVisit q.1 { q.2 with state := .running } e1 =
              e1.updJob q.1 fun y => { y with state := .pausedFrozen } := by
            have ht' : ({ q.2 with state := .running } : Job).target = some (dst, src) := ht
            rw [beginVisit, ht']
            exact if_pos hf
          rw [hframe, updJob_append _ hjobs hlt]
          simp only [State.partway, List.map_append, List.map_cons, List.map_nil, List.filter_append, List.filter_cons, hb, hg,
            Bool.false_eq_true, if_false, List.filter_nil, List.append_nil, List.append_assoc, List.singleton_append]
          rfl
        exact (hnext.turn (hturn.trans (congrArg some hbegin))).more
      · obtain ⟨hg, hb⟩ := goesOn_begins hy hp hd hf
        obtain ⟨i, hi, hc⟩ := hconf (by simp [Volume.admitsVisit, hd, hf])
        let e2 : Event := { e with
          st := s.partway p (pre ++ [q]) post, todo := { e.todo with jobs := true, retest := true } }
        have hitem : ({ owner := .restore q.1, vol := q.2.dstVol, chunks := [dst], change := true, proceeded := false } :
            BusyItem) = q.2.visitItem q.1 := by simp [Job.visitItem, ht]
        have hbegin : beginVisit q.1 { q.2 with state := .running } e1 = e2 := by
          have hframe : beginVisit q.1 { q.2 with state := .running } e1 =
              enterBusy (q.2.visitItem q.1) (e1.updJob q.1 fun y => { y with waiting := true }) := by
            have ht' : ({ q.2 with state := .running } : Job).target = some (dst, src) := ht
            rw [← hitem, beginVisit, ht']
            exact if_neg hf
          rw [hframe, updJob_append _ hjobs hlt]
          unfold e2
          simp only [State.partway, List.map_append, List.map_cons, List.map_nil, List.filter_append, List.filter_cons, hb, hg,
            if_true, List.filter_nil, List.append_assoc, List.singleton_append]
          simp only [← List.append_assoc]
          rfl
        have hwaits : firstProceed [] e2.st.busy = none := by
          refine firstProceed_append_none hbusy fun m hm => ?_
          obtain ⟨x, hx, rfl⟩ := List.mem_map.mp hm
          obtain ⟨hx, hxb⟩ := List.mem_filter.mp hx
          have hxs : x ∈ s.jobs := by
            rw [hpp]
            simp only [List.mem_append, List.mem_cons] at hx ⊢
            tauto
          simp only [State.begins, Bool.and_eq_true] at hxb
          exact (hgo x hxs hxb.1.1).2.2 hxb.2
        refine Ends.turn (hturn.trans (congrArg some hbegin)) (Ends.turn ?_ hnext)
        rw [turn_of_retest rfl, retestTurn_none hwaits]
        have : e.todo.retest = false := hT.1
        refine congrArg some ?_
        unfold e2
        rw [← this]
end

/-- The jobs that `p` accepts, told to run again, go on as `jobsGoOn` says. -/
theorem ends_jobsGoOn {s : State} {p : Job → Bool} (hsort : Table.sorted s.jobs = true) (hw : s.visitsWait p) {e : Event} {k : Nat}
    {r : Event} (hT : e.todo.atJobs) (h : Ends k { e with st := s.jobsGoOn p, todo := { e.todo with jobs := false } } r) :
    Ends (k + 9) { e with st := s.moved p, todo := { e.todo with jobs := true } } r := by
  have hstill : (∀ q ∈ (s.moved p).jobs, canVisit (s.moved p) q.2 = false) → s.jobsGoOn p = s.moved p →
      Ends (k + 9) { e with st := s.moved p, todo := { e.todo with jobs := true } } r := by
    intro hno heq
    rw [heq] at h
    have h1 : Ends (k + 1) { e with st := s.moved p, todo := { e.todo with jobs := true } } r := by
      refine Ends.turn ?_ h
      rw [turn_jobs (by exact hT) rfl, jobTurn_none hno]
    exact h1.more.more.more.more.more.more.more.more
  by_cases hy : s.yielding = true
  · refine hstill (fun q _ => ?_) (jobsGoOn_yielding p hy)
    rw [canVisit_false_iff]
    rintro ⟨-, -, hy', -⟩
    exact absurd (hy.symm.trans hy') nofun
  · rcases hw with hw | ⟨hrun, hgo⟩
    · exact absurd hw hy
    · rw [Bool.not_eq_true] at hy
      by_cases hany : ∃ q ∈ s.jobs, p q.2 = true
      · obtain ⟨hpart, hlen, hbusy, hgo⟩ := hgo hany
        have key := ends_partway hy hpart hsort hbusy hrun hgo hT h [] s.jobs rfl
        have hst : s.partway p [] s.jobs = s.moved p := by
          simp only [State.partway, State.moved, List.map_nil, List.filter_nil, List.nil_append, List.append_nil]
        rw [hst] at key
        intro n
        have := key (n + (8 - 2 * s.jobs.length))
        rwa [show n + (8 - 2 * s.jobs.length) + (k + 2 * s.jobs.length + 1) = n + (k + 9) from by omega] at this
      · have hnone : ∀ q ∈ s.jobs, p q.2 = false := fun q hq => by
          rw [← Bool.not_eq_true]
          exact fun hp => hany ⟨q, hq, hp⟩
        obtain ⟨h1, h2⟩ := jobsGoOn_none hnone
        refine hstill (fun q hq => ?_) (h1.trans h2.symm)
        rw [h2] at hq ⊢
        rw [canVisit_false_iff]
        rintro ⟨hs, -, -, hv, -, hd⟩
        rcases hrun q hq hs with hv' | hd'
        · rw [hv'] at hv
          cases hv
        · exact hd' hd

end Sys2Proof.Machine
end

section
/-! PROOFS. The yield test with its effects on the jobs (R111), and CONFIG SET (R185). -/

namespace Sys2Proof.Machine

/-! ### The yield flag is set -/

/-- With no drain in hand an item leaves the busy set and nothing else changes. -/
theorem leaveBusy_noDrains {e : Event} (hwf : Table.wf Volume.absent e.st.vols = true) (hd : ∀ p ∈ e.st.vols, p.2.drain = none)
    (o : BusyOwner) (v : Nat) :
    leaveBusy o v e = { e with
      st := { e.st with busy := e.st.busy.filter fun i => i.owner != o }
      todo := { e.todo with retest := true, drains := true } } := by
  have hdrain : (e.st.vol v).drain = none := tget_of_forall (Q := fun x : Volume => x.drain = none) rfl hd v
  have hvol : ({ e.st.vol v with drain := (e.st.vol v).drain.map fun d =>
      { d with members := d.members.filter fun m => m != o } } : Volume) = e.st.vol v := by
    rw [hdrain]
    exact congrArg (fun d => { e.st.vol v with drain := d }) hdrain.symm
  have hset := State.setVol_self { e.st with busy := e.st.busy.filter fun i => i.owner != o } v hwf
  have hupd : ((e.upd fun s => { s with busy := s.busy.filter fun i => i.owner != o }).updVol v fun x =>
      { x with drain := x.drain.map fun d => { d with members := d.members.filter fun m => m != o } }) =
      e.upd fun s => { s with busy := s.busy.filter fun i => i.owner != o } := by
    rw [updVol_eq (y := e.st.vol v) hvol]
    exact congrArg (fun t => ({ e with st := t } : Event)) hset
  unfold leaveBusy
  dsimp only
  rw [hupd]
  rfl

/-- The job's copy waits in the busy set. -/
def State.jobWaits (s : State) (j : Nat) : Bool := (tfind s.jobs j).any Job.waiting

/-- The jobs of a list have yielded: YIELDED, their waiting copies withdrawn. -/
def State.yielded (s : State) (l : List Nat) : State :=
  { s with
    jobs := s.jobs.map fun q => if q.1 ∈ l then (q.1, { q.2 with state := .yielded, waiting := false }) else q
    busy := s.busy.filter fun i => !l.any fun j => s.jobWaits j && i.owner == .restore j }

theorem sorted_map_keys {α : Type} {f : Nat × α → Nat × α} (hf : ∀ q, (f q).1 = q.1) {t : Table α}
    (h : Table.sorted t = true) : Table.sorted (t.map f) = true := by
  have habove : ∀ (k : Nat) (t : Table α), Table.above k (t.map f) = Table.above k t := by
    intro k t
    simp only [Table.above, List.all_map]
    exact congrArg (fun g => t.all g) (funext fun q => by simp [hf])
  induction t with
  | nil => rfl
  | cons p t ih =>
    obtain ⟨k, v⟩ := p
    simp only [Table.sorted, Bool.and_eq_true] at h
    simp only [List.map_cons, Table.sorted, habove, hf, Bool.and_eq_true]
    exact ⟨h.1, ih h.2⟩

theorem tfind_map_keys {α : Type} {f : Nat × α → Nat × α} (hf : ∀ q, (f q).1 = q.1) (t : Table α) (j : Nat) :
    tfind (t.map f) j = (tfind t j).map fun x => (f (j, x)).2 := by
  induction t with
  | nil => rfl
  | cons p t ih =>
    obtain ⟨k, v⟩ := p
    rw [List.map_cons]
    have hk : f (k, v) = (k, (f (k, v)).2) := Prod.ext (hf (k, v)) rfl
    rw [hk]
    simp only [tfind]
    split_ifs with h
    · subst h
      rfl
    · exact ih

section
variable {e : Event}

/-- One job yields. -/
theorem yieldJob_eq (hsort : Table.sorted e.st.jobs = true) (hwf : Table.wf Volume.absent e.st.vols = true)
    (hd : ∀ p ∈ e.st.vols, p.2.drain = none) {j : Nat} {x : Job} (hj : tfind e.st.jobs j = some x) :
    ((withdrawVisit j e).updJob j fun y => { y with state := .yielded }) = { e with
      st := e.st.yielded [j]
      todo := { e.todo with retest := e.todo.retest || e.st.jobWaits j, drains := e.todo.drains || e.st.jobWaits j } } := by
  have hwaits : e.st.jobWaits j = x.waiting := by rw [State.jobWaits, hj]; rfl
  have hjobs : (e.st.yielded [j]).jobs = tput j { x with state := .yielded, waiting := false } e.st.jobs := by
    rw [tput_eq_map hsort hj]
    refine List.map_congr_left fun q hq => ?_
    by_cases hqj : q.1 = j
    · have hfind := tfind_of_mem hsort hq
      rw [hqj, hj] at hfind
      rw [if_pos (List.mem_singleton.mpr hqj), if_pos hqj, hqj, ← Option.some.inj hfind]
    · rw [if_neg fun h => hqj (List.mem_singleton.mp h), if_neg hqj]
  have hbusy : (e.st.yielded [j]).busy = e.st.busy.filter fun i => !(x.waiting && i.owner == .restore j) := by
    refine List.filter_congr fun i _ => ?_
    rw [List.any_cons, List.any_nil, Bool.or_false, hwaits]
  have hst : e.st.yielded [j] = { e.st with
      jobs := tput j { x with state := .yielded, waiting := false } e.st.jobs
      busy := e.st.busy.filter fun i => !(x.waiting && i.owner == .restore j) } := by
    rw [← hjobs, ← hbusy]
    rfl
  rw [hst, hwaits]
  unfold withdrawVisit
  rw [hj]
  dsimp only
  cases hx : x.waiting with
  | false =>
    rw [if_neg nofun]
    simp only [Event.updJob, hj, Event.upd, Bool.or_false, Bool.false_and, Bool.not_false, List.filter_true]
    congr 2
    rw [← hx]
  | true =>
    rw [if_pos rfl]
    have hupd : (e.updJob j fun y => { y with waiting := false }) =
        e.upd fun s => { s with jobs := tput j { x with waiting := false } s.jobs } := by
      simp only [Event.updJob, hj]
    rw [hupd, leaveBusy_noDrains (by exact hwf) (by exact hd)]
    have hfind : tfind (tput j { x with waiting := false } e.st.jobs) j = some { x with waiting := false } :=
      tfind_tput_same ..
    simp only [Event.updJob, Event.upd, hfind, tput_tput, Bool.or_true, Bool.true_and]
    rfl

/-- The jobs of a list yield one after the other. -/
theorem yieldJobs_fold (l : List Nat) (hl : ∀ j ∈ l, tfind e.st.jobs j ≠ none) (hsort : Table.sorted e.st.jobs = true)
    (hwf : Table.wf Volume.absent e.st.vols = true) (hd : ∀ p ∈ e.st.vols, p.2.drain = none) :
    ∃ b, l.foldl (fun e j => (withdrawVisit j e).updJob j fun y => { y with state := .yielded }) e =
      { e with st := e.st.yielded l, todo := { e.todo with retest := e.todo.retest || b, drains := e.todo.drains || b } } := by
  induction l generalizing e with
  | nil =>
    refine ⟨false, ?_⟩
    have hst : e.st.yielded [] = e.st := by
      have hj : (e.st.yielded []).jobs = e.st.jobs :=
        (List.map_congr_left (g := id) fun q _ => if_neg (List.not_mem_nil)).trans (List.map_id _)
      have hb : (e.st.yielded []).busy = e.st.busy := List.filter_true _
      calc e.st.yielded [] = { e.st with jobs := (e.st.yielded []).jobs, busy := (e.st.yielded []).busy } := rfl
        _ = e.st := by rw [hj, hb]
    rw [hst, Bool.or_false, Bool.or_false]
    rfl
  | cons j l ih =>
    obtain ⟨x, hx⟩ := Option.ne_none_iff_exists'.mp (hl j (List.mem_cons_self ..))
    have hkeys : ∀ q : Nat × Job,
        (if q.1 ∈ [j] then (q.1, { q.2 with state := JobState.yielded, waiting := false }) else q).1 = q.1 := by
      intro q
      split_ifs <;> rfl
    rw [List.foldl_cons, yieldJob_eq hsort hwf hd hx]
    obtain ⟨b, hb⟩ := @ih { e with
      st := e.st.yielded [j]
      todo := { e.todo with retest := e.todo.retest || e.st.jobWaits j, drains := e.todo.drains || e.st.jobWaits j } }
      (fun i hi => by
        change tfind (e.st.jobs.map _) i ≠ none
        rw [tfind_map_keys hkeys]
        simpa using hl i (List.mem_cons_of_mem _ hi))
      (sorted_map_keys hkeys hsort) hwf hd
    refine ⟨e.st.jobWaits j || b, hb.trans ?_⟩
    have hst : (e.st.yielded [j]).yielded l = e.st.yielded (j :: l) := by
      have hjobs : ((e.st.yielded [j]).yielded l).jobs = (e.st.yielded (j :: l)).jobs := by
        change (e.st.jobs.map _).map _ = e.st.jobs.map _
        rw [List.map_map]
        refine List.map_congr_left fun q _ => ?_
        by_cases hq : q.1 = j
        · have h1 : q.1 ∈ [j] := List.mem_singleton.mpr hq
          have h2 : q.1 ∈ j :: l := List.mem_cons.mpr (.inl hq)
          simp only [Function.comp, h1, h2, if_true]
          split_ifs <;> rfl
        · have h1 : q.1 ∉ [j] := fun h => hq (List.mem_singleton.mp h)
          have h2 : q.1 ∈ j :: l ↔ q.1 ∈ l := by simp [hq]
          simp only [Function.comp, h1, if_false, h2]
      have hbusy : ((e.st.yielded [j]).yielded l).busy = (e.st.yielded (j :: l)).busy := by
        change (e.st.busy.filter _).filter _ = e.st.busy.filter _
        rw [List.filter_filter]
        refine List.filter_congr fun i _ => ?_
        have hw : ∀ k, (e.st.yielded [j]).jobWaits k = (decide (k ≠ j) && e.st.jobWaits k) := by
          intro k
          change (tfind (e.st.jobs.map _) k).any _ = _
          rw [tfind_map_keys hkeys, State.jobWaits]
          by_cases hk : k = j
          · subst hk
            cases tfind e.st.jobs k <;> simp
          · cases tfind e.st.jobs k <;> simp [hk]
        simp only [List.any_cons, List.any_nil, Bool.or_false, Bool.not_or, hw]
        rw [Bool.and_comm, Bool.eq_iff_iff]
        simp only [Bool.and_eq_true, Bool.not_eq_true', List.any_eq_false, Bool.and_eq_false_imp, decide_eq_true_eq]
        constructor
        · rintro ⟨h1, h2⟩
          refine ⟨h1, fun k hk => ?_⟩
          by_cases hkj : k = j
          · subst hkj
            simpa using h1
          · simpa [hkj] using h2 k hk
        · rintro ⟨h1, h2⟩
          refine ⟨h1, fun k hk => ?_⟩
          have := h2 k hk
          simp only [not_and] at this ⊢
          exact fun hc => this hc.2
      calc (e.st.yielded [j]).yielded l = { e.st with
            jobs := ((e.st.yielded [j]).yielded l).jobs, busy := ((e.st.yielded [j]).yielded l).busy } := rfl
        _ = e.st.yielded (j :: l) := by rw [hjobs, hbusy]; rfl
    rw [hst, Bool.or_assoc, Bool.or_assoc]

end

/-- The yield flag set, the RUNNING jobs with no copy in flight yield. -/
theorem yieldJobs_eq {e : Event} (hsort : Table.sorted e.st.jobs = true) (hwf : Table.wf Volume.absent e.st.vols = true)
    (hd : ∀ p ∈ e.st.vols, p.2.drain = none) : ∃ b, yieldJobs (e.upd fun s => { s with yielding := true }) =
      { e with st := e.st.jobsYield, todo := { e.todo with retest := e.todo.retest || b, drains := e.todo.drains || b } } := by
  let stops := (e.st.jobs.filter fun x => x.2.state == .running && x.2.copy.isNone).map (·.1)
  have hmem : ∀ q ∈ e.st.jobs, q.1 ∈ stops ↔ (q.2.state == .running && q.2.copy.isNone) = true := by
    intro q hq
    refine ⟨fun h => ?_, fun h => List.mem_map.mpr ⟨q, List.mem_filter.mpr ⟨hq, h⟩, rfl⟩⟩
    obtain ⟨q', hq', hk⟩ := List.mem_map.mp h
    obtain ⟨hq', hc⟩ := List.mem_filter.mp hq'
    have h1 := tfind_of_mem hsort hq
    have h2 := tfind_of_mem hsort hq'
    rw [hk, h1] at h2
    rwa [← Option.some.inj h2] at hc
  obtain ⟨b, hb⟩ := yieldJobs_fold (e := e.upd fun s => { s with yielding := true }) stops (fun j hj => by
    obtain ⟨q, hq, rfl⟩ := List.mem_map.mp hj
    have := tfind_of_mem hsort (List.mem_filter.mp hq).1
    exact fun hn => nomatch this.symm.trans hn) hsort hwf hd
  refine ⟨b, hb.trans ?_⟩
  have hjobs : (({ e.st with yielding := true } : State).yielded stops).jobs = e.st.jobsYield.jobs := by
    refine List.map_congr_left fun q hq => ?_
    exact if_congr (hmem q hq) rfl rfl
  have hbusy : (({ e.st with yielding := true } : State).yielded stops).busy = e.st.jobsYield.busy := by
    refine List.filter_congr fun i _ => ?_
    refine congrArg (!·) (Bool.eq_iff_iff.mpr ?_)
    simp only [List.any_eq_true, Bool.and_eq_true, beq_iff_eq]
    constructor
    · rintro ⟨j, hj, hw, ho⟩
      obtain ⟨q, hq, rfl⟩ := List.mem_map.mp hj
      obtain ⟨hq, hc⟩ := List.mem_filter.mp hq
      have hfind := tfind_of_mem hsort hq
      have hw' : q.2.waiting = true := by
        change (tfind e.st.jobs q.1).any _ = true at hw
        rw [hfind] at hw
        exact hw
      simp only [Bool.and_eq_true, beq_iff_eq] at hc
      exact ⟨q, hq, ⟨hc, hw'⟩, ho⟩
    · rintro ⟨q, hq, ⟨hc, hw⟩, ho⟩
      refine ⟨q.1, (hmem q hq).mpr (by simpa using hc), ?_, ho⟩
      change (tfind e.st.jobs q.1).any _ = true
      rw [tfind_of_mem hsort hq]
      exact hw
  have hst : ({ e.st with yielding := true } : State).yielded stops = e.st.jobsYield := by
    calc ({ e.st with yielding := true } : State).yielded stops = { e.st with
            yielding := true, jobs := (({ e.st with yielding := true } : State).yielded stops).jobs,
            busy := (({ e.st with yielding := true } : State).yielded stops).busy } := rfl
      _ = e.st.jobsYield := by rw [hjobs, hbusy]; rfl
  exact congrArg (fun t => ({ e with st := t, todo := { e.todo with retest := e.todo.retest || b, drains := e.todo.drains || b } } : Event)) hst

/-! ### The test in its event -/

theorem wf_jobs {s : State} (h : s.wf = true) : Table.sorted s.jobs = true := by
  simp only [State.wf, Bool.and_eq_true] at h
  exact h.1.1.1.1.2

theorem wf_vols {s : State} (h : s.wf = true) : Table.wf Volume.absent s.vols = true := by
  simp only [State.wf, Bool.and_eq_true] at h
  exact h.1.1.1.1.1.1.1

theorem emptyDrain_none {s : State} (h : ∀ p ∈ s.vols, p.2.drain = none) : emptyDrain s = none := by
  unfold emptyDrain
  rw [List.find?_eq_none.mpr fun p hp => by simp [h p hp]]
  rfl

theorem yieldTested_set {s : State} (hne : yieldAfter s ≠ s.yielding) (hy : s.yielding = false) : s.yieldTested = s.jobsYield := by
  unfold State.yieldTested
  rw [if_neg hne, hy]
  rfl

theorem yieldTested_clear {s : State} (hne : yieldAfter s ≠ s.yielding) (hy : s.yielding = true) :
    s.yieldTested = ({ s with yielding := false } : State).jobsGoOn fun x => x.state == .yielded := by
  unfold State.yieldTested
  rw [if_neg hne, hy]
  rfl

/-- The yield test at its turn, the resumption of PAUSED-POOL jobs not called for. -/
theorem ends_yieldTest {e : Event} {k : Nat} {r : Event} (hs : e.st.yieldSettles) (h1 : e.todo.retest = false)
    (h2 : e.todo.drains = false) (h3 : e.todo.pool = false) (h4 : e.todo.jobs = false)
    (h : Ends k { e with st := e.st.yieldTested, todo := { e.todo with occupancy := false } } r) :
    Ends (k + 10) { e with todo := { e.todo with occupancy := true } } r := by
  let e0 : Event := { e with todo := { e.todo with occupancy := false } }
  have hturn : turn { e with todo := { e.todo with occupancy := true } } = some (testYield e0) :=
    turn_occupancy h1 h2 rfl
  by_cases hsame : yieldAfter e.st = e.st.yielding
  · rw [yieldTested_of_eq hsame] at h
    have h' : Ends (k + 1) { e with todo := { e.todo with occupancy := true } } r := by
      refine Ends.turn (hturn.trans (congrArg some (testYield_same (by exact hsame)))) h
    exact h'.more.more.more.more.more.more.more.more.more
  · rcases hs with hs | ⟨hwf, hs⟩
    · exact absurd hs hsame
    have hother : yieldAfter e.st = !e.st.yielding := by
      cases ha : yieldAfter e.st <;> cases hy : e.st.yielding <;> simp_all
    cases hy : e.st.yielding with
    | true =>
      rw [hy] at hs hother
      rw [yieldTested_clear hsame hy] at h
      have htest : testYield e0 = { e with
          st := ({ e.st with yielding := false } : State).moved fun x => x.state == .yielded
          todo := { e.todo with occupancy := false, jobs := true } } := by
        have : testYield e0 = wakeJobs (moveJobs (fun x => x.state == .yielded) .running
            (e0.upd fun s => { s with yielding := false })) := by
          refine (if_neg hsame).trans ?_
          change (if yieldAfter e.st = true then _ else _) = _
          rw [hother]
          exact if_neg nofun
        exact this
      have hgo := ends_jobsGoOn (s := { e.st with yielding := false }) (p := fun x => x.state == .yielded) (e := e0) (wf_jobs hwf)
        (by simpa using hs) (r := r) (k := k) ⟨h1, h2, rfl, h3⟩ (by
          have : e0.todo = { e0.todo with jobs := false } := by rw [← h4]
          rw [← this]
          exact h)
      exact Ends.turn (hturn.trans (congrArg some htest)) hgo
    | false =>
      rw [hy] at hs hother
      rw [yieldTested_set hsame hy] at h
      obtain ⟨hbusy, hdrains⟩ := hs
      obtain ⟨b, hb⟩ := yieldJobs_eq (e := e0) (wf_jobs hwf) (wf_vols hwf) hdrains
      have htest : testYield e0 = { e with
          st := e.st.jobsYield
          todo := { e.todo with occupancy := false, retest := b, drains := b } } := by
        have : testYield e0 = yieldJobs (e0.upd fun s => { s with yielding := true }) := by
          refine (if_neg hsame).trans ?_
          change (if yieldAfter e.st = true then _ else _) = _
          rw [hother]
          exact if_pos rfl
        rw [this, hb]
        unfold e0
        rw [h1, h2, Bool.false_or]
      have h2' : Ends (k + 2) { e with st := e.st.jobsYield, todo := { e.todo with occupancy := false, retest := b, drains := b } } r := by
        have hplain : e.todo = { e.todo with retest := false, drains := false } := by
          calc e.todo = { e.todo with retest := e.todo.retest, drains := e.todo.drains } := rfl
            _ = { e.todo with retest := false, drains := false } := by rw [h1, h2]
        cases b with
        | false =>
          rw [hplain] at h
          exact h.more.more
        | true =>
          refine Ends.turn ((turn_of_retest rfl).trans (congrArg some (retestTurn_none (by exact hbusy)))) ?_
          refine Ends.turn ((turn_of_drains rfl rfl).trans (congrArg some (drainTurn_none (emptyDrain_none (by exact hdrains))))) ?_
          rw [hplain] at h
          exact h
      have h3' := Ends.turn (hturn.trans (congrArg some htest)) h2'
      exact h3'.more.more.more.more.more.more.more

end Sys2Proof.Machine
end

section
/-! PROOFS. CONFIG SET (R185): its checks, the fields replaced, the marks evaluated and the yield test. -/

namespace Sys2Proof.Machine

/-! ### The checks -/

theorem inRange_iff (o : Option Nat) (lo hi : Nat) : inRange o lo hi = true ↔ ∀ n, o = some n → lo ≤ n ∧ n ≤ hi := by
  cases o <;> simp [inRange]

theorem patchMarks_iff (p : ConfigPatch) :
    patchMarks p = true ↔ p.floor.isSome = true ∨ p.low.isSome = true ∨ p.clear.isSome = true := by
  simp [patchMarks, or_assoc]

theorem noFields_iff (p : ConfigPatch) : (patchFields p).all Option.isNone = true ↔ ∀ o ∈ patchFields p, o = none := by
  simp [List.all_eq_true]

theorem configCheck_noField {s : State} {p : ConfigPatch} (h : ∀ o ∈ patchFields p, o = none) :
    configCheck s p = some .malformed :=
  if_pos ((noFields_iff p).mpr h)

section
variable {s : State} {p : ConfigPatch}

/-- The checks after the first, a field being present. -/
theorem configCheck_fields (h : ∃ o ∈ patchFields p, o ≠ none) :
    configCheck s p =
      if patchMarks p ∧ s.format.cond ≠ .valid then some .notSet
      else if (p.partnerSite.isSome ∨ p.window.isSome ∨ p.ackTimeout.isSome) ∧ s.run.state ≠ .idle then some .active
      else if ¬ patchRange s.format.pool p then some .range
      else if patchMarks p ∧ ¬ (p.floor.getD s.format.floor ≤ s.format.pool ∧
          p.low.getD s.format.low < p.clear.getD s.format.clear ∧ p.clear.getD s.format.clear ≤ s.format.pool) then some .range
      else if p.yieldHigh.getD s.ctl.config.yieldHigh ≤ p.yieldLow.getD s.ctl.config.yieldLow then some .range
      else none := by
  have hno : ¬ (patchFields p).all Option.isNone = true := by
    rw [noFields_iff]
    rintro hall
    obtain ⟨o, ho, hne⟩ := h
    exact hne (hall o ho)
  exact if_neg hno

end

/-- One of three tests that give the same answer holds. -/
theorem ite_any {α : Type} {a b c : Prop} [Decidable a] [Decidable b] [Decidable c] {x y : α} (h : a ∨ b ∨ c) :
    (if a then x else if b then x else if c then x else y) = x := by
  by_cases ha : a
  · exact if_pos ha
  · rw [if_neg ha]
    by_cases hb : b
    · exact if_pos hb
    · rw [if_neg hb, if_pos ((h.resolve_left ha).resolve_left hb)]

/-! ### The event -/

/-- The yield test looks at no frame and no executing request. -/
theorem yieldTested_frame (t : State) (x : Option Executing) :
    ({ t with out := [], ctl := { t.ctl with executing := x } } : State).yieldTested =
      { t.yieldTested with out := [], ctl := { t.ctl with executing := x } } := by
  unfold State.yieldTested
  change (if yieldAfter t = t.yielding then _ else if t.yielding = true then _ else _) = _
  split_ifs <;> rfl

theorem yieldTested_ctl (t : State) : t.yieldTested.ctl = t.ctl := by
  unfold State.yieldTested
  split_ifs <;> rfl

theorem yieldTested_frontUp (t : State) : t.yieldTested.frontUp = t.frontUp := by
  unfold State.yieldTested
  split_ifs <;> rfl

/-- The end of an event that has touched the pool or nothing. -/
theorem answered_pooled (u : State) (b : Bool) (t : Todo) (number tag : Nat) (code : Code) (result : List Nat) :
    let g : Event := { st := { u with out := [], ctl := { u.ctl with executing := none } }, poolTouched := b, todo := t }
    let w := if b then evalPool u else (u, [])
    State.answered { g.evaluated with ctl := g.offered } number tag code result =
      State.answered { w.1 with ctl := w.2.foldl offer w.1.ctl } number tag code result := by
  intro g w
  let v : State := { u with out := [], ctl := { u.ctl with executing := none } }
  have heval : evalPool v =
      ({ (evalPool u).1 with out := [], ctl := { u.ctl with executing := none } }, (evalPool u).2) := by
    unfold evalPool
    change (if u.ctl.part = .recovering ∨ u.format.cond ≠ .valid then _ else if u.poolLow = true then
      if u.format.clear ≤ u.freeCount then _ else _ else if u.freeCount < u.format.low then _ else _) = _
    split_ifs <;> rfl
  have hctl : (evalPool u).1.ctl = u.ctl := by
    unfold evalPool
    split_ifs <;> rfl
  cases b with
  | false =>
    change State.answered { v with ctl := v.ctl } number tag code result = State.answered { u with ctl := u.ctl } number tag code result
    rfl
  | true =>
    have hg : g.evaluated = (evalPool v).1 ∧ g.offered = (evalPool v).2.foldl offer (evalPool v).1.ctl := by
      constructor
      · rfl
      · change (((evalPool v).2 ++ [] ++ [] ++ [] ++ [] ++ [])).foldl offer (evalPool v).1.ctl = _
        simp only [List.append_nil]
    rw [hg.1, hg.2, heval]
    change State.answered { (evalPool u).1 with
      out := [], ctl := (evalPool u).2.foldl offer { u.ctl with executing := none } } number tag code result = 
      State.answered { (evalPool u).1 with ctl := (evalPool u).2.foldl offer (evalPool u).1.ctl } number tag code result
    rw [foldl_offer_executing, hctl]
    rfl

theorem perform_configSet {p : ConfigPatch} (e : Event) (hp : e.st.ctl.part ≠ .recovering) :
    perform (.configSet p) e = doConfigSet p e :=
  if_neg fun hr => hp hr.1

/-- A CONFIG SET that passes its checks. -/
theorem exec_configSet {s : State} (h : s.ctlServes) (tag : Nat) {p : ConfigPatch} (hc : configCheck s p = none)
    (hy : (p.yieldHigh.isSome || p.yieldLow.isSome) = true → (patchState p s).yieldSettles) :
    let u := if (p.yieldHigh.isSome || p.yieldLow.isSome) = true then (patchState p s).yieldTested else patchState p s
    let w := if patchMarks p then evalPool u else (u, [])
    exec (.configSet tag p) s = .next
      (State.answered { w.1 with ctl := w.2.foldl offer w.1.ctl } 2 tag .ok (storedFields (patchState p s))) := by
  intro u w
  let o := p.yieldHigh.isSome || p.yieldLow.isSome
  let a : Answer := { number := 2, tag := tag, code := .ok, result := storedFields (patchState p s), job := none }
  let t : State := { patchState p s with out := [], ctl := { (patchState p s).ctl with executing := none } }
  let v : State := { u with out := [], ctl := { u.ctl with executing := none } }
  have hdo : doConfigSet p { st := s.executes ⟨tag, .configSet p⟩ } =
      { st := t, poolTouched := patchMarks p, todo := { occupancy := o, answer := some a } } := by
    have hc' : configCheck (s.executes ⟨tag, .configSet p⟩) p = none := hc
    unfold doConfigSet
    rw [hc']
    dsimp only
    rw [reply_eq (x := ⟨tag, 2⟩) rfl]
    rfl
  have hfinal : Ends 2 { st := v, poolTouched := patchMarks p, todo := { answer := some a } }
      (Event.sendAnswer { st := v, poolTouched := patchMarks p, todo := { answer := some a } }) := by
    refine ends_answerOnly rfl ?_
    have hctl : u.ctl = (patchState p s).ctl := by
      unfold u
      split_ifs
      · exact yieldTested_ctl _
      · rfl
    change u.ctl.queue = []
    rw [hctl]
    exact h.1.2.2
  have hends : Ends 12 (doConfigSet p { st := s.executes ⟨tag, .configSet p⟩ })
      (Event.sendAnswer { st := v, poolTouched := patchMarks p, todo := { answer := some a } }) := by
    rw [hdo]
    by_cases ho : o = true
    · have hu : v = t.yieldTested := by
        have : u = (patchState p s).yieldTested := if_pos ho
        unfold v t
        rw [yieldTested_frame, this, yieldTested_ctl]
      rw [ho]
      refine ends_yieldTest (k := 2) (e := { st := t, poolTouched := patchMarks p, todo := { answer := some a } })
        (by exact hy ho) rfl rfl rfl rfl ?_
      rw [hu] at hfinal ⊢
      exact hfinal
    · have hu : v = t := by
        have : u = patchState p s := if_neg ho
        unfold v t
        rw [this]
      rw [Bool.not_eq_true] at ho
      rw [ho, ← hu]
      exact hfinal.more.more.more.more.more.more.more.more.more.more
  have hfront : v.frontUp = true := by
    have : u.frontUp = s.frontUp := by
      unfold u
      split_ifs
      · exact yieldTested_frontUp _
      · rfl
    exact this.trans h.1.1
  rw [exec_sends h (i := .configSet tag p) (fun _ => rfl) perform_configSet (hends.runTodo (by omega)) rfl rfl rfl hfront rfl rfl
    rfl rfl nofun nofun]
  exact congrArg Host.Outcome.next (answered_pooled u (patchMarks p) _ 2 tag .ok _)

/-- Settles O22: the checks in their order, and the event of a request that passes. -/
theorem configSetChecksAndReplaces : Obligations.ConfigSetChecksAndReplaces := by
  intro s tag p h f c marks within t refusal
  have ht : t = patchState p s := by
    unfold t patchState patchConfig
    cases p.rateClass <;> rfl
  have hrefusal : ∀ r, configCheck s p = r → refusal r := by
    rintro (_ | code) hr
    · unfold refusal
      intro hy u w n
      have hyy : (p.yieldHigh.isSome || p.yieldLow.isSome) = true → (patchState p s).yieldSettles := by
        intro ho
        rw [← ht]
        exact hy (by simpa using ho)
      have hu : u = if (p.yieldHigh.isSome || p.yieldLow.isSome) = true then (patchState p s).yieldTested else patchState p s := by
        unfold u
        rw [ht]
        exact if_congr (by simp) rfl rfl
      have hw : w = if patchMarks p then evalPool u else (u, []) := if_congr (patchMarks_iff p).symm rfl rfl
      refine (exec_configSet h tag hr hyy).trans ?_
      rw [← hu, ← hw]
      unfold n
      rw [ht]
      rfl
    · refine exec_stands h (r := .configSet p) (fun _ => rfl) perform_configSet ?_ nofun nofun
      have hr' : configCheck (s.executes ⟨tag, .configSet p⟩) p = some code := hr
      unfold doConfigSet
      rw [hr']
      rfl
  refine ⟨fun hno => hrefusal _ (configCheck_noField hno), fun hf => ?_⟩
  have hcheck := configCheck_fields (s := s) hf
  have hmarks : (patchMarks p = true ∧ s.format.cond ≠ .valid) ↔ (marks ∧ f.cond ≠ .valid) := by rw [patchMarks_iff]
  refine ⟨fun hm => hrefusal _ (hcheck.trans (if_pos (hmarks.mpr hm))), fun hm => ?_⟩
  rw [if_neg (hmarks.not.mpr hm)] at hcheck
  intro port
  refine ⟨fun hport => hrefusal _ (hcheck.trans (if_pos hport)), fun hport => ?_⟩
  rw [if_neg hport] at hcheck
  intro ranges fit
  have hranges : patchRange s.format.pool p = true ↔ ranges := by
    simp only [patchRange, Bool.and_eq_true, inRange_iff, and_assoc, ranges, within, f, max32]
  have hfit : fit ↔ ¬ (patchMarks p = true ∧ ¬ (p.floor.getD s.format.floor ≤ s.format.pool ∧
        p.low.getD s.format.low < p.clear.getD s.format.clear ∧ p.clear.getD s.format.clear ≤ s.format.pool)) ∧
      ¬ p.yieldHigh.getD s.ctl.config.yieldHigh ≤ p.yieldLow.getD s.ctl.config.yieldLow := by
    rw [patchMarks_iff, not_and_not_right, not_le]
  refine ⟨fun hbad => hrefusal (some .range) (hcheck.trans ?_), fun hgood => hrefusal none (hcheck.trans ?_)⟩
  · rw [← hranges, hfit] at hbad
    refine ite_any (not_not.mp fun hno => hbad ?_)
    rw [not_or, not_or, not_not] at hno
    exact hno
  · rw [← hranges, hfit] at hgood
    obtain ⟨h1, h2, h3⟩ := hgood
    rw [if_neg (not_not.mpr h1), if_neg h2, if_neg h3]

end Sys2Proof.Machine
end

section
/-! PROOFS. The walk step over a table of jobs that lists one number twice (R10, R100, R114). -/

namespace Sys2Proof.Machine

/-! ### Two records of one job number

The statement asks nothing of the table of jobs. In a table that is not of canonical form one number can be listed twice, and
then every change of the job reaches the first record only. Two PAUSED-POOL jobs of one number and a FROZEN target: the freed
PCN tells both to run, the first one's visit leaves it PAUSED-FROZEN, and so does each further visit of the second one, which
stays RUNNING. -/

def twinJob : Job :=
  { state := .pausedPool, srcVol := 0, srcSlot := 1, srcGen := 0, dstVol := 0, owner := 0, override := false
    ranges := [{ src := 0, dst := 0, count := 1 }], total := 1, pre := none, rangeIdx := 0, offset := 0, remaining := 1
    copied := 0, cleared := 0, skipped := 0, unchanged := 0, waiting := false, copy := none, suspendReq := false
    failedPcn := none }

/-- A RUNNING part with a FROZEN volume 0, a delete walk at the only chunk of volume 1, and job 0 listed twice. -/
def twinPart : State :=
  { State.reset with
    free := List.replicate 63 0
    vols := [(0, { Volume.absent with state := .frozen, size := 1 }),
      (1, { Volume.absent with state := .deleting, size := 1, map := [(0, { form := .mapped 7 0 0, stamp := none })] })]
    jobs := [(0, twinJob), (0, twinJob)]
    ctl := { State.reset.ctl with part := .running } }

/-- The event once the PAUSED-POOL jobs are told to run, and once the first record is PAUSED-FROZEN. -/
def twinEvent : Event := ((turn (deleteWalkStep 1 (openEvent twinPart))).bind turn).getD { st := twinPart }

/-- The next turn begins the visit of the second record, and changes nothing. -/
theorem turn_twinEvent : turn twinEvent = some twinEvent := by rfl

theorem runTodo_twinEvent (n : Nat) : runTodo n twinEvent = twinEvent := by
  induction n with
  | zero => rfl
  | succ n ih => rw [runTodo_of_some turn_twinEvent, ih]

theorem exec_twinPart : exec (.volumeDeleteWalkStep 1) twinPart = .next (closeEvent twinEvent) := by
  have hfirst : ∃ e, turn (deleteWalkStep 1 (openEvent twinPart)) = some e ∧ turn e = some twinEvent := ⟨_, rfl, rfl⟩
  obtain ⟨e, h1, h2⟩ := hfirst
  change Host.Outcome.next (closeEvent (runTodo turnBound (deleteWalkStep 1 (openEvent twinPart)))) = _
  rw [show turnBound = (turnBound - 2) + 1 + 1 from rfl, runTodo_of_some h1, runTodo_of_some h2, runTodo_twinEvent]

/-- What the step leaves: the second record RUNNING. -/
theorem twinEvent_jobs : (closeEvent twinEvent).jobs =
    [(0, { twinJob with state := .pausedFrozen }), (0, { twinJob with state := .running })] := by rfl

theorem twinPart_waits : twinPart.visitsWait fun x => x.state == .pausedPool := by
  unfold State.visitsWait
  decide

/-- Refutes O27: in a table that lists one job twice the second record is not PAUSED-FROZEN on its FROZEN target. -/
theorem not_fillAndDeleteWalkStep : ¬ Obligations.FillAndDeleteWalkStep := by
  intro h
  obtain ⟨-, h⟩ := h
  obtain ⟨-, h⟩ := h twinPart 1
  obtain ⟨-, h, -⟩ := h rfl rfl
  obtain ⟨t, ht, -, -, -, -, -, -, -, -, -, hjobs, -⟩ := h (by decide) (fun _ => twinPart_waits) 7 0 0 rfl
  rw [exec_twinPart] at ht
  obtain rfl : closeEvent twinEvent = t := by injection ht
  rw [twinEvent_jobs] at hjobs
  exact absurd hjobs (by decide)

end Sys2Proof.Machine
end

section
/-! PROOFS. The end of an event without a control reply, and one step of the merge walk (R90, R91). -/

namespace Sys2Proof.Machine

/-! ### The end of an event without a control reply -/

theorem closeEvent_quiet {e : Event} (hd : e.done = []) (ho : ∀ o ∈ e.st.out, o.isPlain = true) :
    closeEvent e = { e.evaluated with
      ctl := e.late.foldl offer e.offered, out := e.sent ++ e.st.out, firing := e.evaluated.firing && e.evaluated.headDue } := by
  obtain ⟨b, vs, as, q, hs⟩ := evaluate_frame e
  have hout : e.evaluated.out = e.st.out := by rw [hs]
  have hparts : e.parts = [e.causes] := by rw [Event.parts, hd]; rfl
  unfold closeEvent
  dsimp only
  rw [hparts, completeReplies_plain _ _ _ _ _ _ (by rw [hout]; exact ho), hout]
  simp only [List.foldl_cons, List.foldl_nil, due_empty_join]
  rfl

theorem evalPool_ctl (s : State) : (evalPool s).1.ctl = s.ctl := by
  unfold evalPool
  split_ifs <;> rfl

theorem evalReserve_ctl (s : State) (v : Nat) : (evalReserve s v).1.ctl = s.ctl := by
  rw [evalReserve_eq]
  split_ifs <;> rfl

/-- Its notices name the volume. -/
theorem evalReserve_subject {s : State} {v : Nat} {n : Notice} (h : n ∈ (evalReserve s v).2) : n.subject = v := by
  rw [evalReserve_eq] at h
  split_ifs at h
  · cases h
  · rw [List.mem_singleton.mp h]
    rfl
  · rw [List.mem_singleton.mp h]
    rfl
  · cases h

/-- The end of an event that has changed F and the reserve usage of one volume (R5, R84). -/
theorem closeEvent_poolReserve (t : State) (v : Nat) (ns : List Notice) (todo : Todo) :
    let w := evalPool t
    let u := evalReserve w.1 v
    closeEvent { st := { t with out := [] }, poolTouched := true, reserves := [v], notices := ns, todo := todo } =
      State.closed { u.1 with ctl := (w.2 ++ u.2 ++ ns).foldl offer t.ctl } := by
  intro w u
  let e : Event := { st := { t with out := [] }, poolTouched := true, reserves := [v], notices := ns, todo := todo }
  have hev : e.evaluate = ({ u.1 with out := [] }, { pool := w.2, accts := [], reserves := u.2 }) := by
    have h1 : e.evaluate = ((evalReserve (evalPool { t with out := [] }).1 v).1,
        { pool := (evalPool { t with out := [] }).2, accts := [],
          reserves := (evalReserve (evalPool { t with out := [] }).1 v).2 ++ [] }) := rfl
    rw [h1, evalPool_out]
    dsimp only
    rw [evalReserve_out, List.append_nil]
  have hkeep : u.2.filter (fun n => [v].contains n.subject) = u.2 := by
    refine List.filter_eq_self.mpr fun n hn => ?_
    simp [evalReserve_subject hn]
  have hdue : e.evaluate.2.due e.causes = w.2 ++ u.2 ++ ns := by
    rw [hev]
    change w.2 ++ [] ++ [] ++ u.2.filter (fun n => [v].contains n.subject) ++ [] ++ ns = _
    rw [hkeep]
    simp only [List.append_nil]
  have hctl : u.1.ctl = t.ctl := (evalReserve_ctl _ v).trans (evalPool_ctl t)
  refine (closeEvent_quiet (e := e) rfl (by simp [e])).trans ?_
  unfold Event.offered Event.evaluated
  rw [hdue, hev]
  dsimp only
  rw [hctl]
  rfl

/-! ### The offsite engine in an IDLE run -/

theorem engineRests_idle {s : State} (h : s.run.state = .idle) : s.EngineRests := by
  rintro e rfl
  have hdue : e.st.freezeDue = none := by
    simp [State.freezeDue, h]
  have hsend : e.st.run.sending = false := by simp [Run.sending, h]
  unfold engineTurn
  by_cases hp : e.st.ctl.part = .recovering
  · exact if_pos hp
  · rw [if_neg hp]
    cases e.st.currentVol with
    | none => rfl
    | some v =>
      dsimp only
      rw [hdue, hsend]
      rfl

/-! ### One step of the merge walk -/

/-- The volume once its walk has handled the first retained entry: its last entry ends the walk, and the next snapshot of
the queue is DELETING. -/
def Volume.walked (x : Volume) (slot : Nat) (queue : List Nat) (rest : List RetEntry) (snaps : Table Snap) : Volume :=
  if rest ≠ [] then { x with snaps := snaps } else
    { x with
      snaps := match queue.head?.bind fun n => (tfind snaps n).map fun e => (n, e) with
        | some (n, e) => tput n { e with state := .deleting } (tdel slot snaps)
        | none => tdel slot snaps
      deleteQueue := queue }

section
variable {e : Event} {v slot : Nat} {queue : List Nat}

/-- The walk has taken the last entry of the set: its slot is empty, and the head behind it is DELETING. -/
theorem startHead_endWalk {snaps : Table Snap} (hs : (e.st.vol v).state ≠ .absent) (hq : (e.st.vol v).deleteQueue = slot :: queue)
    {freed : Nat} (hf : ((tfind snaps slot).map Snap.freed).getD 0 = freed)
    (hnext : ∀ n, queue.head? = some n → n ≠ slot ∧ ∃ d, tfind snaps n = some d ∧ d.retained ≠ []) :
    startHead v (Config.snapSlots + 1) (endWalk v slot (e.updVol v fun x => { x with snaps := snaps })) =
      let ended := (e.updVol v fun x => x.walked slot queue [] snaps).note .deleteDone v slot freed
      if slot = 0 then { ended with todo := { ended.todo with engine := true } } else ended := by
  have hsnaps : ((e.updVol v fun x => { x with snaps := snaps }).st.vol v).snaps = snaps := by
    rw [updVol_st_vol]
  have hfreed : ((tfind ((e.updVol v fun x => { x with snaps := snaps }).st.vol v).snaps slot).map Snap.freed).getD 0 = freed := by
    rw [hsnaps]
    exact hf
  let mid := (e.updVol v fun x => { x with snaps := tdel slot snaps, deleteQueue := queue }).note .deleteDone v slot freed
  have hend : endWalk v slot (e.updVol v fun x => { x with snaps := snaps }) =
      if slot = 0 then { mid with todo := { mid.todo with engine := true } } else mid := by
    have htake : (e.updVol v fun x => { x with snaps := tdel slot snaps, deleteQueue := x.deleteQueue.drop 1 }) =
        e.updVol v fun x => { x with snaps := tdel slot snaps, deleteQueue := queue } := by
      rw [updVol_eq (y := { e.st.vol v with snaps := tdel slot snaps, deleteQueue := queue })]
      · rfl
      · rw [hq]
        rfl
    simp only [endWalk, hfreed]
    rw [Event.updVol_updVol _ _ _ _ (by exact hs) (by exact hs)]
    dsimp only
    rw [htake]
  have hmid : ∀ t : Todo, (({ mid with todo := t } : Event).st.vol v) =
      { e.st.vol v with snaps := tdel slot snaps, deleteQueue := queue } :=
    fun _ => updVol_st_vol e v fun x => { x with snaps := tdel slot snaps, deleteQueue := queue }
  have hstart : ∀ t : Todo, startHead v (Config.snapSlots + 1) { mid with todo := t } =
      { (e.updVol v fun x => x.walked slot queue [] snaps).note .deleteDone v slot freed with todo := t } := by
    intro t
    cases hqq : queue with
    | nil =>
      rw [startHead_empty (by rw [hmid, hqq])]
      unfold mid
      rw [hqq]
      simp only [Volume.walked, ne_eq, not_true_eq_false, if_false, List.head?_nil, Option.bind_none]
    | cons n more =>
      obtain ⟨hn, d, hd, hr⟩ := hnext n (by rw [hqq]; rfl)
      have hfind : tfind (tdel slot snaps) n = some d := (tfind_tdel_ne slot n snaps hn).trans hd
      rw [startHead]
      have h1 : (({ mid with todo := t } : Event).st.vol v).deleteQueue = n :: more := by rw [hmid, hqq]
      have h2 : tfind (({ mid with todo := t } : Event).st.vol v).snaps n = some d := by rw [hmid]; exact hfind
      simp only [h1, h2]
      rw [if_neg fun hc => hr hc.1]
      have hwalk : (e.updVol v fun x => x.walked slot queue [] snaps) =
          (e.updVol v fun x => { x with snaps := tdel slot snaps, deleteQueue := queue }).updVol v fun x =>
            x.setSnap n { d with state := .deleting } := by
        rw [Event.updVol_updVol _ _ _ _ (by exact hs) (by exact hs)]
        refine congrArg (e.updVol v) (funext fun x => ?_)
        simp only [Volume.walked, ne_eq, not_true_eq_false, if_false, hqq, List.head?_cons, Option.bind_some, hd, Option.map_some]
        rfl
      rw [← hqq, hwalk]
      rfl
  rw [hend]
  dsimp only
  split_ifs with h0
  · exact hstart _
  · exact hstart _

end

/-- An event that offers notices and calls for nothing that finds something to do. -/
theorem runEvent_noted {s t : State} {f : Event → Event} {todo : Todo} {ns : List Notice}
    (hf : f (openEvent s) = { st := { t with out := [] }, todo := todo, notices := ns })
    (hs : ({ st := { t with out := [] }, todo := todo, notices := ns } : Event).Settled) (ha : todo.answer = none)
    (hl : todo.drainBegin.length ≤ 900) : runEvent s f = State.closed { t with ctl := ns.foldl offer t.ctl } := by
  have hdue : ({ st := { t with out := [] }, todo := todo, notices := ns } : Event).evaluate.2.due
      ({ st := { t with out := [] }, todo := todo, notices := ns } : Event).causes = ns := by
    change [] ++ [] ++ [] ++ [] ++ [] ++ ns = ns
    rfl
  rw [runEvent, hf, runTodo_settled hs hl, closeEvent_noAnswer ha, closeEvent_quiet rfl (by simp)]
  unfold Event.offered
  rw [hdue]
  rfl

/-- The same for one that has changed F and the reserve usage of a volume. -/
theorem runEvent_poolReserve {s t : State} {f : Event → Event} {v : Nat} {todo : Todo} {ns : List Notice}
    (hf : f (openEvent s) =
      { st := { t with out := [] }, poolTouched := true, reserves := [v], notices := ns, todo := todo })
    (hs : ({ st := { t with out := [] }, poolTouched := true, reserves := [v], notices := ns, todo := todo } : Event).Settled)
    (ha : todo.answer = none) (hl : todo.drainBegin.length ≤ 900) :
    let w := evalPool t
    let u := evalReserve w.1 v
    runEvent s f = State.closed { u.1 with ctl := (w.2 ++ u.2 ++ ns).foldl offer t.ctl } := by
  intro w u
  rw [runEvent, hf, runTodo_settled hs hl, closeEvent_noAnswer ha]
  exact closeEvent_poolReserve t v ns todo

section
variable {s : State} {v slot : Nat} {queue : List Nat} {d : Snap} {r : RetEntry} {rest : List RetEntry}

/-- The notice of the end of a walk. -/
def doneNotices (s : State) (v slot freed : Nat) (rest : List RetEntry) : List Notice :=
  if rest ≠ [] then [] else [s.notice .deleteDone v slot freed]

/-- What the entry's new place leaves of the walk: its end, if the entry was the last. -/
theorem walk_eq {e : Event} {snaps : Table Snap} (hs : (e.st.vol v).state ≠ .absent)
    (hq : (e.st.vol v).deleteQueue = slot :: queue) {freed : Nat} (hf : ((tfind snaps slot).map Snap.freed).getD 0 = freed)
    (hnext : rest = [] → ∀ n, queue.head? = some n → n ≠ slot ∧ ∃ d, tfind snaps n = some d ∧ d.retained ≠ []) :
    (if rest = [] then startHead v (Config.snapSlots + 1) (endWalk v slot (e.updVol v fun x => { x with snaps := snaps }))
      else e.updVol v fun x => { x with snaps := snaps }) =
      { (e.updVol v fun x => x.walked slot queue rest snaps) with
        notices := e.notices ++ doneNotices e.st v slot freed rest
        todo := { e.todo with engine := e.todo.engine || decide (rest = [] ∧ slot = 0) } } := by
  by_cases hr : rest = []
  · rw [if_pos hr, startHead_endWalk hs hq hf (hnext hr)]
    subst hr
    simp only [doneNotices, ne_eq, not_true_eq_false, if_false, true_and]
    by_cases h0 : slot = 0
    · simp only [h0, if_true, decide_true, Bool.or_true]
      rfl
    · simp only [h0, if_false, decide_false, Bool.or_false]
      rfl
  · rw [if_neg hr]
    simp only [doneNotices, ne_eq, hr, not_false_eq_true, if_true, List.append_nil, false_and, decide_false, Bool.or_false]
    have : (fun x : Volume => x.walked slot queue rest snaps) = fun x => { x with snaps := snaps } := by
      funext x
      exact if_pos hr
    rw [this]
    rfl

theorem exec_mergeWaits (h : s.ctl.part ≠ .running) : exec (.mergeWalkStep v) s = .next s.closed := by
  refine congrArg Host.Outcome.next (runEvent_silent ?_)
  exact if_pos (.inl h)

/-- The rule of a step on the DELETING head of the queue. -/
theorem mergeStep_eq {e : Event} (hp : e.st.ctl.part = .running) (hu : (e.st.vol v).usable = true)
    (hq : (e.st.vol v).deleteQueue = slot :: queue) (hd : tfind (e.st.vol v).snaps slot = some d) (hr : d.retained = r :: rest) :
    mergeStep v e =
      let older := newestSnap (fun q => q.state != .deleting && decide (q.gen < d.gen)) (e.st.vol v).snaps
      let e := match older with
        | some (ps, p) =>
          if r.born ≤ p.gen then
            e.updVol v fun y => (y.setSnap slot { d with retained := rest }).setSnap ps { p with retained := p.retained ++ [r] }
          else (freePcns [r.pcn] (e.updVol v fun y =>
            y.setSnap slot { d with retained := rest, freed := d.freed + 1 })).touchReserve v
        | none => (freePcns [r.pcn] (e.updVol v fun y =>
            y.setSnap slot { d with retained := rest, freed := d.freed + 1 })).touchReserve v
      if rest = [] then startHead v (Config.snapSlots + 1) (endWalk v slot e) else e := by
  have hc : ¬ (e.st.ctl.part ≠ .running ∨ ¬ (e.st.vol v).usable = true) := by simp [hp, hu]
  unfold mergeStep
  dsimp only
  rw [if_neg hc, hq]
  dsimp only
  rw [hd]
  dsimp only
  rw [hr]
  rfl

/-- The entry goes to the next older sharing snapshot. -/
theorem exec_mergeMoves (hp : s.ctl.part = .running) (hu : (s.vol v).usable = true)
    (hq : (s.vol v).deleteQueue = slot :: queue) (hd : tfind (s.vol v).snaps slot = some d) (hr : d.retained = r :: rest)
    (hslot : rest = [] → slot ≠ 0 ∨ s.run.state = .idle)
    (hnext : rest = [] → ∀ n, queue.head? = some n → n ≠ slot ∧ ∃ e, tfind (s.vol v).snaps n = some e ∧ e.retained ≠ [])
    (hwf : s.wf = true) {ps : Nat} {p : Snap}
    (ho : newestSnap (fun q => q.state != .deleting && decide (q.gen < d.gen)) (s.vol v).snaps = some (ps, p))
    (hb : r.born ≤ p.gen) :
    exec (.mergeWalkStep v) s = .next (State.closed { s.setVol v ((s.vol v).walked slot queue rest
      (tput ps { p with retained := p.retained ++ [r] } (tput slot { d with retained := rest } (s.vol v).snaps))) with
        ctl := (doneNotices s v slot d.freed rest).foldl offer s.ctl }) := by
  let snaps := tput ps { p with retained := p.retained ++ [r] } (tput slot { d with retained := rest } (s.vol v).snaps)
  obtain ⟨hmem, hpp, -⟩ := newestSnap_some ho
  simp only [Bool.and_eq_true, decide_eq_true_eq] at hpp
  have hsorted : Table.sorted (s.vol v).snaps = true :=
    tget_of_forall (Q := fun x : Volume => Table.sorted x.snaps = true) rfl
      (fun q hq => by
        simp only [State.wf, Bool.and_eq_true, List.all_eq_true, Volume.wf] at hwf
        exact (hwf.1.1.1.1.1.1.2 q hq).2) v
  have hps : slot ≠ ps := by
    rintro rfl
    have := tfind_of_mem hsorted hmem
    dsimp only at this
    rw [hd] at this
    obtain rfl := Option.some.inj this
    exact absurd hpp.2 (lt_irrefl _)
  have hfreed : ((tfind snaps slot).map Snap.freed).getD 0 = d.freed := by
    rw [tfind_tput_ne _ _ _ _ hps, tfind_tput_same]
    rfl
  have hnext' : rest = [] → ∀ n, queue.head? = some n → n ≠ slot ∧ ∃ d, tfind snaps n = some d ∧ d.retained ≠ [] := by
    intro h n hn
    obtain ⟨hne, e, he, her⟩ := hnext h n hn
    refine ⟨hne, ?_⟩
    by_cases hnp : n = ps
    · exact ⟨{ p with retained := p.retained ++ [r] }, by rw [hnp]; exact tfind_tput_same .., by simp⟩
    · exact ⟨e, by rw [tfind_tput_ne _ _ _ _ hnp, tfind_tput_ne _ _ _ _ hne, he], her⟩
  have hs : ((openEvent s).st.vol v).state ≠ .absent := fun h => absurd hu ((not_usable_iff _).mpr (.inl h))
  let u : State := { s.setVol v ((s.vol v).walked slot queue rest snaps) with out := [] }
  let todo : Todo := { engine := decide (rest = [] ∧ slot = 0) }
  have hstep : mergeStep v (openEvent s) = { st := u, todo := todo, notices := doneNotices s v slot d.freed rest } := by
    rw [mergeStep_eq (e := openEvent s) (by exact hp) (by exact hu) (by exact hq) (by exact hd) hr]
    dsimp only
    rw [show newestSnap (fun q => q.state != .deleting && decide (q.gen < d.gen)) ((openEvent s).st.vol v).snaps = some (ps, p)
      from ho]
    dsimp only
    rw [if_pos hb]
    have hupd : ((openEvent s).updVol v fun y => (y.setSnap slot { d with retained := rest }).setSnap ps
        { p with retained := p.retained ++ [r] }) = (openEvent s).updVol v fun x => { x with snaps := snaps } :=
      (updVol_eq rfl).trans (updVol_eq (v := v) (e := openEvent s) (f := fun x => { x with snaps := snaps }) rfl).symm
    rw [hupd, walk_eq hs hq hfreed hnext']
    rfl
  refine congrArg Host.Outcome.next ((runEvent_noted (t := s.setVol v ((s.vol v).walked slot queue rest snaps)) hstep ?_ rfl
    (by simp [todo])).trans rfl)
  refine ⟨nofun, nofun, nofun, nofun, nofun, nofun, fun he => ?_, nofun, nofun, nofun⟩
  obtain ⟨hre, h0⟩ := of_decide_eq_true he
  exact engineRests_idle ((hslot hre).resolve_left fun h => h h0)

/-- The entry's PCN is freed. -/
theorem exec_mergeFrees (hp : s.ctl.part = .running) (hu : (s.vol v).usable = true)
    (hq : (s.vol v).deleteQueue = slot :: queue) (hd : tfind (s.vol v).snaps slot = some d) (hr : d.retained = r :: rest)
    (hslot : rest = [] → slot ≠ 0 ∨ s.run.state = .idle)
    (hnext : rest = [] → ∀ n, queue.head? = some n → n ≠ slot ∧ ∃ e, tfind (s.vol v).snaps n = some e ∧ e.retained ≠ [])
    (ho : ∀ ps p, newestSnap (fun q => q.state != .deleting && decide (q.gen < d.gen)) (s.vol v).snaps = some (ps, p) →
      p.gen < r.born) (hj : ∀ p ∈ s.jobs, p.2.state.ended = true) :
    let t : State := { s.setVol v ((s.vol v).walked slot queue rest
      (tput slot { d with retained := rest, freed := d.freed + 1 } (s.vol v).snaps)) with free := s.free ++ [r.pcn] }
    let w := evalPool t
    let u := evalReserve w.1 v
    exec (.mergeWalkStep v) s = .next
      (State.closed { u.1 with ctl := (w.2 ++ u.2 ++ doneNotices s v slot (d.freed + 1) rest).foldl offer s.ctl }) := by
  intro t w u
  let snaps := tput slot { d with retained := rest, freed := d.freed + 1 } (s.vol v).snaps
  have hfreed : ((tfind snaps slot).map Snap.freed).getD 0 = d.freed + 1 := by
    rw [tfind_tput_same]
    rfl
  have hnext' : rest = [] → ∀ n, queue.head? = some n → n ≠ slot ∧ ∃ d, tfind snaps n = some d ∧ d.retained ≠ [] := by
    intro h n hn
    obtain ⟨hne, e, he, her⟩ := hnext h n hn
    exact ⟨hne, e, by rw [tfind_tput_ne _ _ _ _ hne, he], her⟩
  let e1 : Event := (freePcns [r.pcn] (openEvent s)).touchReserve v
  have hs : (e1.st.vol v).state ≠ .absent := fun h => absurd hu ((not_usable_iff _).mpr (.inl h))
  have hfree : ((freePcns [r.pcn] ((openEvent s).updVol v fun y =>
      y.setSnap slot { d with retained := rest, freed := d.freed + 1 })).touchReserve v) =
      e1.updVol v fun x => { x with snaps := snaps } := by
    rw [updVol_eq (v := v) (e := openEvent s) rfl, updVol_eq (v := v) (e := e1) rfl]
    rfl
  let todo : Todo := { pool := true, engine := decide (rest = [] ∧ slot = 0) }
  let ns := doneNotices s v slot (d.freed + 1) rest
  have hstep : mergeStep v (openEvent s) =
      { st := { t with out := [] }, poolTouched := true, reserves := [v], notices := ns, todo := todo } := by
    rw [mergeStep_eq (e := openEvent s) (by exact hp) (by exact hu) (by exact hq) (by exact hd) hr]
    dsimp only
    have hmatch : ∀ o : Option (Nat × Snap), (∀ ps p, o = some (ps, p) → p.gen < r.born) →
        (match o with
        | some (ps, p) =>
          if r.born ≤ p.gen then (openEvent s).updVol v fun y => (y.setSnap slot { d with retained := rest }).setSnap ps
            { p with retained := p.retained ++ [r] }
          else (freePcns [r.pcn] ((openEvent s).updVol v fun y =>
            y.setSnap slot { d with retained := rest, freed := d.freed + 1 })).touchReserve v
        | none => (freePcns [r.pcn] ((openEvent s).updVol v fun y =>
            y.setSnap slot { d with retained := rest, freed := d.freed + 1 })).touchReserve v) =
          e1.updVol v fun x => { x with snaps := snaps } := by
      rintro (_ | ⟨ps, p⟩) h
      · exact hfree
      · exact (if_neg (Nat.not_le.mpr (h ps p rfl))).trans hfree
    have := hmatch _ ho
    refine Eq.trans (congrArg (fun e => if rest = [] then startHead v (Config.snapSlots + 1) (endWalk v slot e) else e) this) ?_
    rw [walk_eq hs hq hfreed hnext']
    rfl
  refine congrArg Host.Outcome.next (runEvent_poolReserve hstep ?_ rfl (by simp [todo]))
  have hended : ∀ p ∈ s.jobs, p.2.state ≠ .pausedPool ∧ p.2.state ≠ .running := by
    intro p hp'
    have := hj p hp'
    constructor <;> intro h <;> rw [h] at this <;> cases this
  refine ⟨nofun, nofun, nofun, fun _ _ p hp' => (hended p hp').1, fun _ p hp' => canVisit_of_state (hended p hp').2, nofun,
    fun he => ?_, nofun, nofun, nofun⟩
  obtain ⟨hre, h0⟩ := of_decide_eq_true he
  exact engineRests_idle ((hslot hre).resolve_left fun h => h h0)

end

/-- Settles O34: the step waits, moves the entry, or frees it, and ends the walk with the last one. -/
theorem mergeWalkMovesOrFreesOneEntry : Obligations.MergeWalkMovesOrFreesOneEntry := by
  intro s v slot queue d r rest x older walked done
  refine ⟨exec_mergeWaits, fun hp ha hdel hq hd hr hslot hnext => ?_⟩
  have hu : (s.vol v).usable = true := by
    by_contra h
    rcases (not_usable_iff _).mp h with h | h
    · exact ha h
    · exact hdel h
  refine ⟨fun ps p ho hb hwf => exec_mergeMoves hp hu hq hd hr hslot hnext hwf ho hb, fun ho hj => ?_⟩
  exact exec_mergeFrees hp hu hq hd hr hslot hnext ho hj

end Sys2Proof.Machine
end

section
/-! PROOFS. What the evaluations at the end of an event leave of accounts and volumes (R5, R60, R84). -/

namespace Sys2Proof.Machine

/-- The two records of an account agree in its charge, its reservation and its limits. -/
def Account.sameMoney (a b : Account) : Prop :=
  a.charge = b.charge ∧ a.reserved = b.reserved ∧ a.soft = b.soft ∧ a.hard = b.hard

theorem Account.sameMoney.refl (a : Account) : a.sameMoney a := ⟨rfl, rfl, rfl, rfl⟩

theorem Account.sameMoney.trans {a b c : Account} (h : a.sameMoney b) (h' : b.sameMoney c) : a.sameMoney c :=
  ⟨h.1.trans h'.1, h.2.1.trans h'.2.1, h.2.2.1.trans h'.2.2.1, h.2.2.2.trans h'.2.2.2⟩

/-- What every one of a list of tests keeps, all of them together keep. -/
theorem evalEach_relates {f : State → Nat → State × List Notice} {R : State → State → Prop} (hrefl : ∀ s, R s s)
    (htrans : ∀ {a b c}, R a b → R b c → R a c) {l : List Nat} (hf : ∀ k ∈ l, ∀ s, R s (f s k).1) (s : State) :
    R s (evalEach f l s).1 := by
  induction l generalizing s with
  | nil => exact hrefl s
  | cons k l ih =>
    exact htrans (hf k (List.mem_cons_self ..) s) (ih (fun j hj => hf j (List.mem_cons_of_mem _ hj)) _)

theorem reportAccount_acct (s : State) (tag o : Nat) :
    ((reportAccount s tag).1.acct o).sameMoney (s.acct o) ∧ (o ≠ tag → (reportAccount s tag).1.acct o = s.acct o) := by
  by_cases htag : tag = 0
  · have : reportAccount s tag = (s, []) := if_pos (.inl htag)
    rw [this]
    exact ⟨.refl _, fun _ => rfl⟩
  · obtain ⟨hsame, -, hother, -⟩ := reportAccount_spec (s := s) htag
    refine ⟨?_, hother o⟩
    by_cases ho : o = tag
    · subst ho
      rw [hsame]
      exact ⟨rfl, rfl, rfl, rfl⟩
    · rw [hother o ho]
      exact .refl _

theorem reportAccount_frame (s : State) (tag : Nat) : ∃ as, (reportAccount s tag).1 = { s with accounts := as } := by
  by_cases htag : tag = 0
  · have : reportAccount s tag = (s, []) := if_pos (.inl htag)
    rw [this]
    exact ⟨s.accounts, rfl⟩
  · exact ⟨_, (reportAccount_spec (s := s) htag).2.2.2⟩

theorem evaluateAccount_acct (s : State) (tag o : Nat) :
    ((evaluateAccount s tag).1.acct o).sameMoney (s.acct o) ∧ (o ≠ tag → (evaluateAccount s tag).1.acct o = s.acct o) := by
  by_cases htag : tag = 0
  · have : evaluateAccount s tag = (s, []) := if_pos htag
    rw [this]
    exact ⟨.refl _, fun _ => rfl⟩
  · have heval : evaluateAccount s tag = reportAccount (settleAccount s tag) tag := if_neg htag
    obtain ⟨queued, queue, hsettle, -, -⟩ := settleAccount_spec s tag
    have hset : ((settleAccount s tag).acct o).sameMoney (s.acct o) ∧
        (o ≠ tag → (settleAccount s tag).acct o = s.acct o) := by
      rw [hsettle]
      refine ⟨?_, fun ho => State.acct_setAcct_ne _ _ _ _ ho⟩
      by_cases ho : o = tag
      · subst ho
        change ((s.setAcct o _).acct o).sameMoney _
        rw [State.acct_setAcct]
        exact ⟨rfl, rfl, rfl, rfl⟩
      · change ((s.setAcct tag _).acct o).sameMoney _
        rw [State.acct_setAcct_ne _ _ _ _ ho]
        exact .refl _
    obtain ⟨h1, h2⟩ := reportAccount_acct (settleAccount s tag) tag o
    rw [heval]
    exact ⟨h1.trans hset.1, fun ho => (h2 ho).trans (hset.2 ho)⟩

theorem evalPool_acct (s : State) (o : Nat) : (evalPool s).1.acct o = s.acct o := by
  obtain ⟨b, h⟩ := evalPool_frame s
  rw [h]
  rfl

theorem evalPool_vol (s : State) (v : Nat) : (evalPool s).1.vol v = s.vol v := by
  obtain ⟨b, h⟩ := evalPool_frame s
  rw [h]
  rfl

theorem evalReserve_acct (s : State) (v o : Nat) : (evalReserve s v).1.acct o = s.acct o := by
  rcases evalReserve_frame s v with h | ⟨b, h⟩
  · rw [h]
  · rw [h]
    rfl

/-- The reserve test of a volume changes its flag at most. -/
theorem evalReserve_vol (s : State) (v w : Nat) :
    (∃ b, (evalReserve s v).1.vol w = { s.vol w with reserveOver := b }) ∧ (w ≠ v → (evalReserve s v).1.vol w = s.vol w) := by
  rcases evalReserve_frame s v with h | ⟨b, h⟩
  · rw [h]
    exact ⟨⟨_, rfl⟩, fun _ => rfl⟩
  · rw [h]
    refine ⟨?_, fun hw => State.vol_setVol_ne _ _ _ _ hw⟩
    by_cases hw : w = v
    · subst hw
      exact ⟨b, State.vol_setVol ..⟩
    · exact ⟨_, State.vol_setVol_ne _ _ _ _ hw⟩

/-- What each kind of evaluation keeps, the end of an event keeps. -/
theorem evaluated_keeps {R : State → State → Prop} (hrefl : ∀ s, R s s) (htrans : ∀ {a b c}, R a b → R b c → R a c) (e : Event)
    (hpool : e.all.pool = true → ∀ s, R s (evalPool s).1)
    (hacct : ∀ o, o ∈ e.all.accts ∨ o ∈ e.all.reports → ∀ s, R s (evaluateAccount s o).1 ∧ R s (reportAccount s o).1)
    (hres : ∀ v ∈ e.all.reserves, ∀ s, R s (evalReserve s v).1) : R e.st e.evaluated := by
  have h1 : R e.st (if e.all.pool then evalPool e.st else (e.st, [])).1 := by
    split_ifs with hp
    · exact hpool hp _
    · exact hrefl _
  refine htrans h1 (htrans ?_ (evalEach_relates hrefl htrans hres _))
  refine evalEach_relates hrefl htrans (fun k hk s => ?_) _
  have hk' := hacct k (by simpa [mem_unionAsc] using hk) s
  split_ifs
  · exact hk'.1
  · exact hk'.2

theorem evaluated_acct (e : Event) (o : Nat) : (e.evaluated.acct o).sameMoney (e.st.acct o) :=
  evaluated_keeps (R := fun s t => (t.acct o).sameMoney (s.acct o)) (fun _ => .refl _) (fun h h' => h'.trans h) e
    (fun _ s => by rw [evalPool_acct]; exact .refl _)
    (fun k _ s => ⟨(evaluateAccount_acct s k o).1, (reportAccount_acct s k o).1⟩)
    fun v _ s => by rw [evalReserve_acct]; exact .refl _

theorem evaluated_acct_ne (e : Event) {o : Nat} (ho : o ∉ e.all.accts) (ho' : o ∉ e.all.reports) :
    e.evaluated.acct o = e.st.acct o :=
  evaluated_keeps (R := fun s t => t.acct o = s.acct o) (fun _ => rfl) (fun h h' => h'.trans h) e
    (fun _ s => evalPool_acct s o)
    (fun k hk s => by
      have hne : o ≠ k := by
        rintro rfl
        exact hk.elim ho ho'
      exact ⟨(evaluateAccount_acct s k o).2 hne, (reportAccount_acct s k o).2 hne⟩)
    fun v _ s => evalReserve_acct s v o

theorem evaluated_vol (e : Event) (w : Nat) : ∃ b, e.evaluated.vol w = { e.st.vol w with reserveOver := b } :=
  evaluated_keeps (R := fun s t => ∃ b, t.vol w = { s.vol w with reserveOver := b }) (fun _ => ⟨_, rfl⟩)
    (fun ⟨b, h⟩ ⟨b', h'⟩ => ⟨b', by rw [h', h]⟩) e (fun _ s => ⟨_, evalPool_vol s w⟩)
    (fun k _ s => by
      obtain ⟨_, _, h⟩ := evaluateAccount_frame s k
      obtain ⟨_, h'⟩ := reportAccount_frame s k
      rw [h, h']
      exact ⟨⟨_, rfl⟩, ⟨_, rfl⟩⟩)
    fun v _ s => (evalReserve_vol s v w).1

theorem evaluated_vol_ne (e : Event) {w : Nat} (hw : w ∉ e.all.reserves) : e.evaluated.vol w = e.st.vol w :=
  evaluated_keeps (R := fun s t => t.vol w = s.vol w) (fun _ => rfl) (fun h h' => h'.trans h) e (fun _ s => evalPool_vol s w)
    (fun k _ s => by
      obtain ⟨_, _, h⟩ := evaluateAccount_frame s k
      obtain ⟨_, h'⟩ := reportAccount_frame s k
      rw [h, h']
      exact ⟨rfl, rfl⟩)
    fun v hv s => (evalReserve_vol s v w).2 fun h => hw (h ▸ hv)

end Sys2Proof.Machine
end

section
/-! PROOFS. RESTORE START (R102 to R104). -/

namespace Sys2Proof.Machine

/-! ### The checks -/

theorem freeJob_none_iff (s : State) : (freeJob s).isNone = true ↔ ∀ j, j ≤ 3 → tfind s.jobs j ≠ none := by
  simp only [freeJob, Option.isNone_iff_eq_none, List.find?_eq_none, List.mem_range, Config.jobs]
  exact ⟨fun h j hj => h j (by omega), fun h j hj => h j (by omega)⟩

theorem freeJob_some {s : State} {j : Nat} (hj : j ≤ 3) (hfree : tfind s.jobs j = none) (hmin : ∀ i, i < j → tfind s.jobs i ≠ none) :
    freeJob s = some j := by
  rw [freeJob, List.find?_range_eq_some]
  simp only [Option.isNone_iff_eq_none, Config.jobs]
  exact ⟨hfree, List.mem_range.mpr (by omega), fun i hi => by simpa [Option.isSome_iff_ne_none] using hmin i hi⟩

theorem readySnap_iff (x : Volume) (slot : Nat) : readySnap x slot = true ↔ ∃ d, tfind x.snaps slot = some d ∧ d.state = .ready := by
  unfold readySnap
  cases tfind x.snaps slot <;> simp

theorem pairwiseDisjoint_iff (rs : List Range) : pairwiseDisjoint rs = true ↔
    rs.Pairwise fun a b => ¬ (a.dst < b.dst + b.count ∧ b.dst < a.dst + a.count) := by
  induction rs with
  | nil => simp [pairwiseDisjoint]
  | cons r rs ih =>
    rw [pairwiseDisjoint, Bool.and_eq_true, ih, List.pairwise_cons, List.all_eq_true]
    refine and_congr (forall₂_congr fun q _ => ?_) Iff.rfl
    simp only [rangesMeet, Bool.not_eq_true', Bool.and_eq_false_iff, decide_eq_false_iff_not, not_and_or]

theorem overlapsJob_iff (dv : Nat) (rs : List Range) (x : Job) : overlapsJob dv rs x = true ↔
    x.state.ended = false ∧ x.dstVol = dv ∧ ∃ q ∈ x.ranges, ∃ r ∈ rs, q.dst < r.dst + r.count ∧ r.dst < q.dst + q.count := by
  simp [overlapsJob, rangesMeet, and_assoc]

theorem reserveTest_iff (s : State) (o t : Nat) (override : Bool) : ¬ reserveTest s o t override = true ↔
    override = false ∧ o ≠ 0 ∧ (s.acct o).hard ≠ 268435455 ∧ (s.acct o).hard < (s.acct o).charge + (s.acct o).reserved + t := by
  simp only [reserveTest, noLimit, Bool.or_eq_true, beq_iff_eq, not_or, Bool.not_eq_true, and_assoc]
  refine and_congr Iff.rfl (and_congr Iff.rfl (and_congr Iff.rfl ?_))
  rw [decide_eq_false_iff_not, not_le]
  rfl

theorem usable_iff (x : Volume) : x.usable = true ↔ x.state ≠ .absent ∧ x.state ≠ .deleting := by
  have := (not_usable_iff x).not
  rw [not_not, not_or] at this
  exact this

section
variable {s : State} {sv ss dv owner : Nat} {override : Bool} {rs : List Range}

theorem rangeTest_iff : (¬ owner < 65536 ∨ ¬ rs.all (fun r =>
      decide (r.src + r.count ≤ (s.vol sv).size) && decide (r.dst + r.count ≤ (s.vol dv).size)) = true) ↔
    65535 < owner ∨ ∃ r ∈ rs, (s.vol sv).size < r.src + r.count ∨ (s.vol dv).size < r.dst + r.count := by
  refine or_congr (by omega) ?_
  rw [List.all_eq_true]
  simp only [Bool.and_eq_true, decide_eq_true_eq, not_forall, not_and_or, not_le, exists_prop]

/-- The checks of R102 in their order, in the words of the statement. -/
theorem restoreCheck_eq : restoreCheck s sv ss dv owner override rs =
    if rs = [] ∨ 16 < rs.length ∨ (rs.any fun r => r.count == 0) then some .malformed
    else if (freeJob s).isNone then some .busy
    else if ¬ (sv < Config.volumes ∧ (s.vol sv).usable ∧ 1 ≤ ss ∧ ss < Config.snapSlots ∧ readySnap (s.vol sv) ss) then some .noView
    else if ¬ (dv < Config.volumes ∧ (s.vol dv).usable) then some .badVol
    else if (s.vol dv).state = .frozen then some .frozen
    else if ¬ owner < 65536 ∨ ¬ rs.all (fun r =>
        decide (r.src + r.count ≤ (s.vol sv).size) && decide (r.dst + r.count ≤ (s.vol dv).size)) then some .range
    else if ¬ pairwiseDisjoint rs ∨ (s.jobs.any fun p => overlapsJob dv rs p.2) then some .overlap
    else if ¬ reserveTest s owner (totalCount rs) override then some .quota
    else if s.freeCount < (if override then 1 else s.format.floor) then some .noSpace
    else none := rfl

end

/-! ### The create of a start that finds no changing work in hand (R78, R104) -/

/-- The volume with its PRE-RESTORE snapshot made and pinned. -/
def Volume.pinnedSnap (x : Volume) (slot : Nat) (d : Snap) : Volume :=
  { x with snaps := tput slot { d with inUse := d.inUse + 1 } x.snaps, gen := x.gen + 1 }

/-- What the answer makes of the job. -/
def Job.started (x : Job) (s : State) (slot gen : Nat) : Job := { x with pre := some (slot, gen), state := runState s }

theorem createCheck_preRestore {x : Volume} {slot : Nat} (hs : x.emptySlot = some slot) (hg : x.gen < 4294967294) :
    createCheck .preRestore x = none := by
  have hrun : ¬ SnapKind.preRestore = .run := nofun
  have hreserve : ¬ ((SnapKind.preRestore = .user ∨ SnapKind.preRestore = .scheduled) ∧ x.reserveLimit ≠ noLimit ∧
      x.reserveLimit ≤ x.reserveUsage) := by
    rintro ⟨h | h, -⟩ <;> cases h
  have hmax : ¬ Config.maxGen ≤ x.gen := by
    unfold Config.maxGen
    omega
  have hfree : ¬ ¬ x.emptySlot.isSome = true := by simp [hs]
  simp only [createCheck, if_neg hrun]
  rw [if_neg hfree, if_neg hreserve, if_neg hmax]

theorem askCreate_restore {v slot j : Nat} {e : Event} {x : Executing} {y : Job} (hx : e.st.ctl.executing = some x)
    (hj : tfind e.st.jobs j = some y) (hv : y.dstVol = v) (hslot : (e.st.vol v).emptySlot = some slot)
    (hgen : (e.st.vol v).gen < 4294967294) (hstate : (e.st.vol v).state = .normal) (hdrain : (e.st.vol v).drain = none)
    (hwait : (e.st.vol v).waiting = []) (hhold : (e.st.vol v).holdList = []) (hset : drainSet e.st v = []) :
    let c : CreateReq := { kind := .preRestore, series := none, label := j, asker := .restore j }
    let jobs := tput j (y.started e.st slot (e.st.vol v).gen) e.st.jobs
    askCreate v c e =
      reply .ok [j, (e.st.vol v).gen, slot]
        { ((e.updVol v fun z => z.pinnedSnap slot (newSnap e.st v c)).upd fun s => { s with jobs := jobs }) with
          todo := { e.todo with jobs := true, drainBegin := insertAsc v e.todo.drainBegin } } := by
  intro c jobs
  obtain ⟨d, hask, hwork⟩ := askDrain_holding_empty (c := c) hdrain hwait hset
  let e1 := e.updVol v fun x => { x with drain := some d }
  have hvol : e1.st.vol v = { e.st.vol v with drain := some d } := updVol_st_vol ..
  have habsent : (e.st.vol v).state ≠ .absent := by rw [hstate]; nofun
  let e2 := wakeJobs ((e1.updVol v fun z => z.pinnedSnap slot (newSnap e.st v c)).upd fun s => { s with jobs := jobs })
  have haction : drainAction v d .taken e1 = reply .ok [j, (e.st.vol v).gen, slot] e2 := by
    have hc : createCheck c.kind (e1.st.vol v) = none := by
      rw [hvol]
      exact createCheck_preRestore hslot hgen
    have hg : (e1.st.vol v).gen = (e.st.vol v).gen := by rw [hvol]
    have hs : createSlot (e1.st.vol v) c.kind = slot := by
      rw [hvol]
      change (e.st.vol v).emptySlot.getD 0 = slot
      rw [hslot]
      rfl
    have hnew : newSnap e1.st v c = newSnap e.st v c := by simp only [newSnap, hg]; rfl
    have hmake : drainAction v d .taken e1 = makeSnapshot v c e1 := by simp only [drainAction, hwork]
    let e3 := e1.updVol v fun z => z.snapped slot (newSnap e.st v c)
    have hj3 : tfind e3.st.jobs j = some y := hj
    have hfind : tfind (e3.st.vol v).snaps slot = some (newSnap e.st v c) := by
      rw [updVol_st_vol]
      exact tfind_tput_same ..
    have hpin : pinSnap v slot true e3 = e1.updVol v fun z => z.pinnedSnap slot (newSnap e.st v c) := by
      simp only [pinSnap, hfind, if_true]
      rw [Event.updVol_updVol _ _ _ _ (by rw [hvol]; exact habsent) (by rw [hvol]; exact habsent)]
      simp only [Volume.snapped, Volume.setSnap, tput_tput]
      rfl
    rw [hmake, makeSnapshot, createEvent_made hc, hg, hs, hnew]
    change answerRestore j (.made slot (e.st.vol v).gen) e3 = _
    unfold answerRestore
    rw [hj3]
    dsimp only
    have hj4 : tfind (e1.updVol v fun z => z.pinnedSnap slot (newSnap e.st v c)).st.jobs j = some y := hj
    rw [hv, hpin]
    simp only [Event.updJob, hj4]
    rfl
  have hx1 : e2.st.ctl.executing = some x := hx
  have hhold1 : ((drainAction v d .taken e1).st.vol v).holdList = [] := by
    rw [haction, reply_eq hx1]
    change ((e1.updVol v fun z => z.pinnedSnap slot (newSnap e.st v c)).st.vol v).holdList = []
    rw [updVol_st_vol, hvol]
    exact hhold
  have hnot : ¬ (e.st.vol v).state = .frozen := by rw [hstate]; nofun
  rw [askCreate, if_neg hnot, hask, finishDrain_some (d := d) (by rw [hvol]) hhold1]
  dsimp only
  rw [haction, updVol_reply hx1, reply_jobs (e := e2.updVol v fun x => { x with drain := none, holdList := [] }) hx]
  have hcollapse : ((e1.updVol v fun z => z.pinnedSnap slot (newSnap e.st v c)).updVol v fun x =>
      { x with drain := none, holdList := [] }) = e.updVol v fun z => z.pinnedSnap slot (newSnap e.st v c) := by
    rw [Event.updVol_updVol _ _ _ _ (by rw [hvol]; exact habsent) (by rw [hvol]; exact habsent),
      Event.updVol_updVol _ _ _ _ (by exact habsent) (by exact habsent)]
    simp only [Event.updVol, Event.upd, Volume.pinnedSnap, ← hdrain, ← hhold]
  have hbefore : (e2.updVol v fun x => { x with drain := none, holdList := [] }) =
      wakeJobs ((((e1.updVol v fun z => z.pinnedSnap slot (newSnap e.st v c)).updVol v fun x =>
        { x with drain := none, holdList := [] })).upd fun s => { s with jobs := jobs }) := rfl
  rw [hbefore, hcollapse]
  refine congrArg (reply .ok [j, (e.st.vol v).gen, slot]) ?_
  rw [reply_eq (e := wakeJobs ((e.updVol v fun z => z.pinnedSnap slot (newSnap e.st v c)).upd fun s => { s with jobs := jobs })) hx]
  rfl

/-! ### What the end of an event leaves -/

/-- `t` is what the end of the event `f` leaves: its state, but for what the evaluations change. -/
structure Ended (f : Event) (t : State) : Prop where
  frame : ∃ b vs as q c o fi,
    t = { f.st with poolLow := b, vols := vs, accounts := as, expiryQueue := q, ctl := c, out := o, firing := fi }
  acct : ∀ o, t.acct o = f.evaluated.acct o
  vol : ∀ w, t.vol w = f.evaluated.vol w
  executing : t.ctl.executing = f.st.ctl.executing

theorem offered_executing (f : Event) : f.offered.executing = f.st.ctl.executing := by
  obtain ⟨b, vs, as, q, hs⟩ := evaluate_frame f
  unfold Event.offered
  rw [foldl_offer, hs]

theorem ended_closeEvent {f : Event} (hd : f.done = []) (ho : ∀ o ∈ f.st.out, o.isPlain = true) : Ended f (closeEvent f) := by
  obtain ⟨b, vs, as, q, hs⟩ := evaluate_frame f
  rw [closeEvent_quiet hd ho]
  refine ⟨⟨b, vs, as, q, _, _, _, by rw [hs]⟩, fun _ => rfl, fun _ => rfl, ?_⟩
  dsimp only
  rw [foldl_offer]
  exact offered_executing f

theorem ended_answered {f : Event} (hx : f.st.ctl.executing = none) (number tag : Nat) (code : Code) (result : List Nat) :
    Ended f (State.answered { f.evaluated with ctl := f.offered } number tag code result) := by
  obtain ⟨b, vs, as, q, hs⟩ := evaluate_frame f
  have hframe : ∀ (u : State) (c : Control) (o : List Output) (fi : Bool),
      u = { f.st with poolLow := b, vols := vs, accounts := as, expiryQueue := q } → { u with ctl := c, out := o, firing := fi } =
        { f.st with poolLow := b, vols := vs, accounts := as, expiryQueue := q, ctl := c, out := o, firing := fi } := by
    rintro _ _ _ _ rfl
    rfl
  exact ⟨⟨b, vs, as, q, _, _, _, hframe f.evaluated _ _ _ hs⟩, fun _ => rfl, fun _ => rfl, hx.symm⟩

/-- Of an event that touches one account and no volume's reserve. -/
theorem Ended.touched {f : Event} {t : State} (h : Ended f t) {owner : Nat} (hc : f.all.accts = touched owner)
    (hr : f.all.reports = []) (hv : f.all.reserves = []) :
    (t.acct owner).sameMoney (f.st.acct owner) ∧ (∀ o, o ≠ owner → t.acct o = f.st.acct o) ∧ ∀ w, t.vol w = f.st.vol w := by
  refine ⟨by rw [h.acct]; exact evaluated_acct f owner, fun o ho => ?_, fun w => ?_⟩
  · rw [h.acct]
    refine evaluated_acct_ne f ?_ (by rw [hr]; exact List.not_mem_nil)
    rw [hc]
    unfold Machine.touched
    split_ifs <;> simp [ho]
  · rw [h.vol]
    exact evaluated_vol_ne f (by rw [hv]; exact List.not_mem_nil)

/-- While the yield flag is set no visit begins. -/
theorem canVisit_yielding {s : State} {x : Job} (h : s.yielding = true) : canVisit s x = false := by
  simp [canVisit, h]

/-! ### A start that passes its checks -/

section
variable {s : State} {tag sv ss dv owner : Nat} {override : Bool} {rs : List Range} {j : Nat} {d : Snap}

/-- The event of a start once the chunks are reserved and the source is pinned. -/
def startEvent (s : State) (q : ControlReq) (sv ss owner total j : Nat) (x : Job) (d : Snap) : Event :=
  { st := { ((s.executes q).setAcct owner { s.acct owner with reserved := (s.acct owner).reserved + total }).setVol sv
        { s.vol sv with snaps := tput ss { d with inUse := d.inUse + 1 } (s.vol sv).snaps } with jobs := tput j x s.jobs }
    accts := touched owner }

theorem doRestoreStart_passes (q : ControlReq) (hc : restoreCheck s sv ss dv owner override rs = none)
    (hj : freeJob s = some j) (hd : tfind (s.vol sv).snaps ss = some d) :
    doRestoreStart sv ss dv owner override rs { st := s.executes q } =
      askCreate dv { kind := .preRestore, series := none, label := j, asker := .restore j }
        (startEvent s q sv ss owner (totalCount rs) j (newJob d.gen sv ss dv owner override rs) d) := by
  have hc' : restoreCheck ({ st := s.executes q } : Event).st sv ss dv owner override rs = none := hc
  have hj' : freeJob ({ st := s.executes q } : Event).st = some j := hj
  have hd' : tfind (({ st := s.executes q } : Event).st.vol sv).snaps ss = some d := hd
  unfold doRestoreStart
  rw [hc', hj', hd']
  dsimp only [Option.getD_some, Option.map_some]
  refine congrArg _ ?_
  let e1 : Event := { st := { s.executes q with jobs := tput j (newJob d.gen sv ss dv owner override rs) s.jobs } }
  have hreserve : reserveChunks owner (totalCount rs) e1 =
      { st := e1.st.setAcct owner { s.acct owner with reserved := (s.acct owner).reserved + totalCount rs }, accts := touched owner } :=
    touchAcct_executes ..
  change pinSnap sv ss true (reserveChunks owner (totalCount rs) e1) = _
  rw [hreserve]
  unfold pinSnap
  let t := e1.st.setAcct owner { s.acct owner with reserved := (s.acct owner).reserved + totalCount rs }
  have hd2 : tfind (({ st := t, accts := touched owner } : Event).st.vol sv).snaps ss = some d := hd
  rw [hd2]
  rfl

/-- The source as the start pins it, and the target, which may be the same volume. -/
def pinnedSource (s : State) (sv ss : Nat) (d : Snap) : Volume :=
  { s.vol sv with snaps := tput ss { d with inUse := d.inUse + 1 } (s.vol sv).snaps }

def startTarget (s : State) (sv ss dv : Nat) (d : Snap) : Volume := if sv = dv then pinnedSource s sv ss d else s.vol dv

theorem startEvent_vol (q : ControlReq) (owner total j : Nat) (x : Job) (w : Nat) :
    (startEvent s q sv ss owner total j x d).st.vol w = if sv = w then pinnedSource s sv ss d else s.vol w := by
  split_ifs with h
  · subst h
    exact State.vol_setVol ..
  · exact State.vol_setVol_ne _ _ _ _ (Ne.symm h)

theorem emptySlot_pinned (hd : tfind (s.vol sv).snaps ss = some d) : (pinnedSource s sv ss d).emptySlot = (s.vol sv).emptySlot := by
  unfold Volume.emptySlot pinnedSource
  refine congrArg (fun f => List.find? f _) (funext fun i => ?_)
  by_cases hi : i = ss
  · rw [hi, tfind_tput_same, hd]
    rfl
  · rw [tfind_tput_ne _ _ _ _ hi]

/-- The frame of a start: what it leaves of accounts, of other volumes and of the tables of other units. -/
theorem ended_start {q : ControlReq} {total : Nat} {x : Job} {f : Event} {t : State} (h : Ended f t) (y : Volume) (jobs : Table Job)
    (hst : f.st = { (startEvent s q sv ss owner total j x d).st.setVol dv y with jobs := jobs, ctl := f.st.ctl })
    (ha : f.all.accts = touched owner) (hr : f.all.reports = []) (hv : f.all.reserves = []) :
    (t.acct owner).reserved = (s.acct owner).reserved + total ∧ (t.acct owner).charge = (s.acct owner).charge ∧
      (∀ o, o ≠ owner → t.acct o = s.acct o) ∧ (sv ≠ dv → t.vol sv = pinnedSource s sv ss d) ∧
      (∀ w, w ≠ sv → w ≠ dv → t.vol w = s.vol w) ∧ t.free = s.free ∧ t.claims = s.claims ∧ t.inflight = s.inflight ∧
      t.run = s.run ∧ t.jobs = jobs ∧ t.vol dv = y := by
  obtain ⟨hsame, hothers, hvols⟩ := h.touched ha hr hv
  obtain ⟨b, vs, as, q', c, o, fi, ht⟩ := h.frame
  have hacct : f.st.acct owner = { s.acct owner with reserved := (s.acct owner).reserved + total } := by
    rw [hst]
    exact State.acct_setAcct ..
  have hother : ∀ o, o ≠ owner → f.st.acct o = s.acct o := by
    intro o ho
    rw [hst]
    exact State.acct_setAcct_ne _ _ _ _ ho
  have hvol : ∀ w, w ≠ dv → f.st.vol w = (startEvent s q sv ss owner total j x d).st.vol w := by
    intro w hw
    rw [hst]
    exact State.vol_setVol_ne _ _ _ _ hw
  refine ⟨hsame.2.1.trans (by rw [hacct]), hsame.1.trans (by rw [hacct]), fun o ho => (hothers o ho).trans (hother o ho),
    fun hne => ?_, fun w hw hw' => ?_, by rw [ht, hst]; rfl, by rw [ht, hst]; rfl, by rw [ht, hst]; rfl, by rw [ht, hst]; rfl,
    by rw [ht, hst], ?_⟩
  · rw [hvols, hvol sv hne, startEvent_vol, if_pos rfl]
  · rw [hvols, hvol w hw', startEvent_vol, if_neg (Ne.symm hw)]
  · rw [hvols, hst]
    exact State.vol_setVol ..

/-- Behind changing work in hand the job is STARTING and the request waits. -/
theorem exec_start_waits (h : s.ctlServes) (hc : restoreCheck s sv ss dv owner override rs = none) (hj : freeJob s = some j)
    (hd : tfind (s.vol sv).snaps ss = some d) (hstate : (s.vol dv).state = .normal) (hdrain : (s.vol dv).drain = none)
    (hwait : (s.vol dv).waiting = []) (hset : drainSet s dv ≠ []) :
    ∃ t f, exec (.restoreStart tag sv ss dv owner override rs) s = .next t ∧ Ended f t ∧ t.out = [] ∧
      f.st = { (startEvent s ⟨tag, .restoreStart sv ss dv owner override rs⟩ sv ss owner (totalCount rs) j
          (newJob d.gen sv ss dv owner override rs) d).st.setVol dv { startTarget s sv ss dv d with
            drain := some { work := .holding { kind := .preRestore, series := none, label := j, asker := .restore j },
                            members := drainSet s dv, timeout := s.ctl.config.drainTimeout } } with
        jobs := tput j (newJob d.gen sv ss dv owner override rs) s.jobs, ctl := f.st.ctl } ∧
      f.st.ctl.executing = some { tag := tag, number := 22 } ∧
      f.all.accts = touched owner ∧ f.all.reports = [] ∧ f.all.reserves = [] := by
  let q : ControlReq := ⟨tag, .restoreStart sv ss dv owner override rs⟩
  let e := startEvent s q sv ss owner (totalCount rs) j (newJob d.gen sv ss dv owner override rs) d
  have hvol : e.st.vol dv = startTarget s sv ss dv d := startEvent_vol ..
  have hkeep : (e.st.vol dv).state = (s.vol dv).state ∧ (e.st.vol dv).drain = (s.vol dv).drain ∧
      (e.st.vol dv).waiting = (s.vol dv).waiting := by
    rw [hvol]
    unfold startTarget
    split_ifs with hsd
    · subst hsd
      exact ⟨rfl, rfl, rfl⟩
    · exact ⟨rfl, rfl, rfl⟩
  obtain ⟨hs', hd', hw'⟩ := hkeep
  let drain : Drain := { work := .holding { kind := .preRestore, series := none, label := j, asker := .restore j },
                         members := drainSet s dv, timeout := s.ctl.config.drainTimeout }
  let f := e.updVol dv fun x => { x with drain := some drain }
  have hask : askCreate dv { kind := .preRestore, series := none, label := j, asker := .restore j } e = f := by
    have hnot : ¬ (e.st.vol dv).state = .frozen := by rw [hs', hstate]; nofun
    have hfree : (e.st.vol dv).drain = none ∧ (e.st.vol dv).waiting = [] := ⟨hd'.trans hdrain, hw'.trans hwait⟩
    rw [askCreate, if_neg hnot]
    simp only [askDrain, if_pos hfree, beginDrain]
    exact if_neg hset
  have hrun : exec (.restoreStart tag sv ss dv owner override rs) s = .next (closeEvent f) := by
    have hrow : Arrives (.restoreStart tag sv ss dv owner override rs) tag (.restoreStart sv ss dv owner override rs) := fun _ => rfl
    have hp : perform (.restoreStart sv ss dv owner override rs) { st := s.executes q } =
        doRestoreStart sv ss dv owner override rs { st := s.executes q } := if_neg fun hr => executes_part_ne h _ hr.1
    rw [hrow, runEvent, controlArrive_of_free h.1, hp, doRestoreStart_passes q hc hj hd, hask, runTodo_of_none (turn_of_idle rfl)]
  refine ⟨_, f, hrun, ended_closeEvent rfl (by intro o ho; cases ho), ?_, ?_, rfl, rfl, rfl, rfl⟩
  · rw [closeEvent_quiet rfl (by intro o ho; cases ho)]
    rfl
  · have hf : f = { e with st := e.st.setVol dv { startTarget s sv ss dv d with drain := some drain } } :=
      updVol_eq (by rw [hvol])
    rw [hf]
    rfl

/-- The record of the PRE-RESTORE snapshot, pinned. -/
def startSnap (s : State) (dv j : Nat) : Snap :=
  { kind := .preRestore, series := none, gen := (s.vol dv).gen, label := j, created := s.stamp, held := false, state := .ready,
    retained := [], inUse := 1, freed := 0 }

/-- The target once its PRE-RESTORE snapshot is made. -/
def madeTarget (s : State) (sv ss dv j slot : Nat) (d : Snap) : Volume :=
  { startTarget s sv ss dv d with
    gen := (s.vol dv).gen + 1, snaps := tput slot (startSnap s dv j) (startTarget s sv ss dv d).snaps }

/-- The event of a start whose create has answered. -/
def madeEvent (s : State) (q : ControlReq) (sv ss owner total j : Nat) (x : Job) (d : Snap) (dv : Nat) (y : Volume)
    (jobs : Table Job) : Event :=
  { st := { (startEvent s q sv ss owner total j x d).st.setVol dv y with jobs := jobs }
    accts := touched owner, todo := { jobs := true, drainBegin := [dv] } }

/-- With no changing work in hand and the yield flag set the create answers at once. -/
theorem doRestoreStart_made {slot : Nat} (q : ControlReq) (hc : restoreCheck s sv ss dv owner override rs = none)
    (hj : freeJob s = some j) (hd : tfind (s.vol sv).snaps ss = some d) (hstate : (s.vol dv).state = .normal)
    (hdrain : (s.vol dv).drain = none) (hwait : (s.vol dv).waiting = []) (hhold : (s.vol dv).holdList = [])
    (hset : drainSet s dv = []) (hy : s.yielding = true) (hgen : (s.vol dv).gen < 4294967294)
    (hslot : (s.vol dv).emptySlot = some slot) :
    let x := newJob d.gen sv ss dv owner override rs
    doRestoreStart sv ss dv owner override rs { st := s.executes q } = reply .ok [j, (s.vol dv).gen, slot]
      (madeEvent s q sv ss owner (totalCount rs) j x d dv (madeTarget s sv ss dv j slot d)
        (tput j { x with state := .yielded, pre := some (slot, (s.vol dv).gen) } s.jobs)) := by
  intro x
  let e := startEvent s q sv ss owner (totalCount rs) j x d
  have hvol : e.st.vol dv = startTarget s sv ss dv d := startEvent_vol ..
  have hkeep : (e.st.vol dv).state = (s.vol dv).state ∧ (e.st.vol dv).drain = (s.vol dv).drain ∧
      (e.st.vol dv).waiting = (s.vol dv).waiting ∧ (e.st.vol dv).holdList = (s.vol dv).holdList ∧
      (e.st.vol dv).gen = (s.vol dv).gen ∧ (e.st.vol dv).emptySlot = (s.vol dv).emptySlot := by
    rw [hvol]
    unfold startTarget
    split_ifs with hsd
    · subst hsd
      exact ⟨rfl, rfl, rfl, rfl, rfl, emptySlot_pinned hd⟩
    · exact ⟨rfl, rfl, rfl, rfl, rfl, rfl⟩
  obtain ⟨hs', hd', hw', hh', hg', he'⟩ := hkeep
  let c : CreateReq := { kind := .preRestore, series := none, label := j, asker := .restore j }
  have hask := askCreate_restore (v := dv) (slot := slot) (j := j) (e := e) (x := ⟨q.tag, q.req.number⟩) (y := x) rfl
    (tfind_tput_same ..) rfl (he'.trans hslot) (by rw [hg']; exact hgen) (hs'.trans hstate) (hd'.trans hdrain)
    (hw'.trans hwait) (hh'.trans hhold) hset
  have hgt : (startTarget s sv ss dv d).gen = (s.vol dv).gen := by rw [← hvol]; exact hg'
  have hpin : (startTarget s sv ss dv d).pinnedSnap slot (newSnap e.st dv c) = madeTarget s sv ss dv j slot d := by
    unfold Volume.pinnedSnap newSnap madeTarget startSnap
    rw [hgt, hg']
    rfl
  have hupd : (e.updVol dv fun z => z.pinnedSnap slot (newSnap e.st dv c)) =
      { e with st := e.st.setVol dv (madeTarget s sv ss dv j slot d) } := updVol_eq (by rw [hvol, hpin])
  have hjobs : tput j (x.started e.st slot (e.st.vol dv).gen) e.st.jobs =
      tput j { x with state := .yielded, pre := some (slot, (s.vol dv).gen) } s.jobs := by
    have hrs : runState e.st = .yielded := if_pos hy
    unfold Job.started
    rw [hrs, hg']
    exact tput_tput ..
  rw [doRestoreStart_passes q hc hj hd, hask, hg']
  refine congrArg (reply .ok [j, (s.vol dv).gen, slot]) ?_
  rw [hg'] at hjobs
  rw [hjobs, hupd]
  rfl

/-- The whole event of such a start. -/
theorem exec_start_made {slot : Nat} (h : s.ctlServes) (hc : restoreCheck s sv ss dv owner override rs = none)
    (hj : freeJob s = some j) (hd : tfind (s.vol sv).snaps ss = some d) (hstate : (s.vol dv).state = .normal)
    (hdrain : (s.vol dv).drain = none) (hwait : (s.vol dv).waiting = []) (hhold : (s.vol dv).holdList = [])
    (hset : drainSet s dv = []) (hy : s.yielding = true) (hgen : (s.vol dv).gen < 4294967294)
    (hslot : (s.vol dv).emptySlot = some slot) :
    ∃ t f, exec (.restoreStart tag sv ss dv owner override rs) s = .next t ∧ Ended f t ∧
      (∃ pending lost, t.out = [.control pending lost 22 tag .ok [j, (s.vol dv).gen, slot]]) ∧
      f.st = { (startEvent s ⟨tag, .restoreStart sv ss dv owner override rs⟩ sv ss owner (totalCount rs) j
          (newJob d.gen sv ss dv owner override rs) d).st.setVol dv (madeTarget s sv ss dv j slot d) with
        jobs := tput j { newJob d.gen sv ss dv owner override rs with state := .yielded, pre := some (slot, (s.vol dv).gen) } s.jobs
        ctl := f.st.ctl } ∧
      f.st.ctl.executing = none ∧ f.all.accts = touched owner ∧ f.all.reports = [] ∧ f.all.reserves = [] := by
  let q : ControlReq := ⟨tag, .restoreStart sv ss dv owner override rs⟩
  let x := newJob d.gen sv ss dv owner override rs
  let made := madeEvent s q sv ss owner (totalCount rs) j x d dv (madeTarget s sv ss dv j slot d)
    (tput j { x with state := .yielded, pre := some (slot, (s.vol dv).gen) } s.jobs)
  let answer : Answer := { number := 22, tag := tag, code := .ok, result := [j, (s.vol dv).gen, slot], job := none }
  let f : Event := { made.freed with todo := { jobs := true, drainBegin := [dv], answer := some answer } }
  have hmade : doRestoreStart sv ss dv owner override rs { st := s.executes q } = f :=
    (doRestoreStart_made q hc hj hd hstate hdrain hwait hhold hset hy hgen hslot).trans (reply_eq (x := ⟨tag, 22⟩) rfl ..)
  have hwaits : (f.st.vol dv).waiting = [] := by
    have hvol : f.st.vol dv = madeTarget s sv ss dv j slot d := State.vol_setVol ..
    rw [hvol]
    unfold madeTarget startTarget
    split_ifs with hsd
    · subst hsd
      exact hwait
    · exact hwait
  have hyf : f.st.yielding = true := by simpa [f, made, madeEvent, startEvent, Event.freed, Event.updCtl, Event.upd, State.executes] using hy
  have hup : f.st.frontUp = true := by
    simpa [f, made, madeEvent, startEvent, Event.freed, Event.updCtl, Event.upd, State.executes] using h.1.1
  have hqf : f.st.ctl.queue = [] := by
    simpa [f, made, madeEvent, startEvent, Event.freed, Event.updCtl, Event.upd, State.executes] using h.1.2.2
  have hsettled : f.Settled := by
    refine ⟨nofun, nofun, nofun, fun hp => (Bool.false_ne_true hp).elim, fun _ p _ => ?_, fun w hw _ => ?_, nofun, nofun,
      fun _ _ => hqf, nofun⟩
    · exact canVisit_yielding hyf
    · obtain rfl := List.mem_singleton.mp hw
      exact hwaits
  have hrun : runTodo turnBound (doRestoreStart sv ss dv owner override rs { st := s.executes q }) = f.sendAnswer := by
    rw [hmade]
    exact runTodo_settled hsettled (by simp [f])
  have hexec := exec_sends h (i := .restoreStart tag sv ss dv owner override rs) (r := .restoreStart sv ss dv owner override rs)
    (fun _ => rfl) (fun _ hp => if_neg fun hr => hp hr.1) hrun (a := answer) rfl rfl rfl hup rfl rfl rfl rfl
    (by decide : (22 : Nat) ≠ 38) (by decide : (22 : Nat) ≠ 7)
  exact ⟨_, f, hexec, ended_answered rfl .., ⟨_, _, rfl⟩, rfl, rfl, rfl, rfl, rfl⟩

end

/-- Settles O35: the checks of R102 in their order, and the two ways in which a start that passes goes on. -/
theorem restoreStartChecksAndStarts : Obligations.RestoreStartChecksAndStarts := by
  intro s tag sv ss dv owner override rs h src dst total meets refused malformed noJob noView badVol range overlap a quota noSpace
  have hrefused : ∀ {code}, restoreCheck s sv ss dv owner override rs = some code → refused code := by
    intro code hc
    refine exec_stands h (r := .restoreStart sv ss dv owner override rs) (fun _ => rfl)
      (f := doRestoreStart sv ss dv owner override rs) (fun _ hp => if_neg fun hr => hp hr.1) ?_ nofun nofun
    have hc' : restoreCheck ({ st := s.executes ⟨tag, .restoreStart sv ss dv owner override rs⟩ } : Event).st sv ss dv owner
      override rs = some code := hc
    unfold doRestoreStart
    rw [hc']
    rfl
  have hlt : ∀ v, v < Config.volumes ↔ v ≤ 63 := fun v => by unfold Config.volumes; omega
  have c1 : (rs = [] ∨ 16 < rs.length ∨ (rs.any fun r => r.count == 0) = true) ↔ malformed := by simp [malformed]
  have c2 : (freeJob s).isNone = true ↔ noJob := freeJob_none_iff s
  have c3 : ¬ (sv < Config.volumes ∧ src.usable = true ∧ 1 ≤ ss ∧ ss < Config.snapSlots ∧ readySnap src ss = true) ↔ noView := by
    rw [hlt, usable_iff, readySnap_iff, and_assoc]
    refine not_congr (and_congr Iff.rfl (and_congr Iff.rfl (and_congr Iff.rfl (and_congr Iff.rfl (and_congr ?_ Iff.rfl)))))
    unfold Config.snapSlots
    omega
  have c4 : ¬ (dv < Config.volumes ∧ dst.usable = true) ↔ badVol := by rw [hlt, usable_iff]
  have c6 : (¬ owner < 65536 ∨ ¬ rs.all (fun r =>
      decide (r.src + r.count ≤ src.size) && decide (r.dst + r.count ≤ dst.size)) = true) ↔ range := rangeTest_iff
  have c7 : (¬ pairwiseDisjoint rs = true ∨ (s.jobs.any fun p => overlapsJob dv rs p.2) = true) ↔ overlap := by
    rw [pairwiseDisjoint_iff, List.any_eq_true]
    refine or_congr Iff.rfl (exists_congr fun p => and_congr Iff.rfl ?_)
    exact overlapsJob_iff dv rs p.2
  have c8 : ¬ reserveTest s owner (totalCount rs) override = true ↔ quota := reserveTest_iff ..
  have hcheck := restoreCheck_eq (s := s) (sv := sv) (ss := ss) (dv := dv) (owner := owner) (override := override) (rs := rs)
  refine ⟨fun h1 => hrefused (hcheck.trans (if_pos (c1.mpr h1))), fun h1 h2 => ?_, fun h1 h2 h3 => ?_, fun h1 h2 h3 h4 => ?_,
    fun h1 h2 h3 h4 h5 => ?_, fun h1 h2 h3 h4 h5 h6 => ?_, fun h1 h2 h3 h4 h5 h6 h7 => ?_, fun h1 h2 h3 h4 h5 h6 h7 => ?_⟩
  all_goals rw [if_neg (c1.not.mpr h1)] at hcheck
  · exact hrefused (hcheck.trans (if_pos (c2.mpr h2)))
  all_goals rw [if_neg (c2.not.mpr h2)] at hcheck
  · exact hrefused (hcheck.trans (if_pos (c3.mpr h3)))
  all_goals rw [if_neg (c3.not.mpr h3)] at hcheck
  · exact hrefused (hcheck.trans (if_pos (c4.mpr h4)))
  all_goals rw [if_neg (c4.not.mpr h4)] at hcheck
  · exact hrefused (hcheck.trans (if_pos h5))
  all_goals rw [if_neg h5] at hcheck
  · exact hrefused (hcheck.trans (if_pos (c6.mpr h6)))
  all_goals rw [if_neg (c6.not.mpr h6)] at hcheck
  · exact hrefused (hcheck.trans (if_pos (c7.mpr h7)))
  rw [if_neg (c7.not.mpr h7)] at hcheck
  refine ⟨fun h8 => hrefused (hcheck.trans (if_pos (c8.mpr h8))), fun h8 h9 => ?_, ?_⟩
  · rw [if_neg (c8.not.mpr h8)] at hcheck
    exact hrefused (hcheck.trans (if_pos h9))
  intro h8 h9 hstate hdrain hwait hhold d j hd hj hfree hmin job pinned target reserved
  rw [if_neg (c8.not.mpr h8)] at hcheck
  have hnone : restoreCheck s sv ss dv owner override rs = none := hcheck.trans (if_neg h9)
  have hjob := freeJob_some hj hfree hmin
  refine ⟨fun hset => ?_, fun hset hy hgen slot hslot => ?_⟩
  · obtain ⟨t, f, hexec, hended, hout, hst, hx, ha, hr, hv⟩ := exec_start_waits (tag := tag) h hnone hjob hd hstate hdrain hwait hset
    obtain ⟨r1, r2, r3, r4, r5, r6, r7, r8, r9, r10, r11⟩ := ended_start hended _ _ hst ha hr hv
    exact ⟨t, hexec, r10, ⟨r1, r2, r3, r4, r5, r6, r7, r8, r9⟩, r11, hended.executing.trans hx, hout⟩
  · obtain ⟨t, f, hexec, hended, hout, hst, hx, ha, hr, hv⟩ :=
      exec_start_made (tag := tag) h hnone hjob hd hstate hdrain hwait hhold hset hy hgen hslot
    obtain ⟨r1, r2, r3, r4, r5, r6, r7, r8, r9, r10, r11⟩ := ended_start hended _ _ hst ha hr hv
    exact ⟨t, hexec, r10, ⟨r1, r2, r3, r4, r5, r6, r7, r8, r9⟩, r11, hended.executing.trans hx, hout⟩

end Sys2Proof.Machine
end

section
/-! PROOFS. RESTORE SUSPEND, RESUME, STATUS and CLEAR (R112, R119). -/

namespace Sys2Proof.Machine

/-! ### A reply that carries the state of a job -/

theorem answerWith_eq {e : Event} {x : Executing} (hx : e.st.ctl.executing = some x) (code : Code) (result : List Nat)
    (job : Option Nat) : answerWith code result job e = { e.freed with
      todo := { e.todo with answer := some { number := x.number, tag := x.tag, code := code, result := result, job := job } } } := by
  simp only [answerWith, hx]
  rfl

/-- A served request that changes the part and is answered with the state of a job. -/
theorem exec_jobState {s : State} (h : s.ctlServes) {i : Instr} {tag j : Nat} {r : Request} (hrow : Arrives i tag r)
    {f : Event → Event} (hf : ∀ e : Event, e.st.ctl.part ≠ .recovering → perform r e = f e) (t : State) {todo : Todo}
    (hd : f { st := s.executes ⟨tag, r⟩ } = replyJobState j { st := t.executes ⟨tag, r⟩, todo := todo })
    (hset : (replyJobState j { st := t.executes ⟨tag, r⟩, todo := todo }).Settled) (hl : todo.drainBegin.length ≤ 900)
    (hu : t.frontUp = s.frontUp) (h38 : r.number ≠ 38) (h7 : r.number ≠ 7) :
    exec i s = .next (t.answered r.number tag .ok [((tfind t.jobs j).map Job.stateValue).getD 0]) := by
  let a : Answer := { number := r.number, tag := tag, code := .ok, result := [], job := some j }
  let u : State := { t with out := [], ctl := { t.ctl with executing := none } }
  let g : Event := { st := u, todo := { todo with answer := some a } }
  have hg : replyJobState j { st := t.executes ⟨tag, r⟩, todo := todo } = g := answerWith_eq (x := ⟨tag, r.number⟩) rfl ..
  have hrun : runTodo turnBound (f { st := s.executes ⟨tag, r⟩ }) = g.sendAnswer := by
    rw [hd, runTodo_settled hset (by rw [hg]; exact hl), hg]
  rw [hrow, runEvent, controlArrive_of_free h.1, hf _ (executes_part_ne h _), hrun]
  refine congrArg Host.Outcome.next ?_
  rw [closeEvent_answer (e := g) (a := a) rfl (hu.trans h.1.1) rfl (by intro o ho; cases ho)]
  dsimp only
  rw [completeReply_read _ _ _ _ _ (.inl h38) (.inl h7)]
  rfl

section
variable {s : State} {tag j : Nat} {x : Job}

theorem suspend_row (tag j : Nat) : Arrives (.restoreSuspend tag j) tag (.restoreSuspend j) := fun _ => rfl

theorem resume_row (tag j : Nat) : Arrives (.restoreResume tag j) tag (.restoreResume j) := fun _ => rfl

theorem perform_suspend {j : Nat} (e : Event) (hp : e.st.ctl.part ≠ .recovering) :
    perform (.restoreSuspend j) e = doRestoreSuspend j e := if_neg fun hr => hp hr.1

theorem perform_resume {j : Nat} (e : Event) (hp : e.st.ctl.part ≠ .recovering) :
    perform (.restoreResume j) e = doRestoreResume j e := if_neg fun hr => hp hr.1

theorem findJob_range (s : State) {j : Nat} (hj : 3 < j) : findJob s j = .error .range :=
  if_pos (by unfold Config.jobs; omega)

theorem findJob_notFound {j : Nat} (hj : j ≤ 3) (hx : tfind s.jobs j = none) : findJob s j = .error .notFound := by
  rw [findJob, if_neg (by unfold Config.jobs; omega), hx]

theorem findJob_ok (hj : j ≤ 3) (hx : tfind s.jobs j = some x) : findJob s j = .ok x := by
  rw [findJob, if_neg (by unfold Config.jobs; omega), hx]

theorem ended_iff (x : JobState) :
    x.ended = true ↔ x = .done ∨ x = .aborted ∨ x = .failedShelf ∨ x = .failedInterrupted := by
  cases x <;> simp [JobState.ended]

theorem findOpenJob_error {code : Code} (hx : findJob s j = .error code) : findOpenJob s j = .error code := by
  rw [findOpenJob, hx]

theorem findOpenJob_ended (hx : findJob s j = .ok x) (he : x.state.ended = true) : findOpenJob s j = .error .active := by
  rw [findOpenJob, hx]
  exact if_pos he

theorem findOpenJob_ok (hx : findJob s j = .ok x) (he : x.state.ended = false) : findOpenJob s j = .ok x := by
  rw [findOpenJob, hx]
  exact if_neg (by rw [he]; nofun)

/-- Both requests are refused where no open job of the number is found. -/
theorem suspendResume_refused (h : s.ctlServes) (tag : Nat) {code : Code} (hf : findOpenJob s j = .error code) :
    exec (.restoreSuspend tag j) s = .next (s.answered 23 tag code []) ∧
      exec (.restoreResume tag j) s = .next (s.answered 24 tag code []) := by
  constructor
  · refine exec_stands h (suspend_row tag j) perform_suspend ?_ nofun nofun
    have hf' : findOpenJob (s.executes ⟨tag, .restoreSuspend j⟩) j = .error code := hf
    rw [doRestoreSuspend, hf']
    rfl
  · refine exec_stands h (resume_row tag j) perform_resume ?_ nofun nofun
    have hf' : findOpenJob (s.executes ⟨tag, .restoreResume j⟩) j = .error code := hf
    rw [doRestoreResume, hf']
    rfl

/-- The answer to a request that leaves nothing to do. -/
theorem jobState_settled {s : State} {x : Executing} (hx : s.ctl.executing = some x) (hq : s.ctl.queue = []) :
    (replyJobState j { st := s }).Settled := by
  have hr : replyJobState j { st := s } = _ := answerWith_eq (e := { st := s }) hx ..
  rw [hr]
  exact ⟨nofun, nofun, nofun, nofun, nofun, nofun, nofun, nofun, fun _ _ => hq, nofun⟩

/-- A SUSPEND that changes the job's record alone. -/
theorem exec_suspend_updates (h : s.ctlServes) (tag : Nat) (hj : j ≤ 3) (hx : tfind s.jobs j = some x)
    (he : x.state.ended = false) {y : Job}
    (hd : ∀ e : Event, tfind e.st.jobs j = some x → suspendJob j x e = e.upd fun s => { s with jobs := tput j y s.jobs }) :
    exec (.restoreSuspend tag j) s = .next (({ s with jobs := tput j y s.jobs }).answered 23 tag .ok [y.stateValue]) := by
  let t : State := { s with jobs := tput j y s.jobs }
  have hdo : doRestoreSuspend j { st := s.executes ⟨tag, .restoreSuspend j⟩ } =
      replyJobState j { st := t.executes ⟨tag, .restoreSuspend j⟩ } := by
    have hf : findOpenJob (s.executes ⟨tag, .restoreSuspend j⟩) j = .ok x := findOpenJob_ok (findJob_ok hj hx) he
    rw [doRestoreSuspend, hf]
    dsimp only
    rw [hd _ hx]
    rfl
  have := exec_jobState h (suspend_row tag j) perform_suspend t hdo (jobState_settled rfl h.1.2.2) (by simp) rfl nofun nofun
  rw [this]
  have hfind : tfind t.jobs j = some y := tfind_tput_same ..
  rw [hfind]
  rfl

/-- A RESUME that changes the job's record alone. -/
theorem exec_resume_updates (h : s.ctlServes) (tag : Nat) (hj : j ≤ 3) (hx : tfind s.jobs j = some x)
    (he : x.state.ended = false) {y : Job}
    (hd : ∀ e : Event, tfind e.st.jobs j = some x → resumeJob j x e = e.upd fun s => { s with jobs := tput j y s.jobs }) :
    exec (.restoreResume tag j) s = .next (({ s with jobs := tput j y s.jobs }).answered 24 tag .ok [y.stateValue]) := by
  let t : State := { s with jobs := tput j y s.jobs }
  have hdo : doRestoreResume j { st := s.executes ⟨tag, .restoreResume j⟩ } =
      replyJobState j { st := t.executes ⟨tag, .restoreResume j⟩ } := by
    have hf : findOpenJob (s.executes ⟨tag, .restoreResume j⟩) j = .ok x := findOpenJob_ok (findJob_ok hj hx) he
    rw [doRestoreResume, hf]
    dsimp only
    rw [hd _ hx]
    rfl
  have := exec_jobState h (resume_row tag j) perform_resume t hdo (jobState_settled rfl h.1.2.2) (by simp) rfl nofun nofun
  rw [this]
  have hfind : tfind t.jobs j = some y := tfind_tput_same ..
  rw [hfind]
  rfl

/-- A RESUME that changes nothing. -/
theorem exec_resume_stands (h : s.ctlServes) (tag : Nat) (hj : j ≤ 3) (hx : tfind s.jobs j = some x)
    (he : x.state.ended = false) (hd : ∀ e : Event, resumeJob j x e = e) :
    exec (.restoreResume tag j) s = .next (s.answered 24 tag .ok [x.stateValue]) := by
  have hdo : doRestoreResume j { st := s.executes ⟨tag, .restoreResume j⟩ } =
      replyJobState j { st := s.executes ⟨tag, .restoreResume j⟩ } := by
    have hf : findOpenJob (s.executes ⟨tag, .restoreResume j⟩) j = .ok x := findOpenJob_ok (findJob_ok hj hx) he
    rw [doRestoreResume, hf]
    dsimp only
    rw [hd]
  have := exec_jobState h (resume_row tag j) perform_resume s hdo (jobState_settled rfl h.1.2.2) (by simp) rfl nofun nofun
  rw [this, hx]
  rfl

theorem exec_suspend_stands (h : s.ctlServes) (tag : Nat) (hj : j ≤ 3) (hx : tfind s.jobs j = some x)
    (he : x.state.ended = false) (hd : ∀ e : Event, suspendJob j x e = e) :
    exec (.restoreSuspend tag j) s = .next (s.answered 23 tag .ok [x.stateValue]) := by
  have hdo : doRestoreSuspend j { st := s.executes ⟨tag, .restoreSuspend j⟩ } =
      replyJobState j { st := s.executes ⟨tag, .restoreSuspend j⟩ } := by
    have hf : findOpenJob (s.executes ⟨tag, .restoreSuspend j⟩) j = .ok x := findOpenJob_ok (findJob_ok hj hx) he
    rw [doRestoreSuspend, hf]
    dsimp only
    rw [hd]
  have := exec_jobState h (suspend_row tag j) perform_suspend s hdo (jobState_settled rfl h.1.2.2) (by simp) rfl nofun nofun
  rw [this, hx]
  rfl

theorem updJob_some {e : Event} (hx : tfind e.st.jobs j = some x) (f : Job → Job) :
    e.updJob j f = e.upd fun s => { s with jobs := tput j (f x) s.jobs } := by
  simp only [Event.updJob, hx]

/-- A SUSPEND of a job whose copy waits: the copy is withdrawn. -/
theorem exec_suspend_withdraws (h : s.ctlServes) (tag : Nat) (hj : j ≤ 3) (hx : tfind s.jobs j = some x)
    (hs : x.state = .running) (hc : x.copy = none) (hw : x.waiting = true) (hr : x.suspendReq = false) (hwf : s.wf = true)
    (hb : firstProceed [] (s.busy.filter fun i => i.owner != .restore j) = none) (hd : ∀ p ∈ s.vols, p.2.drain = none) :
    let rest := s.busy.filter fun i => i.owner != .restore j
    let y : Job := { x with state := .suspended, waiting := false }
    exec (.restoreSuspend tag j) s = .next (({ s with jobs := tput j y s.jobs, busy := rest }).answered 23 tag .ok [8]) := by
  intro rest y
  have hv := wf_vols hwf
  let t : State := { s with jobs := tput j y s.jobs, busy := rest }
  have hdo : doRestoreSuspend j { st := s.executes ⟨tag, .restoreSuspend j⟩ } = replyJobState j
      { st := t.executes ⟨tag, .restoreSuspend j⟩, todo := { retest := true, drains := true } } := by
    have hf : findOpenJob (s.executes ⟨tag, .restoreSuspend j⟩) j = .ok x :=
      findOpenJob_ok (findJob_ok hj hx) (by rw [hs]; rfl)
    have hx' : tfind ({ st := s.executes ⟨tag, .restoreSuspend j⟩ } : Event).st.jobs j = some x := hx
    rw [doRestoreSuspend, hf]
    dsimp only
    refine congrArg (replyJobState j) ?_
    simp only [suspendJob, hs, hc, Option.isSome_none, Bool.false_eq_true, if_false, withdrawVisit, hx', hw, if_true]
    rw [updJob_some hx', leaveBusy_noDrains (by exact hv) (by exact hd), updJob_some (x := { x with waiting := false })
      (tfind_tput_same ..)]
    simp only [Event.upd, tput_tput]
    rfl
  let todo : Todo := { retest := true, drains := true }
  have hset : (replyJobState j { st := t.executes ⟨tag, .restoreSuspend j⟩, todo := todo }).Settled := by
    have hreply : replyJobState j { st := t.executes ⟨tag, .restoreSuspend j⟩, todo := todo } = _ :=
      answerWith_eq (x := ⟨tag, 23⟩) rfl ..
    rw [hreply]
    exact ⟨fun _ => hb, fun _ => emptyDrain_none hd, nofun, nofun, nofun, nofun, nofun, nofun, fun _ _ => h.1.2.2, nofun⟩
  have := exec_jobState h (suspend_row tag j) perform_suspend t hdo hset (by simp) rfl nofun nofun
  rw [this]
  have hfind : tfind t.jobs j = some y := tfind_tput_same ..
  have hvalue : y.stateValue = 8 := by simp [y, Job.stateValue, hr]
  rw [hfind, Option.map_some, hvalue]
  rfl

/-- A RESUME of a SUSPENDED job while the yield flag is set. -/
theorem exec_resume_yields (h : s.ctlServes) (tag : Nat) (hj : j ≤ 3) (hx : tfind s.jobs j = some x) (hs : x.state = .suspended)
    (hr : x.suspendReq = false) (hy : s.yielding = true) :
    exec (.restoreResume tag j) s =
      .next (({ s with jobs := tput j { x with state := .yielded } s.jobs }).answered 24 tag .ok [9]) := by
  let y : Job := { x with state := .yielded }
  let t : State := { s with jobs := tput j y s.jobs }
  have hdo : doRestoreResume j { st := s.executes ⟨tag, .restoreResume j⟩ } =
      replyJobState j { st := t.executes ⟨tag, .restoreResume j⟩, todo := { jobs := true } } := by
    have hf : findOpenJob (s.executes ⟨tag, .restoreResume j⟩) j = .ok x :=
      findOpenJob_ok (findJob_ok hj hx) (by rw [hs]; rfl)
    have hx' : tfind ({ st := s.executes ⟨tag, .restoreResume j⟩ } : Event).st.jobs j = some x := hx
    have hrs : runState (s.executes ⟨tag, .restoreResume j⟩) = .yielded := if_pos hy
    rw [doRestoreResume, hf]
    dsimp only
    refine congrArg (replyJobState j) ?_
    simp only [resumeJob, hs, hrs]
    rw [updJob_some hx']
    rfl
  have hset : (replyJobState j { st := t.executes ⟨tag, .restoreResume j⟩, todo := { jobs := true } }).Settled := by
    have hreply : replyJobState j { st := t.executes ⟨tag, .restoreResume j⟩, todo := { jobs := true } } = _ :=
      answerWith_eq (x := ⟨tag, 24⟩) rfl ..
    rw [hreply]
    exact ⟨nofun, nofun, nofun, nofun, fun _ _ _ => canVisit_yielding hy, nofun, nofun, nofun, fun _ _ => h.1.2.2, nofun⟩
  have := exec_jobState h (resume_row tag j) perform_resume t hdo hset (by simp) rfl nofun nofun
  rw [this]
  have hfind : tfind t.jobs j = some y := tfind_tput_same ..
  have hvalue : y.stateValue = 9 := by simp [y, Job.stateValue, hr]
  rw [hfind, Option.map_some, hvalue]
  rfl

/-- SUSPEND and RESUME of an open job by its state. -/
theorem suspendResume_states (h : s.ctlServes) (tag : Nat) (hj : j ≤ 3) (hx : tfind s.jobs j = some x) :
    (x.state = .running → x.copy ≠ none →
      exec (.restoreSuspend tag j) s = .next
        (({ s with jobs := tput j { x with suspendReq := true } s.jobs }).answered 23 tag .ok [7]) ∧
      exec (.restoreResume tag j) s = .next
        (({ s with jobs := tput j { x with suspendReq := false } s.jobs }).answered 24 tag .ok [6])) ∧
    (x.state = .running → x.copy = none → x.waiting = false → x.suspendReq = false →
      exec (.restoreSuspend tag j) s = .next
        (({ s with jobs := tput j { x with state := .suspended } s.jobs }).answered 23 tag .ok [8])) ∧
    (x.state = .running → x.copy = none → x.suspendReq = false →
      exec (.restoreResume tag j) s = .next (({ s with jobs := tput j x s.jobs }).answered 24 tag .ok [6])) ∧
    (x.suspendReq = false → x.state = .yielded ∨ x.state = .pausedFrozen ∨ x.state = .pausedPool →
      exec (.restoreSuspend tag j) s = .next
        (({ s with jobs := tput j { x with state := .suspended } s.jobs }).answered 23 tag .ok [8]) ∧
      exec (.restoreResume tag j) s = .next (s.answered 24 tag .ok
        [if x.state = .yielded then 9 else if x.state = .pausedFrozen then 10 else 11])) ∧
    (x.state = .suspended → x.suspendReq = false → exec (.restoreSuspend tag j) s = .next (s.answered 23 tag .ok [8])) := by
  refine ⟨fun hs hc => ⟨?_, ?_⟩, fun hs hc hw hr => ?_, fun hs hc hr => ?_, fun hr hs => ⟨?_, ?_⟩, fun hs hr => ?_⟩
  · refine (exec_suspend_updates h tag hj hx (by rw [hs]; rfl) (y := { x with suspendReq := true }) fun e he => ?_).trans ?_
    · refine Eq.trans ?_ (updJob_some he fun y => { y with suspendReq := true })
      unfold suspendJob
      rw [hs]
      exact if_pos (Option.isSome_iff_ne_none.mpr hc)
    · rw [show ({ x with suspendReq := true } : Job).stateValue = 7 from rfl]
  · refine (exec_resume_updates h tag hj hx (by rw [hs]; rfl) (y := { x with suspendReq := false }) fun e he => ?_).trans ?_
    · refine Eq.trans ?_ (updJob_some he fun y => { y with suspendReq := false })
      unfold resumeJob
      rw [hs]
    · rw [show ({ x with suspendReq := false } : Job).stateValue = 6 from by simp [Job.stateValue, hs]]
  · refine (exec_suspend_updates h tag hj hx (by rw [hs]; rfl) (y := { x with state := .suspended }) fun e he => ?_).trans ?_
    · refine Eq.trans ?_ (updJob_some he fun y => { y with state := .suspended })
      unfold suspendJob
      rw [hs]
      simp only [hc, Option.isSome_none, Bool.false_eq_true, if_false, withdrawVisit, he, hw]
    · rw [show ({ x with state := .suspended } : Job).stateValue = 8 from by simp [Job.stateValue, hr]]
  · refine (exec_resume_updates h tag hj hx (by rw [hs]; rfl) (y := x) fun e he => ?_).trans ?_
    · simp only [resumeJob, hs]
      rw [updJob_some he, show ({ x with suspendReq := false } : Job) = x from by rw [← hr]]
    · rw [show x.stateValue = 6 from by simp [Job.stateValue, hr, hs]]
  · refine (exec_suspend_updates h tag hj hx (by rcases hs with hs | hs | hs <;> rw [hs] <;> rfl)
      (y := { x with state := .suspended }) fun e he => ?_).trans ?_
    · refine Eq.trans ?_ (updJob_some he fun y => { y with state := .suspended })
      unfold suspendJob
      rcases hs with hs | hs | hs <;> rw [hs]
    · rw [show ({ x with state := .suspended } : Job).stateValue = 8 from by simp [Job.stateValue, hr]]
  · refine (exec_resume_stands h tag hj hx (by rcases hs with hs | hs | hs <;> rw [hs] <;> rfl) fun e => ?_).trans ?_
    · rcases hs with hs | hs | hs <;> simp only [resumeJob, hs]
    · rcases hs with hs | hs | hs <;> simp [Job.stateValue, hr, hs]
  · refine (exec_suspend_stands h tag hj hx (by rw [hs]; rfl) fun e => ?_).trans ?_
    · simp only [suspendJob, hs]
    · rw [show x.stateValue = 8 from by simp [Job.stateValue, hr, hs]]

/-! ### STATUS and CLEAR -/

theorem perform_restoreStatus {j : Nat} (e : Event) (hp : e.st.ctl.part ≠ .recovering) :
    perform (.restoreStatus j) e = doRestoreStatus j e := if_neg fun hr => hp hr.1

theorem perform_restoreClear {j : Nat} (e : Event) (hp : e.st.ctl.part ≠ .recovering) :
    perform (.restoreClear j) e = doRestoreClear j e := if_neg fun hr => hp hr.1

theorem statusClear_refused (h : s.ctlServes) (tag : Nat) {code : Code} (hf : findJob s j = .error code) :
    exec (.restoreStatus tag j) s = .next (s.answered 26 tag code []) ∧
      exec (.restoreClear tag j) s = .next (s.answered 27 tag code []) := by
  constructor
  · refine exec_stands h (r := .restoreStatus j) (fun _ => rfl) perform_restoreStatus ?_ nofun nofun
    have hf' : findJob (s.executes ⟨tag, .restoreStatus j⟩) j = .error code := hf
    rw [doRestoreStatus, hf']
    rfl
  · refine exec_stands h (r := .restoreClear j) (fun _ => rfl) perform_restoreClear ?_ nofun nofun
    have hf' : findJob (s.executes ⟨tag, .restoreClear j⟩) j = .error code := hf
    rw [doRestoreClear, hf']
    rfl

theorem exec_restoreStatus (h : s.ctlServes) (tag : Nat) (hf : findJob s j = .ok x) :
    exec (.restoreStatus tag j) s = .next (s.answered 26 tag .ok (jobFields x)) := by
  refine exec_stands h (r := .restoreStatus j) (fun _ => rfl) perform_restoreStatus ?_ nofun nofun
  have hf' : findJob (s.executes ⟨tag, .restoreStatus j⟩) j = .ok x := hf
  rw [doRestoreStatus, hf']

theorem exec_restoreClear (h : s.ctlServes) (tag : Nat) (hf : findJob s j = .ok x) :
    exec (.restoreClear tag j) s = .next (if x.state.ended then ({ s with jobs := tdel j s.jobs }).answered 27 tag .ok []
      else s.answered 27 tag .active []) := by
  have hf' : findJob (s.executes ⟨tag, .restoreClear j⟩) j = .ok x := hf
  by_cases he : x.state.ended = true
  · rw [if_pos he]
    refine exec_plain h (r := .restoreClear j) (fun _ => rfl) perform_restoreClear { s with jobs := tdel j s.jobs } ?_ rfl rfl
      nofun nofun
    rw [doRestoreClear, hf']
    exact if_neg (not_not.mpr he)
  · rw [if_neg he]
    refine exec_stands h (r := .restoreClear j) (fun _ => rfl) perform_restoreClear ?_ nofun nofun
    rw [doRestoreClear, hf']
    exact if_pos he

end

/-- Settles O36: the refusals, the table of R112, and the record of R119. -/
theorem suspendResumeStatusAndClearByJobState : Obligations.SuspendResumeStatusAndClearByJobState := by
  refine ⟨?_, ?_⟩
  · intro s tag j h both
    refine ⟨fun hj => suspendResume_refused h tag (findOpenJob_error (findJob_range s hj)), fun hj hx =>
      suspendResume_refused h tag (findOpenJob_error (findJob_notFound hj hx)), fun hj x hx => ?_⟩
    obtain ⟨h1, h2, h3, h4, h5⟩ := suspendResume_states h tag hj hx
    exact ⟨fun he => suspendResume_refused h tag (findOpenJob_ended (findJob_ok hj hx) ((ended_iff _).mpr he)), h1, h2, h3,
      fun hs hc hw hr hwf hb hd => exec_suspend_withdraws h tag hj hx hs hc hw hr hwf hb hd, h4,
      fun hs hr => ⟨h5 hs hr, exec_resume_yields h tag hj hx hs hr⟩⟩
  · intro s tag j h opt
    refine ⟨fun hj => statusClear_refused h tag (findJob_range s hj), fun hj hx =>
      statusClear_refused h tag (findJob_notFound hj hx), fun hj x hx => ⟨?_, ?_⟩⟩
    · have hopt : opt = optField := funext fun o => by cases o <;> rfl
      rw [hopt]
      exact exec_restoreStatus h tag (findJob_ok hj hx)
    · exact (exec_restoreClear h tag (findJob_ok hj hx)).trans (congrArg Host.Outcome.next (if_congr (ended_iff _) rfl rfl))

end Sys2Proof.Machine
end

section
/-! PROOFS. The order of a run's frames (R127 to R133) and the outstanding list (R145): the law in the form in which the
operations keep it, and the operations of the engine. -/

namespace Sys2Proof.Machine

/-! ### The law, part by part -/

/-- VOLUME SEAL and RUN CLOSE, after which nothing is sent before their acknowledgement. -/
def Frame.last (f : Frame) : Prop := f.kind = .volumeSeal ∨ f.kind = .runClose

/-- The frames sent and not acknowledged, then those that are ready. -/
def State.frames (s : State) : List Frame := s.port.outstanding ++ s.run.frames

/-- The frames of the run stand in order on the port: `outstandingLaw`, and `runLaw` but for the RUN creates. -/
structure State.Ordered (s : State) : Prop where
  wf : s.wf = true
  window : s.port.outstanding.length ≤ s.ctl.config.window
  idleSeq : s.port.seqRun = none → s.port.outstanding = []
  seq : s.port.seqRun ≠ none → s.port.outstanding.map Frame.seq =
      List.range' (s.port.highestAcked + 1) s.port.outstanding.length ∧
    s.port.nextNo = s.port.highestAcked + 1 + s.port.outstanding.length
  idle : s.run.state = .idle → s.port.seqRun = none ∧ s.run.frames = [] ∧ s.run.reading = none
  reading : s.run.reading ≠ none → s.run.phase = .send ∧ s.run.frames = [] ∧ s.currentVol ≠ none
  inner : ∀ f ∈ s.frames.dropLast, ¬ f.last
  sealed : ∀ f ∈ s.frames, f.kind = .volumeSeal → s.run.phase = .seal ∧ s.currentVol ≠ none
  closed : ∀ f ∈ s.frames, f.kind = .runClose → s.currentVol = none

/-- The engine waits for the answer to its RUN create of a volume (R127). -/
def State.awaits (s : State) (v : Nat) : Prop :=
  s.run.state ≠ .idle ∧ s.run.phase = .freeze ∧ s.run.asked = true ∧ s.currentVol = some v

/-- The number of RUN creates among the works of a volume's drains. -/
def runCreates (l : List DrainWork) : Nat := (l.filter DrainWork.isRun).length

/-- The frames stand in order, `works` are the works of each volume's drains, and where `n` is not 0 it is 1 and the engine
waits for the answer to its RUN create of that volume. -/
structure State.Asking (n : Nat → Nat) (works : Nat → List DrainWork) (s : State) : Prop where
  ordered : s.Ordered
  asks : ∀ v, n v ≤ 1 ∧ (n v ≠ 0 → s.awaits v)
  works : ∀ v, (s.vol v).works = works v

/-- The law: the engine waits for exactly the RUN creates that stand. -/
def State.Sound (s : State) : Prop := ∃ works, s.Asking (fun v => runCreates (works v)) works

section
variable {s t : State} {n : Nat → Nat} {W : Nat → List DrainWork}

theorem State.vol_of_vols (h : t.vols = s.vols) (v : Nat) : t.vol v = s.vol v := by
  unfold State.vol
  rw [h]

theorem base_asking (n : Nat → Nat) (W : Nat → List DrainWork) : Base (State.Asking n W) where
  calm := by
    rintro s t hn ⟨hrun, hport, hplan, hconf⟩ ⟨h, ha, hw⟩
    have hcur : t.currentVol = s.currentVol := by rw [State.currentVol, hrun, hplan]; rfl
    have hfs : t.frames = s.frames := by rw [State.frames, hrun, hport]; rfl
    refine ⟨⟨hn.wf h.wf, ?_, ?_, ?_, ?_, ?_, ?_, ?_, ?_⟩, fun v => ?_, fun v => ?_⟩
    · rw [hport, hconf]; exact h.window
    · rw [hport]; exact h.idleSeq
    · rw [hport]; exact h.seq
    · rw [hport, hrun]; exact h.idle
    · rw [hrun, hcur]; exact h.reading
    · rw [hfs]; exact h.inner
    · rw [hfs, hrun, hcur]; exact h.sealed
    · rw [hfs, hcur]; exact h.closed
    · rw [State.awaits, hrun, hcur]; exact ha v
    · rw [State.vol_of_vols hn.vols]; exact hw v
  vol := by
    rintro s v y hk hy ⟨h, ha, hw⟩
    refine ⟨⟨State.wf_setVol h.wf v (hk.wf (State.wf_vol h.wf v)), h.window, h.idleSeq, h.seq, h.idle, h.reading, h.inner,
      h.sealed, h.closed⟩, ha, fun u => ?_⟩
    by_cases hu : u = v
    · subst hu
      rw [State.vol_setVol, hy]
      exact hw u
    · rw [State.vol_setVol_ne _ _ _ _ hu]
      exact hw u

/-- The works of one volume are changed. -/
theorem State.Asking.setVol {v : Nat} {y : Volume} (h : s.Asking n W) (hk : (s.vol v).Keeps y) :
    (s.setVol v y).Asking n (Function.update W v y.works) := by
  refine ⟨⟨State.wf_setVol h.ordered.wf v (hk.wf (State.wf_vol h.ordered.wf v)), h.ordered.window, h.ordered.idleSeq,
    h.ordered.seq, h.ordered.idle, h.ordered.reading, h.ordered.inner, h.ordered.sealed, h.ordered.closed⟩, h.asks, fun u => ?_⟩
  by_cases hu : u = v
  · subst hu
    rw [State.vol_setVol, Function.update_self]
  · rw [State.vol_setVol_ne _ _ _ _ hu, Function.update_of_ne hu]
    exact h.works u

theorem State.Asking.mono {m : Nat → Nat} (h : s.Asking n W) (hm : ∀ v, m v ≤ n v) : s.Asking m W :=
  ⟨h.ordered, fun v => ⟨(hm v).trans (h.asks v).1, fun hv => (h.asks v).2 fun h0 => hv (Nat.le_zero.mp (h0 ▸ hm v))⟩, h.works⟩

/-- Nothing is waited for. -/
theorem State.Asking.nobody (h : s.Asking n W) : s.Asking (fun _ => 0) W := h.mono fun _ => Nat.zero_le _

/-- The engine waits for one volume at most. -/
theorem State.Asking.unique {v w : Nat} (h : s.Asking n W) (hv : s.awaits v) (hw : w ≠ v) : n w = 0 := by
  by_contra h0
  obtain ⟨-, -, -, h1⟩ := (h.asks w).2 h0
  obtain ⟨-, -, -, h2⟩ := hv
  rw [h1] at h2
  exact hw (Option.some.inj h2)

theorem State.Asking.zero (h : s.Asking n W) (hn : ∀ v, ¬ s.awaits v) (v : Nat) : n v = 0 := by
  by_contra h0
  exact hn v ((h.asks v).2 h0)

theorem State.Asking.sound (h : s.Asking (fun v => runCreates (W v)) W) : s.Sound := ⟨W, h⟩

/-- With nothing sent in a phase SEAL and a current volume no frame is a last one. -/
theorem State.Ordered.noLast (h : s.Ordered) (hp : s.run.phase ≠ .seal) (hv : s.currentVol ≠ none) : ∀ f ∈ s.frames, ¬ f.last := by
  rintro f hf (hk | hk)
  · exact hp (h.sealed f hf hk).1
  · exact hv (h.closed f hf hk)

/-- A frame that no law holds back is followed by no other. -/
theorem State.Ordered.notReading (h : s.Ordered) (hp : s.run.phase ≠ .send) : s.run.reading = none := by
  by_contra hr
  exact hp (h.reading hr).1

theorem State.awaits.noLast {v : Nat} (ha : s.awaits v) (h : s.Ordered) : ∀ f ∈ s.frames, ¬ f.last := by
  obtain ⟨-, hp, -, hv⟩ := ha
  exact h.noLast (by rw [hp]; nofun) (by rw [hv]; nofun)

theorem State.awaits.notReading {v : Nat} (ha : s.awaits v) (h : s.Ordered) : s.run.reading = none := by
  obtain ⟨-, hp, -, -⟩ := ha
  exact h.notReading (by rw [hp]; nofun)

end

/-! ### Changes of the run and of the port that the law does not see -/

/-- The run record agrees in what the law reads of it. -/
structure Run.Like (r q : Run) : Prop where
  frames : q.frames = r.frames
  phase : q.phase = r.phase
  index : q.planIndex = r.planIndex
  asked : q.asked = r.asked
  idle : q.state = .idle ↔ r.state = .idle
  reading : r.reading = none → q.reading = none

structure Port.Like (p q : Port) : Prop where
  outstanding : q.outstanding = p.outstanding
  seqRun : q.seqRun = p.seqRun
  acked : q.highestAcked = p.highestAcked
  next : q.nextNo = p.nextNo

theorem Run.Like.refl (r : Run) : r.Like r := ⟨rfl, rfl, rfl, rfl, Iff.rfl, id⟩

theorem Port.Like.refl (p : Port) : p.Like p := ⟨rfl, rfl, rfl, rfl⟩

section
variable {e : Event} {n : Nat → Nat} {W : Nat → List DrainWork}

theorem State.Asking.like {s t : State} (h : s.Asking n W) {r : Run} {p : Port} (hr : s.run.Like r) (hp : s.port.Like p)
    (ht : t = { s with run := r, port := p }) : t.Asking n W := by
  subst ht
  obtain ⟨h, ha, hw⟩ := h
  have hcur : ({ s with run := r, port := p } : State).currentVol = s.currentVol := by
    rw [State.currentVol, State.currentVol, hr.index]
  have hfs : ({ s with run := r, port := p } : State).frames = s.frames := by
    rw [State.frames, State.frames, hr.frames, hp.outstanding]
  refine ⟨⟨h.wf, ?_, ?_, ?_, ?_, ?_, ?_, ?_, ?_⟩, fun v => ?_, hw⟩
  · rw [hp.outstanding]; exact h.window
  · rw [hp.outstanding, hp.seqRun]; exact h.idleSeq
  · rw [hp.outstanding, hp.seqRun, hp.acked, hp.next]; exact h.seq
  · intro hi
    obtain ⟨h1, h2, h3⟩ := h.idle (hr.idle.mp hi)
    exact ⟨hp.seqRun.trans h1, hr.frames.trans h2, hr.reading h3⟩
  · intro hread
    rw [hcur, hr.phase, hr.frames]
    exact h.reading fun h0 => hread (hr.reading h0)
  · rw [hfs]; exact h.inner
  · rw [hfs, hr.phase, hcur]; exact h.sealed
  · rw [hfs, hcur]; exact h.closed
  · refine ⟨(ha v).1, fun h0 => ?_⟩
    obtain ⟨h1, h2, h3, h4⟩ := (ha v).2 h0
    exact ⟨fun hi => h1 (hr.idle.mp hi), hr.phase.trans h2, hr.asked.trans h3, hcur.trans h4⟩

theorem State.Asking.updRun (h : e.st.Asking n W) (f : Run → Run) (hr : e.st.run.Like (f e.st.run)) : (e.updRun f).st.Asking n W :=
  h.like hr (Port.Like.refl _) rfl

theorem State.Asking.updPort (h : e.st.Asking n W) (f : Port → Port) (hp : e.st.port.Like (f e.st.port)) :
    (e.updPort f).st.Asking n W := h.like (Run.Like.refl _) hp rfl

/-- A change of a run that has no last frame and no frame in preparation. -/
theorem State.Asking.moveRun (h : e.st.Asking n W) (f : Run → Run) (hf : (f e.st.run).frames = e.st.run.frames)
    (hi : (f e.st.run).state = .idle ↔ e.st.run.state = .idle) (hr : (f e.st.run).reading = none)
    (hn : ∀ g ∈ e.st.frames, ¬ g.last) : (e.updRun f).st.Asking (fun _ => 0) W := by
  obtain ⟨h, -, hw⟩ := h
  have hfs : (e.updRun f).st.frames = e.st.frames := congrArg (e.st.port.outstanding ++ ·) hf
  refine ⟨⟨h.wf, h.window, h.idleSeq, h.seq, fun hs => ?_, fun h0 => absurd hr h0, ?_, ?_, ?_⟩,
    fun v => ⟨Nat.zero_le _, fun h0 => absurd rfl h0⟩, hw⟩
  · obtain ⟨h1, h2, -⟩ := h.idle (hi.mp hs)
    exact ⟨h1, hf.trans h2, hr⟩
  · rw [hfs]
    exact fun g hg => hn g (List.mem_of_mem_dropLast hg)
  · rw [hfs]
    exact fun g hg hk => absurd (.inl hk) (hn g hg)
  · rw [hfs]
    exact fun g hg hk => absurd (.inr hk) (hn g hg)

/-- A frame is made ready. -/
theorem State.Asking.readyFrame (f : State → Frame) (h : e.st.Asking n W) (hs : e.st.run.state ≠ .idle)
    (hr : e.st.run.reading = none) (hn : ∀ g ∈ e.st.frames, ¬ g.last)
    (hseal : (f e.st).kind = .volumeSeal → e.st.run.phase = .seal ∧ e.st.currentVol ≠ none)
    (hclose : (f e.st).kind = .runClose → e.st.currentVol = none) : (readyFrame f e).st.Asking n W := by
  obtain ⟨h, ha, hw⟩ := h
  have hfs : (Machine.readyFrame f e).st.frames = e.st.frames ++ [f e.st] := (List.append_assoc ..).symm
  refine ⟨⟨h.wf, h.window, h.idleSeq, h.seq, fun hi => absurd hi hs, fun h0 => absurd hr h0, ?_, ?_, ?_⟩, ha, hw⟩
  · rw [hfs, List.dropLast_concat]
    exact hn
  · rw [hfs]
    intro g hg hk
    rcases List.mem_append.mp hg with hg | hg
    · exact absurd (.inl hk) (hn g hg)
    · rw [List.mem_singleton.mp hg] at hk
      exact hseal hk
  · rw [hfs]
    intro g hg hk
    rcases List.mem_append.mp hg with hg | hg
    · exact absurd (.inr hk) (hn g hg)
    · rw [List.mem_singleton.mp hg] at hk
      exact hclose hk

/-! ### Passes and volumes -/

/-- A pass opens where the port and the engine hold no frame. -/
theorem State.Asking.openPass (h : e.st.Asking n W) (ho : e.st.port.outstanding = []) (hf : e.st.run.frames = [])
    (hr : e.st.run.reading = none) : (openPass e).st.Asking (fun _ => 0) W := by
  obtain ⟨h, -, hw⟩ := h
  have hout : (Machine.openPass e).st.port.outstanding = [] := ho
  have hfs : (Machine.openPass e).st.frames = [runOpenFrame (beginSequence (stepWrap max32 e.st.run.runId) (e.updRun fun r =>
      { r with runId := stepWrap max32 r.runId, state := .active, planIndex := 0, phase := .freeze, asked := false,
               passSealed := 0, passSkipped := 0 })).st] := by
    unfold State.frames
    rw [hout]
    change e.st.run.frames ++ [_] = _
    rw [hf]
    rfl
  refine ⟨⟨h.wf, ?_, fun _ => hout, fun _ => ?_, nofun, fun h0 => absurd hr h0, ?_, ?_, ?_⟩,
    fun v => ⟨Nat.zero_le _, fun h0 => absurd rfl h0⟩, hw⟩
  · rw [hout]
    exact Nat.zero_le _
  · rw [hout]
    exact ⟨rfl, rfl⟩
  · rw [hfs]
    nofun
  · rw [hfs]
    intro g hg hk
    rw [List.mem_singleton.mp hg] at hk
    cases hk
  · rw [hfs]
    intro g hg hk
    rw [List.mem_singleton.mp hg] at hk
    cases hk

/-- A run that is not IDLE goes on to its next volume, or to its RUN CLOSE. -/
theorem State.Asking.nextVolume (h : e.st.Asking n W) (hs : e.st.run.state ≠ .idle) (hr : e.st.run.reading = none)
    (hn : ∀ g ∈ e.st.frames, ¬ g.last) : (nextVolume e).st.Asking (fun _ => 0) W := by
  have h1 : (e.updRun fun r => { r with planIndex := r.planIndex + 1, asked := false }).st.Asking (fun _ => 0) W :=
    h.moveRun _ rfl Iff.rfl hr hn
  unfold Machine.nextVolume
  dsimp only
  split_ifs with hc
  · exact h1.moveRun (fun r => { r with phase := .freeze }) rfl Iff.rfl hr hn
  · have hstate : ∀ x : RunState, (if x = .active then RunState.closing else x) = .idle ↔ x = .idle := by
      intro x
      cases x <;> simp
    refine (h1.moveRun (fun r => { r with state := if r.state = .active then .closing else r.state }) rfl (hstate _) hr
      hn).readyFrame _ (fun hi => hs ((hstate _).mp hi)) hr hn nofun fun _ => ?_
    exact Option.not_isSome_iff_eq_none.mp hc

theorem State.Asking.skipVolume {v : Nat} (h : e.st.Asking n W) (ha : e.st.awaits v) :
    (skipVolume v e).st.Asking (fun _ => 0) W := by
  have hr := ha.notReading h.ordered
  have hn := ha.noLast h.ordered
  exact (h.moveRun (e := e.note .runVolumeSkipped v Code.genLimit.value 0)
    (fun r => { r with skippedVols := r.skippedVols + 1, passSkipped := r.passSkipped + 1 }) rfl Iff.rfl hr hn).nextVolume ha.1 hr hn

theorem State.Asking.volumeFreeze {v : Nat} (gen : Nat) (h : e.st.Asking n W) (ha : e.st.awaits v) :
    (volumeFreeze v gen e).st.Asking (fun _ => 0) W := by
  have hr := ha.notReading h.ordered
  have hn := ha.noLast h.ordered
  let c := stepWrap Config.maxRunCounter (e.st.vol v).runCounter
  have h1 := (base_asking n W).updVol_same v (fun y : Volume => { y with
      runCounter := c, runList := y.activeList, runIncomplete := y.activeIncomplete, activeList := [],
      activeIncomplete := false, fullScan := y.fullScan || c == 0 }) (fun _ => rfl) (fun _ => rfl) (fun _ => rfl) (fun _ => rfl) h
  exact (h1.moveRun (fun r => { r with
    phase := .send, fullScan := scanReasons (e.st.vol v) c != 0, reasons := scanReasons (e.st.vol v) c, keep := c == 0, pos := 0,
    clearStart := 0, clearCount := 0, scanRead := false, volData := 0, volClear := 0 }) rfl Iff.rfl hr hn).readyFrame
      (fun s => volumeOpenFrame s v gen) ha.1 hr hn (fun hk => by cases hk) (fun hk => by cases hk)

theorem State.Asking.answerRun {v : Nat} (a : CreateAnswer) (h : e.st.Asking n W) (ha : e.st.awaits v) :
    (answerRun v a e).st.Asking (fun _ => 0) W := by
  have hr := ha.notReading h.ordered
  have hn := ha.noLast h.ordered
  unfold Machine.answerRun
  split
  · exact h.volumeFreeze _ ha
  · exact h.moveRun (fun r => { r with retries := r.retries + 1, asked := false }) rfl Iff.rfl hr hn
  · exact h.skipVolume ha
  · exact h.moveRun (fun r => { r with asked := false }) rfl Iff.rfl hr hn

end

end Sys2Proof.Machine
end

section
/-! PROOFS. What the action of a drain leaves of the drains, and the law of the run through the end and the beginning of drains
(R25 to R29, R127). -/

namespace Sys2Proof.Machine

/-! ### The drains stand -/

/-- Every volume keeps its drain, its waiting drains and its hold list. -/
def State.SameDrains (s t : State) : Prop :=
  ∀ w, (t.vol w).drain = (s.vol w).drain ∧ (t.vol w).waiting = (s.vol w).waiting ∧ (t.vol w).holdList = (s.vol w).holdList

theorem State.SameDrains.refl (s : State) : s.SameDrains s := fun _ => ⟨rfl, rfl, rfl⟩

section
variable {s : State} {e : Event}

theorem sameDrains_of_vols {t u : State} (h : s.SameDrains t) (hu : u.vols = t.vols) : s.SameDrains u := fun w => by
  rw [State.vol_of_vols hu]
  exact h w

theorem sameDrains_updVol (v : Nat) {f : Volume → Volume} (hd : ∀ x, (f x).drain = x.drain) (hw : ∀ x, (f x).waiting = x.waiting)
    (hl : ∀ x, (f x).holdList = x.holdList) (h : s.SameDrains e.st) : s.SameDrains (e.updVol v f).st := fun w => by
  by_cases hv : w = v
  · subst hv
    rw [updVol_st_vol, hd, hw, hl]
    exact h w
  · rw [show (e.updVol v f).st.vol w = e.st.vol w from State.vol_setVol_ne _ _ _ _ hv]
    exact h w

theorem sameDrains_reply (code : Code) (result : List Nat) (h : s.SameDrains e.st) : s.SameDrains (reply code result e).st := by
  unfold reply answerWith
  split
  · exact h
  · exact h

theorem sameDrains_endWalk (v slot : Nat) (h : s.SameDrains e.st) : s.SameDrains (endWalk v slot e).st := by
  have h1 : s.SameDrains (e.updVol v fun x => { x with snaps := tdel slot x.snaps, deleteQueue := x.deleteQueue.drop 1 }).st :=
    sameDrains_updVol v (fun _ => rfl) (fun _ => rfl) (fun _ => rfl) h
  unfold endWalk
  dsimp only
  split_ifs <;> exact h1

theorem sameDrains_startHead (v n : Nat) (h : s.SameDrains e.st) : s.SameDrains (startHead v n e).st := by
  induction n generalizing e with
  | zero => exact h
  | succ n ih =>
    unfold startHead
    split
    · exact h
    split
    · exact h
    · rename_i slot _ _ _ d _
      have h1 := sameDrains_updVol (e := e) v (f := fun x => x.setSnap slot { d with state := .deleting }) (fun _ => rfl)
        (fun _ => rfl) (fun _ => rfl) h
      dsimp only
      split_ifs
      · exact ih (sameDrains_endWalk _ _ h1)
      · exact h1

theorem sameDrains_queueDeletion (v slot : Nat) (h : s.SameDrains e.st) : s.SameDrains (queueDeletion v slot e).st := by
  unfold queueDeletion
  split
  · exact h
  · rename_i d _
    have h1 := sameDrains_updVol (e := e) v (f := fun x =>
      { x.setSnap slot { d with state := .deletePending } with deleteQueue := x.deleteQueue ++ [slot] }) (fun _ => rfl)
      (fun _ => rfl) (fun _ => rfl) h
    dsimp only
    split_ifs
    · exact sameDrains_startHead _ _ h1
    · exact h1

theorem sameDrains_rotateOver (v keep : Nat) (l : List (Nat × Snap)) (n : Nat) (h : s.SameDrains e.st) :
    s.SameDrains (rotateOver v keep l n e).2.st := by
  induction l generalizing n e with
  | nil => exact h
  | cons p l ih =>
    unfold rotateOver
    split_ifs
    · exact h
    · exact ih _ h
    · exact ih _ (sameDrains_queueDeletion _ _ h)

theorem sameDrains_rotate (v q keep slot : Nat) (h : s.SameDrains e.st) : s.SameDrains (rotate v q keep slot e).st := by
  have h1 := sameDrains_rotateOver v keep (rotationCandidates (e.st.vol v) q slot)
    ((rotationCandidates (e.st.vol v) q slot).length + 1) h
  unfold rotate
  dsimp only
  split_ifs <;> exact h1

theorem sameDrains_pinSnap (v slot : Nat) (up : Bool) (h : s.SameDrains e.st) : s.SameDrains (pinSnap v slot up e).st := by
  unfold pinSnap
  split
  · exact h
  · exact sameDrains_updVol v (fun _ => rfl) (fun _ => rfl) (fun _ => rfl) h

theorem sameDrains_updJob (j : Nat) (f : Job → Job) (h : s.SameDrains e.st) : s.SameDrains (e.updJob j f).st := by
  unfold Event.updJob
  split
  · exact h
  · exact h

theorem sameDrains_releaseChunks (tag n : Nat) (h : s.SameDrains e.st) : s.SameDrains (releaseChunks tag n e).st := by
  unfold releaseChunks
  split_ifs
  · exact h
  · rw [Event.touchAcct_st]
    exact h

theorem sameDrains_createEvent (v : Nat) (c : CreateReq) (h : s.SameDrains e.st) : s.SameDrains (createEvent v c e).2.st := by
  unfold createEvent
  dsimp only
  split
  · exact h
  · exact sameDrains_updVol v (fun _ => rfl) (fun _ => rfl) (fun _ => rfl) h

theorem sameDrains_answerRestore (j : Nat) (a : CreateAnswer) (h : s.SameDrains e.st) :
    s.SameDrains (answerRestore j a e).st := by
  unfold answerRestore
  split
  · exact h
  split
  · exact sameDrains_reply _ _ (sameDrains_updJob _ _ (sameDrains_pinSnap _ _ _ h))
  · refine sameDrains_reply (e := Event.upd _ _) _ _ ?_
    exact sameDrains_pinSnap _ _ _ (sameDrains_releaseChunks _ _ h)

theorem sameDrains_nextVolume (h : s.SameDrains e.st) : s.SameDrains (nextVolume e).st := by
  unfold nextVolume
  dsimp only
  split_ifs <;> exact h

theorem sameDrains_answerRun (v : Nat) (a : CreateAnswer) (h : s.SameDrains e.st) : s.SameDrains (answerRun v a e).st := by
  unfold answerRun
  split
  · exact sameDrains_updVol (e := e) v (f := fun y : Volume => { y with
      runCounter := stepWrap Config.maxRunCounter (e.st.vol v).runCounter, runList := y.activeList,
      runIncomplete := y.activeIncomplete, activeList := [], activeIncomplete := false,
      fullScan := y.fullScan || stepWrap Config.maxRunCounter (e.st.vol v).runCounter == 0 }) (fun _ => rfl) (fun _ => rfl)
      (fun _ => rfl) h
  · exact h
  · exact sameDrains_nextVolume h
  · exact h

theorem sameDrains_answerCreate (v : Nat) (c : CreateReq) (a : CreateAnswer) (h : s.SameDrains e.st) :
    s.SameDrains (answerCreate v c a e).st := by
  unfold answerCreate
  split
  · split <;> exact sameDrains_reply _ _ h
  · split
    · exact sameDrains_rotate _ _ _ _ h
    · exact h
  · exact sameDrains_answerRestore _ _ h
  · exact sameDrains_answerRun _ _ h

theorem sameDrains_makeSnapshot (v : Nat) (c : CreateReq) (h : s.SameDrains e.st) : s.SameDrains (makeSnapshot v c e).st :=
  sameDrains_answerCreate _ _ _ (sameDrains_createEvent _ _ h)

theorem sameDrains_answerFreeze (v : Nat) (code : Code) (a : FreezeAsker) (h : s.SameDrains e.st) :
    s.SameDrains (answerFreeze v code a e).st := by
  unfold answerFreeze
  split
  · exact sameDrains_reply _ _ h
  · rename_i index record
    have h1 : s.SameDrains (takeFollowUp record e).2.st := by cases record <;> exact h
    dsimp only
    split_ifs
    · split
      · exact sameDrains_makeSnapshot _ _ h1
      · exact h1
    · exact h1

theorem sameDrains_drainAction (v : Nat) (d : Drain) (how : DrainEnd) (h : s.SameDrains e.st) :
    s.SameDrains (drainAction v d how e).st := by
  unfold drainAction
  split
  · exact sameDrains_makeSnapshot _ _ h
  · exact sameDrains_answerCreate _ _ _ h
  · exact h
  · exact foldl_keeps (Q := fun e => s.SameDrains e.st) (fun _ _ he => sameDrains_answerFreeze _ _ _ he) _
      (sameDrains_updVol v (fun _ => rfl) (fun _ => rfl) (fun _ => rfl) h)

end

/-! ### Answers -/

section
variable {e : Event} {n : Nat → Nat} {W : Nat → List DrainWork} {v : Nat}

/-- What is waited for once a create is answered: nothing if the create was the run's. -/
def leftOver (run : Bool) (n : Nat → Nat) : Nat → Nat := if run then fun _ => 0 else n

/-- A create that the run has not asked for is answered. -/
theorem Base.answerOther {P : State → Prop} (K : Base P) (v : Nat) {c : CreateReq} (a : CreateAnswer) (hc : c.asker ≠ .run)
    (h : P e.st) : P (answerCreate v c a e).st := by
  unfold Machine.answerCreate
  split
  · split <;> exact K.reply _ _ h
  · split
    · exact K.rotate _ _ _ _ h
    · exact h
  · exact K.answerRestore _ _ h
  · contradiction

theorem State.Asking.answerCreate {c : CreateReq} (a : CreateAnswer) (h : e.st.Asking n W) (hr : c.asker = .run → n v ≠ 0) :
    (answerCreate v c a e).st.Asking (leftOver (c.asker == .run) n) W := by
  by_cases hc : c.asker = .run
  · have ha := (h.asks v).2 (hr hc)
    rw [hc]
    have : Machine.answerCreate v c a e = Machine.answerRun v a e := by simp only [Machine.answerCreate, hc]
    rw [this]
    exact h.answerRun a ha
  · have hb : (c.asker == .run) = false := by simpa using hc
    rw [hb]
    exact (base_asking n W).answerOther v a hc h

theorem State.Asking.makeSnapshot {c : CreateReq} (h : e.st.Asking n W) (hr : c.asker = .run → n v ≠ 0) :
    (makeSnapshot v c e).st.Asking (leftOver (c.asker == .run) n) W :=
  State.Asking.answerCreate _ ((base_asking n W).createEvent v c h) hr

/-- The freezes that joined a drain are answered. -/
theorem Base.answerFreezes {P : State → Prop} (K : Base P) (v : Nat) (code : Code) (fs : List FreezeAsker) (h : P e.st) :
    P (fs.foldl (fun e a => answerFreeze v code a e) e).st := by
  refine foldl_keeps (Q := fun e => P e.st) (fun e a h => ?_) fs h
  unfold Machine.answerFreeze
  split
  · exact K.reply _ _ h
  · rename_i index record
    have h1 := K.takeFollowUp record h
    dsimp only
    split_ifs
    · split
      · exact K.answerOther _ _ nofun (K.createEvent _ _ h1)
      · exact h1
    · exact h1

theorem State.Asking.drainAction {d : Drain} (how : DrainEnd) (h : e.st.Asking n W) (hr : d.work.isRun = true → n v ≠ 0) :
    (drainAction v d how e).st.Asking (leftOver d.work.isRun n) W := by
  unfold Machine.drainAction
  split
  · rename_i c hc
    rw [hc] at hr ⊢
    exact h.makeSnapshot fun ha => hr (beq_iff_eq.mpr ha)
  · rename_i c hc
    rw [hc] at hr ⊢
    exact h.answerCreate _ fun ha => hr (beq_iff_eq.mpr ha)
  · rename_i c hc
    rw [hc]
    unfold leftOver
    split_ifs
    · exact h.nobody
    · exact h
  · rename_i fs _ hc
    rw [hc]
    exact (base_asking n W).answerFreezes _ _ _ ((base_asking n W).updVol_same v _ (fun _ => rfl) (fun _ => rfl) (fun _ => rfl)
      (fun _ => rfl) h)

/-! ### The end of a drain -/

theorem runCreates_cons (w : DrainWork) (l : List DrainWork) : runCreates (w :: l) = (if w.isRun then 1 else 0) + runCreates l := by
  unfold runCreates
  rw [List.filter_cons]
  split_ifs
  · exact Nat.add_comm ..
  · exact (Nat.zero_add _).symm

theorem runCreates_append (l m : List DrainWork) : runCreates (l ++ m) = runCreates l + runCreates m := by
  simp [runCreates]

theorem works_of_some {x : Volume} {d : Drain} (hd : x.drain = some d) : x.works = d.work :: x.waiting := by
  rw [Volume.works, hd]
  rfl

theorem works_of_none {x : Volume} (hd : x.drain = none) : x.works = x.waiting := by
  rw [Volume.works, hd]
  rfl

/-- A drain ends: its work is gone, and the waiting drains of its volume are as they were. -/
theorem State.Asking.finishDrain {d : Drain} (how : DrainEnd) (h : e.st.Asking (fun w => runCreates (W w)) W)
    (hd : (e.st.vol v).drain = some d) :
    (finishDrain v how e).st.Asking (fun w => runCreates (Function.update W v (e.st.vol v).waiting w))
      (Function.update W v (e.st.vol v).waiting) := by
  have hW : W v = d.work :: (e.st.vol v).waiting := (h.works v).symm.trans (works_of_some hd)
  have hr : d.work.isRun = true → runCreates (W v) ≠ 0 := by
    intro hrun
    rw [hW, runCreates_cons, if_pos hrun]
    omega
  have h1 := h.drainAction (v := v) how hr
  have hsame := sameDrains_drainAction v d how (State.SameDrains.refl e.st) v
  have h2 := h1.setVol (v := v) (y := { (Machine.drainAction v d how e).st.vol v with drain := none, holdList := [] })
    (.of_same rfl rfl rfl)
  have hworks : Volume.works { (Machine.drainAction v d how e).st.vol v with drain := none, holdList := [] } =
      (e.st.vol v).waiting := (works_of_none rfl).trans hsame.2.1
  rw [hworks] at h2
  have h3 := h2.mono (m := fun w => runCreates (Function.update W v (e.st.vol v).waiting w)) fun w => by
    by_cases hw : w = v
    · subst hw
      have hle := (h.asks w).1
      rw [Function.update_self]
      rw [hW, runCreates_cons] at hle
      unfold leftOver
      split_ifs at hle ⊢ with hrun
      · omega
      · change _ ≤ runCreates (W w)
        rw [hW, runCreates_cons, if_neg hrun]
        omega
    · rw [Function.update_of_ne hw]
      unfold leftOver
      split_ifs with hrun
      · exact (h.unique ((h.asks v).2 (hr hrun)) hw).le
      · exact le_rfl
  unfold Machine.finishDrain
  rw [hd]
  exact foldl_keeps (Q := fun e => e.st.Asking _ _) (fun e a he => by
    unfold Machine.releaseHeld
    split
    · exact he
    · exact (base_asking _ _).enterBusy _ ((base_asking _ _).plain he)) _ h3

theorem State.Sound.finishDrain (v : Nat) (how : DrainEnd) (h : e.st.Sound) : (finishDrain v how e).st.Sound := by
  obtain ⟨W, h⟩ := h
  cases hd : (e.st.vol v).drain with
  | none =>
    unfold Machine.finishDrain
    rw [hd]
    exact ⟨W, h⟩
  | some d => exact ⟨_, h.finishDrain how hd⟩

/-! ### The beginning of a drain -/

/-- What is waited for where one more work is to join the drains of a volume. -/
def withWork (W : Nat → List DrainWork) (v : Nat) (w : DrainWork) (u : Nat) : Nat :=
  runCreates (W u) + if u = v ∧ w.isRun then 1 else 0

/-- The work joins the drains of its volume. -/
theorem State.Asking.joined {w : DrainWork} {y : Volume} (h : e.st.Asking (withWork W v w) W) (hk : (e.st.vol v).Keeps y)
    (hy : runCreates y.works = runCreates (w :: W v)) : (e.st.setVol v y).Sound := by
  refine ((h.setVol hk).mono fun u => ?_).sound
  unfold withWork
  by_cases hu : u = v
  · subst hu
    rw [Function.update_self, hy, runCreates_cons]
    simp only [true_and]
    omega
  · rw [Function.update_of_ne hu]
    omega

theorem State.Sound.beginDrain {w : DrainWork} (h : e.st.Asking (withWork W v w) W) (hd : (e.st.vol v).drain = none) :
    (beginDrain v w e).st.Sound := by
  have hstart : ∀ {e : Event} (d : Drain), d.work = w → e.st.Asking (withWork W v w) W → (e.st.vol v).drain = none →
      (e.updVol v fun x => { x with drain := some d }).st.Sound := by
    intro e d hw h hd
    refine State.Asking.joined (y := { e.st.vol v with drain := some d }) h (.of_same rfl rfl rfl) ?_
    rw [works_of_some (x := { e.st.vol v with drain := some d }) rfl, hw, ← h.works v, works_of_none hd]
  unfold Machine.beginDrain
  dsimp only
  split
  · split
    · exact State.Sound.finishDrain _ _ (hstart _ rfl h hd)
    · exact hstart _ rfl h hd
  · rename_i fs
    split
    · have h1 := (base_asking _ _).answerFreezes (e := e) v .ok fs h
      exact (h1.mono fun u => Nat.le_add_right ..).sound
    · have h1 := (base_asking _ _).updVol_same v (fun x => { x with state := .freezing }) (fun _ => rfl) (fun _ => rfl)
        (fun _ => rfl) (fun _ => rfl) h
      have hd1 : ((e.updVol v fun x => { x with state := .freezing }).st.vol v).drain = none := by
        rw [updVol_st_vol]
        exact hd
      split
      · exact State.Sound.finishDrain _ _ (hstart _ rfl h1 hd1)
      · exact hstart _ rfl h1 hd1

theorem State.Sound.askDrain {w : DrainWork} (h : e.st.Asking (withWork W v w) W) : (askDrain v w e).st.Sound := by
  unfold Machine.askDrain
  dsimp only
  split_ifs with hc
  · exact State.Sound.beginDrain h hc.1
  · refine State.Asking.joined (y := { e.st.vol v with waiting := (e.st.vol v).waiting ++ [w] }) h (.of_same rfl rfl rfl) ?_
    rw [← h.works v, runCreates_cons, Volume.works, Volume.works, ← List.append_assoc, runCreates_append _ [w], runCreates_cons]
    exact Nat.add_comm ..

theorem State.Sound.beginNext (v : Nat) (h : e.st.Sound) (hd : (e.st.vol v).drain = none) : (beginNext v e).st.Sound := by
  obtain ⟨W, h⟩ := h
  unfold Machine.beginNext
  split
  · exact ⟨W, h⟩
  · rename_i w l hw
    have hW : W v = w :: l := (h.works v).symm.trans ((works_of_none hd).trans hw)
    have h1 := h.setVol (v := v) (y := { e.st.vol v with waiting := l }) (.of_same rfl rfl rfl)
    have hl : Volume.works { e.st.vol v with waiting := l } = l := works_of_none hd
    rw [hl] at h1
    refine State.Sound.beginDrain (W := Function.update W v l) (e := e.updVol v fun x => { x with waiting := l }) (v := v) (w := w)
      (h1.mono fun u => ?_) ?_
    · unfold withWork
      by_cases hu : u = v
      · subst hu
        rw [Function.update_self, hW, runCreates_cons]
        simp only [true_and]
        omega
      · rw [Function.update_of_ne hu]
        simp [hu]
    · rw [updVol_st_vol]
      exact hd

/-! ### Creates, freezes and thaws -/

/-- A create is asked for: its volume is FROZEN and it is made at once, or its drain joins the others. -/
theorem State.Sound.askCreate {c : CreateReq} (h : e.st.Asking (withWork W v (.holding c)) W) : (askCreate v c e).st.Sound := by
  unfold Machine.askCreate
  split_ifs
  · have hr : c.asker = .run → withWork W v (.holding c) v ≠ 0 := by
      intro hrun
      have : (DrainWork.holding c).isRun = true := beq_iff_eq.mpr hrun
      simp [withWork, this]
    refine ((h.makeSnapshot hr).mono fun u => ?_).sound
    unfold leftOver
    split_ifs with hrun
    · have ha := (h.asks v).2 (hr (beq_iff_eq.mp hrun))
      have hv := (h.asks v).1
      by_cases hu : u = v
      · subst hu
        have : (DrainWork.holding c).isRun = true := hrun
        simp only [withWork, this, and_self, if_true] at hv
        omega
      · have := h.unique ha hu
        unfold withWork at this
        omega
    · exact Nat.le_add_right ..
  · exact State.Sound.askDrain h

/-- A work that is no RUN create adds nothing to what is waited for. -/
theorem State.Asking.other {w : DrainWork} (hw : w.isRun = false) (h : e.st.Asking (fun u => runCreates (W u)) W) :
    e.st.Asking (withWork W v w) W := h.mono fun u => by simp [withWork, hw]

theorem State.Sound.askOther (v : Nat) {c : CreateReq} (hc : c.asker ≠ .run) (h : e.st.Sound) : (Machine.askCreate v c e).st.Sound := by
  obtain ⟨W, h⟩ := h
  exact State.Sound.askCreate (h.other (w := .holding c) (by simpa [DrainWork.isRun] using hc))



end

end Sys2Proof.Machine
end

section
/-! PROOFS. The law of the run through the operations of the offsite engine and its port (R129 to R138, R144 to R155). -/

namespace Sys2Proof.Machine

theorem base_sound : Base State.Sound where
  calm := fun hn hr ⟨W, h⟩ => ⟨W, (base_asking _ _).calm hn hr h⟩
  vol := fun hk hy ⟨W, h⟩ => ⟨W, (base_asking _ _).vol hk hy h⟩

section
variable {e : Event} {n : Nat → Nat} {W : Nat → List DrainWork} {v : Nat}

theorem State.Sound.updRun (h : e.st.Sound) (f : Run → Run) (hr : e.st.run.Like (f e.st.run)) : (e.updRun f).st.Sound := by
  obtain ⟨W, h⟩ := h
  exact ⟨W, h.updRun f hr⟩

theorem State.Sound.updPort (h : e.st.Sound) (f : Port → Port) (hp : e.st.port.Like (f e.st.port)) : (e.updPort f).st.Sound := by
  obtain ⟨W, h⟩ := h
  exact ⟨W, h.updPort f hp⟩

/-- Nothing was waited for, and nothing is. -/
theorem State.Asking.soundOf {s : State} (h : s.Asking (fun _ => 0) W) (hz : ∀ u, runCreates (W u) = 0) : s.Sound :=
  (h.mono fun u => (hz u).le).sound

/-! ### The early end of a run -/

theorem Base.mergeBack {P : State → Prop} (K : Base P) (v : Nat) (h : P e.st) : P (mergeBack v e).st :=
  K.queueDeletion _ _ (K.updVol_same v (fun x => { x with runList := [], runIncomplete := false }) (fun _ => rfl)
    (fun _ => rfl) (fun _ => rfl) (fun _ => rfl) (K.logLcns _ _ h))

/-- The RUN create of the current volume is withdrawn, and none is left. -/
theorem State.Asking.withdrawRunDrain (h : e.st.Asking (fun w => runCreates (W w)) W) (hv : e.st.currentVol = some v) :
    ∃ W', (withdrawRunDrain v e).st.Asking (fun _ => 0) W' ∧ ∀ u, runCreates (W' u) = 0 := by
  have hother : ∀ u, u ≠ v → runCreates (W u) = 0 := by
    intro u hu
    by_contra h0
    obtain ⟨-, -, -, hc⟩ := (h.asks u).2 h0
    rw [hv] at hc
    exact hu (Option.some.inj hc).symm
  have hfilter : ∀ l : List DrainWork, runCreates (l.filter fun w => !w.isRun) = 0 := by
    intro l
    simp [runCreates, List.filter_filter]
  have hrest : (∀ d, (e.st.vol v).drain = some d → d.work.isRun = false) →
      ∃ W', (e.updVol v fun x => { x with waiting := x.waiting.filter fun w => !w.isRun }).st.Asking (fun _ => 0) W' ∧
        ∀ u, runCreates (W' u) = 0 := by
    intro hd
    refine ⟨_, (h.setVol (v := v) (y := { e.st.vol v with waiting := (e.st.vol v).waiting.filter fun w => !w.isRun })
      (.of_same rfl rfl rfl)).nobody, fun u => ?_⟩
    by_cases hu : u = v
    · subst hu
      rw [Function.update_self, Volume.works, runCreates_append, hfilter]
      cases hc : (e.st.vol u).drain with
      | none => rfl
      | some d => simp [runCreates, hd d hc]
    · rw [Function.update_of_ne hu]
      exact hother u hu
  unfold Machine.withdrawRunDrain
  split
  · rename_i d hd
    split_ifs with hrun
    · refine ⟨_, (h.finishDrain .withdrawn hd).nobody, fun u => ?_⟩
      by_cases hu : u = v
      · subst hu
        have hle := (h.asks u).1
        have hW : W u = d.work :: (e.st.vol u).waiting := (h.works u).symm.trans (works_of_some hd)
        rw [hW, runCreates_cons, if_pos hrun] at hle
        rw [Function.update_self]
        omega
      · rw [Function.update_of_ne hu]
        exact hother u hu
    · refine hrest fun d' hd' => ?_
      rw [hd] at hd'
      cases hd'
      simpa using hrun
  · rename_i hd
    exact hrest fun d' hd' => by rw [hd] at hd'; cases hd'

/-- The run is IDLE, with no frame and no sequence. -/
theorem State.Asking.idles {s t : State} (h : s.Asking n W) (hwf : t.wf = true) (hv : t.vols = s.vols)
    (ho : t.port.outstanding = []) (hq : t.port.seqRun = none) (hf : t.run.frames = []) (hr : t.run.reading = none) :
    t.Asking (fun _ => 0) W := by
  have hfs : t.frames = [] := by rw [State.frames, ho, hf]; rfl
  refine ⟨⟨hwf, ?_, fun _ => ho, fun h0 => absurd hq h0, fun _ => ⟨hq, hf, hr⟩, fun h0 => absurd hr h0, ?_, ?_, ?_⟩,
    fun u => ⟨Nat.zero_le _, fun h0 => absurd rfl h0⟩, fun u => by rw [State.vol_of_vols hv]; exact h.works u⟩
  · rw [ho]
    exact Nat.zero_le _
  all_goals
    rw [hfs]
    nofun

theorem State.Sound.endRun (r : RunResult) (h : e.st.Sound) : (endRun r e).st.Sound := by
  obtain ⟨W, h⟩ := h
  have h1 : ∃ W', (match e.st.currentVol with
      | none => e
      | some v => if e.st.run.phase = Phase.freeze then Machine.withdrawRunDrain v e else Machine.mergeBack v e).st.Asking
        (fun _ => 0) W' ∧ ∀ u, runCreates (W' u) = 0 := by
    split
    · rename_i hv
      refine ⟨W, h.nobody, h.zero fun v ha => ?_⟩
      obtain ⟨-, -, -, hc⟩ := ha
      rw [hv] at hc
      cases hc
    · rename_i v hv
      split_ifs with hp
      · exact h.withdrawRunDrain hv
      · exact ⟨W, ((base_asking _ _).mergeBack v h).nobody, h.zero fun v ha => hp ha.2.1⟩
  obtain ⟨W', h1, hz⟩ := h1
  have h2 := (base_asking _ _).reownSlots ofSend .dropped ((base_asking _ _).withdrawCmds ofSend h1)
  exact (h2.idles (t := (Machine.endRun r e).st) h2.ordered.wf rfl rfl rfl rfl rfl).soundOf hz

/-! ### The RUN create -/

theorem freezeDue_eq {s : State} (h : s.freezeDue = some v) :
    s.currentVol = some v ∧ s.run.state ≠ .idle ∧ s.run.phase = .freeze ∧ s.run.asked = false := by
  unfold State.freezeDue at h
  rw [Option.filter_eq_some_iff] at h
  obtain ⟨hv, hc⟩ := h
  simp only [Bool.and_eq_true, bne_iff_ne, beq_iff_eq, Bool.not_eq_true'] at hc
  obtain ⟨⟨⟨h1, h2⟩, h3⟩, -⟩ := hc
  exact ⟨hv, h1, h2, h3⟩

theorem State.Sound.askRunCreate (h : e.st.Sound) (hv : e.st.freezeDue = some v) : (askRunCreate v e).st.Sound := by
  obtain ⟨W, h⟩ := h
  obtain ⟨hcur, hs, hp, ha⟩ := freezeDue_eq hv
  have hz : ∀ u, runCreates (W u) = 0 := h.zero fun u hu => by
    obtain ⟨-, -, h3, -⟩ := hu
    rw [ha] at h3
    cases h3
  have h1 := h.moveRun (fun r => { r with asked := true }) rfl Iff.rfl (h.ordered.notReading (by rw [hp]; nofun))
    (h.ordered.noLast (by rw [hp]; nofun) (by rw [hcur]; nofun))
  refine State.Sound.askCreate (W := W) ⟨h1.ordered, fun u => ?_, h1.works⟩
  unfold withWork
  rw [hz, Nat.zero_add]
  split_ifs with hu
  · obtain ⟨rfl, -⟩ := hu
    exact ⟨le_rfl, fun _ => ⟨hs, hp, rfl, hcur⟩⟩
  · exact ⟨Nat.zero_le _, fun h0 => absurd rfl h0⟩

theorem State.Sound.beginFreezes (k : Nat) (h : e.st.Sound) : (beginFreezes k e).st.Sound := by
  induction k generalizing e with
  | zero => exact h
  | succ k ih =>
    unfold Machine.beginFreezes
    split
    · exact h
    · rename_i v hv
      exact ih (h.askRunCreate hv)

/-! ### The send -/

theorem sending_iff (r : Run) : r.sending = true ↔
    r.state ≠ .idle ∧ r.state ≠ .stopping ∧ r.phase = .send ∧ r.frames = [] ∧ r.reading = none ∧ r.shelfMark = false := by
  simp [Run.sending, and_assoc]

/-- While the send of a volume goes on no frame is a last one and no create is waited for. -/
theorem State.Asking.sends (h : e.st.Asking n W) (hs : e.st.run.sending = true) (hv : e.st.currentVol ≠ none) :
    (∀ g ∈ e.st.frames, ¬ g.last) ∧ ∀ u, n u = 0 := by
  obtain ⟨-, -, hp, -, -, -⟩ := (sending_iff _).mp hs
  exact ⟨h.ordered.noLast (by rw [hp]; nofun) hv, h.zero fun u hu => by
    obtain ⟨-, h2, -, -⟩ := hu
    rw [hp] at h2
    cases h2⟩

/-- A read of the send is in preparation. -/
theorem State.Sound.beginRead (h : e.st.Sound) (f : Run → Run) (hf : (f e.st.run).frames = []) (hfr : e.st.run.frames = [])
    (hp : (f e.st.run).phase = .send) (hpr : e.st.run.phase = .send) (hi : (f e.st.run).planIndex = e.st.run.planIndex)
    (hs : (f e.st.run).state ≠ .idle) (hv : e.st.currentVol ≠ none) : (e.updRun f).st.Sound := by
  obtain ⟨W, h, ha, hw⟩ := h
  have hz : ∀ u, runCreates (W u) = 0 := State.Asking.zero ⟨h, ha, hw⟩ fun u hu => by
    obtain ⟨-, h2, -, -⟩ := hu
    rw [hpr] at h2
    cases h2
  have hcur : (e.updRun f).st.currentVol = e.st.currentVol := congrArg (e.st.plan[·]?) hi
  have hfs : (e.updRun f).st.frames = e.st.frames := congrArg (e.st.port.outstanding ++ ·) (hf.trans hfr.symm)
  have hn := h.noLast (by rw [hpr]; nofun) hv
  refine State.Asking.soundOf (W := W) ⟨⟨h.wf, h.window, h.idleSeq, h.seq, fun h0 => absurd h0 hs, fun _ => ⟨hp, hf, ?_⟩, ?_, ?_, ?_⟩,
    fun u => ⟨Nat.zero_le _, fun h0 => absurd rfl h0⟩, hw⟩ hz
  · rw [hcur]
    exact hv
  · rw [hfs]
    exact h.inner
  · rw [hfs]
    exact fun g hg hk => absurd (.inl hk) (hn g hg)
  · rw [hfs]
    exact fun g hg hk => absurd (.inr hk) (hn g hg)

theorem State.Sound.prepareLcn (lcn : Nat) (h : e.st.Sound) (hs : e.st.run.sending = true) (hv : e.st.currentVol ≠ none) :
    (prepareLcn v lcn e).st.Sound := by
  obtain ⟨h1, -, h3, h4, h5, -⟩ := (sending_iff _).mp hs
  unfold Machine.prepareLcn
  split
  · exact base_sound.handOver _ (h.beginRead (fun r => { r with reading := some { lcn := lcn, reissued := false }, scanRead := false })
      h4 h4 h3 h3 rfl h1 hv)
  · obtain ⟨W, h⟩ := h
    exact ⟨W, h.readyFrame (fun s => chunkClearFrame s v lcn 1) h1 h5 (h.sends hs hv).1 (fun hk => by cases hk)
      (fun hk => by cases hk)⟩

theorem State.Sound.toSeal (h : e.st.Sound) (hs : e.st.run.sending = true) (hv : e.st.currentVol ≠ none) :
    (toSeal v e).st.Sound := by
  obtain ⟨h1, -, h3, h4, h5, -⟩ := (sending_iff _).mp hs
  obtain ⟨W, h⟩ := h
  obtain ⟨hn, hz⟩ := h.sends hs hv
  exact ((h.moveRun (fun r => { r with phase := .seal }) rfl Iff.rfl h5 hn).readyFrame (fun s => volumeSealFrame s v) h1 h5 hn
    (fun _ => ⟨rfl, hv⟩) (fun hk => by cases hk)).soundOf hz

theorem State.Sound.sendNext (h : e.st.Sound) (hs : e.st.run.sending = true) (hv : e.st.currentVol ≠ none) :
    (sendNext v e).st.Sound := by
  unfold Machine.sendNext
  dsimp only
  split_ifs
  · exact h
  · exact h.prepareLcn _ hs hv
  · exact h.toSeal hs hv
  · exact h
  · split
    · exact h.prepareLcn _ hs hv
    · exact h.toSeal hs hv

theorem State.Sound.engineTurn (h : e.st.Sound) : (engineTurn e).st.Sound := by
  unfold Machine.engineTurn
  split
  · exact h
  split
  · exact h
  rename_i v hv
  split_ifs with hd hs
  · refine h.askRunCreate ?_
    obtain ⟨w, hw⟩ := Option.isSome_iff_exists.mp hd
    obtain ⟨hc, -⟩ := freezeDue_eq hw
    rw [hv] at hc
    rw [hw, ← hc]
  · exact h.sendNext hs (by rw [hv]; nofun)
  · exact h

/-- A frame can be made ready. -/
structure State.CanReady (W : Nat → List DrainWork) (s : State) : Prop where
  asking : s.Asking (fun u => runCreates (W u)) W
  notIdle : s.run.state ≠ .idle
  notReading : s.run.reading = none
  noLast : ∀ g ∈ s.frames, ¬ g.last

theorem State.CanReady.updRun (h : e.st.CanReady W) (f : Run → Run) (hr : e.st.run.Like (f e.st.run)) :
    (e.updRun f).st.CanReady W := by
  have hfs : (e.updRun f).st.frames = e.st.frames := congrArg (e.st.port.outstanding ++ ·) hr.frames
  exact ⟨h.asking.updRun f hr, fun hi => h.notIdle (hr.idle.mp hi), hr.reading h.notReading, by rw [hfs]; exact h.noLast⟩

theorem State.Sound.scanStep (h : e.st.Sound) : (scanStep e).st.Sound := by
  unfold Machine.scanStep
  split
  · exact h
  rename_i v hv
  dsimp only
  split
  · exact h
  rename_i hc
  simp only [not_or, not_not] at hc
  obtain ⟨-, hs, -⟩ := hc
  obtain ⟨h1, -, h3, h4, h5, -⟩ := (sending_iff _).mp hs
  have hne : e.st.currentVol ≠ none := by rw [hv]; nofun
  obtain ⟨W, h⟩ := h
  obtain ⟨hn, -⟩ := h.sends hs hne
  have hsweep := (base_asking _ _).updVol (e := e) v (fun y => y.setEntry e.st.run.pos
    { (e.st.vol v).entry e.st.run.pos with stamp := none }) (.of_stamp rfl rfl rfl) rfl h
  have hready : ∀ {e' : Event} (c : Prop) [Decidable c], e'.st.CanReady W →
      (if c then Machine.readyFrame (fun s => chunkClearFrame s v s.run.clearStart s.run.clearCount) e'
        else wakeEngine e').st.Sound := by
    intro e' c _ h
    split_ifs
    · exact ⟨W, h.asking.readyFrame _ h.notIdle h.notReading h.noLast (fun hk => by cases hk) (fun hk => by cases hk)⟩
    · exact ⟨W, h.asking⟩
  have hstart : ∀ (c : Prop) [Decidable c], (if c then e else e.updVol v fun y => y.setEntry e.st.run.pos
      { (e.st.vol v).entry e.st.run.pos with stamp := none }).st.CanReady W := by
    intro c _
    split_ifs
    · exact ⟨h, h1, h5, hn⟩
    · exact ⟨hsweep, h1, h5, hn⟩
  refine hready _ ?_
  split
  · exact (hstart _).updRun (fun r => { r with scanRead := true }) ⟨rfl, rfl, rfl, rfl, Iff.rfl, id⟩
  · exact (hstart _).updRun (fun r => { r with
      clearStart := if r.clearCount = 0 then r.pos else r.clearStart, clearCount := r.clearCount + 1, pos := r.pos + 1 })
      ⟨rfl, rfl, rfl, rfl, Iff.rfl, id⟩

theorem State.Sound.sendReadDone (data : List Block) (h : e.st.Sound) : (sendReadDone data e).st.Sound := by
  unfold Machine.sendReadDone
  split
  · rename_i d v hr hv
    obtain ⟨W, h⟩ := h
    have hne : e.st.currentVol ≠ none := by rw [hv]; nofun
    obtain ⟨hp, hf, -⟩ := h.ordered.reading (by rw [hr]; nofun)
    have hs : e.st.run.state ≠ .idle := by
      intro hi
      obtain ⟨-, -, h0⟩ := h.ordered.idle hi
      rw [hr] at h0
      cases h0
    have hn := h.ordered.noLast (by rw [hp]; nofun) hne
    exact ⟨W, (h.updRun (fun r => { r with reading := none }) ⟨rfl, rfl, rfl, rfl, Iff.rfl, fun _ => rfl⟩).readyFrame
      (fun s => chunkDataFrame s v d.lcn data) hs rfl hn (fun hk => by cases hk) (fun hk => by cases hk)⟩
  · exact h

theorem State.Sound.notIdle (h : e.st.Sound) (hr : e.st.run.reading ≠ none) : e.st.run.state ≠ .idle := by
  obtain ⟨W, h⟩ := h
  exact fun hi => hr (h.ordered.idle hi).2.2

theorem State.Sound.suspendShelf (h : e.st.Sound) (hs : e.st.run.state ≠ .idle) : (suspendShelf e).st.Sound := by
  refine h.updRun _ ⟨rfl, rfl, rfl, rfl, ⟨fun hi => ?_, fun hi => absurd hi hs⟩, fun _ => rfl⟩
  cases hl : e.st.run.linkMark <;> simp [hl] at hi

theorem State.Sound.sendReadError (cmd : ShelfCmd) (b : Bool) (h : e.st.Sound) : (sendReadError cmd b e).st.Sound := by
  unfold Machine.sendReadError
  split
  · exact h
  · rename_i d hd
    have hne : e.st.run.reading ≠ none := by rw [hd]; nofun
    have hs := h.notIdle hne
    split_ifs
    · exact h.suspendShelf hs
    · obtain ⟨W, h'⟩ := h
      obtain ⟨hp, hf, hv⟩ := h'.ordered.reading hne
      exact base_sound.handOver _ (State.Sound.beginRead ⟨W, h'⟩ (fun r => { r with reading := some { d with reissued := true } })
        hf hf hp hp rfl hs hv)

theorem State.Sound.resumeShelf (h : e.st.Sound) : (resumeShelf e).st.Sound := by
  unfold Machine.resumeShelf
  split_ifs with hc
  · refine h.updRun (fun r => { r with shelfMark := false, state := if r.linkMark then .suspendedLink else .active })
      ⟨rfl, rfl, rfl, rfl, ⟨fun hi => ?_, fun hi => absurd hi hc.2⟩, id⟩
    cases hl : e.st.run.linkMark <;> simp [hl] at hi
  · exact h

theorem State.Sound.sendCmdEnd (cmd : ShelfCmd) (data : Option (List Block)) (b : Bool) (h : e.st.Sound) :
    (sendCmdEnd cmd data b e).st.Sound := by
  unfold Machine.sendCmdEnd
  split_ifs
  · exact h.endRun _
  · split
    · exact h.sendReadDone _
    · exact h.sendReadError _ _

theorem State.Sound.engineLinkDown (h : e.st.Sound) : (engineLinkDown e).st.Sound := by
  unfold Machine.engineLinkDown
  split_ifs with hi
  · exact h
  · refine h.updRun _ ⟨rfl, rfl, rfl, rfl, ⟨fun h0 => ?_, fun h0 => absurd h0 hi⟩, id⟩
    dsimp only at h0
    split_ifs at h0
    exact h0

theorem State.Sound.engineLinkUp (h : e.st.Sound) : (engineLinkUp e).st.Sound := by
  unfold Machine.engineLinkUp
  split_ifs with hi
  · exact h
  · dsimp only
    refine h.updRun (fun r => { r with linkMark := false, state := if r.state = .stopping then .stopping
      else if r.shelfMark then .suspendedShelf else if e.st.currentVol.isNone then .closing else .active })
      ⟨rfl, rfl, rfl, rfl, ⟨fun h0 => ?_, fun h0 => absurd h0 hi⟩, id⟩
    dsimp only at h0
    split_ifs at h0

/-- An IDLE run starts. -/
theorem State.Sound.startRun (m : RunMode) (k : Nat) (h : e.st.Sound) (hi : e.st.run.state = .idle) :
    (startRun m k e).st.Sound := by
  obtain ⟨W, h⟩ := h
  obtain ⟨hseq, hf, hr⟩ := h.ordered.idle hi
  have hz : ∀ u, runCreates (W u) = 0 := h.zero fun u hu => hu.1 hi
  let r : Run := { e.st.run with
    mode := m, deadline := nextMinute e.st.sched.clock k, sealedVols := 0, skippedVols := 0, dataFrames := 0, clearFrames := 0,
    retries := 0, pass := 1, linkMark := false, shelfMark := false, frames := [], reading := none }
  have h1 : ({ e with st := { e.st with run := r } } : Event).st.Asking (fun u => runCreates (W u)) W :=
    h.like (r := r) (p := e.st.port) ⟨hf.symm, rfl, rfl, rfl, Iff.rfl, fun _ => rfl⟩ (Port.Like.refl _) rfl
  exact (h1.openPass (h.ordered.idleSeq hseq) rfl rfl).soundOf hz

end

end Sys2Proof.Machine
end

section
/-! PROOFS. The law of the run through the frames that the port sends and the acknowledgements that it takes (R144 to R153). -/

namespace Sys2Proof.Machine

section
variable {e : Event} {n : Nat → Nat} {W : Nat → List DrainWork} {v : Nat}

/-! ### The order of frames by their kinds -/

theorem inner_iff (l : List Frame) : (∀ f ∈ l.dropLast, ¬ f.last) ↔
    ∀ k ∈ (l.map Frame.kind).dropLast, k ≠ .volumeSeal ∧ k ≠ .runClose := by
  rw [← List.map_dropLast, List.forall_mem_map]
  simp only [Frame.last, not_or]

/-- A last frame is followed by none. -/
theorem nil_of_last {a b : List Frame} {f : Frame} (h : ∀ g ∈ (a ++ f :: b).dropLast, ¬ g.last) (hf : f.last) :
    b = [] ∧ ∀ g ∈ a, ¬ g.last := by
  rw [List.dropLast_append_of_ne_nil (by simp)] at h
  cases b with
  | nil => exact ⟨rfl, fun g hg => h g (List.mem_append_left _ hg)⟩
  | cons x b => exact absurd hf (h f (List.mem_append_right _ (by simp)))

/-- The frames behind some others are in order when all of them are. -/
theorem inner_of_append {a b : List Frame} (h : ∀ g ∈ (a ++ b).dropLast, ¬ g.last) : ∀ g ∈ b.dropLast, ¬ g.last := by
  intro g hg
  have hb : b ≠ [] := by
    rintro rfl
    cases hg
  rw [List.dropLast_append_of_ne_nil hb] at h
  exact h g (List.mem_append_right _ hg)

/-! ### Sending -/

/-- What the run record of a run keeps when the port takes its frame. -/
theorem frameTaken_run (f : Frame) (e : Event) : let r := (frameTaken f e).st.run
    r.frames = e.st.run.frames.drop 1 ∧ r.state = e.st.run.state ∧ r.phase = e.st.run.phase ∧ r.asked = e.st.run.asked ∧
      r.planIndex = e.st.run.planIndex ∧ r.reading = e.st.run.reading := by
  unfold frameTaken
  cases f.kind <;> simp [Event.updRun, Event.upd, wakeEngine]

theorem State.Asking.sendNew {f : Frame} {rest : List Frame} (h : e.st.Asking n W) (hf : e.st.run.frames = f :: rest)
    (hq : e.st.port.seqRun ≠ none) (hw : e.st.port.outstanding.length < e.st.ctl.config.window) :
    (sendNew f e).st.Asking n W := by
  obtain ⟨h, ha, hworks⟩ := h
  let g : Frame := { f with seq := e.st.port.nextNo }
  obtain ⟨hfr, hst, hph, has, hix, hrd⟩ := frameTaken_run g (emit (.offsite g) (e.updPort fun p =>
    { p with outstanding := p.outstanding ++ [g], nextNo := p.nextNo + 1, nextSend := pacedAfter e.st g,
             ackTimer := if p.outstanding = [] then some e.st.ctl.config.ackTimeout else p.ackTimer }))
  have hidle : e.st.run.state ≠ .idle := fun hi => by
    obtain ⟨-, h0, -⟩ := h.idle hi
    rw [hf] at h0
    cases h0
  have hread : e.st.run.reading = none := by
    by_contra h0
    obtain ⟨-, h1, -⟩ := h.reading h0
    rw [hf] at h1
    cases h1
  let t := (Machine.sendNew f e).st
  have hout : t.port.outstanding = e.st.port.outstanding ++ [g] := rfl
  have hcur : t.currentVol = e.st.currentVol := congrArg (e.st.plan[·]?) hix
  have hkinds : t.frames.map Frame.kind = e.st.frames.map Frame.kind := by
    have hfr' : t.run.frames = rest := hfr.trans (by rw [show (emit (.offsite g) (e.updPort _)).st.run.frames = _ from hf]; rfl)
    rw [State.frames, State.frames, hout, hfr', hf]
    simp [g]
  have hmem : ∀ k, (∃ x ∈ t.frames, x.kind = k) → ∃ x ∈ e.st.frames, x.kind = k := by
    intro k hx
    rw [← List.mem_map] at hx ⊢
    rwa [hkinds] at hx
  obtain ⟨hseq, hnext⟩ := h.seq hq
  refine ⟨⟨h.wf, ?_, fun h0 => absurd h0 hq, fun _ => ⟨?_, ?_⟩, fun hi => absurd (hst ▸ hi) hidle, fun h0 => absurd (hrd.trans hread) h0,
    ?_, ?_, ?_⟩, fun u => ⟨(ha u).1, fun h0 => ?_⟩, hworks⟩
  · rw [hout, List.length_append]
    exact hw
  · rw [hout, List.map_append, hseq, List.length_append, List.length_singleton, List.range'_concat]
    refine congrArg _ (congrArg (fun k => [k]) (hnext.trans ?_))
    change e.st.port.highestAcked + 1 + _ = e.st.port.highestAcked + 1 + _
    omega
  · change e.st.port.nextNo + 1 = e.st.port.highestAcked + 1 + _
    rw [hout, hnext, List.length_append]
    rfl
  · rw [inner_iff, hkinds, ← inner_iff]
    exact h.inner
  · intro x hx hk
    obtain ⟨y, hy, hky⟩ := hmem _ ⟨x, hx, hk⟩
    rw [hcur]
    exact ⟨hph.trans (h.sealed y hy hky).1, (h.sealed y hy hky).2⟩
  · intro x hx hk
    obtain ⟨y, hy, hky⟩ := hmem _ ⟨x, hx, hk⟩
    rw [hcur]
    exact h.closed y hy hky
  · obtain ⟨h1, h2, h3, h4⟩ := (ha u).2 h0
    exact ⟨fun hi => h1 (hst ▸ hi), hph.trans h2, has.trans h3, hcur.trans h4⟩

theorem State.Sound.portTurn (h : e.st.Sound) : (portTurn e).st.Sound := by
  unfold Machine.portTurn
  dsimp only
  split
  · exact h
  split
  · split
    · exact base_sound.emit _ (h.updPort _ ⟨rfl, rfl, rfl, rfl⟩)
    · exact h
  · split
    · rename_i f rest hf
      split_ifs with hc
      · obtain ⟨W, h⟩ := h
        exact ⟨W, h.sendNew hf (Option.isSome_iff_ne_none.mp hc.1) hc.2⟩
      · exact h
    · exact h

/-! ### Acknowledgements -/

/-- The engine closes a pass, no frame being left (R133). -/
theorem State.Sound.closeAcked (h : e.st.Sound) (hf : e.st.frames = []) (hv : e.st.currentVol = none) :
    (closeAcked e).st.Sound := by
  obtain ⟨W, h⟩ := h
  obtain ⟨ho, hfr⟩ := List.append_eq_nil_iff.mp hf
  have hr : e.st.run.reading = none := by
    by_contra h0
    exact (h.ordered.reading h0).2.2 hv
  have hz : ∀ u, runCreates (W u) = 0 := h.zero fun u hu => by
    obtain ⟨-, -, -, hc⟩ := hu
    rw [hv] at hc
    cases hc
  unfold Machine.closeAcked
  dsimp only
  split
  · exact (h.idles (t := (emptyPort (e.updRun fun r => { r with state := .idle, result := .complete })).st) h.ordered.wf rfl rfl rfl
      hfr hr).soundOf hz
  · have h1 := h.moveRun (fun r => { r with
      result := .complete, pass := if r.pass = 65535 then 1 else r.pass + 1 }) rfl Iff.rfl hr (by rw [hf]; nofun)
    exact (State.Asking.openPass (e := (e.note .runPassDone e.st.run.runId e.st.run.pass e.st.run.passSealed).updRun fun r =>
      { r with result := .complete, pass := if r.pass = 65535 then 1 else r.pass + 1 }) h1 ho hfr hr).soundOf hz

/-- The run and its port stand where no operation of theirs is made. -/
theorem base_sameRun (r : Run) (p : Port) : Base fun s => s.run = r ∧ s.port = p where
  calm := fun _ hr h => ⟨hr.run.trans h.1, hr.port.trans h.2⟩
  vol := fun _ _ h => h

/-- A volume is sealed, no frame being left (R132). -/
theorem State.Sound.sealAcked (h : e.st.Sound) (hf : e.st.frames = []) (hp : e.st.run.phase = .seal) (hs : e.st.run.state ≠ .idle) :
    (sealAcked e).st.Sound := by
  obtain ⟨W, h⟩ := h
  have hr := h.ordered.notReading (by rw [hp]; nofun)
  have hz : ∀ u, runCreates (W u) = 0 := h.zero fun u hu => by
    obtain ⟨-, h2, -, -⟩ := hu
    rw [hp] at h2
    cases h2
  unfold Machine.sealAcked
  split
  · exact ⟨W, h⟩
  · rename_i v _
    dsimp only
    have h1 := (base_asking _ _).updVol_same v (fun x => { x with
      fullScan := x.fullScan && e.st.run.keep, overflow := x.overflow && !(e.st.run.fullScan && !x.activeIncomplete),
      everSealed := true, runList := [], runIncomplete := false }) (fun _ => rfl) (fun _ => rfl) (fun _ => rfl) (fun _ => rfl) h
    have h2 := h1.updRun (fun r => { r with sealedVols := r.sealedVols + 1, passSealed := r.passSealed + 1 })
      ⟨rfl, rfl, rfl, rfl, Iff.rfl, id⟩
    let e2 := (((e.updVol v fun x => { x with
      fullScan := x.fullScan && e.st.run.keep, overflow := x.overflow && !(e.st.run.fullScan && !x.activeIncomplete),
      everSealed := true, runList := [], runIncomplete := false }).note .runVolumeSealed v e.st.run.volData
      e.st.run.volClear).updRun fun r => { r with sealedVols := r.sealedVols + 1, passSealed := r.passSealed + 1 })
    have h3 := (base_asking _ _).queueDeletion (e := e2) v 0 h2
    obtain ⟨hrun, hport⟩ := (base_sameRun e2.st.run e2.st.port).queueDeletion (e := e2) v 0 ⟨rfl, rfl⟩
    refine (h3.nextVolume ?_ ?_ ?_).soundOf hz
    · rw [hrun]
      exact hs
    · rw [hrun]
      exact hr
    · rw [State.frames, hrun, hport]
      rw [show e2.st.port.outstanding ++ e2.st.run.frames = [] from hf]
      nofun

theorem reportAcked_none {fs : List Frame} (h : ∀ f ∈ fs, ¬ f.last) (e : Event) : reportAcked fs e = e := by
  induction fs generalizing e with
  | nil => rfl
  | cons f fs ih =>
    have hf := h f (List.mem_cons_self ..)
    have hstep : reportAcked (f :: fs) e = reportAcked fs e := by
      unfold reportAcked
      rw [List.foldl_cons]
      congr 1
      split
      · rename_i hk
        exact absurd (.inl hk) hf
      · rename_i hk
        exact absurd (.inr hk) hf
      · rfl
    rw [hstep]
    exact ih (fun g hg => h g (List.mem_cons_of_mem _ hg)) e

theorem reportAcked_append (a b : List Frame) (e : Event) : reportAcked (a ++ b) e = reportAcked b (reportAcked a e) :=
  List.foldl_append ..

/-- The frames up to a number are the first ones. -/
theorem filter_seq {l : List Frame} {a m : Nat} (h : l.map Frame.seq = List.range' a l.length) :
    (l.filter fun f => decide (f.seq ≤ m)) = l.take (m + 1 - a) ∧ (l.filter fun f => decide (m < f.seq)) = l.drop (m + 1 - a) := by
  induction l generalizing a with
  | nil => simp
  | cons f l ih =>
    rw [List.map_cons, List.length_cons, List.range'_succ, List.cons.injEq] at h
    obtain ⟨hf, hl⟩ := h
    obtain ⟨h1, h2⟩ := ih hl
    by_cases hm : a ≤ m
    · rw [List.filter_cons_of_pos (by simpa [hf] using hm), List.filter_cons_of_neg (by simpa [hf] using hm), h1, h2,
        show m + 1 - a = (m + 1 - (a + 1)) + 1 from by omega, List.take_succ_cons, List.drop_succ_cons]
      exact ⟨rfl, rfl⟩
    · rw [List.filter_cons_of_neg (by simpa [hf] using hm), List.filter_cons_of_pos (by simpa [hf] using hm), h1, h2,
        show m + 1 - a = 0 from by omega, show m + 1 - (a + 1) = 0 from by omega]
      exact ⟨rfl, rfl⟩

/-- What the port holds once the frames up to `m` are acknowledged, in order as before. -/
theorem State.Asking.acked {t : State} {m : Nat} {acked left : List Frame} (h : e.st.Asking n W)
    (hq : e.st.port.seqRun ≠ none) (hout : e.st.port.outstanding = acked ++ left)
    (hm : m = e.st.port.highestAcked + acked.length) {p : Port} (hp : p.outstanding = left) (hs : p.seqRun = e.st.port.seqRun)
    (ha : p.highestAcked = m) (hno : p.nextNo = e.st.port.nextNo) (ht : t = { e.st with port := p }) : t.Asking n W := by
  subst ht
  obtain ⟨h, hask, hworks⟩ := h
  obtain ⟨hseq, hnext⟩ := h.seq hq
  have hfs : e.st.frames = acked ++ (left ++ e.st.run.frames) := by rw [State.frames, hout, List.append_assoc]
  have hfs' : ({ e.st with port := p } : State).frames = left ++ e.st.run.frames := by rw [State.frames, hp]
  have hsub : ∀ f ∈ left ++ e.st.run.frames, f ∈ e.st.frames := fun f hf => by
    rw [hfs]
    exact List.mem_append_right _ hf
  rw [hout, List.map_append, List.length_append] at hseq
  refine ⟨⟨h.wf, ?_, fun h0 => absurd (hs.symm.trans h0) hq, fun _ => ⟨?_, ?_⟩, fun hi => ?_, h.reading, ?_, ?_, ?_⟩, hask, hworks⟩
  · have := h.window
    rw [hout, List.length_append] at this
    change p.outstanding.length ≤ _
    rw [hp]
    exact le_trans (Nat.le_add_left ..) this
  · change p.outstanding.map Frame.seq = List.range' (p.highestAcked + 1) p.outstanding.length
    rw [hp, ha, hm]
    have hdrop := congrArg (List.drop acked.length) hseq
    rw [List.drop_left' (by simp), List.drop_range'] at hdrop
    rw [hdrop]
    congr 1
    · omega
    · omega
  · change p.nextNo = p.highestAcked + 1 + p.outstanding.length
    rw [hno, ha, hp, hnext, hm, hout, List.length_append]
    omega
  · exact absurd (h.idle hi).1 hq
  · rw [hfs']
    exact inner_of_append (a := acked) (by rw [← hfs]; exact h.inner)
  · rw [hfs']
    exact fun f hf hk => h.sealed f (hsub f hf) hk
  · rw [hfs']
    exact fun f hf hk => h.closed f (hsub f hf) hk

theorem State.Sound.takeAck (m : Nat) (h : e.st.Sound) (hq : e.st.port.seqRun ≠ none) : (takeAck m e).st.Sound := by
  unfold Machine.takeAck
  dsimp only
  split
  · exact h
  rename_i old hold
  split_ifs with hrange
  · exact h
  obtain ⟨W, h⟩ := h
  obtain ⟨hseq, hnext⟩ := h.ordered.seq hq
  obtain ⟨htake, hdrop⟩ := filter_seq (m := m) hseq
  have hidle : e.st.run.state ≠ .idle := fun hi => hq (h.ordered.idle hi).1
  have hout : e.st.port.outstanding = (e.st.port.outstanding.filter fun f => decide (f.seq ≤ m)) ++
      e.st.port.outstanding.filter fun f => decide (m < f.seq) := by rw [htake, hdrop, List.take_append_drop]
  have hm : m = e.st.port.highestAcked + (e.st.port.outstanding.filter fun f => decide (f.seq ≤ m)).length := by
    rw [htake, List.length_take]
    have hold' : e.st.port.highestAcked + 1 ≤ old := by
      unfold Port.oldest at hold
      obtain ⟨f, hf, rfl⟩ := Option.map_eq_some_iff.mp hold
      have : f.seq ∈ e.st.port.outstanding.map Frame.seq := List.mem_map_of_mem (List.mem_of_mem_head? hf)
      rw [hseq, List.mem_range'_1] at this
      exact this.1
    unfold Port.newest at hrange
    omega
  generalize (e.st.port.outstanding.filter fun f => decide (f.seq ≤ m)) = acked at hout hm ⊢
  generalize (e.st.port.outstanding.filter fun f => decide (m < f.seq)) = left at hout ⊢
  have hfs : e.st.frames = acked ++ (left ++ e.st.run.frames) := by rw [State.frames, hout, List.append_assoc]
  let e1 := e.updPort fun p => { p with
    outstanding := left, highestAcked := m, retry := 0,
    ackTimer := if left = [] ∨ p.held = true then none else some e.st.ctl.config.ackTimeout, resendPos := resendAfter p m }
  have h1 : e1.st.Asking (fun u => runCreates (W u)) W := h.acked (p := e1.st.port) hq hout hm rfl rfl rfl rfl rfl
  change (reportAcked acked e1).st.Sound
  by_cases hlast : ∀ f ∈ acked, ¬ f.last
  · rw [reportAcked_none hlast]
    exact ⟨W, h1⟩
  · push Not at hlast
    obtain ⟨f, hf, hl⟩ := hlast
    obtain ⟨a, b, rfl⟩ := List.append_of_mem hf
    rw [List.append_assoc, List.cons_append] at hfs
    obtain ⟨hb, ha⟩ := nil_of_last (by rw [← hfs]; exact h.ordered.inner) hl
    obtain ⟨rfl, hb⟩ := List.append_eq_nil_iff.mp hb
    have hnone : e1.st.frames = [] := hb
    have hmem : f ∈ e.st.frames := by rw [hfs]; simp
    rw [reportAcked_append, reportAcked_none ha]
    unfold reportAcked
    rw [List.foldl_cons, List.foldl_nil]
    rcases hl with hk | hk
    · rw [hk]
      exact State.Sound.sealAcked ⟨W, h1⟩ hnone (h.ordered.sealed f hmem hk).1 hidle
    · rw [hk]
      exact State.Sound.closeAcked ⟨W, h1⟩ hnone (h.ordered.closed f hmem hk)

end

end Sys2Proof.Machine
end

section
/-! PROOFS. The law of the run through every command (O7): the operations that use those of the engine, the port and the drains,
and the event as a whole. -/

namespace Sys2Proof.Machine

section
variable {e : Event} {v : Nat}

/-! ### The offsite link -/

theorem State.Sound.linkLost (k : Nat) (h : e.st.Sound) : (linkLost k e).st.Sound :=
  State.Sound.engineLinkDown (e := (e.note .linkLost (e.st.port.site.getD 0) k e.st.port.outstanding.length).updPort fun p =>
    { p with up := false, ackTimer := none, held := false, resendPos := none })
    (h.updPort (fun p => { p with up := false, ackTimer := none, held := false, resendPos := none }) ⟨rfl, rfl, rfl, rfl⟩)

theorem State.Sound.retryFrom (k : Nat) (h : e.st.Sound) : (retryFrom k e).st.Sound := by
  have h1 : (e.updPort fun p => { p with retry := p.retry + 1 }).st.Sound := h.updPort _ ⟨rfl, rfl, rfl, rfl⟩
  unfold Machine.retryFrom
  dsimp only
  split_ifs
  · exact h1.linkLost _
  · exact h1.updPort (fun p => { p with resendPos := some k }) ⟨rfl, rfl, rfl, rfl⟩

theorem State.Sound.ignoreFrame (h : e.st.Sound) : (ignoreFrame e).st.Sound := h.updPort _ ⟨rfl, rfl, rfl, rfl⟩

theorem State.Sound.carrierLost (h : e.st.Sound) : (carrierLost e).st.Sound := by
  unfold Machine.carrierLost
  split_ifs
  · exact h.linkLost _
  · exact h

theorem State.Sound.ackTimerIn (h : e.st.Sound) : (ackTimerIn e).st.Sound := by
  unfold Machine.ackTimerIn
  split
  · exact State.Sound.retryFrom (e := e.updPort fun p => { p with ackTimer := none }) _ (h.updPort _ ⟨rfl, rfl, rfl, rfl⟩)
  · exact h

theorem State.Sound.holdTimerIn (h : e.st.Sound) : (holdTimerIn e).st.Sound := by
  unfold Machine.holdTimerIn
  split_ifs
  · exact h.linkLost _
  · exact h

theorem State.Sound.paceTo (k : Nat) (h : e.st.Sound) : (paceTo k e).st.Sound :=
  h.updPort (fun p => { p with pace := max p.pace k }) ⟨rfl, rfl, rfl, rfl⟩

/-! ### Recovery (R178) -/

theorem Base.endRecovery {P : State → Prop} (K : Base P) (h : P e.st) : P (endRecovery e).st := by
  have hlow : ∀ b c, c.queue = e.st.ctl.queue → c.notices = e.st.ctl.notices → c.config = e.st.ctl.config →
      P { e.st with poolLow := b, ctl := c } := fun b c hq hn hc => K.plain (K.ctl hq hn hc h)
  unfold Machine.endRecovery
  dsimp only
  split_ifs <;> exact hlow _ _ rfl rfl rfl

theorem Base.goOnRecovering {P : State → Prop} (K : Base P) (h : P e.st) : P (goOnRecovering e).st := by
  unfold Machine.goOnRecovering
  generalize 4 = k
  induction k generalizing e with
  | zero => exact h
  | succ k ih =>
    have h1 := K.settleAccounts h
    unfold Machine.advanceRecovery
    dsimp only
    split
    · exact h1
    split
    · exact K.endRecovery h1
    · exact ih (K.ctl rfl rfl rfl h1)

theorem Base.recoverMirror {P : State → Prop} (K : Base P) (h : P e.st) : P (recoverMirror e).st := by
  unfold Machine.recoverMirror
  split
  · exact h
  · rename_i r rest _
    split
    · exact h
    · have h1 := K.logLcns r.vol r.inPlace (K.applyCharges (-1) r.charges (K.returnClaims r.claims h))
      exact K.goOnRecovering (e := Event.upd _ _)
        (K.calm (s := (Machine.logLcns r.vol r.inPlace (Machine.applyCharges (-1) r.charges
          (Machine.returnClaims r.claims e))).st) ⟨rfl, id, id, id, id, id, id, rfl, rfl⟩ ⟨rfl, rfl, rfl, rfl⟩ h1)

theorem Base.recoverReturn {P : State → Prop} (K : Base P) (h : P e.st) : P (recoverReturn e).st := by
  unfold Machine.recoverReturn
  split
  · exact h
  · rename_i p rest _
    split
    · exact h
    · exact K.goOnRecovering (K.returnClaims (e := e.upd fun s => { s with returns := rest }) _ (K.plain h))

theorem Base.recoverJob {P : State → Prop} (K : Base P) (h : P e.st) : P (recoverJob e).st := by
  unfold Machine.recoverJob
  split
  · exact h
  split
  · exact h
  rename_i j x _
  have h1 : P (match x.copy with
      | some c => Machine.uncharge x.owner (Machine.returnClaims [c.pcn] e)
      | none => e).st := by
    split
    · exact K.uncharge _ (K.returnClaims _ h)
    · exact h
  exact K.goOnRecovering (K.ctl rfl rfl rfl (K.updJob j _ h1))

theorem Base.rebuildExpiry {P : State → Prop} (K : Base P) (h : P e.st) : P (rebuildExpiry e).st := by
  unfold Machine.rebuildExpiry
  split
  · exact h
  · exact K.endRecovery (foldl_keeps (Q := fun e => P e.st) (fun _ _ he => K.updAcct _ _ he) _ (K.plain h))

/-- After a reset no run asks for a create and no frame stands. -/
theorem State.Sound.reset {s : State} (b : Bool) (h : s.Sound) : (resetState b s).Sound := by
  obtain ⟨W, h⟩ := h
  have hwf := resetState_wf b h.ordered.wf
  have hw : ∀ u, ((resetState b s).vol u).works = [] := fun u =>
    tget_of_forall (Q := fun x : Volume => x.works = []) (d := Volume.absent) rfl
      (forall_tmap (Q := fun x : Volume => x.works = []) fun _ _ => rfl) u
  have hf : (resetState b s).frames = [] := rfl
  refine State.Asking.sound (W := fun _ => []) ⟨⟨hwf, Nat.zero_le _, fun _ => rfl, fun h0 => absurd rfl h0, fun _ => ⟨rfl, rfl, rfl⟩,
    fun h0 => absurd rfl h0, ?_, ?_, ?_⟩, fun u => ⟨Nat.zero_le _, fun h0 => absurd rfl h0⟩, hw⟩
  all_goals
    rw [hf]
    nofun

theorem State.Sound.resetPart (b : Bool) (h : e.st.Sound) : (resetPart b e).st.Sound :=
  base_sound.goOnRecovering (e := { st := resetState b e.st }) (h.reset b)

theorem State.Sound.endRunNow (r : RunResult) (h : e.st.Sound) : (endRunNow r e).st.Sound := by
  unfold Machine.endRunNow
  dsimp only
  split_ifs
  · exact base_sound.goOnRecovering (h.endRun r)
  · exact h.endRun r

theorem State.Sound.recoverRun (h : e.st.Sound) : (recoverRun e).st.Sound := by
  unfold Machine.recoverRun
  split_ifs
  · exact h.endRunNow _
  · exact h

theorem State.Sound.testDeadline (h : e.st.Sound) : (testDeadline e).st.Sound := by
  unfold Machine.testDeadline
  split_ifs
  · exact h.endRunNow _
  · exact h

/-! ### The partner's frames -/

theorem State.Sound.takeHello (site : Nat) (h : e.st.Sound) : (takeHello site e).st.Sound := by
  have h1 : (if ¬ e.st.port.up = true ∨ e.st.port.site ≠ some site then
      e.note .linkUp site (flag (site == e.st.ctl.config.partnerSite)) 0 else e).st.Sound := by
    split_ifs <;> exact h
  unfold Machine.takeHello
  dsimp only
  generalize (if ¬ e.st.port.up = true ∨ e.st.port.site ≠ some site then
      e.note .linkUp site (flag (site == e.st.ctl.config.partnerSite)) 0 else e) = e' at h1 ⊢
  have h2 : (e'.updPort fun p => { p with up := true, site := some site }).st.Sound := h1.updPort _ ⟨rfl, rfl, rfl, rfl⟩
  split
  · refine State.Sound.engineLinkUp (h2.updPort (fun p => { p with
      retry := 0, held := false, resendPos := (e'.updPort fun p => { p with up := true, site := some site }).st.port.oldest }) ?_)
    exact ⟨rfl, rfl, rfl, rfl⟩
  · split
    · exact h2
    · exact h2.endRunNow _

theorem State.Sound.partnerFrame (f : Partner) (h : e.st.Sound) : (partnerFrame f e).st.Sound := by
  unfold Machine.partnerFrame
  dsimp only
  split
  · exact h.takeHello _
  all_goals split
  · unfold Machine.takeHold
    split_ifs
    · exact h
    · exact h.updPort _ ⟨rfl, rfl, rfl, rfl⟩
  · exact h.ignoreFrame
  · unfold Machine.takeResume
    split_ifs
    · exact h.updPort (fun p => { p with
        held := false, ackTimer := if p.outstanding = [] then none else some e.st.ctl.config.ackTimeout }) ⟨rfl, rfl, rfl, rfl⟩
    · exact h
  · exact h.ignoreFrame
  · rename_i hc
    exact h.takeAck _ (by rw [hc.2]; nofun)
  · exact h.ignoreFrame
  · unfold Machine.takeNak
    split_ifs
    · exact h.retryFrom _
    · exact h
  · exact h.ignoreFrame

theorem State.Sound.partnerBytes (l : List Byte) (h : e.st.Sound) : (partnerBytes l e).st.Sound := by
  unfold Machine.partnerBytes
  split
  · exact h.partnerFrame _
  · exact h.ignoreFrame

/-! ### The shelf port -/

theorem State.Sound.cmdEnd (cmd : ShelfCmd) (data : Option (List Block)) (b : Bool) (h : e.st.Sound) :
    (cmdEnd cmd data b e).st.Sound := by
  unfold Machine.cmdEnd
  split
  · exact base_sound.requestCmdEnd _ _ _ _ _ h
  · exact base_sound.restoreCmdEnd _ _ _ h
  · exact base_sound.completeReturn _ h
  · exact h.sendCmdEnd _ _ _
  · exact h

theorem State.Sound.endSlot (slot : Nat) (r : SlotRec) (result : Except Nat (List Block)) (h : e.st.Sound) :
    (endSlot slot r result e).st.Sound := by
  have h1 : (e.updShelf fun p => { p with slots := tdel slot p.slots }).st.Sound :=
    base_sound.shelf (fun hs => sorted_tdel slot hs) id h
  unfold Machine.endSlot
  dsimp only
  split
  · exact State.Sound.cmdEnd _ _ _ h1
  · exact State.Sound.cmdEnd _ _ _ h1

theorem State.Sound.shelfReplyIn (slot epoch use : Nat) (w : Bool) (r : ShelfResult) (h : e.st.Sound) :
    (shelfReplyIn slot epoch use w r e).st.Sound := by
  have h1 : (e.updShelf fun p => { p with ignored := p.ignored + 1 }).st.Sound := base_sound.shelf id id h
  unfold Machine.shelfReplyIn
  dsimp only
  split
  · exact h1
  · split_ifs
    · exact h.endSlot _ _ _
    · exact h1

theorem State.Sound.shelfTimeoutIn (slot : Nat) (h : e.st.Sound) : (shelfTimeoutIn slot e).st.Sound := by
  unfold Machine.shelfTimeoutIn
  split
  · exact h
  · exact h.endSlot _ _ _

theorem State.Sound.tellOwners (rs : List SlotRec) (h : e.st.Sound) : (tellOwners rs e).st.Sound :=
  foldl_keeps (Q := fun e => e.st.Sound) (fun _ _ he => he.cmdEnd _ _ _) _ h

theorem State.Sound.shelfDown (h : e.st.Sound) : (shelfDown e).st.Sound := by
  unfold Machine.shelfDown
  split
  · exact h
  · refine State.Sound.tellOwners _ (foldl_keeps (Q := fun e => e.st.Sound) (fun _ _ he => base_sound.completeReturn _ he) _
      (State.Sound.tellOwners _ (State.Sound.tellOwners _ ?_)))
    exact base_sound.shelf (fun _ => rfl) id h

theorem State.Sound.shelfUp (h : e.st.Sound) : (shelfUp e).st.Sound := by
  unfold Machine.shelfUp
  split_ifs
  · exact h
  · exact State.Sound.resumeShelf (e := e.updShelf fun p => { p with up := true }) (base_sound.shelf id id h)

/-! ### Freezes and the schedule -/

theorem State.Sound.askFreeze (a : FreezeAsker) (h : e.st.Sound) : (askFreeze v a e).st.Sound := by
  have hanswer : ∀ code, (answerFreeze v code a e).st.Sound := fun code => base_sound.answerFreezes v code [a] h
  unfold Machine.askFreeze
  split
  · exact hanswer _
  · exact hanswer _
  · exact hanswer _
  · obtain ⟨W, h⟩ := h
    let join : Drain → Drain := fun d => { d with work := match d.work with
      | .refusing fs => .refusing (fs ++ [a])
      | .holding c => .holding c }
    let y : Volume := { e.st.vol v with drain := (e.st.vol v).drain.map join }
    have hjoin : ∀ o : Option Drain, runCreates ((o.map join).map Drain.work).toList = runCreates (o.map Drain.work).toList := by
      intro o
      cases o with
      | none => rfl
      | some d => cases hd : d.work <;> simp [join, runCreates, hd, DrainWork.isRun]
    have hcount : runCreates y.works = runCreates (W v) := by
      rw [← h.works v, Volume.works, Volume.works, runCreates_append, runCreates_append]
      exact congrArg (· + _) (hjoin _)
    refine ((h.setVol (v := v) (y := y) (.of_same rfl rfl rfl)).mono fun u => ?_).sound
    by_cases hu : u = v
    · subst hu
      rw [Function.update_self]
      exact hcount.le
    · rw [Function.update_of_ne hu]
  · obtain ⟨W, h⟩ := h
    exact State.Sound.askDrain (h.other (w := .refusing [a]) rfl)

theorem State.Sound.thawVolume (v : Nat) (h : e.st.Sound) : (thawVolume v e).2.st.Sound := by
  unfold Machine.thawVolume
  split
  · exact h
  · exact h
  · exact h
  · exact base_sound.resumeFrozen _ (base_sound.updVol_same v (fun x => { x with state := .normal }) (fun _ => rfl) (fun _ => rfl)
      (fun _ => rfl) (fun _ => rfl) h)
  · exact h.finishDrain _ _

theorem State.Sound.snapAction (v : Nat) {c : CreateReq} (hc : c.asker ≠ .run) (h : e.st.Sound) : (snapAction v c e).st.Sound := by
  unfold Machine.snapAction
  dsimp only
  split
  · exact base_sound.answerOther _ _ hc h
  · split
    · exact base_sound.answerOther _ _ hc h
    · exact h.askOther _ hc

theorem State.Sound.fireFreeze (i : Nat) (x : SchedEntry) (h : e.st.Sound) : (fireFreeze i x e).st.Sound := by
  unfold Machine.fireFreeze
  split_ifs
  · exact h.askFreeze _
  · exact State.Sound.askFreeze (e := e.updSched _) _ (base_sound.sched id id h)
  · exact State.Sound.askFreeze (e := e.note _ _ _ _) _ h

theorem startCheck_idle {s : State} (h : startCheck s = none) : s.run.state = .idle := by
  by_contra hi
  unfold startCheck at h
  rw [if_pos hi] at h
  cases h

theorem State.Sound.fireEntry (i : Nat) (x : SchedEntry) (h : e.st.Sound) : (fireEntry i x e).st.Sound := by
  unfold Machine.fireEntry
  split
  · exact h.snapAction _ nofun
  · exact h.fireFreeze _ _
  · have h1 := h.thawVolume x.volume
    unfold Machine.fireThaw
    dsimp only
    split_ifs <;> exact h1
  · unfold Machine.fireRun
    split
    · exact h
    · rename_i hc
      exact State.Sound.beginFreezes _ (h.startRun _ _ (startCheck_idle hc))
  · exact base_sound.sched id id h
  · exact h

theorem State.Sound.minuteBoundary (h : e.st.Sound) : (minuteBoundary e).st.Sound := by
  have hswap : (midnightSwap e).st.Sound := by
    unfold Machine.midnightSwap
    split
    · exact h
    · exact base_sound.sched id id h
  have h1 : (if e.st.sched.clock % Config.daySeconds = 0 ∧ e.st.ctl.part ≠ .recovering then midnightSwap e
      else e).st.Sound := by
    split_ifs
    · exact hswap
    · exact h
  unfold Machine.minuteBoundary
  dsimp only
  generalize (if e.st.sched.clock % Config.daySeconds = 0 ∧ e.st.ctl.part ≠ .recovering then midnightSwap e
      else e) = e' at h1 ⊢
  split_ifs
  · exact foldl_keeps (Q := fun e => e.st.Sound) (fun _ _ he => he.fireEntry _ _) _ h1
  · exact h1

theorem Base.beginPass {P : State → Prop} (K : Base P) (h : P e.st) : P (beginPass e).st := by
  unfold Machine.beginPass
  split_ifs
  · exact h
  · exact K.plain h

theorem Base.fireExpiry {P : State → Prop} (K : Base P) (h : P e.st) : P (fireExpiry e).st := by
  unfold Machine.fireExpiry
  split
  · exact h
  · rename_i x tag rest _
    split_ifs
    · exact h
    · exact K.touchAcct _ (K.updAcct (e := e.upd fun s => { s with expiryQueue := rest }) _ _ (K.plain h))

theorem State.Sound.advanceClock (h : e.st.Sound) : (advanceClock e).st.Sound := by
  unfold Machine.advanceClock
  split
  · exact h
  · have h1 := base_sound.beginPass (State.Sound.testDeadline (e := e.updSched fun d => { d with clock := d.clock + 1 })
      (base_sound.sched id id h))
    dsimp only
    split_ifs
    · exact h1.minuteBoundary
    · exact h1

/-! ### Volumes -/

/-- A volume record without drains is written whole. -/
theorem State.Sound.fresh {s : State} {y : Volume} (h : s.Sound) (hw : y.wf = true) (hy : y.works = []) : (s.setVol v y).Sound := by
  obtain ⟨W, h⟩ := h
  have hv : ∀ u, u ≠ v → (s.setVol v y).vol u = s.vol u := fun u hu => State.vol_setVol_ne _ _ _ _ hu
  refine State.Asking.sound (W := Function.update W v []) ⟨⟨State.wf_setVol h.ordered.wf v hw, h.ordered.window, h.ordered.idleSeq,
    h.ordered.seq, h.ordered.idle, h.ordered.reading, h.ordered.inner, h.ordered.sealed, h.ordered.closed⟩, fun u => ?_, fun u => ?_⟩
  · by_cases hu : u = v
    · subst hu
      rw [Function.update_self]
      exact ⟨Nat.zero_le _, fun h0 => absurd rfl h0⟩
    · rw [Function.update_of_ne hu]
      exact h.asks u
  · by_cases hu : u = v
    · subst hu
      rw [State.vol_setVol, Function.update_self, hy]
    · rw [hv u hu, Function.update_of_ne hu]
      exact h.works u

theorem State.Sound.deleteWalkStep (v : Nat) (h : e.st.Sound) : (deleteWalkStep v e).st.Sound := by
  unfold Machine.deleteWalkStep
  dsimp only
  split
  · exact h
  split
  · exact base_sound.walkEntry _ h
  unfold Machine.walkSnaps
  dsimp only
  split
  · exact h.fresh rfl rfl
  · rename_i slot d t hs
    have hd : tfind (e.st.vol v).snaps slot = some d := by rw [hs, tfind, if_pos rfl]
    split
    · exact base_sound.updVol v (fun y => { y with snaps := tdel slot y.snaps }) (.of_unslot rfl rfl rfl) rfl h
    · rename_i r rest hr
      refine base_sound.walkFree _ _ (base_sound.updVol v (fun y => if rest = [] then { y with snaps := tdel slot y.snaps }
        else y.setSnap slot { d with retained := rest }) (Volume.keeps_dropRetained hd hr) ?_ h)
      split_ifs <;> rfl

/-! ### Control requests -/

theorem State.Sound.doConfigSet (p : ConfigPatch) (h : e.st.Sound) : (doConfigSet p e).st.Sound := by
  unfold Machine.doConfigSet
  split
  · exact base_sound.refuse _ h
  · rename_i hc
    refine base_sound.reply (e := { e.upd (patchState p) with poolTouched := _, todo := _ }) _ _ ?_
    obtain ⟨W, h, ha, hw⟩ := h
    refine ⟨W, ⟨h.wf, ?_, h.idleSeq, h.seq, h.idle, h.reading, h.inner, h.sealed, h.closed⟩, ha, hw⟩
    change e.st.port.outstanding.length ≤ p.window.getD e.st.ctl.config.window
    cases hwin : p.window with
    | none => exact h.window
    | some k =>
      have hidle : e.st.run.state = .idle := by
        by_contra hi
        have hbusy : (p.partnerSite.isSome ∨ p.window.isSome ∨ p.ackTimeout.isSome) ∧ e.st.run.state ≠ .idle :=
          ⟨.inr (.inl (by rw [hwin]; rfl)), hi⟩
        unfold configCheck at hc
        dsimp only at hc
        rw [if_pos hbusy] at hc
        split_ifs at hc
      rw [h.idleSeq (h.idle hidle).1]
      exact Nat.zero_le _

theorem State.Sound.doReset (h : e.st.Sound) : (doReset e).st.Sound := by
  unfold Machine.doReset
  split
  · exact h
  · rename_i x _
    have h1 := base_sound.emitControl x.number x.tag .ok [] h
    exact State.Sound.resetPart (e := Event.upd _ _) false (base_sound.plain (base_sound.evalAccounts _ h1))

theorem State.Sound.doVolumeCreate (v size reserve : Nat) (o : Bool) (cap : Nat) (h : e.st.Sound) :
    (doVolumeCreate v size reserve o cap e).st.Sound := by
  unfold Machine.doVolumeCreate
  split
  · exact base_sound.refuse _ h
  · exact base_sound.reply _ _ (h.fresh rfl rfl)

theorem State.Sound.doSetFullScan (v : Nat) (h : e.st.Sound) : (doSetFullScan v e).st.Sound := by
  unfold Machine.doSetFullScan
  split
  · exact base_sound.refuse _ h
  split
  · exact base_sound.refuse _ h
  · have h1 := base_sound.updVol_same (e := e) v (fun x => { x with fullScan := true }) (fun _ => rfl) (fun _ => rfl)
      (fun _ => rfl) (fun _ => rfl) h
    exact base_sound.reply _ _ (h1.updRun _ ⟨rfl, rfl, rfl, rfl, Iff.rfl, id⟩)

theorem State.Sound.doRestoreStart (a b c o : Nat) (d : Bool) (rs : List Range) (h : e.st.Sound) :
    (doRestoreStart a b c o d rs e).st.Sound := by
  unfold Machine.doRestoreStart
  split
  · exact base_sound.refuse _ h
  · refine State.Sound.askOther _ nofun (base_sound.pinSnap _ _ _ (base_sound.reserveChunks (e := e.upd fun s =>
      { s with jobs := tput _ _ s.jobs }) _ _ (base_sound.jobs (sorted_tput _ _) h)))

theorem State.Sound.doRunPlanSet (vs : List Nat) (h : e.st.Sound) : (doRunPlanSet vs e).st.Sound := by
  unfold Machine.doRunPlanSet
  split
  · exact base_sound.refuse _ h
  split
  · exact base_sound.refuse _ h
  rename_i hi
  rw [ne_eq, not_not] at hi
  split
  · exact base_sound.refuse _ h
  · refine base_sound.reply (e := Event.upd _ _) _ _ ?_
    obtain ⟨W, h⟩ := h
    obtain ⟨hq, hf, hr⟩ := h.ordered.idle hi
    exact (h.idles (t := { e.st with plan := vs }) h.ordered.wf rfl (h.ordered.idleSeq hq) hq hf hr).soundOf
      (h.zero fun u hu => hu.1 hi)

theorem State.Sound.doRunStart (mode minute : Nat) (h : e.st.Sound) : (doRunStart mode minute e).st.Sound := by
  unfold Machine.doRunStart
  split
  · exact base_sound.refuse _ h
  split
  · exact base_sound.refuse _ h
  split
  · exact base_sound.refuse _ h
  split
  · exact base_sound.refuseStart _ h
  · rename_i hc
    exact base_sound.reply _ _ (h.startRun _ _ (startCheck_idle hc))

theorem State.Sound.doRunStop (h : e.st.Sound) : (doRunStop e).st.Sound := by
  unfold Machine.doRunStop
  dsimp only
  split
  · exact base_sound.refuse _ h
  split
  · exact base_sound.reply _ _ h
  split
  · rename_i hi _ _
    exact base_sound.reply _ _ (h.updRun (fun r => { r with state := .stopping }) ⟨rfl, rfl, rfl, rfl, ⟨nofun, fun h0 => absurd h0 hi⟩, id⟩)
  · exact base_sound.reply _ _ (h.endRun _)

theorem State.Sound.perform (r : Request) (h : e.st.Sound) : (perform r e).st.Sound := by
  have K := base_sound
  unfold Machine.perform
  split
  · exact K.refuse _ h
  split
  · exact K.doFormat _ _ _ _ _ h
  · exact h.doConfigSet _
  · exact K.reply _ _ h
  · exact K.reply _ _ (State.Sound.testDeadline (K.beginPass (K.sched id id h)))
  · exact K.doGo h
  · exact h.doReset
  · exact K.reply _ _ h
  · exact h.doVolumeCreate _ _ _ _ _
  · exact K.doVolumeDelete _ h
  · exact K.doVolumeRead _ h
  · unfold Machine.doFreeze
    split_ifs
    · exact h.askFreeze _
    · exact K.refuse _ h
  · unfold Machine.doThaw
    split
    · exact K.refuse _ h
    · exact K.reply _ _ (h.thawVolume _)
  · exact h.doSetFullScan _
  · exact K.doAccountSet _ _ _ h
  · exact K.doAccountRead _ h
  · exact K.readAccount _ h
  · unfold Machine.doSnapshotCreate
    split
    · exact K.refuse _ h
    · exact h.askOther _ nofun
  · exact K.doSnapshotDelete _ _ h
  · exact K.doSnapshotHold _ _ h
  · exact K.doSnapshotRelease _ _ h
  · exact K.doSnapshotList _ h
  · exact h.doRestoreStart _ _ _ _ _ _
  · exact K.doRestoreSuspend _ h
  · exact K.doRestoreResume _ h
  · exact K.doRestoreAbort _ h
  · exact K.doRestoreStatus _ h
  · exact K.doRestoreClear _ h
  · exact h.doRunPlanSet _
  · exact h.doRunStart _ _
  · exact h.doRunStop
  · exact K.reply _ _ h
  · exact K.doPlan _ h
  · exact K.doScheduleWrite _ _ _ h
  · exact K.doScheduleWriteNext _ h
  · exact K.doScheduleRead _ _ h
  · exact K.reply _ _ (K.sched id id h)
  · exact K.reply _ _ (K.sched id id h)
  · exact K.reply _ _ h
  · exact K.refuse _ h

/-- The law reads of the control unit nothing but the window. -/
theorem State.Sound.ctl {s : State} {c : Control} (h : s.Sound) (hc : c.config.window = s.ctl.config.window) :
    ({ s with ctl := c } : State).Sound := by
  obtain ⟨W, h, ha, hw⟩ := h
  exact ⟨W, ⟨h.wf, by rw [hc]; exact h.window, h.idleSeq, h.seq, h.idle, h.reading, h.inner, h.sealed, h.closed⟩, ha, hw⟩

theorem State.Sound.execute (q : ControlReq) (h : e.st.Sound) : (execute q e).st.Sound :=
  State.Sound.perform (e := e.updCtl _) _ (h.ctl rfl)

theorem State.Sound.executeHead (h : e.st.Sound) : (executeHead e).st.Sound := by
  unfold Machine.executeHead
  split
  · exact h
  · exact State.Sound.execute (e := e.updCtl _) _ (h.ctl rfl)

theorem State.Sound.controlArrive (q : ControlReq) (h : e.st.Sound) : (controlArrive q e).st.Sound := by
  unfold Machine.controlArrive
  split
  · exact h
  split
  · exact h.execute q
  split
  · exact h.ctl rfl
  · exact base_sound.emitControl _ _ _ _ h

/-! ### The event as a whole -/

theorem State.Sound.turn {e' : Event} (ht : turn e = some e') (h : e.st.Sound) : e'.st.Sound := by
  have K := base_sound
  have hretest : (retestTurn e).st.Sound := by
    unfold retestTurn
    split
    · exact K.proceed _ h
    · exact h
  have hdrain : (drainTurn e).st.Sound := by
    unfold drainTurn
    split
    · exact h.finishDrain _ _
    · exact h
  have hjob : (jobTurn e).st.Sound := by
    unfold jobTurn
    split
    · exact K.beginVisit _ _ h
    · exact h
  have hcontrol : (controlTurn e).st.Sound := by
    unfold controlTurn
    split
    · exact h.executeHead
    · exact h
  unfold Machine.turn at ht
  dsimp only at ht
  split at ht
  · cases ht; exact hretest
  split at ht
  · cases ht; exact hdrain
  split at ht
  · cases ht; exact K.testYield (e := { e with todo := _ }) h
  split at ht
  · cases ht; exact K.resumePool (e := { e with todo := _ }) h
  split at ht
  · cases ht; exact hjob
  split at ht
  · cases ht
    split
    · rename_i hd
      exact State.Sound.beginNext (e := { e with todo := _ }) _ h hd
    · exact h
  split at ht
  · cases ht; exact State.Sound.engineTurn (e := { e with todo := _ }) h
  split at ht
  · cases ht; exact State.Sound.portTurn (e := { e with todo := _ }) h
  split at ht
  · cases ht; exact K.emitControl _ _ _ _ h
  split at ht
  · cases ht; exact hcontrol
  split at ht
  · cases ht; exact K.grants (e := { e with todo := _ }) _ h
  · cases ht

theorem State.Sound.runTodo (k : Nat) (h : e.st.Sound) : (runTodo k e).st.Sound := by
  induction k generalizing e with
  | zero => exact h
  | succ k ih =>
    unfold Machine.runTodo
    split
    · exact h
    · rename_i e' ht
      exact ih (h.turn ht)

theorem State.Sound.closeEvent (h : e.st.Sound) : (closeEvent e).Sound := by
  obtain ⟨ns, b, hr⟩ := completeReplies_ctl e.evaluated.frontUp e.evaluate.2 e.evaluated.ctl {} e.parts e.evaluated.out
  unfold Machine.closeEvent
  dsimp only
  rw [hr, foldl_offer]
  obtain ⟨W, h, ha, hw⟩ := base_sound.evaluated h
  exact ⟨W, ⟨h.wf, h.window, h.idleSeq, h.seq, h.idle, h.reading, h.inner, h.sealed, h.closed⟩, ha, hw⟩

end

/-- Every command keeps the law. -/
theorem State.Sound.exec {s t : State} (i : Instr) (hs : exec i s = .next t) (h : s.Sound) : t.Sound := by
  have K := base_sound
  have hrun : ∀ f : Event → Event, (∀ e : Event, e.st.Sound → (f e).st.Sound) → Machine.exec i s = .next (Machine.runEvent s f) →
      t.Sound := by
    intro f hf he
    rw [he] at hs
    cases hs
    exact State.Sound.closeEvent (State.Sound.runTodo _ (hf _ (K.plain (s := s) h)))
  cases i
  case powerOn => exact hrun _ (fun _ h => h.resetPart _) rfl
  case mirrorRecordRecovery => exact hrun _ (fun _ h => K.recoverMirror h) rfl
  case pendingReturnRecovery => exact hrun _ (fun _ h => K.recoverReturn h) rfl
  case restoreJobRecovery => exact hrun _ (fun _ h => K.recoverJob h) rfl
  case runRecovery => exact hrun _ (fun _ h => h.recoverRun) rfl
  case expiryQueueRebuild => exact hrun _ (fun _ h => K.rebuildExpiry h) rfl
  case frontLinkDown => exact hrun (fun e => e.upd fun s => { s with frontUp := false }) (fun _ h => K.plain h) rfl
  case frontLinkUp => exact hrun (fun e => e.upd fun s => { s with frontUp := true }) (fun _ h => K.plain h) rfl
  case frontFrameBadAddress => exact hrun _ (fun _ h => K.replyFront _ _ _ _ h) rfl
  case shortFrameDiscard => exact hrun _ (fun _ h => h) rfl
  case read => exact hrun _ (fun _ h => K.frontArrive _ _ _ _ _ _ _ _ _ h) rfl
  case write => exact hrun _ (fun _ h => K.frontArrive _ _ _ _ _ _ _ _ _ h) rfl
  case discard => exact hrun _ (fun _ h => K.frontArrive _ _ _ _ _ _ _ _ _ h) rfl
  case drainTimeout => exact hrun _ (fun _ h => h.finishDrain _ _) rfl
  case controlRequestArrival =>
    refine hrun _ (fun e h => ?_) rfl
    unfold controlBytes
    split
    · exact h.controlArrive _
    · exact h
  case formatFillStep => exact hrun _ (fun _ h => K.fillStep h) rfl
  case volumeDeleteWalkStep => exact hrun _ (fun _ h => h.deleteWalkStep _) rfl
  case mergeWalkStep => exact hrun _ (fun _ h => K.mergeStep _ h) rfl
  case fullScanStep => exact hrun _ (fun _ h => h.scanStep) rfl
  case hello => exact hrun _ (fun _ h => h.partnerFrame _) rfl
  case ack => exact hrun _ (fun _ h => h.partnerFrame _) rfl
  case nak => exact hrun _ (fun _ h => h.partnerFrame _) rfl
  case hold => exact hrun _ (fun _ h => h.partnerFrame _) rfl
  case resume => exact hrun _ (fun _ h => h.partnerFrame _) rfl
  case offsiteFrameIgnored => exact hrun _ (fun _ h => h.partnerBytes _) rfl
  case offsiteCarrierLoss => exact hrun _ (fun _ h => h.carrierLost) rfl
  case ackTimerExpiry => exact hrun _ (fun _ h => h.ackTimerIn) rfl
  case holdTimerExpiry => exact hrun _ (fun _ h => h.holdTimerIn) rfl
  case pacingTimeReached => exact hrun _ (fun _ h => h.paceTo _) rfl
  case shelfReply => exact hrun _ (fun _ h => h.shelfReplyIn _ _ _ _ _) rfl
  case shelfCommandTimeout => exact hrun _ (fun _ h => h.shelfTimeoutIn _) rfl
  case shelfLinkDown => exact hrun _ (fun _ h => h.shelfDown) rfl
  case shelfLinkUp => exact hrun _ (fun _ h => h.shelfUp) rfl
  case clockAdvance => exact hrun _ (fun _ h => h.advanceClock) rfl
  case graceExpiryFire => exact hrun _ (fun _ h => K.fireExpiry h) rfl
  case malformedRequestKind => exact hrun _ (fun _ h => K.replyFront _ _ _ _ h) rfl
  all_goals exact hrun _ (fun _ h => h.controlArrive _) rfl

/-! ### The law in the words of the statement -/

theorem runAsks_eq (s : State) : s.runAsks = s.vols.flatMap fun p => List.replicate (runCreates p.2.works) p.1 := by
  unfold State.runAsks State.works
  rw [List.filter_flatMap, List.map_flatMap]
  refine List.flatMap_congr fun p _ => ?_
  rw [List.filter_map, List.map_map, runCreates]
  exact List.map_const' ..

theorem mem_runAsks {s : State} (h : s.wf = true) (v : Nat) : v ∈ s.runAsks ↔ runCreates (s.vol v).works ≠ 0 := by
  have hs : Table.sorted s.vols = true := by
    have := ((State.wf_iff s).mp h).1
    rw [Table.wf, Bool.and_eq_true] at this
    exact this.1
  rw [runAsks_eq, List.mem_flatMap]
  constructor
  · rintro ⟨p, hp, hv⟩
    obtain ⟨h0, rfl⟩ := List.mem_replicate.mp hv
    unfold State.vol tget
    rw [tfind_of_mem hs hp]
    exact h0
  · intro h0
    cases hf : tfind s.vols v with
    | none =>
      unfold State.vol tget at h0
      rw [hf] at h0
      exact absurd rfl h0
    | some x =>
      refine ⟨(v, x), mem_of_tfind hf, List.mem_replicate.mpr ⟨?_, rfl⟩⟩
      unfold State.vol tget at h0
      rw [hf] at h0
      exact h0

/-- A volume holds at most as many RUN creates as the state. -/
theorem runCreates_le (s : State) (v : Nat) : runCreates (s.vol v).works ≤ s.runAsks.length := by
  by_cases h0 : runCreates (s.vol v).works = 0
  · rw [h0]
    exact Nat.zero_le _
  · have hf : ∃ x, tfind s.vols v = some x := by
      by_contra hn
      have hnone : tfind s.vols v = none := Option.eq_none_iff_forall_ne_some.mpr fun x hx => hn ⟨x, hx⟩
      unfold State.vol tget at h0
      rw [hnone] at h0
      exact h0 rfl
    obtain ⟨x, hx⟩ := hf
    rw [runAsks_eq, List.length_flatMap]
    have hmem : runCreates x.works ∈ s.vols.map fun p => (List.replicate (runCreates p.2.works) p.1).length :=
      List.mem_map.mpr ⟨(v, x), mem_of_tfind hx, List.length_replicate⟩
    have hvol : s.vol v = x := by
      unfold State.vol tget
      rw [hx]
      rfl
    rw [hvol]
    exact List.le_sum_of_mem hmem

/-- Where each volume holds one RUN create at most and all are of one volume, there is one at most. -/
theorem runAsks_le {s : State} (h : Table.sorted s.vols = true) {a : Nat} (h1 : ∀ p ∈ s.vols, runCreates p.2.works ≤ 1)
    (ha : ∀ v ∈ s.runAsks, v = a) : s.runAsks.length ≤ 1 := by
  have hnodup : s.runAsks.Nodup := by
    rw [runAsks_eq, List.nodup_flatMap]
    refine ⟨fun p hp => ?_, (pairwise_of_sorted h).imp fun {p q} hlt => ?_⟩
    · have := h1 p hp
      interval_cases runCreates p.2.works <;> simp
    · intro x hx hy
      obtain ⟨-, rfl⟩ := List.mem_replicate.mp hx
      obtain ⟨-, hpq⟩ := List.mem_replicate.mp hy
      omega
  match hl : s.runAsks with
  | [] => exact Nat.zero_le _
  | [x] => exact le_rfl
  | x :: y :: l =>
    rw [hl] at ha hnodup
    have hx := ha x (by simp)
    have hy := ha y (by simp)
    rw [hx, hy] at hnodup
    simp at hnodup

theorem sound_iff {s : State} (hwf : s.wf = true) : s.Sound ↔ outstandingLaw s ∧ runLaw s := by
  have hs : Table.sorted s.vols = true := by
    have := ((State.wf_iff s).mp hwf).1
    rw [Table.wf, Bool.and_eq_true] at this
    exact this.1
  constructor
  · rintro ⟨W, h, ha, hw⟩
    refine ⟨⟨h.window, ?_⟩, h.idle, h.reading, fun f hf => not_or.mp (h.inner f hf), h.sealed, h.closed, ?_, fun v hv => ?_⟩
    · split_ifs with hq
      · exact h.idleSeq hq
      · exact h.seq hq
    · refine runAsks_le hs (a := s.currentVol.getD 0) (fun p hp => ?_) fun v hv => ?_
      · have := (ha p.1).1
        rwa [← hw p.1, State.vol, tget, tfind_of_mem hs hp] at this
      · rw [mem_runAsks hwf, hw v] at hv
        obtain ⟨-, -, -, hc⟩ := (ha v).2 hv
        rw [hc]
        rfl
    · rw [mem_runAsks hwf, hw v] at hv
      exact (ha v).2 hv
  · rintro ⟨⟨h1, h2⟩, h3, h4, h5, h6, h7, h8, h9⟩
    refine ⟨fun v => (s.vol v).works, ⟨hwf, h1, fun hq => ?_, fun hq => ?_, h3, h4, fun f hf => not_or.mpr (h5 f hf), h6, h7⟩,
      fun v => ⟨?_, fun hv => h9 v ((mem_runAsks hwf v).mpr hv)⟩, fun _ => rfl⟩
    · rwa [if_pos hq] at h2
    · rwa [if_neg hq] at h2
    · exact (runCreates_le s v).trans h8

/-- Settles O7: the frames of the run stand in order after every command. -/
theorem stepKeepsOutstandingLaw : Obligations.StepKeepsOutstandingLaw := by
  unfold Obligations.StepKeepsOutstandingLaw
  intro s t hwf ho hr hs
  have ht : t.wf = true := whole_wf.step hs hwf
  refine (sound_iff ht).mp ?_
  have h : s.Sound := (sound_iff hwf).mpr ⟨ho, hr⟩
  unfold step at hs
  split at hs
  · cases hs
    exact h
  · exact State.Sound.exec _ hs (base_sound.plain (s := s) h)

end Sys2Proof.Machine
end

section
/-! PROOFS. The end of a restore job, and RESTORE ABORT (R115, R116). -/

namespace Sys2Proof.Machine

/-! ### The operations of the accounts and the pool, each as one change of the event -/

/-- The accounts to evaluate once an account is touched. -/
def touching (o : Nat) (l : List Nat) : List Nat := if o = 0 then l else insertAsc o l

theorem mem_touching {o k : Nat} {l : List Nat} (h : k ∈ touching o l) : k = o ∨ k ∈ l := by
  unfold touching at h
  split_ifs at h
  · exact .inr h
  · exact (mem_insertAsc).mp h

theorem touchAcct_eq (e : Event) (o : Nat) : e.touchAcct o = { e with accts := touching o e.accts } := by
  unfold Event.touchAcct touching
  split_ifs <;> rfl

/-- One chunk less is charged. -/
def State.uncharged (s : State) (o : Nat) : State := s.setAcct o { s.acct o with charge := (s.acct o).charge - 1 }

theorem uncharge_eq (o : Nat) (e : Event) :
    uncharge o e = { e with st := e.st.uncharged o, accts := touching o e.accts } := by
  have hcharge : (e.st.acct o).addCharge (1 * -1) = { e.st.acct o with charge := (e.st.acct o).charge - 1 } := by
    unfold Account.addCharge
    congr 1
    omega
  simp only [uncharge, applyCharges]
  rw [if_neg (by decide), touchAcct_eq]
  simp only [Event.updAcct, Event.upd, hcharge, State.uncharged]

/-- `n` reserved chunks fewer. -/
def State.unreserved (s : State) (o n : Nat) : State :=
  if n = 0 then s else s.setAcct o { s.acct o with reserved := (s.acct o).reserved - n }

theorem releaseChunks_eq (o n : Nat) (e : Event) : releaseChunks o n e =
    { e with st := e.st.unreserved o n, accts := if n = 0 then e.accts else touching o e.accts } := by
  unfold releaseChunks State.unreserved
  split_ifs with h
  · rfl
  · rw [touchAcct_eq]
    rfl

theorem unreserved_frame (s : State) (o n : Nat) : s.unreserved o n = { s with accounts := (s.unreserved o n).accounts } := by
  unfold State.unreserved
  split_ifs <;> rfl

theorem acct_unreserved (s : State) (o n : Nat) :
    (s.unreserved o n).acct o = { s.acct o with reserved := (s.acct o).reserved - n } := by
  unfold State.unreserved
  split_ifs with h
  · rw [h]
    rfl
  · exact State.acct_setAcct ..

theorem acct_unreserved_ne {s : State} {o k : Nat} (n : Nat) (h : k ≠ o) : (s.unreserved o n).acct k = s.acct k := by
  unfold State.unreserved
  split_ifs
  · rfl
  · exact State.acct_setAcct_ne _ _ _ _ h

/-! ### Pins -/

/-- A snapshot of a volume has one pin fewer. -/
def State.unpinned (s : State) (v slot : Nat) : State :=
  match tfind (s.vol v).snaps slot with
  | none => s
  | some d => s.setVol v ((s.vol v).setSnap slot { d with inUse := d.inUse - 1 })

theorem pinSnap_eq (v slot : Nat) (e : Event) : pinSnap v slot false e = e.upd fun s => s.unpinned v slot := by
  unfold pinSnap Event.upd
  dsimp only
  rw [State.unpinned]
  cases tfind (e.st.vol v).snaps slot <;> rfl

theorem unpinned_frame (s : State) (v slot : Nat) : s.unpinned v slot = { s with vols := (s.unpinned v slot).vols } := by
  unfold State.unpinned
  split <;> rfl

/-- Of a volume's record an unpin changes the pins of the snapshot alone. -/
theorem vol_unpinned (s : State) (v slot w : Nat) : ∃ sn, (s.unpinned v slot).vol w = { s.vol w with snaps := sn } ∧
    ∀ i, tfind sn i = (tfind (s.vol w).snaps i).map fun d => { d with inUse := d.inUse - if w = v ∧ i = slot then 1 else 0 } := by
  have hstands : ∀ i, ¬ (w = v ∧ i = slot) → tfind (s.vol w).snaps i =
      (tfind (s.vol w).snaps i).map fun d => { d with inUse := d.inUse - if w = v ∧ i = slot then 1 else 0 } := by
    intro i h
    rw [if_neg h]
    exact Option.map_id'.symm
  rw [State.unpinned]
  cases hd : tfind (s.vol v).snaps slot with
  | none =>
    dsimp only
    refine ⟨_, rfl, fun i => ?_⟩
    by_cases h : w = v ∧ i = slot
    · rw [h.1, h.2, hd, Option.map_none]
      exact hd
    · exact hstands i h
  | some d =>
    by_cases hw : w = v
    · subst hw
      refine ⟨_, State.vol_setVol .., fun i => ?_⟩
      by_cases hi : i = slot
      · rw [hi, tfind_tput_same, hd, if_pos ⟨rfl, rfl⟩]
        rfl
      · exact (tfind_tput_ne _ _ _ _ hi).trans (hstands i fun h => hi h.2)
    · exact ⟨_, State.vol_setVol_ne _ _ _ _ hw, fun i => hstands i fun h => hw h.1⟩

theorem unpinned_drains {s : State} (v slot : Nat) (h : ∀ p ∈ s.vols, p.2.drain = none) :
    ∀ p ∈ (s.unpinned v slot).vols, p.2.drain = none := by
  unfold State.unpinned
  split
  · exact h
  · exact forall_tset (Q := fun x : Volume => x.drain = none) h
      (tget_of_forall (Q := fun x : Volume => x.drain = none) (d := Volume.absent) rfl h v)

/-! ### The end of a job (R115) -/

/-- The pins of a job are given up: its source, and its PRE-RESTORE snapshot. -/
def State.unpins (s : State) (x : Job) : State :=
  match x.pre with
  | some (slot, _) => (s.unpinned x.srcVol x.srcSlot).unpinned x.dstVol slot
  | none => s.unpinned x.srcVol x.srcSlot

theorem unpins_frame (s : State) (x : Job) : s.unpins x = { s with vols := (s.unpins x).vols } := by
  have h1 := unpinned_frame s x.srcVol x.srcSlot
  unfold State.unpins
  split
  · rw [unpinned_frame, h1]
  · exact h1

theorem unpins_drains {s : State} (x : Job) (h : ∀ p ∈ s.vols, p.2.drain = none) : ∀ p ∈ (s.unpins x).vols, p.2.drain = none := by
  have h1 := unpinned_drains x.srcVol x.srcSlot h
  unfold State.unpins
  split
  · exact unpinned_drains _ _ h1
  · exact h1

/-- Of a volume's record the end of a job changes the pins of its two snapshots alone. -/
theorem vol_unpins (s : State) (x : Job) (w : Nat) : ∃ sn, (s.unpins x).vol w = { s.vol w with snaps := sn } ∧
    ∀ i, tfind sn i = (tfind (s.vol w).snaps i).map fun d => { d with
      inUse := d.inUse - (if w = x.srcVol ∧ i = x.srcSlot then 1 else 0) -
        if w = x.dstVol ∧ x.pre.map Prod.fst = some i then 1 else 0 } := by
  obtain ⟨sn, h1, h2⟩ := vol_unpinned s x.srcVol x.srcSlot w
  unfold State.unpins
  cases hp : x.pre with
  | none =>
    refine ⟨sn, h1, fun i => ?_⟩
    rw [h2]
    simp
  | some p =>
    obtain ⟨slot, g⟩ := p
    obtain ⟨sn', h3, h4⟩ := vol_unpinned (s.unpinned x.srcVol x.srcSlot) x.dstVol slot w
    refine ⟨sn', by rw [h3, h1], fun i => ?_⟩
    rw [h4, h1]
    dsimp only
    rw [h2, Option.map_map]
    simp only [Option.map_some, Option.some.injEq, eq_comm (a := slot)]
    rfl

/-- The record of a job that has ended. -/
def Job.endedAs (x : Job) (k : JobState) : Job :=
  { x with state := k, remaining := 0, suspendReq := false, waiting := false, copy := none }

/-- The state once a job has ended. -/
def State.jobEnded (s : State) (j : Nat) (x : Job) (k : JobState) : State :=
  { (s.unreserved x.owner x.remaining).unpins x with jobs := tput j (x.endedAs k) s.jobs }

theorem endJob_eq {e : Event} {j : Nat} {x : Job} (hx : tfind e.st.jobs j = some x) (k : JobState) :
    endJob j k e = { e with
      st := e.st.jobEnded j x k
      accts := if x.remaining = 0 then e.accts else touching x.owner e.accts
      notices := e.notices ++ [e.st.notice .restoreEnded j (x.endedAs k).stateValue x.visits] } := by
  have hpins : (match x.pre with
      | some (slot, _) => pinSnap x.dstVol slot false (pinSnap x.srcVol x.srcSlot false (releaseChunks x.owner x.remaining e))
      | none => pinSnap x.srcVol x.srcSlot false (releaseChunks x.owner x.remaining e)) =
      { e with st := (e.st.unreserved x.owner x.remaining).unpins x,
               accts := if x.remaining = 0 then e.accts else touching x.owner e.accts } := by
    unfold State.unpins
    cases x.pre with
    | none =>
      dsimp only
      rw [pinSnap_eq, releaseChunks_eq]
      rfl
    | some p =>
      dsimp only
      rw [pinSnap_eq, pinSnap_eq, releaseChunks_eq]
      rfl
  have hframe : (e.st.unreserved x.owner x.remaining).unpins x =
      { e.st with accounts := (e.st.unreserved x.owner x.remaining).accounts,
                  vols := ((e.st.unreserved x.owner x.remaining).unpins x).vols } := by
    rw [unpins_frame, unreserved_frame]
  have hjobs : ((e.st.unreserved x.owner x.remaining).unpins x).jobs = e.st.jobs := by rw [hframe]
  unfold endJob
  rw [hx]
  refine (congrArg (fun f : Event => (f.updJob j fun _ => x.endedAs k).note .restoreEnded j (x.endedAs k).stateValue
    (x.endedAs k).visits) hpins).trans ?_
  rw [updJob_some (x := x) (by exact hjobs ▸ hx)]
  simp only [Event.note, Event.upd, State.jobEnded, hjobs]
  have hsched : ((e.st.unreserved x.owner x.remaining).unpins x).sched = e.st.sched := by rw [hframe]
  simp only [State.notice, State.stamp, hsched]
  rfl

/-! ### A copy is abandoned (R116, R117) -/

/-- The shelf port once a job's waiting commands are withdrawn and its commands in slots have a new owner. -/
def Shelf.disowned (p : Shelf) (j : Nat) (new : CmdOwner) : Shelf :=
  { p with
    fgQueue := p.fgQueue.filter fun c => !ofJob j c.owner
    restoreQueue := p.restoreQueue.filter fun c => !ofJob j c.owner
    offsiteQueue := p.offsiteQueue.filter fun c => !ofJob j c.owner
    slots := p.slots.map fun x => if ofJob j x.2.cmd.owner then (x.1, { x.2 with cmd := { x.2.cmd with owner := new } }) else x }

/-- The write of a job's copy holds a shelf slot. -/
def State.writesCopy (s : State) (j : Nat) (c : Copy) : Bool := c.stage == .writing && inSlot (ofJob j) s.shelf

theorem writesCopy_iff (s : State) (j : Nat) (c : Copy) :
    s.writesCopy j c = true ↔ c.stage = .writing ∧ ∃ p ∈ s.shelf.slots, p.2.cmd.owner = .restore j := by
  have howner : ∀ o, ofJob j o = true ↔ o = .restore j := by
    intro o
    cases o <;> simp [ofJob]
  simp [State.writesCopy, inSlot, howner]

/-- The state once a job's copy is abandoned. -/
def State.abandoned (s : State) (j : Nat) (x : Job) (c : Copy) : State :=
  let rest := s.busy.filter fun i => i.owner != .restore j
  if s.writesCopy j c then
    { s.uncharged x.owner with
      busy := rest, shelf := s.shelf.disowned j (.abandoned c.pcn), returns := s.returns ++ [c.pcn] }
  else
    { s.uncharged x.owner with
      busy := rest, shelf := s.shelf.disowned j .dropped, claims := s.claims - 1, free := s.free ++ [c.pcn] }

theorem abandonCopy_eq {e : Event} (hwf : Table.wf Volume.absent e.st.vols = true) (hd : ∀ p ∈ e.st.vols, p.2.drain = none)
    (j : Nat) (x : Job) (c : Copy) :
    abandonCopy j x c e = { e with
      st := e.st.abandoned j x c
      accts := touching x.owner e.accts
      poolTouched := e.poolTouched || !e.st.writesCopy j c
      todo := { e.todo with retest := true, drains := true, pool := e.todo.pool || !e.st.writesCopy j c } } := by
  unfold abandonCopy State.abandoned
  rw [leaveBusy_noDrains hwf hd]
  dsimp only
  rw [uncharge_eq]
  by_cases h : e.st.writesCopy j c = true
  · have h' : c.stage = .writing ∧ inSlot (ofJob j) e.st.shelf = true := by
      simpa [State.writesCopy] using h
    simp only [h, Bool.not_true, Bool.or_false, if_true]
    exact if_pos h'
  · have h' : ¬ (c.stage = .writing ∧ inSlot (ofJob j) e.st.shelf = true) := by
      simpa [State.writesCopy] using h
    simp only [h, Bool.not_false, Bool.or_true]
    exact (if_neg h').trans rfl

/-- Abandoning a copy touches neither the volumes nor the jobs nor the rest of the state. -/
theorem abandoned_frame (s : State) (j : Nat) (x : Job) (c : Copy) : ∃ r cl sh fr,
    s.abandoned j x c = { s.uncharged x.owner with
      busy := s.busy.filter fun i => i.owner != .restore j, returns := r, claims := cl, shelf := sh, free := fr } := by
  unfold State.abandoned
  dsimp only
  split_ifs <;> exact ⟨_, _, _, _, rfl⟩

/-! ### RESTORE ABORT -/

/-- The state once the copy of a job, if it has one, is abandoned. -/
def State.copyGone (s : State) (j : Nat) (x : Job) : State :=
  match x.copy with
  | some c => s.abandoned j x c
  | none => s

/-- The accounts that the end of a job touches. -/
def Job.touchedBy (x : Job) : List Nat :=
  let l := if x.copy.isSome then touching x.owner [] else []
  if x.remaining = 0 then l else touching x.owner l

theorem mem_touchedBy {x : Job} {k : Nat} (h : k ∈ x.touchedBy) : k = x.owner := by
  have hcopy : k ∈ (if x.copy.isSome then touching x.owner [] else []) → k = x.owner := by
    intro hk
    split_ifs at hk
    · rcases mem_touching hk with hk | hk
      · exact hk
      · cases hk
    · cases hk
  unfold Job.touchedBy at h
  dsimp only at h
  split_ifs at h hcopy
  · exact hcopy h
  · cases h
  · exact (mem_touching h).elim id hcopy
  · exact (mem_touching h).elim id hcopy

theorem abortJob_eq {s : State} {j : Nat} {x : Job} (hx : tfind s.jobs j = some x) (hw : x.waiting = false)
    (hwf : Table.wf Volume.absent s.vols = true) (hd : ∀ p ∈ s.vols, p.2.drain = none) :
    let freed := x.copy.any fun c => !s.writesCopy j c
    abortJob j { st := s } =
      { st := (s.copyGone j x).jobEnded j x .aborted
        todo := { retest := x.copy.isSome, drains := x.copy.isSome, pool := freed }
        accts := x.touchedBy
        poolTouched := freed
        notices := [s.notice .restoreEnded j 2 x.visits] } := by
  intro freed
  have hnotice : (x.endedAs .aborted).stateValue = 2 := rfl
  unfold abortJob
  rw [hx]
  dsimp only
  rw [hw]
  simp only [freed, State.copyGone, Job.touchedBy]
  cases hc : x.copy with
  | none =>
    refine (endJob_eq (e := { st := s }) hx .aborted).trans ?_
    rw [hnotice]
    rfl
  | some c =>
    obtain ⟨r, cl, sh, fr, hab⟩ := abandoned_frame s j x c
    have hjobs : (s.abandoned j x c).jobs = s.jobs := by rw [hab]; rfl
    have hsched : (s.abandoned j x c).sched = s.sched := by rw [hab]; rfl
    dsimp only
    rw [if_neg Bool.false_ne_true, abandonCopy_eq (e := { st := s }) hwf hd]
    refine (endJob_eq (by exact hjobs ▸ hx) .aborted).trans ?_
    rw [hnotice]
    simp only [State.notice, State.stamp, hsched, Bool.false_or]
    rfl

/-- The state once a job has ended ABORTED. -/
def State.aborted (s : State) (j : Nat) (x : Job) : State := (s.copyGone j x).jobEnded j x .aborted

section
variable {s : State} {j : Nat} {x : Job}

theorem copyGone_frame : ∃ as b r cl sh fr, s.copyGone j x =
    { s with accounts := as, busy := b, returns := r, claims := cl, shelf := sh, free := fr } := by
  unfold State.copyGone
  cases x.copy with
  | none => exact ⟨_, _, _, _, _, _, rfl⟩
  | some c =>
    obtain ⟨r, cl, sh, fr, h⟩ := abandoned_frame s j x c
    exact ⟨_, _, _, _, _, _, h⟩

/-- The abort of a job changes accounts, the busy set, the claims, the shelf port, the pins and the job. -/
theorem aborted_frame : ∃ as vs, s.aborted j x = { s.copyGone j x with
    accounts := as, vols := vs, jobs := tput j (x.endedAs .aborted) s.jobs } := by
  obtain ⟨_, _, _, _, _, _, h⟩ := copyGone_frame (s := s) (j := j) (x := x)
  unfold State.aborted State.jobEnded
  rw [unpins_frame, unreserved_frame, h]
  exact ⟨_, _, rfl⟩

theorem busy_copyGone : (s.copyGone j x).busy = if x.copy.isSome then s.busy.filter fun i => i.owner != .restore j else s.busy := by
  unfold State.copyGone
  cases x.copy with
  | none => rfl
  | some c =>
    obtain ⟨r, cl, sh, fr, h⟩ := abandoned_frame s j x c
    dsimp only
    rw [h]
    rfl

theorem acct_copyGone : (s.copyGone j x).acct x.owner =
    { s.acct x.owner with charge := (s.acct x.owner).charge - if x.copy.isSome then 1 else 0 } := by
  unfold State.copyGone
  cases x.copy with
  | none => rfl
  | some c =>
    obtain ⟨r, cl, sh, fr, h⟩ := abandoned_frame s j x c
    dsimp only
    rw [h]
    exact State.acct_setAcct ..

theorem acct_copyGone_ne {o : Nat} (ho : o ≠ x.owner) : (s.copyGone j x).acct o = s.acct o := by
  unfold State.copyGone
  cases x.copy with
  | none => rfl
  | some c =>
    obtain ⟨r, cl, sh, fr, h⟩ := abandoned_frame s j x c
    dsimp only
    rw [h]
    exact State.acct_setAcct_ne _ _ _ _ ho

theorem acct_jobEnded (s : State) (j : Nat) (x : Job) (k : JobState) (o : Nat) :
    (s.jobEnded j x k).acct o = (s.unreserved x.owner x.remaining).acct o := by
  unfold State.jobEnded
  rw [unpins_frame]
  rfl

theorem vol_aborted (w : Nat) : ∃ sn, (s.aborted j x).vol w = { s.vol w with snaps := sn } ∧
    ∀ i, tfind sn i = (tfind (s.vol w).snaps i).map fun d => { d with
      inUse := d.inUse - (if w = x.srcVol ∧ i = x.srcSlot then 1 else 0) -
        if w = x.dstVol ∧ x.pre.map Prod.fst = some i then 1 else 0 } := by
  have hvol : ((s.copyGone j x).unreserved x.owner x.remaining).vol w = s.vol w := by
    obtain ⟨_, _, _, _, _, _, h⟩ := copyGone_frame (s := s) (j := j) (x := x)
    rw [unreserved_frame, h]
    rfl
  obtain ⟨sn, h1, h2⟩ := vol_unpins ((s.copyGone j x).unreserved x.owner x.remaining) x w
  rw [hvol] at h1 h2
  exact ⟨sn, h1, h2⟩

theorem aborted_drains (hd : ∀ p ∈ s.vols, p.2.drain = none) : ∀ p ∈ (s.aborted j x).vols, p.2.drain = none := by
  have hvols : ((s.copyGone j x).unreserved x.owner x.remaining).vols = s.vols := by
    obtain ⟨_, _, _, _, _, _, h⟩ := copyGone_frame (s := s) (j := j) (x := x)
    rw [unreserved_frame, h]
  exact unpins_drains x (by rw [hvols]; exact hd)

/-- The other jobs stand. -/
theorem aborted_jobs (hs : Table.sorted s.jobs = true) {P : Job → Prop} (hP : P (x.endedAs .aborted))
    (h : ∀ p ∈ s.jobs, p.1 ≠ j → P p.2) : ∀ p ∈ tput j (x.endedAs .aborted) s.jobs, P p.2 := by
  intro p hp
  have hfind := tfind_of_mem (sorted_tput j (x.endedAs .aborted) hs) hp
  by_cases hj : p.1 = j
  · rw [hj, tfind_tput_same] at hfind
    exact Option.some.inj hfind ▸ hP
  · rw [tfind_tput_ne _ _ _ _ hj] at hfind
    exact h (p.1, p.2) (mem_of_tfind hfind) hj

/-- The whole event of RESTORE ABORT. -/
theorem exec_abort (h : s.ctlServes) (tag : Nat) (hj : j ≤ 3) (hx : tfind s.jobs j = some x) (he : x.state.ended = false)
    (hw : x.waiting = false) (hwf : s.wf = true)
    (hjobs : ∀ p ∈ s.jobs, p.1 ≠ j → p.2.state ≠ .running ∧ p.2.state ≠ .pausedPool)
    (hb : firstProceed [] (s.busy.filter fun i => i.owner != .restore j) = none) (hd : ∀ p ∈ s.vols, p.2.drain = none) :
    ∃ t f, exec (.restoreAbort tag j) s = .next t ∧ Ended f t ∧
      (∃ pending lost, t.out = [.control pending lost 25 tag .ok []]) ∧
      f.st = { (s.executes ⟨tag, .restoreAbort j⟩).aborted j x with ctl := f.st.ctl } ∧
      t.ctl = { f.offered with executing := none } ∧
      f.all.accts = x.touchedBy ∧ f.all.reports = [] ∧ f.all.reserves = [] ∧
      f.notices = [s.notice .restoreEnded j 2 x.visits] := by
  let u := s.executes ⟨tag, .restoreAbort j⟩
  let answer : Answer := { number := 25, tag := tag, code := .ok, result := [], job := none }
  let freed := x.copy.any fun c => !u.writesCopy j c
  let ended : Event :=
    { st := u.aborted j x, accts := x.touchedBy, poolTouched := freed, notices := [s.notice .restoreEnded j 2 x.visits] }
  let f : Event := { ended.freed with
    todo := { retest := x.copy.isSome, drains := x.copy.isSome, pool := freed, answer := some answer } }
  obtain ⟨as, vs, hframe⟩ := aborted_frame (s := u) (j := j) (x := x)
  obtain ⟨_, _, _, _, _, _, hgone⟩ := copyGone_frame (s := u) (j := j) (x := x)
  have hctl : ended.st.ctl = u.ctl := by
    change (u.aborted j x).ctl = _
    rw [hframe, hgone]
  have hf : doRestoreAbort j { st := u } = f := by
    have hfind : findOpenJob u j = .ok x := findOpenJob_ok (findJob_ok hj hx) he
    rw [doRestoreAbort, hfind]
    dsimp only
    rw [abortJob_eq (s := u) hx hw (wf_vols hwf) hd, reply_eq (x := ⟨tag, 25⟩) (by exact hctl ▸ rfl)]
    rfl
  have hfjobs : f.st.jobs = tput j (x.endedAs .aborted) s.jobs := by
    change (u.aborted j x).jobs = _
    rw [hframe]
    rfl
  have hnone : ∀ p ∈ f.st.jobs, p.2.state ≠ .running ∧ p.2.state ≠ .pausedPool := by
    rw [hfjobs]
    exact aborted_jobs (wf_jobs hwf) (P := fun y => y.state ≠ .running ∧ y.state ≠ .pausedPool) ⟨nofun, nofun⟩ hjobs
  have hset : f.Settled := by
    refine ⟨fun hc => ?_, fun _ => emptyDrain_none (aborted_drains hd), nofun, fun _ _ p hp => (hnone p hp).2,
      fun _ p hp => canVisit_of_state (hnone p hp).1, nofun, nofun, nofun, fun _ _ => ?_, nofun⟩
    · have hbusy : f.st.busy = s.busy.filter fun i => i.owner != .restore j := by
        change (u.aborted j x).busy = _
        rw [hframe]
        change (u.copyGone j x).busy = _
        rw [busy_copyGone, if_pos hc]
        rfl
      rw [hbusy]
      exact hb
    · change ended.st.ctl.queue = []
      rw [hctl]
      exact h.1.2.2
  have hup : f.st.frontUp = true := by
    change (u.aborted j x).frontUp = true
    rw [hframe, hgone]
    exact h.1.1
  have hout : f.st.out = [] := by
    change (u.aborted j x).out = []
    rw [hframe, hgone]
    rfl
  have hrun : runTodo turnBound (doRestoreAbort j { st := u }) = f.sendAnswer := by
    rw [hf]
    exact runTodo_settled hset (by simp [f])
  have hexec := exec_sends h (i := .restoreAbort tag j) (r := .restoreAbort j)
    (fun _ => rfl) (fun _ hp => if_neg fun hr => hp hr.1) hrun (a := answer) rfl rfl rfl hup hout rfl rfl rfl
    (by decide : (25 : Nat) ≠ 38) (by decide : (25 : Nat) ≠ 7)
  exact ⟨_, f, hexec, ended_answered rfl .., ⟨_, _, rfl⟩, rfl, rfl, rfl, rfl, rfl, rfl⟩

end

/-- The last notice of the work up to the reply is the last one queued. -/
theorem offered_last {f : Event} {l : List Notice} {n : Notice} (h : f.notices = l ++ [n]) : ∃ d, f.offered = offer d n := by
  unfold Event.offered Verdicts.due
  have hn : f.causes.notices = l ++ [n] := h
  rw [hn, ← List.append_assoc, List.foldl_append]
  exact ⟨_, rfl⟩

theorem abort_refused {s : State} {j : Nat} (h : s.ctlServes) (tag : Nat) {code : Code} (hf : findOpenJob s j = .error code) :
    exec (.restoreAbort tag j) s = .next (s.answered 25 tag code []) := by
  refine exec_stands h (r := .restoreAbort j) (fun _ => rfl) (f := doRestoreAbort j) (fun _ hp => if_neg fun hr => hp hr.1) ?_
    nofun nofun
  have hf' : findOpenJob (s.executes ⟨tag, .restoreAbort j⟩) j = .error code := hf
  rw [doRestoreAbort, hf']
  rfl

/-- Settles O38: the refusals, and the end ABORTED with what the job gives back. -/
theorem restoreAbortEndsTheJob : Obligations.RestoreAbortEndsTheJob := by
  intro s tag j h refused
  refine ⟨fun hj => abort_refused h tag (findOpenJob_error (findJob_range s hj)),
    fun hj hx => abort_refused h tag (findOpenJob_error (findJob_notFound hj hx)), fun hj x hx => ⟨fun he =>
      abort_refused h tag (findOpenJob_ended (findJob_ok hj hx) he), fun he hw hwf hjobs hb hd _ _ _ => ?_⟩⟩
  intro source before inSlot
  obtain ⟨t, f, hexec, hend, hout, hst, hctl, haccts, hreports, hreserves, hnotices⟩ :=
    exec_abort h tag hj hx he hw hwf hjobs hb hd
  refine ⟨t, hexec, ?_⟩
  let u := s.executes ⟨tag, .restoreAbort j⟩
  obtain ⟨as, vs, hframe⟩ := aborted_frame (s := u) (j := j) (x := x)
  obtain ⟨b, vs', as', q, c', o', fi, ht⟩ := hend.frame
  rw [hst] at ht
  have htjobs : t.jobs = tput j (x.endedAs .aborted) s.jobs := by
    rw [ht]
    change (u.aborted j x).jobs = _
    rw [hframe]
    rfl
  have hacct : ∀ o, f.st.acct o = ((u.copyGone j x).unreserved x.owner x.remaining).acct o := by
    intro o
    rw [hst]
    exact acct_jobEnded (u.copyGone j x) j x .aborted o
  have howner : (t.acct x.owner).charge = (s.acct x.owner).charge - (if x.copy.isSome then 1 else 0) ∧
      (t.acct x.owner).reserved = (s.acct x.owner).reserved - x.remaining := by
    obtain ⟨hcharge, hreserved, -⟩ : (t.acct x.owner).sameMoney (f.st.acct x.owner) := by
      rw [hend.acct]
      exact evaluated_acct f _
    rw [hacct, acct_unreserved, acct_copyGone] at hcharge hreserved
    exact ⟨hcharge, hreserved⟩
  have hothers : ∀ o, o ≠ x.owner → t.acct o = s.acct o := by
    intro o ho
    have hno : o ∉ f.all.accts := by
      rw [haccts]
      exact fun hm => ho (mem_touchedBy hm)
    rw [hend.acct, evaluated_acct_ne f hno (by rw [hreports]; exact List.not_mem_nil), hacct, acct_unreserved_ne _ ho,
      acct_copyGone_ne ho]
    rfl
  have hvol : ∀ w, ∃ sn, t.vol w = { s.vol w with snaps := sn } ∧
      ∀ i, tfind sn i = (tfind (s.vol w).snaps i).map fun d => { d with
        inUse := d.inUse - (if source w i then 1 else 0) - if before w i then 1 else 0 } := by
    intro w
    obtain ⟨sn, h1, h2⟩ := vol_aborted (s := u) (j := j) (x := x) w
    refine ⟨sn, ?_, h2⟩
    rw [hend.vol, evaluated_vol_ne f (by rw [hreserves]; exact List.not_mem_nil), hst]
    exact h1
  have hpool : t.free = (u.copyGone j x).free ∧ t.claims = (u.copyGone j x).claims ∧ t.returns = (u.copyGone j x).returns := by
    rw [ht]
    change (u.aborted j x).free = _ ∧ (u.aborted j x).claims = _ ∧ (u.aborted j x).returns = _
    rw [hframe]
    exact ⟨rfl, rfl, rfl⟩
  refine ⟨⟨_, by rw [htjobs]; exact tfind_tput_same .., rfl⟩, fun i hi => ?_, howner.2, hothers, fun w => ?_, fun w i => ?_,
    fun hc => ?_, fun c hc => ?_, ?_, hout⟩
  · rw [htjobs]
    exact tfind_tput_ne _ _ _ _ hi
  · obtain ⟨sn, h1, -⟩ := hvol w
    rw [h1]
  · obtain ⟨sn, h1, h2⟩ := hvol w
    rw [h1]
    exact h2 i
  · have hgone : u.copyGone j x = u := by simp only [State.copyGone, hc]
    rw [hgone] at hpool
    have hcharge := howner.1
    rw [hc] at hcharge
    exact ⟨hpool.1, hpool.2.2, hpool.2.1, hcharge⟩
  · have hgone : u.copyGone j x = u.abandoned j x c := by simp only [State.copyGone, hc]
    have hwrites := writesCopy_iff u j c
    have hcharge := howner.1
    rw [hc] at hcharge
    rw [hgone] at hpool
    refine ⟨hcharge, fun hr => ?_, fun hwr hin => ?_⟩
    · have hnot : ¬ u.writesCopy j c = true := by
        rw [hwrites]
        rintro ⟨h1, h2⟩
        rcases hr with hr | hr
        · rw [h1] at hr
          cases hr
        · exact hr h2
      simp only [State.abandoned, if_neg hnot] at hpool
      exact hpool
    · simp only [State.abandoned, if_pos (hwrites.mpr ⟨hwr, hin⟩)] at hpool
      exact hpool
  · obtain ⟨d, hd'⟩ := offered_last (l := []) hnotices
    refine ⟨{ d with executing := none }, ?_⟩
    rw [hctl, hd']
    exact (foldl_offer_executing [_] d none).symm

end Sys2Proof.Machine
end

section
/-! PROOFS. What an event files (R83) and logs (R121), chunk by chunk. -/

namespace Sys2Proof.Machine

/-! ### Filing -/

/-- The newest snapshot of a table is the same record after a change that keeps what the choice reads. -/
theorem newestSnap_map {p : Snap → Bool} {f : Nat × Snap → Nat × Snap} (hp : ∀ q, p (f q).2 = p q.2)
    (hg : ∀ q, (f q).2.gen = q.2.gen) (t : Table Snap) : newestSnap p (t.map f) = (newestSnap p t).map f := by
  induction t using List.reverseRecOn with
  | nil => rfl
  | append_singleton t y ih =>
    rw [List.map_append, List.map_singleton, newestSnap_append, newestSnap_append, ih, hp]
    split_ifs with h
    · cases newestSnap p t with
      | none => rfl
      | some z =>
        simp only [Option.map_some, hg]
        split_ifs <;> rfl
    · rfl

/-- The displaced chunks that a snapshot takes, and those that the filing of a volume frees. -/
def Snap.takes (q : Snap) (ds : List RetEntry) : List RetEntry := ds.filter fun d => decide (d.born ≤ q.gen)

def Volume.frees (x : Volume) (g : Nat) (ds : List RetEntry) : List RetEntry :=
  match filingSnap x g with
  | none => ds
  | some p => ds.filter fun d => decide (p.2.gen < d.born)

/-- The snapshot record of a slot with displaced chunks filed in it. -/
def Volume.filesIn (x : Volume) (g : Nat) (ds : List RetEntry) (p : Nat × Snap) : Nat × Snap :=
  if (filingSnap x g).map Prod.fst = some p.1 then (p.1, { p.2 with retained := p.2.retained ++ p.2.takes ds }) else p

/-- The event has filed the displaced chunks `ds` of a volume since the state `s`, in their order, with filing generation
`g`. -/
structure FilesTo (s : State) (e : Event) (v g : Nat) (ds : List RetEntry) : Prop where
  free : e.st.free = s.free ++ ((s.vol v).frees g ds).map RetEntry.pcn
  snaps : (e.st.vol v).snaps = (s.vol v).snaps.map ((s.vol v).filesIn g ds)

theorem filesIn_gen (x : Volume) (g : Nat) (ds : List RetEntry) (p : Nat × Snap) :
    (x.filesIn g ds p).1 = p.1 ∧ (x.filesIn g ds p).2.gen = p.2.gen ∧ (x.filesIn g ds p).2.state = p.2.state := by
  unfold Volume.filesIn
  split_ifs <;> exact ⟨rfl, rfl, rfl⟩

theorem filesIn_nil (x : Volume) (g : Nat) : x.filesIn g [] = id := by
  funext p
  unfold Volume.filesIn Snap.takes
  split_ifs
  · simp
  · rfl

theorem FilesTo.refl {s : State} {e : Event} {v g : Nat} (hf : e.st.free = s.free) (hs : (e.st.vol v).snaps = (s.vol v).snaps) :
    FilesTo s e v g [] := by
  refine ⟨?_, ?_⟩
  · rw [hf, Volume.frees]
    cases filingSnap (s.vol v) g <;> simp
  · rw [hs, filesIn_nil, List.map_id]

/-- What touches neither the free FIFO nor the snapshots of the volume files nothing. -/
theorem FilesTo.of_eq {s : State} {e f : Event} {v g : Nat} {ds : List RetEntry} (h : FilesTo s e v g ds)
    (hf : f.st.free = e.st.free) (hs : (f.st.vol v).snaps = (e.st.vol v).snaps) : FilesTo s f v g ds :=
  ⟨hf.trans h.free, hs.trans h.snaps⟩

theorem filingSnap_filed (x y : Volume) (g : Nat) (ds : List RetEntry) (h : y.snaps = x.snaps.map (x.filesIn g ds)) :
    filingSnap y g = (filingSnap x g).map (x.filesIn g ds) := by
  unfold filingSnap
  rw [h]
  refine newestSnap_map (fun q => ?_) (fun q => (filesIn_gen x g ds q).2.1) _
  obtain ⟨-, h1, h2⟩ := filesIn_gen x g ds q
  rw [Snap.shares, h1, h2]
  rfl

/-- One chunk more is filed. -/
theorem FilesTo.snoc {s : State} {e : Event} {v g : Nat} {ds : List RetEntry} (h : FilesTo s e v g ds)
    (hs : Table.sorted (s.vol v).snaps = true) (lcn pcn born : Nat) :
    FilesTo s (fileDisplaced v lcn pcn born g e) v g (ds ++ [{ lcn := lcn, pcn := pcn, born := born }]) := by
  have hfiling := filingSnap_filed (s.vol v) (e.st.vol v) g ds h.snaps
  unfold fileDisplaced
  rw [hfiling]
  cases hq : filingSnap (s.vol v) g with
  | none =>
    refine ⟨?_, ?_⟩
    · change (freePcns [pcn] e).st.free = _
      rw [freePcns_st]
      change e.st.free ++ [pcn] = _
      rw [h.free]
      simp [Volume.frees, hq]
    · change ((freePcns [pcn] e).st.vol v).snaps = _
      rw [freePcns_st]
      change (e.st.vol v).snaps = _
      rw [h.snaps]
      refine List.map_congr_left fun p _ => ?_
      simp [Volume.filesIn, hq]
  | some p =>
    obtain ⟨slot, q⟩ := p
    have hmem : (slot, q) ∈ (s.vol v).snaps := (newestSnap_some hq).1
    have hin : (s.vol v).filesIn g ds (slot, q) = (slot, { q with retained := q.retained ++ q.takes ds }) := by
      simp [Volume.filesIn, hq]
    simp only [Option.map_some, hin]
    split_ifs with hb
    · refine ⟨?_, ?_⟩
      · change e.st.free = _
        rw [h.free]
        simp [Volume.frees, hq, hb]
      · unfold Event.touchReserve
        dsimp only
        rw [updVol_st_vol]
        change tput slot _ (e.st.vol v).snaps = _
        have hsorted : Table.sorted (e.st.vol v).snaps = true := by
          rw [h.snaps]
          exact sorted_map_keys (fun r => (filesIn_gen _ g ds r).1) hs
        have hfind : tfind (e.st.vol v).snaps slot = some { q with retained := q.retained ++ q.takes ds } := by
          rw [h.snaps, tfind_map_keys (fun r => (filesIn_gen _ g ds r).1), tfind_of_mem hs hmem, Option.map_some, hin]
        rw [tput_eq_map hsorted hfind, h.snaps, List.map_map]
        refine List.map_congr_left fun r hr => ?_
        have hkey := (filesIn_gen (s.vol v) g ds r).1
        simp only [Function.comp_apply, hkey]
        by_cases hr1 : r.1 = slot
        · obtain rfl : r = (slot, q) := Prod.ext hr1 (by
            have h1 := tfind_of_mem hs hr
            rw [hr1, tfind_of_mem hs hmem] at h1
            exact (Option.some.inj h1).symm)
          simp [Volume.filesIn, hq, Snap.takes, hb]
        · rw [if_neg hr1]
          simp [Volume.filesIn, hq, Ne.symm hr1]
    · refine ⟨?_, ?_⟩
      · rw [freePcns_st]
        change e.st.free ++ [pcn] = _
        rw [h.free]
        simp [Volume.frees, hq, not_le.mp hb]
      · rw [freePcns_st]
        change (e.st.vol v).snaps = _
        rw [h.snaps]
        refine List.map_congr_left fun r hr => ?_
        unfold Volume.filesIn
        split_ifs with hk
        · have hr1 : r.1 = slot := by
            rw [hq] at hk
            exact (Option.some.inj hk).symm
          obtain rfl : r = (slot, q) := Prod.ext hr1 (by
            have h1 := tfind_of_mem hs hr
            rw [hr1, tfind_of_mem hs hmem] at h1
            exact (Option.some.inj h1).symm)
          simp [Snap.takes, hb]
        · rfl

/-- What is filed, in the words of the statements. -/
theorem FilesTo.filed {s t : State} {e : Event} {v g : Nat} {ds : List RetEntry} (h : FilesTo s e v g ds)
    (hwf : s.wf = true) (hgen : (s.vol v).genLaw) (hf : t.free = e.st.free)
    (hk : ∀ i, (tfind (t.vol v).snaps i).map Snap.retained = (tfind (e.st.vol v).snaps i).map Snap.retained) :
    Filed s t v g ds := by
  have hs : Table.sorted (s.vol v).snaps = true := ((Volume.wf_iff _).mp (State.wf_vol hwf v)).2
  have hnodup := ((genLaw_iff _).mp hgen).1
  have htakes : ∀ q : Snap, (q.shares && decide (q.gen ≤ g)) = true ↔ q.state ≠ .deleting ∧ q.gen ≤ g := by
    intro q
    simp [Snap.shares]
  have hkept : ∀ i, (tfind (t.vol v).snaps i).map Snap.retained =
      (tfind (s.vol v).snaps i).map fun q => ((s.vol v).filesIn g ds (i, q)).2.retained := by
    intro i
    rw [hk, h.snaps, tfind_map_keys (fun r => (filesIn_gen _ g ds r).1), Option.map_map]
    rfl
  unfold Filed
  intro kept takes snaps
  refine ⟨fun hno => ?_, fun p hp htp hmax => ?_⟩
  · have hq : filingSnap (s.vol v) g = none := by
      cases hq : filingSnap (s.vol v) g with
      | none => rfl
      | some p => exact absurd ((htakes p.2).mp (newestSnap_some hq).2.1) (hno p (newestSnap_some hq).1)
    refine ⟨by rw [hf, h.free, Volume.frees, hq], fun i => (hkept i).trans ?_⟩
    simp only [Volume.filesIn, hq, Option.map_none, reduceCtorEq, if_false]
    rfl
  · obtain ⟨q, hq⟩ : ∃ q, filingSnap (s.vol v) g = some q := by
      cases hq : filingSnap (s.vol v) g with
      | some q => exact ⟨q, rfl⟩
      | none =>
        have h1 := newestSnap_none hq p hp
        rw [Bool.eq_false_iff] at h1
        exact absurd ((htakes p.2).mpr htp) h1
    obtain ⟨hqmem, hqtakes, hqmax⟩ := newestSnap_some hq
    have hpq : q = p := List.inj_on_of_nodup_map hnodup hqmem hp
      (le_antisymm (hmax q hqmem ((htakes q.2).mp hqtakes)) (hqmax p hp ((htakes p.2).mpr htp)))
    rw [hpq] at hq
    refine ⟨by rw [hf, h.free, Volume.frees, hq], ?_, fun i hi => (hkept i).trans ?_⟩
    · refine (hkept p.1).trans ?_
      rw [tfind_of_mem hs hp]
      simp [Volume.filesIn, hq, Snap.takes]
    · simp only [Volume.filesIn, hq, Option.map_some, Option.some.injEq, if_neg (Ne.symm hi)]
      rfl

/-! ### Logging -/

/-- The LCNs that the log takes up, and those for which the active list has room. -/
def Volume.logNew (x : Volume) (ls : List Nat) : List Nat :=
  if x.offsite then ls.filter fun c => (x.entry c).stamp != some x.runCounter else []

def Volume.logTaken (x : Volume) (ls : List Nat) : List Nat := (x.logNew ls).take (x.cap - x.activeList.length)

/-- The event has logged the LCNs `ls` of a volume since the state `s`, in their order. -/
structure LogsTo (s : State) (e : Event) (v : Nat) (ls : List Nat) : Prop where
  same : (e.st.vol v).offsite = (s.vol v).offsite ∧ (e.st.vol v).cap = (s.vol v).cap ∧
    (e.st.vol v).runCounter = (s.vol v).runCounter ∧ e.st.sched = s.sched
  active : (e.st.vol v).activeList = (s.vol v).activeList ++ (s.vol v).logTaken ls
  stamp : ∀ c, ((e.st.vol v).entry c).stamp =
    if c ∈ (s.vol v).logTaken ls then some (s.vol v).runCounter else ((s.vol v).entry c).stamp
  full : ((s.vol v).logTaken ls).length < ((s.vol v).logNew ls).length →
    (e.st.vol v).activeIncomplete = true ∧ (e.st.vol v).overflow = true ∧
      ((s.vol v).overflow = false → s.notice .changeListOverflow v (s.vol v).cap (s.vol v).runCounter ∈ e.overflowNotices)
  room : ¬ ((s.vol v).logTaken ls).length < ((s.vol v).logNew ls).length →
    (e.st.vol v).activeIncomplete = (s.vol v).activeIncomplete ∧ (e.st.vol v).overflow = (s.vol v).overflow

theorem logTaken_subset {x : Volume} {ls : List Nat} {c : Nat} (h : c ∈ x.logTaken ls) : c ∈ ls := by
  have h1 : c ∈ x.logNew ls := List.mem_of_mem_take h
  unfold Volume.logNew at h1
  split_ifs at h1
  · exact (List.mem_filter.mp h1).1
  · cases h1

/-- What leaves the lists, the stamps and the flags of the volume as they stand logs nothing. -/
theorem LogsTo.of_eq {s : State} {e f : Event} {v : Nat} {ls : List Nat} (h : LogsTo s e v ls) (hs : f.st.sched = e.st.sched)
    (hn : f.overflowNotices = e.overflowNotices) (hstamp : ∀ c, ((f.st.vol v).entry c).stamp = ((e.st.vol v).entry c).stamp)
    (hv : ∃ m sn, ({ f.st.vol v with map := m, snaps := sn } : Volume) = { e.st.vol v with map := m, snaps := sn }) :
    LogsTo s f v ls := by
  obtain ⟨m, sn, hv⟩ := hv
  have field : ∀ {β : Type} (g : Volume → β), (∀ x : Volume, g { x with map := m, snaps := sn } = g x) →
      g (f.st.vol v) = g (e.st.vol v) := by
    intro β g hg
    rw [← hg, hv, hg]
  obtain ⟨⟨h1, h2, h3, h4⟩, h5, h6, h7, h8⟩ := h
  refine ⟨⟨?_, ?_, ?_, hs.trans h4⟩, ?_, fun c => (hstamp c).trans (h6 c), ?_, ?_⟩
  · rw [field Volume.offsite fun _ => rfl, h1]
  · rw [field Volume.cap fun _ => rfl, h2]
  · rw [field Volume.runCounter fun _ => rfl, h3]
  · rw [field Volume.activeList fun _ => rfl, h5]
  · rw [field Volume.activeIncomplete fun _ => rfl, field Volume.overflow fun _ => rfl, hn]
    exact h7
  · rw [field Volume.activeIncomplete fun _ => rfl, field Volume.overflow fun _ => rfl]
    exact h8

theorem LogsTo.refl {s : State} {e : Event} {v : Nat} (hs : e.st.sched = s.sched) (hv : e.st.vol v = s.vol v) :
    LogsTo s e v [] := by
  have hnew : (s.vol v).logNew [] = [] := by simp [Volume.logNew]
  have htaken : (s.vol v).logTaken [] = [] := by simp [Volume.logTaken, hnew]
  refine ⟨by simp [hs, hv], by simp [hv, htaken], fun c => by simp [hv, htaken], ?_, fun _ => by simp [hv]⟩
  rw [hnew, htaken]
  exact fun h => absurd h (lt_irrefl _)

/-- One LCN more is logged. -/
theorem LogsTo.snoc {s : State} {e : Event} {v : Nat} {ls : List Nat} (h : LogsTo s e v ls) {c : Nat} (hc : c ∉ ls) :
    LogsTo s (logLcn v c e) v (ls ++ [c]) := by
  obtain ⟨⟨h1, h2, h3, h4⟩, h5, h6, h7, h8⟩ := h
  have hstamp : ((e.st.vol v).entry c).stamp = ((s.vol v).entry c).stamp := by
    rw [h6, if_neg fun hm => hc (logTaken_subset hm)]
  have hstands : (s.vol v).logNew (ls ++ [c]) = (s.vol v).logNew ls → LogsTo s e v (ls ++ [c]) := by
    intro hn
    have ht : (s.vol v).logTaken (ls ++ [c]) = (s.vol v).logTaken ls := by rw [Volume.logTaken, hn]; rfl
    exact ⟨⟨h1, h2, h3, h4⟩, by rw [ht]; exact h5, by rw [ht]; exact h6, by rw [ht, hn]; exact h7, by rw [ht, hn]; exact h8⟩
  unfold logLcn
  dsimp only
  by_cases ho : (e.st.vol v).offsite = true
  swap
  · rw [if_pos ho]
    refine hstands ?_
    rw [h1] at ho
    simp [Volume.logNew, ho]
  rw [if_neg (not_not.mpr ho)]
  have ho' : (s.vol v).offsite = true := h1 ▸ ho
  by_cases hst : ((e.st.vol v).entry c).stamp = some (e.st.vol v).runCounter
  · rw [if_pos hst]
    refine hstands ?_
    rw [hstamp, h3] at hst
    simp [Volume.logNew, ho', List.filter_append, hst]
  rw [if_neg hst]
  have hnew : (s.vol v).logNew (ls ++ [c]) = (s.vol v).logNew ls ++ [c] := by
    rw [hstamp, h3] at hst
    simp [Volume.logNew, ho', List.filter_append, hst]
  have htlen : ((s.vol v).logTaken ls).length =
      min ((s.vol v).cap - (s.vol v).activeList.length) ((s.vol v).logNew ls).length := List.length_take ..
  have hlen : (e.st.vol v).activeList.length = (s.vol v).activeList.length + ((s.vol v).logTaken ls).length := by
    rw [h5, List.length_append]
  by_cases hroom : (e.st.vol v).activeList.length < (e.st.vol v).cap
  · rw [if_pos hroom]
    rw [hlen, h2] at hroom
    have hall : (s.vol v).logTaken ls = (s.vol v).logNew ls := List.take_of_length_le (by omega)
    have hall' : (s.vol v).logTaken (ls ++ [c]) = (s.vol v).logNew ls ++ [c] := by
      rw [Volume.logTaken, hnew]
      refine List.take_of_length_le ?_
      rw [hall] at hroom
      rw [List.length_append, List.length_singleton]
      omega
    have hnot : ¬ ((s.vol v).logTaken ls).length < ((s.vol v).logNew ls).length := by rw [hall]; exact lt_irrefl _
    obtain ⟨h9, h10⟩ := h8 hnot
    refine ⟨?_, ?_, fun k => ?_, ?_, fun _ => ?_⟩
    · rw [updVol_st_vol]
      exact ⟨h1, h2, h3, h4⟩
    · rw [updVol_st_vol, hall']
      change (e.st.vol v).activeList ++ [c] = _
      rw [h5, hall, List.append_assoc]
    · rw [updVol_st_vol, hall']
      change (((e.st.vol v).setEntry c { (e.st.vol v).entry c with stamp := some (e.st.vol v).runCounter }).entry k).stamp = _
      unfold Volume.setEntry
      change (tget MapEntry.fresh (tset MapEntry.fresh c _ (e.st.vol v).map) k).stamp = _
      by_cases hk : k = c
      · rw [hk, tget_tset_same, if_pos (by simp), h3]
      · rw [tget_tset_ne _ _ _ _ _ hk]
        refine (h6 k).trans ?_
        rw [hall]
        simp [hk]
    · rw [hnew, hall']
      exact fun hlt => absurd hlt (by simp)
    · rw [updVol_st_vol]
      exact ⟨h9, h10⟩
  · rw [if_neg hroom]
    rw [hlen, h2] at hroom
    have htaken : (s.vol v).logTaken (ls ++ [c]) = (s.vol v).logTaken ls := by
      rw [Volume.logTaken, hnew, Volume.logTaken]
      rw [List.take_append_of_le_length (by omega)]
    have hlt : ((s.vol v).logTaken (ls ++ [c])).length < ((s.vol v).logNew (ls ++ [c])).length := by
      rw [htaken, hnew, List.length_append, List.length_singleton]
      omega
    let e' := e.updVol v fun y => { y with activeIncomplete := true, overflow := true }
    have hvol : e'.st.vol v = { e.st.vol v with activeIncomplete := true, overflow := true } := updVol_st_vol ..
    have key : ∀ f : Event, f.st = e'.st → ((s.vol v).overflow = false →
        s.notice .changeListOverflow v (s.vol v).cap (s.vol v).runCounter ∈ f.overflowNotices) → LogsTo s f v (ls ++ [c]) := by
      intro f hf hn
      refine ⟨?_, ?_, fun k => ?_, fun _ => ?_, fun hno => absurd hlt hno⟩
      · rw [hf, hvol]
        exact ⟨h1, h2, h3, h4⟩
      · rw [hf, hvol, htaken]
        exact h5
      · rw [hf, hvol, htaken]
        exact h6 k
      · rw [hf, hvol]
        exact ⟨rfl, rfl, hn⟩
    split_ifs with hov
    · refine key e' rfl fun hx => ?_
      by_cases hbefore : ((s.vol v).logTaken ls).length < ((s.vol v).logNew ls).length
      · exact (h7 hbefore).2.2 hx
      · rw [(h8 hbefore).2, hx] at hov
        cases hov
    · refine key _ rfl fun _ => ?_
      have hnotice : e'.st.notice .changeListOverflow v (e.st.vol v).cap (e.st.vol v).runCounter =
          s.notice .changeListOverflow v (s.vol v).cap (s.vol v).runCounter := by
        have hsched : e'.st.sched = s.sched := h4
        simp only [State.notice, State.stamp, hsched, h2, h3]
      change _ ∈ e'.overflowNotices ++ [e'.st.notice .changeListOverflow v (e.st.vol v).cap (e.st.vol v).runCounter]
      rw [hnotice]
      exact List.mem_append_right _ (List.mem_singleton_self _)

/-- What is logged, in the words of the statements. -/
theorem LogsTo.logged {s t : State} {e : Event} {v : Nat} {ls : List Nat} (h : LogsTo s e v ls)
    (hv : ∃ m sn b, t.vol v = { e.st.vol v with map := m, snaps := sn, reserveOver := b })
    (hstamp : ∀ c, ((t.vol v).entry c).stamp = ((e.st.vol v).entry c).stamp)
    (hn : t.ctl.lost = false → ∀ n ∈ e.overflowNotices, n ∈ t.ctl.notices) : Logged s t v ls := by
  obtain ⟨m, sn, b, hv⟩ := hv
  obtain ⟨-, h5, h6, h7, h8⟩ := h
  unfold Logged
  intro x y new taken
  have hy : y.activeList = (e.st.vol v).activeList ∧ y.activeIncomplete = (e.st.vol v).activeIncomplete ∧
      y.overflow = (e.st.vol v).overflow := by
    change (t.vol v).activeList = _ ∧ (t.vol v).activeIncomplete = _ ∧ (t.vol v).overflow = _
    rw [hv]
    exact ⟨rfl, rfl, rfl⟩
  refine ⟨hy.1.trans h5, fun c => (hstamp c).trans (h6 c), ?_⟩
  rw [hy.2.1, hy.2.2]
  by_cases hlt : taken.length < new.length
  · rw [if_pos hlt]
    obtain ⟨h9, h10, h11⟩ := h7 hlt
    exact ⟨h9, h10, fun hx hl => hn hl _ (h11 hx)⟩
  · rw [if_neg hlt]
    exact h8 hlt

end Sys2Proof.Machine
end

section
/-! PROOFS. Work on the chunks of one volume: mapping, unmapping, filing, logging, claims and charges (R15, R34, R54, R83,
R121), and what it leaves unchanged. -/

namespace Sys2Proof.Machine

/-- The event `f` is `e` after work on chunks of the volume `v`: its map, snapshots and active list, the accounts, the free
FIFO and the claims may have changed, and nothing else. -/
structure Works (v : Nat) (e f : Event) : Prop where
  frame : ∃ vs as fr cl ac pt pl rs on, f = { e with
    st := { e.st with vols := vs, accounts := as, free := fr, claims := cl }
    accts := ac, poolTouched := pt, todo := { e.todo with pool := pl }, reserves := rs, overflowNotices := on }
  other : ∀ w, w ≠ v → f.st.vol w = e.st.vol w
  own : ∃ m sn al ai ov, f.st.vol v =
    { e.st.vol v with map := m, snaps := sn, activeList := al, activeIncomplete := ai, overflow := ov }
  reserves : ∀ w ∈ f.reserves, w ∈ e.reserves ∨ w = v
  vols : Table.wf Volume.absent e.st.vols = true → Table.wf Volume.absent f.st.vols = true
  drains : (∀ p ∈ e.st.vols, p.2.drain = none) → ∀ p ∈ f.st.vols, p.2.drain = none

theorem Works.refl (v : Nat) (e : Event) : Works v e e :=
  ⟨⟨_, _, _, _, _, _, _, _, _, rfl⟩, fun _ _ => rfl, ⟨_, _, _, _, _, rfl⟩, fun _ h => .inl h, id, id⟩

theorem Works.trans {v : Nat} {e f g : Event} (h : Works v e f) (h' : Works v f g) : Works v e g := by
  obtain ⟨⟨vs, as, fr, cl, ac, pt, pl, rs, on, hf⟩, ho, ⟨m, sn, al, ai, ov, hv⟩, hr, hw, hd⟩ := h
  obtain ⟨⟨vs', as', fr', cl', ac', pt', pl', rs', on', hf'⟩, ho', ⟨m', sn', al', ai', ov', hv'⟩, hr', hw', hd'⟩ := h'
  refine ⟨⟨vs', as', fr', cl', ac', pt', pl', rs', on', by rw [hf', hf]⟩, fun w hne => (ho' w hne).trans (ho w hne),
    ⟨m', sn', al', ai', ov', by rw [hv', hv]⟩, fun w hm => ?_, hw' ∘ hw, hd' ∘ hd⟩
  rcases hr' w hm with hm | rfl
  · exact hr w hm
  · exact .inr rfl

/-- Work that leaves the volumes as they stand. -/
theorem Works.ofRest {v : Nat} {e f : Event} (h : ∃ as fr cl ac pt pl, f = { e with
    st := { e.st with accounts := as, free := fr, claims := cl }
    accts := ac, poolTouched := pt, todo := { e.todo with pool := pl } }) : Works v e f := by
  obtain ⟨as, fr, cl, ac, pt, pl, rfl⟩ := h
  exact ⟨⟨_, _, _, _, _, _, _, _, _, rfl⟩, fun _ _ => rfl, ⟨_, _, _, _, _, rfl⟩, fun _ h => .inl h, id, id⟩

/-- A change of the volume's record alone. -/
theorem Works.ofVol {v : Nat} {e : Event} {y : Volume} (rs : List Nat) (on : List Notice)
    (hy : ∃ m sn al ai ov, y = { e.st.vol v with map := m, snaps := sn, activeList := al, activeIncomplete := ai, overflow := ov })
    (hr : ∀ w ∈ rs, w ∈ e.reserves ∨ w = v) :
    Works v e { e with st := e.st.setVol v y, reserves := rs, overflowNotices := on } := by
  refine ⟨⟨_, _, _, _, _, _, _, _, _, rfl⟩, fun w hw => State.vol_setVol_ne _ _ _ _ hw, ?_, hr, fun h => wf_tset _ _ h,
    fun h => ?_⟩
  · obtain ⟨m, sn, al, ai, ov, hy⟩ := hy
    exact ⟨m, sn, al, ai, ov, (State.vol_setVol ..).trans hy⟩
  · refine forall_tset (Q := fun x : Volume => x.drain = none) h ?_
    obtain ⟨m, sn, al, ai, ov, rfl⟩ := hy
    exact tget_of_forall (Q := fun x : Volume => x.drain = none) (d := Volume.absent) rfl h v

section
variable {v : Nat} (e : Event)

theorem works_freePcns (ps : List Nat) : Works v e (freePcns ps e) := by
  unfold freePcns
  split_ifs
  · exact .refl _ _
  · exact .ofRest ⟨_, _, _, _, _, _, rfl⟩

theorem works_returnClaims (ps : List Nat) : Works v e (returnClaims ps e) :=
  (Works.ofRest ⟨_, _, _, _, _, _, rfl⟩ : Works v e (e.upd fun s => { s with claims := s.claims - ps.length })).trans
    (works_freePcns _ ps)

theorem works_commitClaims (n : Nat) : Works v e (commitClaims n e) := .ofRest ⟨_, _, _, _, _, _, rfl⟩

theorem works_claimPcns (n : Nat) : Works v e (claimPcns n e).2 := by
  unfold claimPcns
  split_ifs
  · exact .refl _ _
  · exact .ofRest ⟨_, _, _, _, _, _, rfl⟩

theorem works_applyCharges (sign : Int) (l : List (Nat × Int)) : Works v e (applyCharges sign l e) := by
  induction l generalizing e with
  | nil => exact .refl _ _
  | cons p l ih =>
    obtain ⟨o, d⟩ := p
    unfold applyCharges
    refine Works.trans ?_ (ih _)
    split_ifs
    · exact .refl _ _
    · rw [touchAcct_eq]
      exact .ofRest ⟨_, _, _, _, _, _, rfl⟩

theorem works_uncharge (o : Nat) : Works v e (uncharge o e) := works_applyCharges _ _ _

theorem works_mapEntry (lcn pcn owner : Nat) : Works v e (mapEntry v lcn pcn owner e) :=
  .ofVol _ _ ⟨_, _, _, _, _, rfl⟩ fun _ h => .inl h

theorem works_unmapEntry (lcn : Nat) : Works v e (unmapEntry v lcn e) :=
  .ofVol _ _ ⟨_, _, _, _, _, rfl⟩ fun _ h => .inl h

theorem works_fileDisplaced (lcn pcn born g : Nat) : Works v e (fileDisplaced v lcn pcn born g e) := by
  unfold fileDisplaced
  split
  · split_ifs
    · exact .ofVol _ _ ⟨_, _, _, _, _, rfl⟩ fun w h => (mem_insertAsc.mp h).symm
    · exact works_freePcns _ _
  · exact works_freePcns _ _

/-- The volume with an LCN logged, and with the list's overflow noted. -/
def Volume.logs (x : Volume) (lcn : Nat) : Volume :=
  { x.setEntry lcn { x.entry lcn with stamp := some x.runCounter } with activeList := x.activeList ++ [lcn] }

def Volume.overflows (x : Volume) : Volume := { x with activeIncomplete := true, overflow := true }

/-- What the log of an LCN does: nothing, or the LCN joins the active list, or the list overflows. -/
theorem logLcn_cases (v lcn : Nat) (e : Event) : logLcn v lcn e = e ∨
    logLcn v lcn e = e.updVol v (fun y => y.logs lcn) ∨
    ∃ on, logLcn v lcn e = { e.updVol v Volume.overflows with overflowNotices := on } := by
  unfold logLcn
  dsimp only
  by_cases h1 : (e.st.vol v).offsite = true
  · rw [if_neg (not_not.mpr h1)]
    split_ifs
    · exact .inl rfl
    · exact .inr (.inl rfl)
    · exact .inr (.inr ⟨_, rfl⟩)
    · exact .inr (.inr ⟨_, rfl⟩)
  · rw [if_pos h1]
    exact .inl rfl

theorem works_logLcn (lcn : Nat) : Works v e (logLcn v lcn e) := by
  rcases logLcn_cases v lcn e with h | h | ⟨on, h⟩
  · rw [h]
    exact .refl _ _
  · rw [h]
    exact .ofVol _ _ ⟨_, _, _, _, _, rfl⟩ fun _ h => .inl h
  · rw [h]
    exact .ofVol _ _ ⟨_, _, _, _, _, rfl⟩ fun _ h => .inl h

theorem works_logLcns (ls : List Nat) : Works v e (logLcns v ls e) := by
  unfold logLcns
  induction ls generalizing e with
  | nil => exact .refl _ _
  | cons c ls ih => exact (works_logLcn e c).trans (ih _)

theorem works_displace (lcn g : Nat) (old : MapEntry) : Works v e (displace v lcn g old e) := by
  unfold displace
  split
  · exact (works_uncharge e _).trans (works_fileDisplaced _ _ _ _ _)
  · exact .refl _ _

theorem works_clearChunk (lcn : Nat) : Works v e (clearChunk v lcn e) :=
  ((works_unmapEntry e lcn).trans (works_displace _ _ _ _)).trans (works_logLcn _ _)

end

/-! ### The forms of the entries -/

theorem entry_setForm (x : Volume) (lcn l : Nat) (f : Form) :
    (x.setForm lcn f).entry l = if l = lcn then { x.entry lcn with form := f } else x.entry l := by
  split_ifs with h
  · rw [h]
    exact tget_tset_same ..
  · exact tget_tset_ne _ _ _ _ _ h

theorem stamp_setForm (x : Volume) (lcn l : Nat) (f : Form) : ((x.setForm lcn f).entry l).stamp = (x.entry l).stamp := by
  rw [entry_setForm]
  split_ifs with h
  · rw [h]
  · rfl

theorem form_setForm (x : Volume) (lcn l : Nat) (f : Form) :
    ((x.setForm lcn f).entry l).form = if l = lcn then f else (x.entry l).form := by
  rw [entry_setForm]
  split_ifs <;> rfl

/-- Filing, freeing, claims and charges do not touch the map. -/
theorem map_fileDisplaced (v lcn pcn born g w : Nat) (e : Event) :
    ((fileDisplaced v lcn pcn born g e).st.vol w).map = (e.st.vol w).map := by
  unfold fileDisplaced
  have hfree : ((freePcns [pcn] e).st.vol w).map = (e.st.vol w).map := by
    rw [freePcns_st]
    rfl
  split
  · split_ifs
    · unfold Event.touchReserve
      by_cases h : w = v
      · subst h
        dsimp only
        rw [updVol_st_vol]
        rfl
      · exact congrArg Volume.map (State.vol_setVol_ne _ _ _ _ h)
    · exact hfree
  · exact hfree

theorem form_logLcn (v lcn w l : Nat) (e : Event) :
    (((logLcn v lcn e).st.vol w).entry l).form = ((e.st.vol w).entry l).form := by
  have hother : ∀ f : Volume → Volume, w ≠ v → (((e.updVol v f).st.vol w).entry l).form = ((e.st.vol w).entry l).form :=
    fun f h => congrArg (fun x : Volume => (x.entry l).form) (State.vol_setVol_ne _ _ _ _ h)
  by_cases hw : w = v
  · subst hw
    rcases logLcn_cases w lcn e with h | h | ⟨on, h⟩
    · rw [h]
    · rw [h, updVol_st_vol]
      change (tget MapEntry.fresh (tset MapEntry.fresh lcn _ (e.st.vol w).map) l).form = _
      by_cases hl : l = lcn
      · rw [hl, tget_tset_same]
      · rw [tget_tset_ne _ _ _ _ _ hl]
        rfl
    · rw [h]
      dsimp only
      rw [updVol_st_vol]
      rfl
  · rcases logLcn_cases v lcn e with h | h | ⟨on, h⟩
    · rw [h]
    · rw [h]
      exact hother _ hw
    · rw [h]
      exact hother _ hw

/-! ### What the steps of the work leave of what has been filed and logged -/

theorem FilesTo.unmap {s : State} {e : Event} {v g : Nat} {ds : List RetEntry} (h : FilesTo s e v g ds) (lcn : Nat) :
    FilesTo s (unmapEntry v lcn e) v g ds :=
  h.of_eq rfl ((congrArg Volume.snaps (updVol_st_vol ..)).trans rfl)

theorem FilesTo.maps {s : State} {e : Event} {v g : Nat} {ds : List RetEntry} (h : FilesTo s e v g ds) (lcn pcn owner : Nat) :
    FilesTo s (mapEntry v lcn pcn owner e) v g ds :=
  h.of_eq rfl ((congrArg Volume.snaps (updVol_st_vol ..)).trans rfl)

theorem FilesTo.logs {s : State} {e : Event} {v g : Nat} {ds : List RetEntry} (h : FilesTo s e v g ds) (lcn : Nat) :
    FilesTo s (logLcn v lcn e) v g ds := by
  rcases logLcn_cases v lcn e with hl | hl | ⟨on, hl⟩
  · rw [hl]
    exact h
  · rw [hl]
    exact h.of_eq rfl ((congrArg Volume.snaps (updVol_st_vol ..)).trans rfl)
  · rw [hl]
    exact h.of_eq rfl ((congrArg Volume.snaps (updVol_st_vol ..)).trans rfl)

theorem LogsTo.of_st {s : State} {e f : Event} {v : Nat} {ls : List Nat} (h : LogsTo s e v ls) (hs : f.st.sched = e.st.sched)
    (hn : f.overflowNotices = e.overflowNotices) (hv : f.st.vol v = e.st.vol v) : LogsTo s f v ls :=
  h.of_eq hs hn (fun c => by rw [hv]) ⟨[], [], by rw [hv]⟩

theorem LogsTo.unmap {s : State} {e : Event} {v : Nat} {ls : List Nat} (h : LogsTo s e v ls) (lcn : Nat) :
    LogsTo s (unmapEntry v lcn e) v ls := by
  have hv : (unmapEntry v lcn e).st.vol v = (e.st.vol v).setForm lcn (.unmapped (e.st.vol v).gen) := updVol_st_vol ..
  exact h.of_eq rfl rfl (fun c => by rw [hv, stamp_setForm]) ⟨[], [], by rw [hv]; rfl⟩

theorem LogsTo.maps {s : State} {e : Event} {v : Nat} {ls : List Nat} (h : LogsTo s e v ls) (lcn pcn owner : Nat) :
    LogsTo s (mapEntry v lcn pcn owner e) v ls := by
  have hv : (mapEntry v lcn pcn owner e).st.vol v = (e.st.vol v).setForm lcn (.mapped pcn (e.st.vol v).gen owner) :=
    updVol_st_vol ..
  exact h.of_eq rfl rfl (fun c => by rw [hv, stamp_setForm]) ⟨[], [], by rw [hv]; rfl⟩

theorem LogsTo.files {s : State} {e : Event} {v : Nat} {ls : List Nat} (h : LogsTo s e v ls) (lcn pcn born g : Nat) :
    LogsTo s (fileDisplaced v lcn pcn born g e) v ls := by
  have hfree : LogsTo s (freePcns [pcn] e) v ls :=
    h.of_st (by rw [freePcns_st]) rfl (by rw [freePcns_st]; rfl)
  unfold fileDisplaced
  split
  · split_ifs
    · have hv : ∀ q : Snap, ∀ slot, ((e.updVol v fun x => x.setSnap slot q).touchReserve v).st.vol v = (e.st.vol v).setSnap slot q :=
        fun q slot => updVol_st_vol e v fun x => x.setSnap slot q
      exact h.of_eq rfl rfl (fun c => by rw [hv]; rfl) ⟨[], [], by rw [hv]; rfl⟩
    · exact hfree
  · exact hfree

theorem FilesTo.uncharge {s : State} {e : Event} {v g : Nat} {ds : List RetEntry} (h : FilesTo s e v g ds) (o : Nat) :
    FilesTo s (Machine.uncharge o e) v g ds := by
  rw [uncharge_eq]
  exact h.of_eq rfl rfl

theorem LogsTo.uncharge {s : State} {e : Event} {v : Nat} {ls : List Nat} (h : LogsTo s e v ls) (o : Nat) :
    LogsTo s (Machine.uncharge o e) v ls := by
  rw [uncharge_eq]
  exact h.of_st rfl rfl rfl

end Sys2Proof.Machine
end

section
/-! PROOFS. The first visit of a resumed job, turn by turn (R105 to R108, R112). -/

namespace Sys2Proof.Machine

/-! ### Turns -/

/-- Items behind a busy set in which none may proceed are tested against all of it. -/
theorem firstProceed_append {earlier l : List BusyItem} (m : List BusyItem) (h : firstProceed earlier l = none) :
    firstProceed earlier (l ++ m) = firstProceed (earlier ++ l) m := by
  induction l generalizing earlier with
  | nil => simp
  | cons i l ih =>
    rw [List.cons_append, firstProceed]
    rw [firstProceed] at h
    split_ifs at h ⊢
    rw [ih h, List.append_assoc, List.singleton_append]

/-- The work before the turn of the jobs finds nothing to do. -/
theorem ends_toJobs {k : Nat} {e r : Event} (ho : e.todo.occupancy = false) (hj : e.todo.jobs = true)
    (hb : e.todo.retest = true → firstProceed [] e.st.busy = none) (hd : e.todo.drains = true → emptyDrain e.st = none)
    (hp : e.todo.pool = true → ∀ p ∈ e.st.jobs, p.2.state ≠ .pausedPool)
    (h : Ends k { e with todo := { e.todo with retest := false, drains := false, pool := false } } r) : Ends (k + 3) e r := by
  obtain ⟨⟨b, d, o, p, j, l, en, po, ao, c, g⟩, ht⟩ : ∃ t, e.todo = t := ⟨_, rfl⟩
  have he : e = { e with todo := ⟨b, d, o, p, j, l, en, po, ao, c, g⟩ } := by rw [← ht]
  rw [ht] at ho hj hb hd hp h
  dsimp only at ho hj hb hd hp h
  subst ho hj
  rw [he]
  refine ends_clears (f := fun b => { e with todo := ⟨b, d, false, p, true, l, en, po, ao, c, g⟩ }) (fun hr => ?_) ?_
  · change some (retestTurn _) = _
    rw [retestTurn_none (by exact hb hr)]
  refine ends_clears (f := fun d => { e with todo := ⟨false, d, false, p, true, l, en, po, ao, c, g⟩ }) (fun hr => ?_) ?_
  · change some (drainTurn _) = _
    rw [drainTurn_none (by exact hd hr)]
  refine ends_clears (f := fun p => { e with todo := ⟨false, false, false, p, true, l, en, po, ao, c, g⟩ }) (fun hr => ?_) h
  change some (resumePool _) = _
  rcases resumePool_none (e := { e with todo := ⟨false, false, false, false, true, l, en, po, ao, c, g⟩ })
    (fun _ => hp hr) with h1 | h1
  · rw [h1]
  · rw [h1]
    rfl

/-- The one job of a table that can begin a visit is the one whose visit begins. -/
theorem find_visit {s : State} {j : Nat} {x : Job} {t : Table Job} (hs : Table.sorted t = true) (hx : canVisit s x = true)
    (h : ∀ p ∈ t, p.1 ≠ j → canVisit s p.2 = false) :
    ((tput j x t).find? fun p => canVisit s p.2) = some (j, x) := by
  have hmem : (j, x) ∈ tput j x t := mem_of_tfind (tfind_tput_same j x t)
  obtain ⟨q, hq⟩ : ∃ q, ((tput j x t).find? fun p => canVisit s p.2) = some q := by
    cases hf : (tput j x t).find? fun p => canVisit s p.2 with
    | some q => exact ⟨q, rfl⟩
    | none =>
      rw [List.find?_eq_none] at hf
      exact absurd hx (hf _ hmem)
  have hqp := List.find?_some hq
  have hqm := List.mem_of_find?_eq_some hq
  have hfind := tfind_of_mem (sorted_tput j x hs) hqm
  have hj : q.1 = j := by
    by_contra hne
    rw [tfind_tput_ne _ _ _ _ hne] at hfind
    rw [h (q.1, q.2) (mem_of_tfind hfind) hne] at hqp
    cases hqp
  rw [hj, tfind_tput_same] at hfind
  rw [hq, Option.some.injEq]
  exact Prod.ext hj (Option.some.inj hfind).symm

/-- A job's visit begins on a target that is not FROZEN: its copy enters the busy set. -/
theorem beginVisit_enters {e : Event} {j : Nat} {x : Job} (hx : tfind e.st.jobs j = some x) (ht : x.target ≠ none)
    (hf : (e.st.vol x.dstVol).state ≠ .frozen) :
    beginVisit j x e = { e with
      st := { e.st with jobs := tput j { x with waiting := true } e.st.jobs, busy := e.st.busy ++ [x.visitItem j] }
      todo := { e.todo with retest := true } } := by
  obtain ⟨⟨dst, src⟩, ht⟩ := Option.ne_none_iff_exists'.mp ht
  unfold beginVisit
  rw [ht]
  dsimp only
  rw [if_neg hf, updJob_some hx]
  simp only [enterBusy, Event.upd, Job.visitItem, ht]
  rfl

/-- Its copy may proceed: no earlier item of the busy set conflicts with it. -/
theorem firstProceed_visit {j : Nat} {x : Job} {l : List BusyItem} (hl : firstProceed [] l = none)
    (hc : ∀ i ∈ l, i.conflicts (x.visitItem j) = false) : firstProceed [] (l ++ [x.visitItem j]) = some (x.visitItem j) := by
  rw [firstProceed_append _ hl, List.nil_append, firstProceed, if_pos]
  simp only [Job.visitItem, Bool.not_false, Bool.true_and, Bool.not_eq_true', List.any_eq_false]
  exact fun i hi => by
    have := hc i hi
    simp only [Job.visitItem] at this
    rw [this]
    exact Bool.false_ne_true

/-- A copy that has proceeded is tested no more. -/
theorem firstProceed_proceeded {l : List BusyItem} (hl : firstProceed [] l = none) {i : BusyItem} (hi : i.proceeded = true) :
    firstProceed [] (l ++ [i]) = none := by
  rw [firstProceed_append _ hl, firstProceed, hi]
  rfl

/-- The job's items leave a busy set that holds none but the one at its end. -/
theorem filter_visit {j : Nat} {l : List BusyItem} (hl : ∀ i ∈ l, i.owner ≠ .restore j) {i : BusyItem} (hi : i.owner = .restore j) :
    ((l ++ [i]).filter fun i => i.owner != .restore j) = l := by
  rw [List.filter_append, List.filter_eq_self.mpr fun k hk => by simpa using hl k hk]
  simp [hi]

/-! ### The event of a resumed job -/

/-- The state of an event whose executing request is decided. -/
def State.decided (s : State) : State := { s with out := [], ctl := { s.ctl with executing := none } }

/-- The reply that waits for the event's end. -/
def resumeAnswer (tag j : Nat) : Answer := { number := 24, tag := tag, code := .ok, result := [], job := some j }

/-- The event once the job is RUNNING again. -/
def resumed (s : State) (tag j : Nat) (x : Job) : Event :=
  { st := { s.decided with jobs := tput j { x with state := .running } s.jobs }
    todo := { jobs := true, answer := some (resumeAnswer tag j) } }

/-- The record of the job and the event, when the copy of its visit proceeds. -/
def Job.inVisit (x : Job) : Job := { x with state := .running, waiting := true }

def visited (s : State) (tag j : Nat) (x : Job) : Event :=
  { st := { s.decided with
      jobs := tput j x.inVisit s.jobs, busy := s.busy ++ [{ x.visitItem j with proceeded := true }] }
    todo := { retest := true, jobs := true, answer := some (resumeAnswer tag j) } }

section
variable {s : State} {tag j : Nat} {x : Job}

theorem doRestoreResume_resumed (hj : j ≤ 3) (hx : tfind s.jobs j = some x) (hs : x.state = .suspended) (hy : s.yielding = false) :
    doRestoreResume j { st := s.executes ⟨tag, .restoreResume j⟩ } = resumed s tag j x := by
  have hf : findOpenJob (s.executes ⟨tag, .restoreResume j⟩) j = .ok x :=
    findOpenJob_ok (findJob_ok hj hx) (by rw [hs]; rfl)
  have hrs : runState (s.executes ⟨tag, .restoreResume j⟩) = .running := if_neg (Bool.eq_false_iff.mp hy)
  have hx' : tfind (s.executes ⟨tag, .restoreResume j⟩).jobs j = some x := hx
  rw [doRestoreResume, hf]
  dsimp only
  simp only [resumeJob, hs, hrs]
  rw [updJob_some hx']
  exact answerWith_eq (x := ⟨tag, 24⟩) rfl ..

/-- The reply of an event that ends with it. -/
theorem exec_resumeEnds (h : s.ctlServes) (hj : j ≤ 3) (hx : tfind s.jobs j = some x) (hs : x.state = .suspended)
    (hy : s.yielding = false) {k : Nat} {f : Event} (hk : k ≤ 1000) (hend : Ends k (resumed s tag j x) f.sendAnswer)
    (ha : f.todo.answer = some (resumeAnswer tag j)) (hu : f.st.frontUp = true) (ho : f.st.out = []) (hd : f.done = [])
    (hse : f.sent = []) (hl : f.late = []) (hex : f.st.ctl.executing = none) :
    exec (.restoreResume tag j) s = .next (State.answered { f.evaluated with ctl := f.offered } 24 tag .ok
      [((tfind f.st.jobs j).map Job.stateValue).getD 0]) := by
  rw [resume_row, runEvent, controlArrive_of_free h.1, perform_resume _ (executes_part_ne h _), doRestoreResume_resumed hj hx hs hy,
    hend.runTodo hk]
  refine congrArg Host.Outcome.next ?_
  obtain ⟨b, vs, as, q, he⟩ := evaluate_frame f
  have hexec : f.offered.executing = none := (offered_executing f).trans hex
  rw [closeEvent_answer ha hu hd (by rw [ho]; simp)]
  dsimp only [resumeAnswer]
  rw [completeReply_read _ _ _ _ _ (.inl (by decide)) (.inl (by decide)), hl, hse, ho]
  simp only [List.foldl_nil, List.nil_append, State.answered]
  rw [show ({ f.offered with executing := none } : Control) = f.offered from by
    cases hc : f.offered
    rw [hc] at hexec
    cases hexec
    rfl]
  rfl

/-- What `canVisit` asks of a job, in parts. -/
theorem canVisit_of {u : State} {y : Job} (hr : y.state = .running) (hp : u.ctl.part = .running) (hy : u.yielding = false)
    (hv : y.waiting = false) (hc : y.copy = none) (ht : y.target ≠ none) (hd : (u.vol y.dstVol).drain = none) :
    canVisit u y = true := by
  cases h : canVisit u y with
  | true => rfl
  | false => exact absurd ⟨hr, hp, hy, by simp [Job.visiting, hv, hc], ht, hd⟩ (canVisit_false_iff.mp h)

theorem turn_jobs_begins {e : Event} {y : Job} {t : Table Job} (hT : e.todo.atJobs) (hj : e.todo.jobs = true)
    (hjobs : e.st.jobs = tput j y t) (hs : Table.sorted t = true) (hy : canVisit e.st y = true)
    (h : ∀ p ∈ t, p.1 ≠ j → p.2.state ≠ .running) : turn e = some (beginVisit j y e) := by
  rw [turn_jobs hT hj, jobTurn, hjobs, find_visit hs hy fun p hp hne => canVisit_of_state (h p hp hne)]

/-- What the statement on the first visit says of the job and of what waits beside it. -/
structure FirstVisit (s : State) (j : Nat) (x : Job) : Prop where
  serves : s.ctlServes
  wf : s.wf = true
  part : s.ctl.part = .running
  number : j ≤ 3
  job : tfind s.jobs j = some x
  state : x.state = .suspended
  copy : x.copy = none
  waiting : x.waiting = false
  target : x.target ≠ none
  calm : s.yielding = false
  shelf : s.shelf.up = false
  busy : firstProceed [] s.busy = none
  drains : ∀ p ∈ s.vols, p.2.drain = none
  others : ∀ p ∈ s.jobs, p.1 ≠ j → p.2.state ≠ .running ∧ p.2.state ≠ .pausedPool
  items : ∀ i ∈ s.busy, i.owner ≠ .restore j

theorem FirstVisit.sorted (h : FirstVisit s j x) : Table.sorted s.jobs = true := wf_jobs h.wf

theorem FirstVisit.drain (h : FirstVisit s j x) (v : Nat) : (s.vol v).drain = none :=
  tget_of_forall (Q := fun x : Volume => x.drain = none) (d := Volume.absent) rfl h.drains v

/-- The turn of the jobs begins its visit. -/
theorem FirstVisit.turn (h : FirstVisit s j x) : Machine.turn (resumed s tag j x) =
    some (beginVisit j { x with state := .running } (resumed s tag j x)) :=
  turn_jobs_begins ⟨rfl, rfl, rfl, rfl⟩ rfl rfl h.sorted
    (canVisit_of rfl h.part h.calm h.waiting h.copy h.target (h.drain _)) fun p hp hne => (h.others p hp hne).1

/-- On a target that is not FROZEN its copy enters the busy set and proceeds, where no earlier item conflicts. -/
theorem FirstVisit.proceeds (h : FirstVisit s j x) (hf : (s.vol x.dstVol).state ≠ .frozen)
    (hc : ∀ i ∈ s.busy, i.conflicts (x.visitItem j) = false) {k : Nat} {r : Event}
    (hend : Ends k (decideVisit j (visited s tag j x)) r) : Ends (k + 2) (resumed s tag j x) r := by
  have hbegin := beginVisit_enters (e := resumed s tag j x) (x := { x with state := .running }) (j := j) (tfind_tput_same ..)
    h.target hf
  refine Ends.turn (h.turn.trans (congrArg some hbegin)) (Ends.turn ?_ hend)
  rw [turn_of_retest rfl]
  have hitem : ({ x with state := .running } : Job).visitItem j = x.visitItem j := rfl
  have hfirst : firstProceed [] (s.busy ++ [x.visitItem j]) = some (x.visitItem j) := firstProceed_visit h.busy hc
  have hmark : ((s.busy ++ [x.visitItem j]).map fun i => if i.owner = .restore j then { i with proceeded := true } else i) =
      s.busy ++ [{ x.visitItem j with proceeded := true }] := by
    have hself : (s.busy.map fun i => if i.owner = .restore j then { i with proceeded := true } else i) = s.busy := by
      conv_rhs => rw [← List.map_id s.busy]
      exact List.map_congr_left fun i hi => if_neg (h.items i hi)
    rw [List.map_append, hself]
    simp [Job.visitItem]
  simp only [retestTurn, hitem, resumed, State.decided, hfirst]
  refine congrArg some (congrArg (decideVisit j) ?_)
  simp only [markProceeded, Event.upd, visited, State.decided, tput_tput, Job.inVisit]
  rw [← hmark]
  rfl

end

end Sys2Proof.Machine
end

section
/-! PROOFS. The outcomes of the first visit of a resumed job: PAUSED-FROZEN, PAUSED-POOL, and a copy begun (R105, R108). -/

namespace Sys2Proof.Machine

/-- A record written, and what every other listed record has. -/
theorem forall_tput {α : Type} {P : α → Prop} {t : Table α} (hs : Table.sorted t = true) {i : Nat} {v : α} (hv : P v)
    (h : ∀ p ∈ t, p.1 ≠ i → P p.2) : ∀ p ∈ tput i v t, P p.2 := by
  intro p hp
  have hfind := tfind_of_mem (sorted_tput i v hs) hp
  by_cases hi : p.1 = i
  · rw [hi, tfind_tput_same] at hfind
    exact Option.some.inj hfind ▸ hv
  · rw [tfind_tput_ne _ _ _ _ hi] at hfind
    exact h (p.1, p.2) (mem_of_tfind hfind) hi

section
variable {s : State} {tag j : Nat} {x : Job}

/-- An event that ends with no evaluation and no notice. -/
theorem FirstVisit.exec_quiet (h : FirstVisit s j x) {k : Nat} {u : State} {todo : Todo} (hk : k ≤ 1000)
    (ha : todo.answer = some (resumeAnswer tag j)) (hend : Ends k (resumed s tag j x) ({ st := u, todo := todo } : Event).sendAnswer)
    (hu : u.frontUp = true) (ho : u.out = []) (hex : u.ctl.executing = none) :
    exec (.restoreResume tag j) s = .next (u.answered 24 tag .ok [((tfind u.jobs j).map Job.stateValue).getD 0]) :=
  exec_resumeEnds h.serves h.number h.job h.state h.calm hk hend ha hu ho rfl rfl rfl hex

/-- On a FROZEN target the job is PAUSED-FROZEN. -/
theorem FirstVisit.exec_frozen (h : FirstVisit s j x) (hr : x.suspendReq = false) (hf : (s.vol x.dstVol).state = .frozen) :
    exec (.restoreResume tag j) s =
      .next (({ s with jobs := tput j { x with state := .pausedFrozen } s.jobs }).answered 24 tag .ok [10]) := by
  let y : Job := { x with state := .pausedFrozen }
  let u : State := { s.decided with jobs := tput j y s.jobs }
  let todo : Todo := { jobs := true, answer := some (resumeAnswer tag j) }
  have hbegin : beginVisit j { x with state := .running } (resumed s tag j x) = { st := u, todo := todo } := by
    obtain ⟨⟨dst, src⟩, ht⟩ := Option.ne_none_iff_exists'.mp h.target
    have ht' : ({ x with state := .running } : Job).target = some (dst, src) := ht
    rw [beginVisit, ht']
    refine (if_pos hf).trans ?_
    rw [updJob_some (x := { x with state := .running }) (tfind_tput_same ..)]
    simp only [resumed, Event.upd, tput_tput]
    rfl
  have hset : ({ st := u, todo := todo } : Event).Settled := by
    refine ⟨nofun, nofun, nofun, fun hp => (Bool.false_ne_true hp).elim, fun _ p hp => canVisit_of_state ?_, nofun, nofun, nofun,
      fun _ _ => h.serves.1.2.2, nofun⟩
    exact forall_tput (P := fun z : Job => z.state ≠ .running) (v := y) h.sorted nofun (fun p hp hne => (h.others p hp hne).1) p hp
  have := h.exec_quiet (tag := tag) (u := u) (todo := todo) (k := 11) (by omega) rfl
    (Ends.turn (h.turn.trans (congrArg some hbegin)) (ends_settled hset)) h.serves.1.1 rfl rfl
  rw [this]
  have hfind : tfind u.jobs j = some y := tfind_tput_same ..
  have hvalue : y.stateValue = 10 := by simp [y, Job.stateValue, hr]
  rw [hfind, Option.map_some, hvalue]
  rfl

/-! ### A COPIED visit (R108) -/

/-- The decision on the visit, its chunks named. -/
theorem decideVisit_visited {dst src : Nat} (ht : x.target = some (dst, src)) :
    decideVisit j (visited s tag j x) =
      match visitOutcome ((s.vol x.dstVol).entry dst) (viewLookup (s.vol x.srcVol) x.srcGen src) ((x.pre.map (·.2)).getD 0) with
      | .skipped => closeVisit j x.inVisit (fun y => { y with skipped := y.skipped + 1 }) (visited s tag j x)
      | .unchanged => closeVisit j x.inVisit (fun y => { y with unchanged := y.unchanged + 1 }) (visited s tag j x)
      | .cleared =>
        closeVisit j x.inVisit (fun y => { y with cleared := y.cleared + 1 }) (clearChunk x.dstVol dst (visited s tag j x))
      | .copied pcn => acceptCopy j x.inVisit dst pcn (visited s tag j x) := by
  have hx : tfind (visited s tag j x).st.jobs j = some x.inVisit := tfind_tput_same ..
  have ht' : x.inVisit.target = some (dst, src) := ht
  unfold decideVisit
  rw [hx]
  dsimp only
  rw [ht']
  rfl

/-- No room in the pool: the job is PAUSED-POOL. -/
theorem FirstVisit.exec_noRoom (h : FirstVisit s j x) (hr : x.suspendReq = false) (hf : (s.vol x.dstVol).state ≠ .frozen)
    (hc : ∀ i ∈ s.busy, i.conflicts (x.visitItem j) = false) {dst pcn : Nat}
    (hcopy : decideVisit j (visited s tag j x) = acceptCopy j x.inVisit dst pcn (visited s tag j x))
    (hroom : restorePoolCheck s x.override = false) :
    exec (.restoreResume tag j) s =
      .next (({ s with jobs := tput j { x with state := .pausedPool } s.jobs }).answered 24 tag .ok [11]) := by
  let y : Job := { x with state := .pausedPool }
  let u : State := { s.decided with jobs := tput j y s.jobs }
  let todo : Todo := { retest := true, drains := true, jobs := true, answer := some (resumeAnswer tag j) }
  have hstop : decideVisit j (visited s tag j x) = { st := u, todo := todo } := by
    rw [hcopy]
    have hwf : Table.wf Volume.absent s.vols = true := wf_vols h.wf
    have hcheck : restorePoolCheck (visited s tag j x).st x.inVisit.override = false := hroom
    unfold acceptCopy
    rw [hcheck, if_pos Bool.false_ne_true, updJob_some (x := x.inVisit) (tfind_tput_same ..),
      leaveBusy_noDrains (by exact hwf) (by exact h.drains)]
    have hbusy : ((visited s tag j x).st.busy.filter fun i => i.owner != .restore j) = s.busy := filter_visit h.items rfl
    have hjob : ({ x.inVisit with waiting := false, state := .pausedPool } : Job) = y := by
      have := h.waiting
      simp only [y, Job.inVisit, ← this]
    simp only [Event.upd, hbusy, hjob]
    simp only [visited, tput_tput]
    rfl
  have hset : ({ st := u, todo := todo } : Event).Settled := by
    refine ⟨fun _ => h.busy, fun _ => emptyDrain_none h.drains, nofun, fun hp => (Bool.false_ne_true hp).elim,
      fun _ p hp => canVisit_of_state ?_, nofun, nofun, nofun, fun _ _ => h.serves.1.2.2, nofun⟩
    exact forall_tput (P := fun z : Job => z.state ≠ .running) (v := y) h.sorted nofun (fun p hp hne => (h.others p hp hne).1) p hp
  have := h.exec_quiet (tag := tag) (u := u) (todo := todo) (k := 12) (by omega) rfl
    (h.proceeds hf hc (by rw [hstop]; exact ends_settled hset)) h.serves.1.1 rfl rfl
  rw [this]
  have hfind : tfind u.jobs j = some y := tfind_tput_same ..
  have hvalue : y.stateValue = 11 := by simp [y, Job.stateValue, hr]
  rw [hfind, Option.map_some, hvalue]
  rfl

/-- The record of a job whose copy has begun. -/
def Job.copying (x : Job) (c : Copy) : Job := { x with state := .running, remaining := x.remaining - 1, copy := some c }

/-- The state once the copy of the visit has begun. -/
def copyBegun (s : State) (j : Nat) (x : Job) (c : Copy) : State :=
  let a := s.acct x.owner
  { s.decided.setAcct x.owner { a with reserved := a.reserved - 1, charge := a.charge + 1 } with
    free := s.free.drop 1, claims := s.claims + 1
    jobs := tput j (x.copying c) s.jobs
    busy := s.busy ++ [{ x.visitItem j with proceeded := true }]
    shelf := { s.shelf with restoreQueue := s.shelf.restoreQueue ++ [copyCmd j s.format.k .read c.srcPcn []] } }

/-- Room in the pool: the copy claims the head of the free FIFO and hands over its read. -/
theorem FirstVisit.exec_copies (h : FirstVisit s j x) (hr : x.suspendReq = false) (hf : (s.vol x.dstVol).state ≠ .frozen)
    (hc : ∀ i ∈ s.busy, i.conflicts (x.visitItem j) = false) {dst pcn : Nat}
    (hcopy : decideVisit j (visited s tag j x) = acceptCopy j x.inVisit dst pcn (visited s tag j x))
    (hroom : restorePoolCheck s x.override = true) :
    let c : Copy :=
      { lcn := dst, srcPcn := pcn, pcn := s.free.headD 0, gen := (s.vol x.dstVol).sharingGen, stage := .reading }
    let f : Event :=
      { st := copyBegun s j x c, accts := touching x.owner [], poolTouched := true
        todo := { retest := true, pool := true, jobs := true, grant := true, answer := some (resumeAnswer tag j) } }
    exec (.restoreResume tag j) s =
      .next (State.answered { f.evaluated with ctl := f.offered } 24 tag .ok [6]) := by
  intro c f
  have hbegun : decideVisit j (visited s tag j x) = f := by
    rw [hcopy]
    have hcheck : restorePoolCheck (visited s tag j x).st x.inVisit.override = true := hroom
    unfold acceptCopy
    rw [hcheck, if_neg (not_not.mpr rfl)]
    have hclaim : claimPcns 1 (visited s tag j x) = (s.free.take 1, { (visited s tag j x) with
        st := { (visited s tag j x).st with free := s.free.drop 1, claims := s.claims + 1 }
        poolTouched := true, todo := { (visited s tag j x).todo with pool := true } }) := rfl
    have hhead : (s.free.take 1).headD 0 = s.free.headD 0 := by cases s.free <;> rfl
    let y : Job := { x.inVisit with waiting := false, remaining := x.inVisit.remaining - 1, copy := some c }
    have hjob : y = x.copying c := by
      have := h.waiting
      simp only [y, Job.copying, Job.inVisit, ← this]
    rw [hclaim]
    dsimp only
    rw [hhead]
    unfold transferChunk
    rw [touchAcct_eq, updJob_some (x := x.inVisit) (tfind_tput_same ..)]
    change handOver (copyCmd j s.format.k .read pcn []) (Event.upd _ fun t => { t with jobs := tput j y t.jobs }) = f
    rw [hjob]
    simp only [Event.updAcct, Event.upd, handOver, Event.updShelf, copyCmd, visited, State.setAcct]
    simp only [tput_tput]
    rfl
  have hset : f.Settled := by
    refine ⟨fun _ => firstProceed_proceeded h.busy rfl, nofun, nofun, fun _ _ => ?_, fun _ => ?_, nofun, nofun, nofun,
      fun _ _ => h.serves.1.2.2, fun _ => .inl h.shelf⟩
    · exact forall_tput (P := fun z : Job => z.state ≠ .pausedPool) (v := x.copying c) h.sorted nofun
        fun p hp hne => (h.others p hp hne).2
    · refine forall_tput (P := fun z : Job => canVisit f.st z = false) (v := x.copying c) h.sorted ?_
        fun p hp hne => canVisit_of_state (h.others p hp hne).1
      rw [canVisit_false_iff]
      rintro ⟨-, -, -, hv, -⟩
      simp [Job.visiting, Job.copying] at hv
  have := exec_resumeEnds (tag := tag) h.serves h.number h.job h.state h.calm (f := f) (k := 12) (by omega)
    (h.proceeds hf hc (by rw [hbegun]; exact ends_settled hset)) rfl h.serves.1.1 rfl rfl rfl rfl rfl
  rw [this]
  have hfind : tfind f.st.jobs j = some (x.copying c) := tfind_tput_same ..
  have hvalue : (x.copying c).stateValue = 6 := by simp [Job.copying, Job.stateValue, hr]
  rw [hfind, Option.map_some, hvalue]
  rfl

end

end Sys2Proof.Machine
end

section
/-! PROOFS. A visit that writes no chunk ends: it counts, releases a reserved chunk, and the job is DONE or goes on (R107, R115). -/

namespace Sys2Proof.Machine

/-! ### What the end of a visit leaves of its chunk's work -/

/-- The event `f` is `m` after the end of a visit of the job `x`: but for the jobs, the busy set, reserved counts and pins
nothing has changed. -/
structure VisitEnds (x : Job) (m f : Event) : Prop where
  frame : ∃ vs as jb b, f.st = { m.st with vols := vs, accounts := as, jobs := jb, busy := b }
  vol : ∀ w, ∃ sn, f.st.vol w = { m.st.vol w with snaps := sn } ∧
    ∀ i, (tfind sn i).map Snap.retained = (tfind (m.st.vol w).snaps i).map Snap.retained
  other : ∀ w, w ≠ x.dstVol → w ≠ x.srcVol → f.st.vol w = m.st.vol w
  charge : ∀ o, (f.st.acct o).charge = (m.st.acct o).charge
  overflow : f.overflowNotices = m.overflowNotices
  reserves : f.reserves = m.reserves

theorem vol_unpinned_ne (s : State) {v slot w : Nat} (h : w ≠ v) : (s.unpinned v slot).vol w = s.vol w := by
  rw [State.unpinned]
  cases tfind (s.vol v).snaps slot with
  | none => rfl
  | some d => exact State.vol_setVol_ne _ _ _ _ h

theorem vol_unpins_ne (s : State) (x : Job) {w : Nat} (h : w ≠ x.srcVol) (h' : w ≠ x.dstVol) :
    (s.unpins x).vol w = s.vol w := by
  unfold State.unpins
  split
  · rw [vol_unpinned_ne _ h', vol_unpinned_ne _ h]
  · exact vol_unpinned_ne _ h

theorem charge_unreserved (s : State) (o n k : Nat) : ((s.unreserved o n).acct k).charge = (s.acct k).charge := by
  by_cases h : k = o
  · rw [h, acct_unreserved]
  · rw [acct_unreserved_ne _ h]

theorem charge_jobEnded (s : State) (j : Nat) (x : Job) (k : JobState) (o : Nat) :
    ((s.jobEnded j x k).acct o).charge = (s.acct o).charge := by
  rw [acct_jobEnded, charge_unreserved]

theorem jobEnded_frame (s : State) (j : Nat) (x : Job) (k : JobState) : ∃ vs as,
    s.jobEnded j x k = { s with vols := vs, accounts := as, jobs := tput j (x.endedAs k) s.jobs } := by
  unfold State.jobEnded
  rw [unpins_frame, unreserved_frame]
  exact ⟨_, _, rfl⟩

theorem vol_jobEnded (s : State) (j : Nat) (x : Job) (k : JobState) (w : Nat) :
    (s.jobEnded j x k).vol w = (s.unpins x).vol w := by
  unfold State.jobEnded State.unpins
  have hv : ∀ (u : State) v slot, ((u.unreserved x.owner x.remaining).unpinned v slot).vols = (u.unpinned v slot).vols := by
    intro u v slot
    have huv : (u.unreserved x.owner x.remaining).vols = u.vols := by rw [unreserved_frame]
    have hvol : (u.unreserved x.owner x.remaining).vol v = u.vol v := by unfold State.vol; rw [huv]
    rw [State.unpinned, State.unpinned, hvol]
    cases tfind (u.vol v).snaps slot with
    | none => exact huv
    | some d =>
      change tset _ _ _ (u.unreserved x.owner x.remaining).vols = tset _ _ _ u.vols
      rw [huv]
  have hcomm : ∀ v slot, (s.unreserved x.owner x.remaining).unpinned v slot =
      (s.unpinned v slot).unreserved x.owner x.remaining := by
    intro v slot
    rw [unpinned_frame, hv]
    have hs := unpinned_frame s v slot
    have ha : ((s.unpinned v slot).unreserved x.owner x.remaining).accounts = (s.unreserved x.owner x.remaining).accounts := by
      rw [hs]
      unfold State.unreserved
      split_ifs <;> rfl
    rw [unreserved_frame (s.unpinned v slot), ha, hs, unreserved_frame s]
  unfold State.vol
  split
  · rw [hcomm, hv]
  · rw [hv]

section
variable {s : State} {tag j : Nat} {x : Job}

/-- The end of a visit that writes no chunk, before what comes after it. -/
theorem closeVisit_eq {m : Event} {z n : Job} (hz : tfind m.st.jobs j = some z) (hwf : Table.wf Volume.absent m.st.vols = true)
    (hd : ∀ p ∈ m.st.vols, p.2.drain = none) {count : Job → Job}
    (hn : (count { z with waiting := false, remaining := z.remaining - 1 }).advance = n) :
    closeVisit j z count m = afterVisit j { m with
      st := { m.st.unreserved z.owner 1 with
        jobs := tput j n m.st.jobs, busy := m.st.busy.filter fun i => i.owner != .restore j }
      accts := touching z.owner m.accts
      todo := { m.todo with retest := true, drains := true } } := by
  have hf := unreserved_frame m.st z.owner 1
  have hvols : (m.st.unreserved z.owner 1).vols = m.st.vols := by rw [hf]
  have hjobs : (m.st.unreserved z.owner 1).jobs = m.st.jobs := by rw [hf]
  have hbusy : (m.st.unreserved z.owner 1).busy = m.st.busy := by rw [hf]
  unfold closeVisit
  rw [releaseChunks_eq]
  dsimp only
  rw [updJob_some (x := z) (by rw [hjobs]; exact hz), hn, leaveBusy_noDrains (by simpa [Event.upd, hvols] using hwf)
    (by simpa [Event.upd, hvols] using hd)]
  simp only [Event.upd, hjobs, hbusy]
  rfl

/-- The event of a visit that has counted. -/
def visitClosed (s : State) (tag j : Nat) (x : Job) (m : Event) (n : Job) : Event :=
  { m with
    st := { m.st.unreserved x.owner 1 with jobs := tput j n s.jobs, busy := s.busy }
    accts := touching x.owner m.accts
    todo := { retest := true, drains := true, pool := m.todo.pool, jobs := true, answer := some (resumeAnswer tag j) } }

/-- The event in which the job's last visit has ended, and the event in which its next one waits. -/
def visitDone (s : State) (tag j : Nat) (x : Job) (m : Event) (n : Job) : Event :=
  let c := visitClosed s tag j x m n
  { c with
    st := c.st.jobEnded j n .done
    accts := if n.remaining = 0 then c.accts else touching n.owner c.accts
    notices := [s.notice .restoreEnded j 1 n.visits] }

def visitNext (s : State) (tag j : Nat) (x : Job) (m : Event) (n : Job) : Event :=
  let c := visitClosed s tag j x m n
  { c with
    st := { c.st with jobs := tput j { n with waiting := true } s.jobs, busy := s.busy ++ [n.visitItem j] }
    todo := { retest := true, jobs := true, answer := some (resumeAnswer tag j) } }

theorem visitClosed_ends (m : Event) (n : Job) : VisitEnds x m (visitClosed s tag j x m n) := by
  have hf := unreserved_frame m.st x.owner 1
  have hvol : ∀ w, (visitClosed s tag j x m n).st.vol w = m.st.vol w := by
    intro w
    change (m.st.unreserved x.owner 1).vol w = _
    rw [hf]
    rfl
  refine ⟨?_, fun w => ⟨(m.st.vol w).snaps, hvol w, fun _ => rfl⟩, fun w _ _ => hvol w, fun o => charge_unreserved ..,
    rfl, rfl⟩
  unfold visitClosed
  dsimp only
  rw [hf]
  exact ⟨_, _, _, _, rfl⟩

theorem visitNext_ends (m : Event) (n : Job) : VisitEnds x m (visitNext s tag j x m n) := by
  obtain ⟨⟨vs, as, jb, b, h1⟩, h2, h3, h4, h5, h6⟩ := visitClosed_ends (s := s) (tag := tag) (j := j) (x := x) m n
  exact ⟨⟨vs, as, _, _, by simp only [visitNext, h1]; rfl⟩, h2, h3, h4, h5, h6⟩

theorem visitDone_ends (m : Event) {n : Job} (hs : n.srcVol = x.srcVol) (hd : n.dstVol = x.dstVol) :
    VisitEnds x m (visitDone s tag j x m n) := by
  obtain ⟨⟨vs, as, jb, b, h1⟩, h2, h3, h4, h5, h6⟩ := visitClosed_ends (s := s) (tag := tag) (j := j) (x := x) m n
  obtain ⟨vs', as', hj⟩ := jobEnded_frame (visitClosed s tag j x m n).st j n .done
  refine ⟨⟨vs', as', _, _, hj.trans (by rw [h1])⟩, fun w => ?_, fun w hw hw' => ?_, fun o => ?_, h5, h6⟩
  · obtain ⟨sn, hv, hk⟩ := h2 w
    obtain ⟨sn', hv', hk'⟩ := vol_unpins (visitClosed s tag j x m n).st n w
    refine ⟨sn', ?_, fun i => ?_⟩
    · change ((visitClosed s tag j x m n).st.jobEnded j n .done).vol w = _
      rw [vol_jobEnded, hv', hv]
    · rw [hk', hv, ← hk i, Option.map_map]
      rfl
  · change ((visitClosed s tag j x m n).st.jobEnded j n .done).vol w = _
    rw [vol_jobEnded, vol_unpins_ne _ _ (by rw [hs]; exact hw') (by rw [hd]; exact hw)]
    exact h3 w hw hw'
  · exact (charge_jobEnded ..).trans (h4 o)

end

end Sys2Proof.Machine
end

section
/-! PROOFS. The whole event of a first visit that writes no chunk, and RESTORE RESUME's statement (R105 to R108). -/

namespace Sys2Proof.Machine

section
variable {s : State} {tag j : Nat} {x n : Job} {m : Event}

/-- The record `n` is the job `x`, RUNNING with no visit under way, at another place and with other counts. -/
structure Job.Goes (x n : Job) : Prop where
  owner : n.owner = x.owner
  source : n.srcVol = x.srcVol
  target : n.dstVol = x.dstVol
  state : n.state = .running
  waiting : n.waiting = false
  copy : n.copy = none
  suspend : n.suspendReq = false

/-- The chunk work of the visit is done, and the visit is to be closed. -/
structure Closing (s : State) (tag j : Nat) (x n : Job) (m : Event) : Prop where
  visit : FirstVisit s j x
  live : (s.vol x.dstVol).state ≠ .frozen
  free : ∀ i ∈ s.busy, i.conflicts (x.visitItem j) = false
  works : Works x.dstVol (visited s tag j x) m
  claims : m.st.claims = s.claims
  goes : x.Goes n
  closes : ∃ count, decideVisit j (visited s tag j x) = closeVisit j x.inVisit count m ∧
    (count { x.inVisit with waiting := false, remaining := x.inVisit.remaining - 1 }).advance = n

theorem Closing.frame (h : Closing s tag j x n m) : ∃ vs as fr,
    m.st = { (visited s tag j x).st with vols := vs, accounts := as, free := fr } := by
  obtain ⟨vs, as, fr, cl, ac, pt, pl, rs, on, hm⟩ := h.works.frame
  have hc := h.claims
  rw [hm] at hc ⊢
  exact ⟨vs, as, fr, by rw [show cl = s.claims from hc]; rfl⟩

/-- The decision leads to what comes after the visit. -/
theorem Closing.decides (h : Closing s tag j x n m) :
    decideVisit j (visited s tag j x) = afterVisit j (visitClosed s tag j x m n) := by
  obtain ⟨count, hd, hn⟩ := h.closes
  obtain ⟨vs, as, fr, hframe⟩ := h.frame
  have hjobs : m.st.jobs = tput j x.inVisit s.jobs := by rw [hframe]; rfl
  have hbusy : m.st.busy = s.busy ++ [{ x.visitItem j with proceeded := true }] := by rw [hframe]; rfl
  have htodo : m.todo = { retest := true, pool := m.todo.pool, jobs := true, answer := some (resumeAnswer tag j) } := by
    obtain ⟨vs, as, fr, cl, ac, pt, pl, rs, on, hm⟩ := h.works.frame
    rw [hm]
    rfl
  have hwf : Table.wf Volume.absent s.vols = true := wf_vols h.visit.wf
  rw [hd, closeVisit_eq (n := n) (by rw [hjobs]; exact tfind_tput_same ..) (h.works.vols hwf) (h.works.drains h.visit.drains) hn,
    hjobs, hbusy, filter_visit h.visit.items (by rfl), tput_tput]
  refine congrArg (afterVisit j) ?_
  unfold visitClosed
  rw [htodo]
  rfl

theorem Closing.vol (h : Closing s tag j x n m) (w : Nat) : (m.st.vol w).drain = (s.vol w).drain ∧
    (m.st.vol w).state = (s.vol w).state := by
  by_cases hw : w = x.dstVol
  · obtain ⟨_, _, _, _, _, hv⟩ := h.works.own
    rw [hw, hv]
    exact ⟨rfl, rfl⟩
  · rw [h.works.other w hw]
    exact ⟨rfl, rfl⟩

theorem vols_visitClosed : (visitClosed s tag j x m n).st.vols = m.st.vols := by
  change (m.st.unreserved x.owner 1).vols = _
  rw [unreserved_frame]

/-- The rest of an event is empty, as that of the chunk work is. -/
theorem Closing.rest (h : Closing s tag j x n m) : m.reports = [] ∧ m.acctNotices = [] ∧ m.notices = [] ∧ m.late = [] ∧
    m.done = [] ∧ m.sent = [] := by
  obtain ⟨vs, as, fr, cl, ac, pt, pl, rs, on, hm⟩ := h.works.frame
  rw [hm]
  exact ⟨rfl, rfl, rfl, rfl, rfl, rfl⟩

theorem Closing.state_closed (h : Closing s tag j x n m) : ∃ vs as fr, (visitClosed s tag j x m n).st =
    { s.decided with vols := vs, accounts := as, free := fr, jobs := tput j n s.jobs } := by
  obtain ⟨vs, as, fr, hframe⟩ := h.frame
  refine ⟨m.st.vols, (m.st.unreserved x.owner 1).accounts, fr, ?_⟩
  unfold visitClosed
  dsimp only
  rw [unreserved_frame, hframe]
  rfl

/-- Past the last chunk the job is DONE. -/
theorem Closing.exec_done (h : Closing s tag j x n m) (ht : n.target = none) :
    exec (.restoreResume tag j) s = .next (State.answered { (visitDone s tag j x m n).evaluated with
      ctl := (visitDone s tag j x m n).offered } 24 tag .ok [1]) := by
  obtain ⟨vs, as, fr, hst⟩ := h.state_closed
  obtain ⟨hreports, hacct, hnotices, hlate, hdone, hsent⟩ := h.rest
  have hjob : tfind (visitClosed s tag j x m n).st.jobs j = some n := tfind_tput_same ..
  have hends : decideVisit j (visited s tag j x) = visitDone s tag j x m n := by
    rw [h.decides, afterVisit, hjob]
    simp only [ht, Option.isNone_none, if_true]
    rw [endJob_eq hjob]
    have hn : (visitClosed s tag j x m n).notices = [] := hnotices
    have hnotice : (visitClosed s tag j x m n).st.notice .restoreEnded j (n.endedAs .done).stateValue n.visits =
        s.notice .restoreEnded j 1 n.visits := by
      rw [hst]
      rfl
    rw [hn, hnotice]
    rfl
  obtain ⟨vs', as', hframe⟩ := jobEnded_frame (visitClosed s tag j x m n).st j n .done
  have hfst : (visitDone s tag j x m n).st = { s.decided with
      vols := vs', accounts := as', free := fr, jobs := tput j (n.endedAs .done) (tput j n s.jobs) } := by
    refine hframe.trans ?_
    rw [hst]
  have hfjobs : (visitDone s tag j x m n).st.jobs = tput j (n.endedAs .done) s.jobs := by
    rw [hfst]
    exact tput_tput ..
  have hnone : ∀ p ∈ (visitDone s tag j x m n).st.jobs, p.2.state ≠ .running ∧ p.2.state ≠ .pausedPool := by
    rw [hfjobs]
    exact forall_tput (P := fun z : Job => z.state ≠ .running ∧ z.state ≠ .pausedPool) h.visit.sorted ⟨nofun, nofun⟩ h.visit.others
  have hset : (visitDone s tag j x m n).Settled := by
    refine ⟨fun _ => ?_, fun _ => emptyDrain_none ?_, nofun, fun _ _ p hp => (hnone p hp).2,
      fun _ p hp => canVisit_of_state (hnone p hp).1, nofun, nofun, nofun, fun _ _ => ?_, nofun⟩
    · rw [hfst]
      exact h.visit.busy
    · refine unpins_drains n ?_
      rw [unreserved_frame]
      change ∀ p ∈ (visitClosed s tag j x m n).st.vols, _
      rw [vols_visitClosed]
      exact h.works.drains h.visit.drains
    · rw [hfst]
      exact h.visit.serves.1.2.2
  have := exec_resumeEnds (tag := tag) h.visit.serves h.visit.number h.visit.job h.visit.state h.visit.calm
    (f := visitDone s tag j x m n) (k := 12) (by omega)
    (h.visit.proceeds h.live h.free (by rw [hends]; exact ends_settled hset)) rfl (by rw [hfst]; exact h.visit.serves.1.1)
    (by rw [hfst]; rfl) hdone hsent hlate (by rw [hfst]; rfl)
  rw [this, hfjobs, tfind_tput_same]
  rfl

/-- A next chunk that earlier work holds is waited for. -/
theorem Closing.exec_next (h : Closing s tag j x n m) (ht : n.target ≠ none)
    (hheld : ∃ i ∈ s.busy, i.conflicts (n.visitItem j) = true) :
    exec (.restoreResume tag j) s = .next (State.answered { (visitNext s tag j x m n).evaluated with
      ctl := (visitNext s tag j x m n).offered } 24 tag .ok [6]) := by
  obtain ⟨vs, as, fr, hst⟩ := h.state_closed
  obtain ⟨hreports, hacct, hnotices, hlate, hdone, hsent⟩ := h.rest
  let c := visitClosed s tag j x m n
  have hjob : tfind c.st.jobs j = some n := tfind_tput_same ..
  have hcalm : c.st.yielding = false := by
    change (visitClosed s tag j x m n).st.yielding = false
    rw [hst]
    exact h.visit.calm
  have hends : decideVisit j (visited s tag j x) = c := by
    rw [h.decides, afterVisit, hjob]
    dsimp only
    rw [if_neg (by simpa using ht), h.goes.suspend, if_neg Bool.false_ne_true, if_neg (by rw [hcalm]; exact Bool.false_ne_true)]
    rfl
  have hvol : ∀ w, c.st.vol w = m.st.vol w := by
    intro w
    unfold State.vol
    rw [vols_visitClosed]
  have hfst : (visitNext s tag j x m n).st = { s.decided with
      vols := vs, accounts := as, free := fr, jobs := tput j { n with waiting := true } s.jobs,
      busy := s.busy ++ [n.visitItem j] } := by
    simp only [visitNext, hst]
  let c1 : Event := { c with todo := { jobs := true, answer := some (resumeAnswer tag j) } }
  have hbegin : turn c1 = some (visitNext s tag j x m n) := by
    rw [turn_jobs_begins (e := c1) (y := n) (t := s.jobs) ⟨rfl, rfl, rfl, rfl⟩ rfl rfl h.visit.sorted ?_
      fun p hp hne => (h.visit.others p hp hne).1]
    · rw [beginVisit_enters (e := c1) (x := n) hjob ht (by
        change (c.st.vol n.dstVol).state ≠ _
        rw [hvol, h.goes.target, (h.vol _).2]
        exact h.live)]
      refine congrArg some ?_
      change ({ c with st := _, todo := _ } : Event) = { c with st := _, todo := _ }
      have hj : tput j { n with waiting := true } c.st.jobs = tput j { n with waiting := true } s.jobs := tput_tput ..
      have hb : c.st.busy = s.busy := rfl
      simp only [hj, hb, c1]
      rfl
    · refine canVisit_of h.goes.state ?_ hcalm h.goes.waiting h.goes.copy ht ?_
      · change (visitClosed s tag j x m n).st.ctl.part = _
        rw [hst]
        exact h.visit.part
      · change (c.st.vol n.dstVol).drain = none
        rw [hvol, (h.vol _).1]
        exact h.visit.drain _
  have hset : (visitNext s tag j x m n).Settled := by
    refine ⟨fun _ => ?_, nofun, nofun, fun hp => (Bool.false_ne_true hp).elim, fun _ => ?_, nofun, nofun, nofun,
      fun _ _ => ?_, nofun⟩
    · rw [hfst]
      refine firstProceed_append_none h.visit.busy fun i hi => ?_
      rw [List.mem_singleton.mp hi]
      simpa using hheld
    · rw [hfst]
      refine forall_tput (P := fun z : Job => canVisit _ z = false) h.visit.sorted ?_
        fun p hp hne => canVisit_of_state (h.visit.others p hp hne).1
      rw [canVisit_false_iff]
      rintro ⟨-, -, -, hv, -⟩
      simp [Job.visiting] at hv
    · rw [hfst]
      exact h.visit.serves.1.2.2
  have hto : Ends 14 c (visitNext s tag j x m n).sendAnswer := by
    refine ends_toJobs (k := 11) rfl rfl (fun _ => h.visit.busy) (fun _ => emptyDrain_none ?_) (fun _ => ?_) ?_
    · rw [vols_visitClosed]
      exact h.works.drains h.visit.drains
    · exact forall_tput (P := fun z : Job => z.state ≠ .pausedPool) (v := n) h.visit.sorted (by rw [h.goes.state]; nofun)
        fun p hp hne => (h.visit.others p hp hne).2
    · exact Ends.turn (e := c1) hbegin (ends_settled hset)
  have := exec_resumeEnds (tag := tag) h.visit.serves h.visit.number h.visit.job h.visit.state h.visit.calm
    (f := visitNext s tag j x m n) (k := 16) (by omega)
    (h.visit.proceeds h.live h.free (by rw [hends]; exact hto)) rfl (by rw [hfst]; exact h.visit.serves.1.1)
    (by rw [hfst]; rfl) hdone hsent hlate (by rw [hfst]; rfl)
  have hfind : tfind (visitNext s tag j x m n).st.jobs j = some { n with waiting := true } := tfind_tput_same ..
  have hvalue : ({ n with waiting := true } : Job).stateValue = 6 := by simp [Job.stateValue, h.goes.state, h.goes.suspend]
  rw [this, hfind, Option.map_some, hvalue]
  rfl

end

end Sys2Proof.Machine
end

section
/-! PROOFS. What the first visit of a resumed job leaves, in the words of its statement. -/

namespace Sys2Proof.Machine

/-! ### Notices that are not lost -/

/-- While none is lost, every notice offered stands in the queue. -/
theorem mem_foldl_offer {l : List Notice} {c : Control} (h : (l.foldl offer c).lost = false) :
    ∀ n, n ∈ l ∨ n ∈ c.notices → n ∈ (l.foldl offer c).notices := by
  induction l generalizing c with
  | nil =>
    rintro n (hn | hn)
    · cases hn
    · exact hn
  | cons a l ih =>
    intro n hn
    rw [List.foldl_cons] at h ⊢
    refine ih h n ?_
    have hkept : ∀ b ∈ c.notices, b ∈ (offer c a).notices := by
      intro b hb
      unfold offer
      split_ifs
      · exact List.mem_append_left _ hb
      · exact hb
    rcases hn with hn | hn
    · rcases List.mem_cons.mp hn with rfl | hn
      · right
        have hstill : ∀ (l : List Notice) (c : Control), c.lost = true → (l.foldl offer c).lost = true := by
          intro l
          induction l with
          | nil => exact fun _ h => h
          | cons b l ih =>
            intro c hc
            refine ih _ ?_
            unfold offer
            split_ifs
            · exact hc
            · rfl
        unfold offer
        split_ifs with hroom
        · exact List.mem_append_right _ (List.mem_singleton_self _)
        · rw [hstill l (offer c n) (by simp [offer, hroom])] at h
          cases h
      · exact .inl hn
    · exact .inr (hkept n hn)

theorem offered_overflow {f : Event} (h : f.offered.lost = false) : ∀ n ∈ f.overflowNotices, n ∈ f.offered.notices := by
  intro n hn
  refine mem_foldl_offer h n (.inl ?_)
  unfold Verdicts.due
  exact List.mem_append_left _ (List.mem_append_right _ hn)

/-! ### What filing and logging leave of the rest of the state -/

theorem fileDisplaced_frame (v lcn pcn born g : Nat) (e : Event) : ∃ vs fr,
    (fileDisplaced v lcn pcn born g e).st = { e.st with vols := vs, free := fr } := by
  unfold fileDisplaced
  split
  · split_ifs
    · exact ⟨_, _, rfl⟩
    · exact ⟨_, _, by rw [freePcns_st]⟩
  · exact ⟨_, _, by rw [freePcns_st]⟩

theorem logLcn_frame (v lcn : Nat) (e : Event) : ∃ vs, (logLcn v lcn e).st = { e.st with vols := vs } := by
  rcases logLcn_cases v lcn e with h | h | ⟨on, h⟩ <;> rw [h] <;> exact ⟨_, rfl⟩

theorem charge_uncharged (s : State) (o k : Nat) :
    ((s.uncharged o).acct k).charge = (s.acct k).charge - if k = o then 1 else 0 := by
  unfold State.uncharged
  split_ifs with h
  · rw [h, State.acct_setAcct]
  · rw [State.acct_setAcct_ne _ _ _ _ h]
    rfl

/-! ### The chunk of a CLEARED visit -/

section
variable {s : State} {e : Event} {v lcn pcn born o : Nat}

theorem clearChunk_eq (h : ((e.st.vol v).entry lcn).form = .mapped pcn born o) :
    clearChunk v lcn e =
      logLcn v lcn (fileDisplaced v lcn pcn born (e.st.vol v).sharingGen (uncharge o (unmapEntry v lcn e))) := by
  unfold clearChunk displace
  dsimp only
  rw [h]

theorem clearChunk_frame (h : ((e.st.vol v).entry lcn).form = .mapped pcn born o) : ∃ vs fr,
    (clearChunk v lcn e).st = { e.st.uncharged o with vols := vs, free := fr } := by
  rw [clearChunk_eq h]
  obtain ⟨vs, h1⟩ := logLcn_frame v lcn (fileDisplaced v lcn pcn born (e.st.vol v).sharingGen (uncharge o (unmapEntry v lcn e)))
  obtain ⟨vs', fr, h2⟩ := fileDisplaced_frame v lcn pcn born (e.st.vol v).sharingGen (uncharge o (unmapEntry v lcn e))
  rw [h1, h2, uncharge_eq]
  exact ⟨_, _, rfl⟩

theorem form_clearChunk (h : ((e.st.vol v).entry lcn).form = .mapped pcn born o) (l : Nat) :
    (((clearChunk v lcn e).st.vol v).entry l).form =
      if l = lcn then .unmapped (e.st.vol v).gen else ((e.st.vol v).entry l).form := by
  rw [clearChunk_eq h, form_logLcn]
  unfold Volume.entry
  rw [map_fileDisplaced, uncharge_eq]
  change (((unmapEntry v lcn e).st.vol v).entry l).form = _
  have hv : (unmapEntry v lcn e).st.vol v = (e.st.vol v).setForm lcn (.unmapped (e.st.vol v).gen) := updVol_st_vol ..
  rw [hv, form_setForm]
  rfl

theorem files_clearChunk (h : ((e.st.vol v).entry lcn).form = .mapped pcn born o) (hf : e.st.free = s.free)
    (hv : e.st.vol v = s.vol v) (hs : Table.sorted (s.vol v).snaps = true) :
    FilesTo s (clearChunk v lcn e) v (s.vol v).sharingGen [{ lcn := lcn, pcn := pcn, born := born }] := by
  rw [clearChunk_eq h, hv]
  exact ((((FilesTo.refl hf (by rw [hv])).unmap lcn).uncharge o).snoc hs lcn pcn born).logs lcn

theorem logs_clearChunk (h : ((e.st.vol v).entry lcn).form = .mapped pcn born o) (hs : e.st.sched = s.sched)
    (hv : e.st.vol v = s.vol v) : LogsTo s (clearChunk v lcn e) v [lcn] := by
  rw [clearChunk_eq h]
  exact ((((LogsTo.refl hs hv).unmap lcn).uncharge o).files lcn pcn born _).snoc List.not_mem_nil

end

/-! ### The end of the event -/

section
variable {s : State} {tag j : Nat} {x n : Job} {m f : Event} {result : List Nat}

/-- The state after the event `f`, its reply sent. -/
def afterReply (f : Event) (tag : Nat) (result : List Nat) : State :=
  State.answered { f.evaluated with ctl := f.offered } 24 tag .ok result

theorem evaluated_vols {f : Event} (h : f.all.reserves = []) : f.evaluated.vols = f.st.vols :=
  evaluated_keeps (R := fun s t => t.vols = s.vols) (fun _ => rfl) (fun h h' => h'.trans h) f
    (fun _ s => by
      obtain ⟨_, h⟩ := evalPool_frame s
      rw [h])
    (fun k _ s => by
      obtain ⟨_, _, h⟩ := evaluateAccount_frame s k
      obtain ⟨_, h'⟩ := reportAccount_frame s k
      rw [h, h']
      exact ⟨rfl, rfl⟩)
    fun v hv _ => by
      rw [h] at hv
      cases hv

/-- What stands of the state after a visit that wrote no chunk, and what its chunk work has left. -/
theorem VisitEnds.leaves (he : VisitEnds x m f) (h : Closing s tag j x n m) (hx : f.st.ctl.executing = none) (hdone : f.done = []) :
    let t := afterReply f tag result
    (∀ w l, ((t.vol w).entry l).form = ((m.st.vol w).entry l).form) ∧
    (∀ o, (t.acct o).charge = (m.st.acct o).charge) ∧ t.free = m.st.free ∧
    (t.vol x.dstVol).activeList = (m.st.vol x.dstVol).activeList ∧
    (∀ ls, LogsTo s m x.dstVol ls → Logged s t x.dstVol ls) ∧
    (∀ g ds, (s.vol x.dstVol).genLaw → FilesTo s m x.dstVol g ds → Filed s t x.dstVol g ds) ∧
    (t.vol x.dstVol).gen = (s.vol x.dstVol).gen ∧ (∀ w, w ≠ x.dstVol → w ≠ x.srcVol → t.vol w = s.vol w) ∧
    t.claims = s.claims ∧ t.shelf = s.shelf ∧ t.inflight = s.inflight ∧ t.mirror = s.mirror ∧ t.run = s.run ∧
    t.returns = s.returns ∧ t.jobs = f.st.jobs ∧ t.busy = f.st.busy ∧ (∀ o, (t.acct o).sameMoney (f.st.acct o)) := by
  intro t
  have hend : Ended f t := ended_answered hx ..
  obtain ⟨vs, as, jb, b, hf⟩ := he.frame
  obtain ⟨vs', as', fr, hm⟩ := h.frame
  obtain ⟨b', vs'', as'', q, c, o', fi, ht⟩ := hend.frame
  have hvol : ∀ w, ∃ sn b, t.vol w = { m.st.vol w with snaps := sn, reserveOver := b } ∧
      ∀ i, (tfind sn i).map Snap.retained = (tfind (m.st.vol w).snaps i).map Snap.retained := by
    intro w
    obtain ⟨sn, h1, h2⟩ := he.vol w
    obtain ⟨b, h3⟩ := evaluated_vol f w
    exact ⟨sn, b, by rw [hend.vol, h3, h1], h2⟩
  have hmoney : ∀ o, (t.acct o).sameMoney (f.st.acct o) := fun o => by
    rw [hend.acct]
    exact evaluated_acct f o
  have hreserves : ∀ w, w ∈ f.all.reserves → w = x.dstVol := by
    intro w hw
    have hall : f.all = f.causes := by simp [Event.all, hdone]
    rw [hall] at hw
    change w ∈ f.reserves at hw
    rw [he.reserves] at hw
    rcases h.works.reserves w hw with h1 | h1
    · cases h1
    · exact h1
  have hfree : t.free = m.st.free := by rw [ht, hf]
  refine ⟨fun w l => ?_, fun o => (hmoney o).1.trans (he.charge o), hfree, ?_, fun ls hl => ?_, fun g ds hg hd => ?_, ?_,
    fun w hw hw' => ?_, by rw [ht, hf]; exact h.claims, by rw [ht, hf, hm]; rfl, by rw [ht, hf, hm]; rfl, by rw [ht, hf, hm]; rfl,
    by rw [ht, hf, hm]; rfl, by rw [ht, hf, hm]; rfl, by rw [ht], by rw [ht], hmoney⟩
  · obtain ⟨sn, b, h1, -⟩ := hvol w
    rw [h1]
    rfl
  · obtain ⟨sn, b, h1, -⟩ := hvol x.dstVol
    rw [h1]
  · obtain ⟨sn, b, h1, -⟩ := hvol x.dstVol
    refine hl.logged ⟨_, sn, b, h1⟩ (fun c => by rw [h1]; rfl) fun hlost n hn => ?_
    rw [← he.overflow] at hn
    exact offered_overflow hlost n hn
  · obtain ⟨sn, b, h1, h2⟩ := hvol x.dstVol
    refine hd.filed h.visit.wf hg hfree fun i => ?_
    rw [h1]
    exact h2 i
  · obtain ⟨sn, b, h1, -⟩ := hvol x.dstVol
    obtain ⟨_, _, _, _, _, hv⟩ := h.works.own
    rw [h1, hv]
    rfl
  · rw [hend.vol, evaluated_vol_ne f fun hm' => hw (hreserves w hm'), he.other w hw hw', h.works.other w hw]
    rfl

end

end Sys2Proof.Machine
end

section
/-! PROOFS. The first visit of a resumed job (R105 to R108): the statement. -/

namespace Sys2Proof.Machine

section
variable {s : State} {tag j : Nat} {x n : Job} {m : Event} {result : List Nat}

theorem visitDone_state (s : State) (tag j : Nat) (x : Job) (m : Event) (n : Job) : ∃ vs as, (visitDone s tag j x m n).st =
    { m.st with vols := vs, accounts := as, busy := s.busy, jobs := tput j (n.endedAs .done) s.jobs } := by
  obtain ⟨vs, as, h⟩ := jobEnded_frame (visitClosed s tag j x m n).st j n .done
  refine ⟨vs, as, h.trans ?_⟩
  have hj : tput j (n.endedAs .done) (visitClosed s tag j x m n).st.jobs = tput j (n.endedAs .done) s.jobs := tput_tput ..
  rw [hj]
  unfold visitClosed
  dsimp only
  rw [unreserved_frame]

theorem visitDone_reserved (h : x.Goes n) : ((visitDone s tag j x m n).st.acct x.owner).reserved =
    (m.st.acct x.owner).reserved - 1 - n.remaining := by
  change (((visitClosed s tag j x m n).st.jobEnded j n .done).acct x.owner).reserved = _
  rw [acct_jobEnded, ← h.owner, acct_unreserved]
  change ((m.st.unreserved x.owner 1).acct n.owner).reserved - n.remaining = _
  rw [h.owner, acct_unreserved]

theorem visitNext_reserved : ((visitNext s tag j x m n).st.acct x.owner).reserved = (m.st.acct x.owner).reserved - 1 := by
  change ((m.st.unreserved x.owner 1).acct x.owner).reserved = _
  rw [acct_unreserved]

theorem visitNext_state (s : State) (tag j : Nat) (x : Job) (m : Event) (n : Job) : ∃ as, (visitNext s tag j x m n).st =
    { m.st with accounts := as, busy := s.busy ++ [n.visitItem j], jobs := tput j { n with waiting := true } s.jobs } := by
  refine ⟨(m.st.unreserved x.owner 1).accounts, ?_⟩
  unfold visitNext visitClosed
  dsimp only
  rw [unreserved_frame]

theorem endedAs_done (h : x.Goes n) : n.endedAs .done = { n with state := .done, remaining := 0 } := by
  obtain ⟨-, -, -, -, hw, hc, hs⟩ := h
  simp only [Job.endedAs, hw, hc, hs]

/-- The last notice of the event stands last in the queue. -/
theorem afterReply_last {f : Event} {l : List Notice} {k : Notice} (h : f.notices = l ++ [k]) :
    ∃ d, (afterReply f tag result).ctl = offer d k := by
  obtain ⟨d, hd⟩ := offered_last h
  refine ⟨{ d with executing := none }, ?_⟩
  change { f.offered with executing := none } = _
  rw [hd]
  exact (foldl_offer_executing [_] d none).symm

end

theorem restorePoolCheck_iff (s : State) (b : Bool) : restorePoolCheck s b = true ↔
    if b = true then 1 ≤ s.free.length else s.format.floor + 1 ≤ s.free.length := by
  unfold restorePoolCheck State.freeCount
  cases b
  · exact decide_eq_true_iff
  · exact decide_eq_true_iff

/-- The chunk that a change of an entry displaces. -/
def Form.displaced (f : Form) (lcn : Nat) : List RetEntry :=
  match f with
  | .mapped pcn born _ => [{ lcn := lcn, pcn := pcn, born := born }]
  | .unmapped _ => []

/-- Settles O37: the visit decided on the live entry and the view, and what each outcome leaves. -/
theorem restoreVisitIsDecided : Obligations.RestoreVisitIsDecided := by
  intro s tag j slot g x r hwf hserves hpart hj hx hs hcopy hwait hreq hr hpre hy hup hquiet hitems hgen v y dst live view changed same ownedBy item a place next resume replied ends room
  obtain ⟨hbusy, hdrains, -, hrq, -, hothers⟩ := hquiet
  have hfilter : (s.busy.filter fun i => i.owner != .restore j) = s.busy :=
    List.filter_eq_self.mpr fun i hi => by simpa using hitems i hi
  rw [hfilter] at hbusy
  have ht : x.target = some (dst, r.src + x.offset) := by simp only [Job.target, hr, Option.map_some]; rfl
  have h : FirstVisit s j x := {
    serves := hserves, wf := hwf, part := hpart, number := hj, job := hx, state := hs, copy := hcopy, waiting := hwait
    target := by rw [ht]; nofun
    calm := hy, shelf := hup, busy := hbusy, drains := hdrains
    others := fun p hp hne => hothers p hp fun ho => hne (BusyOwner.restore.inj ho)
    items := hitems }
  have hitem : x.visitItem j = item := by simp only [Job.visitItem, ht]; rfl
  have hpre' : (x.pre.map (·.2)).getD 0 = g := by rw [hpre]; rfl
  refine ⟨h.exec_frozen hreq, fun hf hc => ?_⟩
  have hc' : ∀ i ∈ s.busy, i.conflicts (x.visitItem j) = false := by rw [hitem]; exact hc
  have hdecide := decideVisit_visited (s := s) (tag := tag) (j := j) ht
  rw [hpre'] at hdecide
  have key : ∀ (n : Job) (kept : Bool) (m : Event), Closing s tag j x n m →
      n.rangeIdx = place.1 → n.offset = place.2 → n.ranges = x.ranges → n.remaining = x.remaining - 1 →
      n.visits = x.copied + x.cleared + x.skipped + x.unchanged + 1 →
      (m.st.acct x.owner).reserved = (s.acct x.owner).reserved →
      (∀ l, ((m.st.vol v).entry l).form = if kept = false ∧ l = dst then .unmapped y.gen else (y.entry l).form) →
      (∀ o, (m.st.acct o).charge = (s.acct o).charge - if kept = false ∧ ownedBy o = true then 1 else 0) →
      (kept = true → m.st.free = s.free ∧ (m.st.vol v).activeList = y.activeList) →
      (kept = false → LogsTo s m v [dst] ∧ FilesTo s m v y.sharingGen (live.displaced dst)) → ends n kept := by
    intro n kept m hcl hidx hoff hranges hrem hvisits hres hforms hcharges hkept hworked
    obtain ⟨vs, as, fr, hm⟩ := hcl.frame
    have htarget : n.target = (x.ranges[place.1]?).map fun q => (q.dst + place.2, q.src + place.2) := by
      rw [Job.target, hidx, hoff, hranges]
    have hcommon : ∀ {f : Event} {res : List Nat}, VisitEnds x m f → f.st.ctl.executing = none → f.done = [] →
        let t := afterReply f tag res
        (∀ l, ((t.vol v).entry l).form = if kept = false ∧ l = dst then .unmapped y.gen else (y.entry l).form) ∧
        (∀ o, (t.acct o).charge = (s.acct o).charge - if kept = false ∧ ownedBy o = true then 1 else 0) ∧
        (kept = true → t.free = s.free ∧ (t.vol v).activeList = y.activeList) ∧
        (kept = false → Logged s t v [dst] ∧ Filed s t v y.sharingGen (live.displaced dst)) ∧
        (t.vol v).gen = y.gen ∧ (∀ w, w ≠ v → w ≠ x.srcVol → t.vol w = s.vol w) ∧ t.claims = s.claims ∧
        t.shelf = s.shelf ∧ t.inflight = s.inflight ∧ t.mirror = s.mirror ∧ t.run = s.run ∧ t.returns = s.returns := by
      intro f res he hex hdone
      obtain ⟨h1, h2, h3, h4, h5, h6, h7, h8, h9, h10, h11, h12, h13, h14, -⟩ := he.leaves (tag := tag) (result := res) hcl hex hdone
      refine ⟨fun l => (h1 v l).trans (hforms l), fun o => (h2 o).trans (hcharges o), fun hk => ?_, fun hk => ?_, h7, h8, h9, h10,
        h11, h12, h13, h14⟩
      · obtain ⟨h15, h16⟩ := hkept hk
        exact ⟨h3.trans h15, h4.trans h16⟩
      · obtain ⟨h15, h16⟩ := hworked hk
        exact ⟨h5 _ h15, h6 _ _ hgen h16⟩
    refine ⟨fun hend => ?_, fun q hq hheld => ?_⟩
    · have he : VisitEnds x m (visitDone s tag j x m n) := visitDone_ends m hcl.goes.source hcl.goes.target
      obtain ⟨vs', as', hst⟩ := visitDone_state s tag j x m n
      have hex : (visitDone s tag j x m n).st.ctl.executing = none := by rw [hst, hm]; rfl
      obtain ⟨-, -, -, -, -, hdone, -⟩ : m.reports = [] ∧ m.acctNotices = [] ∧ m.notices = [] ∧ m.late = [] ∧ m.late = [] ∧
        m.done = [] ∧ m.sent = [] := by
          obtain ⟨h1, h2, h3, h4, h5, h6⟩ := hcl.rest
          exact ⟨h1, h2, h3, h4, h4, h5, h6⟩
      obtain ⟨-, -, -, -, -, -, -, -, -, -, -, -, -, -, hjobs, hbusy', hmoney⟩ := he.leaves (tag := tag) (result := [1]) hcl hex hdone
      refine ⟨afterReply (visitDone s tag j x m n) tag [1], hcl.exec_done (by rw [htarget, hend]; rfl), hcommon he hex hdone, ?_, ?_,
        ⟨_, _, rfl⟩, ?_, ?_⟩
      · rw [hjobs, hst, endedAs_done hcl.goes]
      · rw [hbusy', hst]
      · rw [(hmoney x.owner).2.1, visitDone_reserved hcl.goes, hrem, hres]
      · obtain ⟨d, hd⟩ := afterReply_last (f := visitDone s tag j x m n) (tag := tag) (result := [1]) (l := [])
          (k := s.notice .restoreEnded j 1 n.visits) rfl
        refine ⟨d, hd.trans ?_⟩
        rw [hvisits]
        rfl
    · have he : VisitEnds x m (visitNext s tag j x m n) := visitNext_ends m n
      obtain ⟨as', hst⟩ := visitNext_state s tag j x m n
      have hex : (visitNext s tag j x m n).st.ctl.executing = none := by rw [hst, hm]; rfl
      have hdone : m.done = [] := by
        obtain ⟨-, -, -, -, h5, -⟩ := hcl.rest
        exact h5
      have hn : n.visitItem j = { item with chunks := [q.dst + place.2] } := by
        simp only [Job.visitItem, htarget, hq, Option.map_some, hcl.goes.target]
        rfl
      have hconf : ∃ i ∈ s.busy, i.conflicts (n.visitItem j) = true := by
        obtain ⟨i, hi, hv, hch⟩ := hheld
        refine ⟨i, hi, ?_⟩
        rw [hn]
        simp only [BusyItem.conflicts, Bool.and_eq_true, beq_iff_eq, Bool.or_eq_true, List.any_eq_true]
        exact ⟨⟨hv, .inr rfl⟩, _, hch, by simp⟩
      obtain ⟨-, -, -, -, -, -, -, -, -, -, -, -, -, -, hjobs, hbusy', hmoney⟩ := he.leaves (tag := tag) (result := [6]) hcl hex hdone
      refine ⟨afterReply (visitNext s tag j x m n) tag [6], hcl.exec_next (by rw [htarget, hq]; nofun) hconf, hcommon he hex hdone, ?_,
        ⟨_, _, rfl⟩, ?_, ?_⟩
      · rw [hjobs, hst]
      · rw [hbusy', hst, hn]
      · rw [(hmoney x.owner).2.1, visitNext_reserved, hres]
  have hadvance : ∀ z : Job, z.ranges = x.ranges → z.rangeIdx = x.rangeIdx → z.offset = x.offset →
      z.advance = { z with rangeIdx := place.1, offset := place.2 } := by
    intro z h1 h2 h3
    unfold Job.advance
    rw [h1, h2, h3, hr]
    dsimp only [place]
    split_ifs
    · rw [← h2]
    · rfl
  have hclosing : ∀ (n : Job) (m : Event), Works v (visited s tag j x) m → m.st.claims = s.claims → x.Goes n →
      (∃ count, decideVisit j (visited s tag j x) = closeVisit j x.inVisit count m ∧
        (count { x with state := .running, remaining := x.remaining - 1 }).advance = n) → Closing s tag j x n m := by
    rintro n m h1 h2 h3 ⟨count, h4, h5⟩
    have hbase : ({ x.inVisit with waiting := false, remaining := x.inVisit.remaining - 1 } : Job) =
        { x with state := .running, remaining := x.remaining - 1 } := by simp only [Job.inVisit, ← hwait]
    exact ⟨h, hf, hc', h1, h2, h3, count, h4, by rw [hbase]; exact h5⟩
  have hgoes : ∀ n : Job, n.owner = x.owner → n.srcVol = x.srcVol → n.dstVol = x.dstVol → n.state = .running →
      n.waiting = x.waiting → n.copy = x.copy → n.suspendReq = x.suspendReq → x.Goes n :=
    fun n h1 h2 h3 h4 h5 h6 h7 => ⟨h1, h2, h3, h4, h5.trans hwait, h6.trans hcopy, h7.trans hreq⟩
  have hstands : ∀ (n : Job) (count : Job → Job), decideVisit j (visited s tag j x) =
      closeVisit j x.inVisit count (visited s tag j x) →
      (count { x with state := .running, remaining := x.remaining - 1 }).advance = n → x.Goes n →
      n.rangeIdx = place.1 → n.offset = place.2 → n.ranges = x.ranges → n.remaining = x.remaining - 1 →
      n.visits = x.copied + x.cleared + x.skipped + x.unchanged + 1 → ends n true := by
    intro n count hd hn hg h1 h2 h3 h4 h5
    refine key n true (visited s tag j x) (hclosing n _ (.refl _ _) rfl hg ⟨count, hd, hn⟩) h1 h2 h3 h4 h5 rfl (fun l => ?_)
      (fun o => ?_) (fun _ => ⟨rfl, rfl⟩) nofun
    · rw [if_neg fun hk => Bool.false_ne_true hk.1.symm]
      rfl
    · rw [if_neg fun hk => Bool.false_ne_true hk.1.symm]
      rfl
  have hchanged : ((s.vol x.dstVol).entry dst).after g = changed := rfl
  have hforms : (∃ pcn born o, live = .mapped pcn born o) ∨ ∃ c, live = .unmapped c := by
    cases live with
    | mapped pcn born o => exact .inl ⟨_, _, _, rfl⟩
    | unmapped c => exact .inr ⟨_, rfl⟩
  have hlives : ((s.vol x.dstVol).entry dst).form = live := rfl
  have hviews : viewLookup (s.vol x.srcVol) x.srcGen (r.src + x.offset) = view := rfl
  rw [hviews] at hdecide
  refine ⟨fun hch => ?_, fun hch hsame => ?_, fun hch hsame hview => ?_, fun hch hsame p hview => ?_⟩
  · have hout : visitOutcome ((s.vol x.dstVol).entry dst) view g = .skipped := by
      unfold visitOutcome
      rw [hchanged, hch]
      rfl
    rw [hout] at hdecide
    exact hstands { next with skipped := x.skipped + 1 } _ hdecide (hadvance _ rfl rfl rfl) (hgoes _ rfl rfl rfl rfl rfl rfl rfl)
      rfl rfl rfl rfl (by simp only [Job.visits, next]; omega)
  · have hout : visitOutcome ((s.vol x.dstVol).entry dst) view g = .unchanged := by
      unfold visitOutcome
      rw [hchanged, hch, if_neg Bool.false_ne_true, hlives]
      rcases hforms with ⟨pcn, born, o, hl⟩ | ⟨c, hl⟩
      · cases hw : view with
        | none => simp [same, hl, hw] at hsame
        | some p =>
          simp only [same, hl, hw, beq_iff_eq] at hsame
          rw [hl]
          exact if_pos hsame
      · cases hw : view with
        | none => rw [hl]
        | some p => simp [same, hl, hw] at hsame
    rw [hout] at hdecide
    exact hstands { next with unchanged := x.unchanged + 1 } _ hdecide (hadvance _ rfl rfl rfl)
      (hgoes _ rfl rfl rfl rfl rfl rfl rfl) rfl rfl rfl rfl (by simp only [Job.visits, next]; omega)
  · obtain ⟨pcn, born, o, hl⟩ : ∃ pcn born o, live = .mapped pcn born o := by
      rcases hforms with h1 | ⟨c, hl⟩
      · exact h1
      · simp [same, hl, hview] at hsame
    have hout : visitOutcome ((s.vol x.dstVol).entry dst) view g = .cleared := by
      unfold visitOutcome
      rw [hchanged, hch, if_neg Bool.false_ne_true, hlives, hview, hl]
    rw [hout] at hdecide
    have hform : (((visited s tag j x).st.vol v).entry dst).form = .mapped pcn born o := hl
    have hsorted : Table.sorted (s.vol v).snaps = true := ((Volume.wf_iff _).mp (State.wf_vol hwf v)).2
    obtain ⟨vs, fr, hst⟩ := clearChunk_frame hform
    have hacct : ∀ k, (clearChunk v dst (visited s tag j x)).st.acct k = ((visited s tag j x).st.uncharged o).acct k := by
      intro k
      rw [hst]
      rfl
    refine key { next with cleared := x.cleared + 1 } false (clearChunk v dst (visited s tag j x))
      (hclosing _ _ (works_clearChunk _ _) (by rw [hst]; rfl) (hgoes _ rfl rfl rfl rfl rfl rfl rfl)
        ⟨_, hdecide, hadvance _ rfl rfl rfl⟩) rfl rfl rfl rfl (by simp only [Job.visits, next]; omega) ?_ (fun l => ?_) (fun k => ?_)
      nofun fun _ => ⟨logs_clearChunk hform rfl rfl, ?_⟩
    · rw [hacct, State.uncharged]
      by_cases ho : x.owner = o
      · rw [← ho, State.acct_setAcct]
        rfl
      · rw [State.acct_setAcct_ne _ _ _ _ ho]
        rfl
    · rw [form_clearChunk hform]
      by_cases hld : l = dst
      · rw [if_pos hld, if_pos ⟨rfl, hld⟩]
        rfl
      · rw [if_neg hld, if_neg fun hk => hld hk.2]
        rfl
    · rw [hacct, charge_uncharged]
      have howned : (k = o) ↔ (false = false ∧ ownedBy k = true) := by
        simp only [ownedBy, hl, beq_iff_eq, true_and]
        exact eq_comm
      simp only [howned]
      rfl
    · rw [show live.displaced dst = [{ lcn := dst, pcn := pcn, born := born }] from by rw [hl]; rfl]
      exact files_clearChunk hform rfl rfl hsorted
  · have hout : visitOutcome ((s.vol x.dstVol).entry dst) view g = .copied p := by
      unfold visitOutcome
      rw [hchanged, hch, if_neg Bool.false_ne_true, hlives, hview]
      rcases hforms with ⟨pcn, born, o, hl⟩ | ⟨c, hl⟩
      · simp only [same, hl, hview, beq_eq_false_iff_ne] at hsame
        rw [hl]
        exact if_neg hsame
      · rw [hl]
    rw [hout] at hdecide
    have hcheck : restorePoolCheck s x.override = true ↔ room := restorePoolCheck_iff s x.override
    refine ⟨fun hno => h.exec_noRoom hreq hf hc' hdecide (Bool.eq_false_iff.mpr fun hk => hno (hcheck.mp hk)), fun hroom => ?_⟩
    have hexec := h.exec_copies hreq hf hc' hdecide (hcheck.mpr hroom)
    let c : Copy := { lcn := dst, srcPcn := p, pcn := s.free.headD 0, gen := y.sharingGen, stage := .reading }
    let f : Event :=
      { st := copyBegun s j x c, accts := touching x.owner [], poolTouched := true
        todo := { retest := true, pool := true, jobs := true, grant := true, answer := some (resumeAnswer tag j) } }
    have hend : Ended f (afterReply f tag [6]) := ended_answered rfl ..
    have hvols : (afterReply f tag [6]).vols = s.vols := evaluated_vols (f := f) rfl
    obtain ⟨t, ht0, hout⟩ : ∃ t, t = afterReply f tag [6] ∧ replied 6 t := ⟨_, rfl, _, _, rfl⟩
    refine ⟨t, by rw [ht0]; exact hexec, ?_⟩
    rw [← ht0] at hend hvols
    obtain ⟨b, vs, as, q, c', o', fi, ht'⟩ := hend.frame
    obtain ⟨hcharge, hreserved, -⟩ : (t.acct x.owner).sameMoney (f.st.acct x.owner) := by
      rw [hend.acct]
      exact evaluated_acct f _
    have hacct : f.st.acct x.owner = { a with reserved := a.reserved - 1, charge := a.charge + 1 } :=
      State.acct_setAcct s.decided x.owner { a with reserved := a.reserved - 1, charge := a.charge + 1 }
    rw [hacct] at hcharge hreserved
    refine ⟨by rw [ht']; rfl, by rw [ht']; rfl, by rw [ht']; rfl, hvols, hout, hcharge, hreserved, fun o ho => ?_, ?_, ?_, by rw [ht']; rfl,
      by rw [ht']; rfl, by rw [ht']; rfl, by rw [ht']; rfl⟩
    · have hno : o ∉ f.all.accts := by
        intro hm
        rcases mem_touching hm with hm | hm
        · exact ho hm
        · cases hm
      rw [hend.acct, evaluated_acct_ne f hno (List.not_mem_nil)]
      exact State.acct_setAcct_ne s.decided x.owner o { a with reserved := a.reserved - 1, charge := a.charge + 1 } ho
    · rw [ht', ← hitem]
      rfl
    · rw [ht']
      simp only [f, copyBegun, hrq, List.nil_append]
      rfl

end Sys2Proof.Machine
end

section
/-! PROOFS. The answer of a drain's control request that is named as a NOTICE FETCH (R27, R190). -/

namespace Sys2Proof.Machine

/-! ### A freeze that is named a NOTICE FETCH

The statement asks nothing of the number of the executing request, and the reply OK of request 38 carries the notices that it
takes (R190). With that number in the slot the answer of a freeze whose drain ends is a reply to a NOTICE FETCH. -/

def fetchingRead : ShelfCmd :=
  { kind := .read, cls := .foreground, pcn := 0, first := 0, count := 1, data := [], owner := .request 0 0 .readData }

/-- A part with a READ of volume 0 in hand, which is the one member of the volume's freeze drain; request 38 executes. -/
def fetchingPart : State :=
  { State.reset with
    vols := [(0, { Volume.absent with
      state := .freezing, size := 1, drain := some { work := .refusing [.control], members := [.front 0], timeout := 20 } })]
    inflight := [
      { arrival := 0, req := { tag := 3, kind := .read, vol := 0, view := none, start := 0, count := 1, owner := 0 },
        state := .active, gen := 0, plan := [], claims := [], charges := [], left := 1, failed := false, data := [0] }]
    nextArrival := 1
    busy := [{ owner := .front 0, vol := 0, chunks := [0], change := false, proceeded := true }]
    shelf := { Shelf.atReset 1 with up := true, slots := [(0, { cmd := fetchingRead, epoch := 1, use := 1, timeout := 50 })] }
    ctl := { State.reset.ctl with part := .running, executing := some { tag := 1, number := 38 } } }

/-- The same part without the drain, and what the end of the READ leaves of it. -/
def fetchingAlone : State :=
  let x : Volume := { fetchingPart.vol 0 with drain := none, waiting := [], holdList := [] }
  { fetchingPart with vols := tset Volume.absent 0 x fetchingPart.vols }

def readEnds : Instr := .shelfReply 0 1 1 false (.done [0] 0)


theorem exec_fetchingAlone : ∃ u, exec readEnds fetchingAlone = .next u ∧ u.inflight = [] ∧ u.yielding = fetchingPart.yielding ∧
    u.jobs = [] ∧ u.out = [.front 0 1 .ok 3 1 [0]] ∧ u.vol 0 = { Volume.absent with state := .freezing, size := 1 } :=
  ⟨_, rfl, rfl, rfl, rfl, rfl, rfl⟩

/-- The reply of the freeze carries the number of the notices that it takes, and a notice. -/
theorem exec_fetchingPart : ∃ t, exec readEnds fetchingPart = .next t ∧
    t.out = [.front 0 1 .ok 3 1 [0], .control false false 38 1 .ok [1, 65536, 0, 0, 0, 0]] := ⟨_, rfl, rfl⟩

/-- A drain at whose end nothing is released, with no other behind it. -/
theorem releaseWaits_of {s : State} {v : Nat} (hj : s.jobs = []) (hh : (s.vol v).holdList = []) (hw : (s.vol v).waiting = []) :
    s.releaseWaits v := by
  refine ⟨by simp [hj], fun h => absurd hh h, ?_⟩
  rw [hw]
  nofun

/-- Refutes O29: the freeze in whose slot request 38 executes is answered OK with notices. -/
theorem not_drainsBeginAndTimeOut : ¬ Obligations.DrainsBeginAndTimeOut := by
  rintro ⟨-, -, h⟩
  obtain ⟨u, hu, hinflight, hyield, hjobs, hout, hvol⟩ := exec_fetchingAlone
  obtain ⟨t, ht, houts⟩ := exec_fetchingPart
  have hquiet : fetchingAlone.quietBut (.front 0) := by unfold State.quietBut; decide
  have hends := (h fetchingPart 0 0 { cmd := fetchingRead, epoch := 1, use := 1, timeout := 50 } (.done [0] 0) (.front 0)
    { work := .refusing [.control], members := [.front 0], timeout := 20 } { tag := 1, number := 38 } u (by decide) rfl rfl rfl rfl
    (by decide) rfl rfl (by exact hquiet) hu hyield
    ⟨⟨_, List.mem_singleton_self _, rfl, rfl⟩, ⟨0, .readData, rfl⟩, by rw [hinflight]; nofun⟩).1 rfl
  have hv : ∀ z : Volume, ({ u with vols := tset Volume.absent 0 z u.vols } : State).vol 0 = z := fun z => tget_tset_same ..
  have hwaits := ht.symm.trans (hends (releaseWaits_of hjobs (by rw [hv]; rfl) (by rw [hv]; rfl)))
  rw [Host.Outcome.next.injEq] at hwaits
  have hlast := congrArg State.out hwaits
  rw [houts] at hlast
  simp only [hout] at hlast
  exact absurd hlast (by simp)

end Sys2Proof.Machine
end

section
/-! PROOFS. The scan of one LCN (O42): what the engine makes of it, and the turn of the engine or of the port behind it. -/

namespace Sys2Proof.Machine

/-! ### An event that ends in turns -/

/-- The rest of an event that has nothing to answer. -/
theorem ends_rests {e : Event} (hs : e.Settled) (ha : e.todo.answer = none) :
    Ends (10 + e.todo.drainBegin.length) e { e with todo := {} } := by
  have h := ends_settled hs
  rwa [Event.sendAnswer, ha] at h

/-- What an event leaves whose turns end with some frames and notices. -/
theorem runEvent_ends {s t : State} {f : Event → Event} {k : Nat} {ns : List Notice} {outs : List Output}
    (hf : Ends k (f (openEvent s)) { st := { t with out := outs }, notices := ns }) (ho : ∀ o ∈ outs, o.isPlain = true)
    (hk : k ≤ 1000) : runEvent s f = { State.closed { t with ctl := ns.foldl offer t.ctl } with out := outs } := by
  have hdue : ({ st := { t with out := outs }, notices := ns } : Event).evaluate.2.due
      ({ st := { t with out := outs }, notices := ns } : Event).causes = ns := by
    change [] ++ [] ++ [] ++ [] ++ [] ++ ns = ns
    rfl
  rw [runEvent, hf.runTodo hk, closeEvent_quiet rfl ho]
  unfold Event.offered
  rw [hdue]
  rfl

/-- The port waits: it may not transmit. -/
theorem portRests_of {s : State} (h : s.port.up = false ∨ s.port.held = true ∨ s.port.pace < s.port.nextSend) :
    s.PortRests := by
  rintro e rfl
  have hc : e.st.port.clear = false := by
    unfold Port.clear
    rcases h with h | h | h
    · simp [h]
    · simp [h]
    · simp [show ¬ e.st.port.nextSend ≤ e.st.port.pace from by omega]
  unfold portTurn
  dsimp only
  rw [if_pos (by simp [hc])]

/-! ### The visit of one LCN -/

/-- A full scan has an LCN to visit (R131). -/
def State.scans (s : State) : Prop :=
  s.ctl.part ≠ .recovering ∧ s.run.sending = true ∧ s.run.fullScan = true ∧ s.run.scanRead = false ∧
    ∃ v, s.currentVol = some v ∧ s.run.pos < (s.vol v).size

/-- The volume whose stamp the scan has swept at its position. -/
def Volume.swept (x : Volume) (lcn : Nat) : Volume :=
  if (x.entry lcn).stamp = some x.runCounter then x else x.setEntry lcn { x.entry lcn with stamp := none }

/-- The stamp of the scan's position is swept. -/
def State.swept (s : State) (v : Nat) : State :=
  if ((s.vol v).entry s.run.pos).stamp = some (s.vol v).runCounter then s
  else s.setVol v ((s.vol v).setEntry s.run.pos { (s.vol v).entry s.run.pos with stamp := none })

/-- The run with the LCN of its position in its clear run. -/
def Run.gathered (r : Run) : Run :=
  { r with clearStart := if r.clearCount = 0 then r.pos else r.clearStart, clearCount := r.clearCount + 1, pos := r.pos + 1 }

/-- The run with its clear run made a frame. -/
def State.clearMade (s : State) (v : Nat) (r : Run) : State :=
  { s with run := { r with frames := r.frames ++ [chunkClearFrame { s with run := r } v r.clearStart r.clearCount] } }

theorem swept_run (s : State) (v : Nat) : (s.swept v).run = s.run := by
  unfold State.swept
  split_ifs <;> rfl

theorem scanStep_eq {e : Event} {v : Nat} (hv : e.st.currentVol = some v) (hs : e.st.scans) :
    scanStep e =
      let r := match runView (e.st.vol v) e.st.run.pos with
        | some _ => { e.st.run with scanRead := true }
        | none => e.st.run.gathered
      if r.clearCount ≠ 0 ∧ (r.scanRead ∨ 65535 ≤ r.clearCount ∨ (e.st.vol v).size ≤ r.pos) then
        { e with st := (e.st.swept v).clearMade v r, todo := { e.todo with port := true } }
      else { e with st := { e.st.swept v with run := r }, todo := { e.todo with engine := true } } := by
  obtain ⟨hp, hr, hf, hn, w, hw, hpos⟩ := hs
  obtain rfl : v = w := Option.some.inj (hv.symm.trans hw)
  unfold scanStep
  rw [hv]
  dsimp only
  rw [if_neg (by rintro (h | h | h | h | h); exacts [hp h, h hr, h hf, by simp [hn] at h, by omega])]
  unfold State.swept
  by_cases hm : ((e.st.vol v).entry e.st.run.pos).stamp = some (e.st.vol v).runCounter
  · rw [if_pos hm, if_pos hm]
    cases runView (e.st.vol v) e.st.run.pos <;> rfl
  · rw [if_neg hm, if_neg hm]
    cases runView (e.st.vol v) e.st.run.pos <;> rfl

theorem scanStep_rests {e : Event} (h : ¬ e.st.scans) : scanStep e = e := by
  unfold scanStep
  cases hv : e.st.currentVol with
  | none => rfl
  | some v =>
    dsimp only
    by_cases hw : e.st.ctl.part = .recovering ∨ ¬ e.st.run.sending ∨ ¬ e.st.run.fullScan ∨ e.st.run.scanRead ∨
        (e.st.vol v).size ≤ e.st.run.pos
    · rw [if_pos hw]
    · refine absurd ?_ h
      simp only [not_or, not_not] at hw
      exact ⟨hw.1, hw.2.1, hw.2.2.1, by simpa using hw.2.2.2.1, v, hv, by omega⟩

/-! ### The turns behind it -/

/-- The engine's turn in the send of a volume. -/
theorem engineTurn_sends {e : Event} {v : Nat} (hp : e.st.ctl.part ≠ .recovering) (hv : e.st.currentVol = some v)
    (hs : e.st.run.sending = true) : engineTurn e = sendNext v e := by
  have hph : e.st.run.phase = .send := ((sending_iff _).mp hs).2.2.1
  have hdue : e.st.freezeDue = none := by simp [State.freezeDue, hph]
  unfold engineTurn
  rw [if_neg hp, hv]
  dsimp only
  rw [hdue, if_neg (by simp), if_pos hs]

theorem ends_idle (e : Event) : Ends 0 { e with todo := {} } { e with todo := {} } :=
  fun _ => runTodo_of_none (turn_of_idle rfl) _

/-- An event whose only work is the engine's turn, which calls for nothing more. -/
theorem ends_engineTurn {e e' : Event} {g : Bool} (ht : engineTurn { e with todo := {} } = { e' with todo := { grant := g } })
    (hg : g = true → e'.st.shelf.up = false ∨ e'.st.shelf.freeSlot = none ∨ e'.st.shelf.choose = none) :
    Ends 2 { e with todo := { engine := true } } { e' with todo := {} } := by
  refine Ends.turn (e' := { e' with todo := { grant := g } }) ?_ (ends_grantFlag g e' hg)
  exact congrArg some ht

/-- An event whose only work is a port that may not transmit. -/
theorem ends_portWaits {e : Event} (h : e.st.PortRests) : Ends 1 { e with todo := { port := true } } { e with todo := {} } := by
  refine Ends.turn (e' := { e with todo := {} }) ?_ (ends_idle e)
  exact congrArg some (h _ rfl)

theorem swept_eq (s : State) (v : Nat) : s.swept v = { s with
    vols := if ((s.vol v).entry s.run.pos).stamp = some (s.vol v).runCounter then s.vols
      else tset Volume.absent v ((s.vol v).setEntry s.run.pos { (s.vol v).entry s.run.pos with stamp := none }) s.vols } := by
  unfold State.swept
  split_ifs <;> rfl

/-- The sweep changes no chunk's form, so no view. -/
theorem runView_setEntry (x : Volume) (lcn : Nat) {m : MapEntry} (hm : m.form = (x.entry lcn).form) :
    runView (x.setEntry lcn m) lcn = runView x lcn := by
  have he : (x.setEntry lcn m).entry lcn = m := tget_tset_same ..
  change viewLookup (x.setEntry lcn m) (((tfind x.snaps 0).map Snap.gen).getD 0) lcn = _
  unfold viewLookup
  rw [he, hm]
  rfl

theorem runView_swept (s : State) (v : Nat) : runView ((s.swept v).vol v) s.run.pos = runView (s.vol v) s.run.pos := by
  unfold State.swept
  split_ifs
  · rfl
  · rw [State.vol_setVol]
    exact runView_setEntry _ _ rfl

theorem prepareLcn_reads {e : Event} {v lcn pcn : Nat} (h : runView (e.st.vol v) lcn = some pcn) :
    prepareLcn v lcn e = { e with
      st := { e.st with
        run := { e.st.run with reading := some { lcn := lcn, reissued := false }, scanRead := false }
        shelf := { e.st.shelf with offsiteQueue := e.st.shelf.offsiteQueue ++ [sendRead e.st.format.k pcn] } }
      todo := { e.todo with grant := true } } := by
  unfold prepareLcn
  rw [h]
  rfl

theorem prepareLcn_clears {e : Event} {v lcn : Nat} (h : runView (e.st.vol v) lcn = none) :
    prepareLcn v lcn e = readyFrame (fun s => chunkClearFrame s v lcn 1) e := by
  unfold prepareLcn
  rw [h]

/-! ### The events -/

section
variable {s : State} {v : Nat}

theorem exec_scan_rests (h : ¬ s.scans) : exec .fullScanStep s = .next s.closed :=
  congrArg Host.Outcome.next (runEvent_silent (scanStep_rests h))

/-- An LCN joins a clear run that is not closed yet. -/
theorem exec_scan_gathers (hv : s.currentVol = some v) (hs : s.scans) (hview : runView (s.vol v) s.run.pos = none)
    (hc : s.run.clearCount + 1 < 65535) (hp : s.run.pos + 1 < (s.vol v).size) :
    exec .fullScanStep s = .next ({ s.swept v with run := s.run.gathered } : State).closed := by
  let r := s.run.gathered
  have hscan : scanStep (openEvent s) = { ({ st := { s.swept v with run := r, out := [] } } : Event) with todo := { engine := true } } := by
    rw [scanStep_eq (e := openEvent s) hv hs]
    dsimp only
    rw [show runView ((openEvent s).st.vol v) (openEvent s).st.run.pos = none from hview]
    dsimp only
    rw [if_neg]
    · rw [swept_eq, swept_eq]
      rfl
    · rintro ⟨-, h | h | h⟩
      · exact absurd (hs.2.2.2.1.symm.trans h) (by simp)
      · exact absurd h (by change ¬ 65535 ≤ s.run.clearCount + 1; omega)
      · exact absurd h (by change ¬ (s.vol v).size ≤ s.run.pos + 1; omega)
  have hturn : engineTurn { st := { s.swept v with run := r, out := [] } } = { st := { s.swept v with run := r, out := [] } } := by
    rw [engineTurn_sends (v := v) (by rw [swept_eq]; exact hs.1) (by rw [swept_eq]; exact hv) (by exact hs.2.1)]
    unfold sendNext
    dsimp only
    rw [if_pos (by exact hs.2.2.1), if_pos (by exact Nat.succ_ne_zero _)]
  have hends := ends_engineTurn (g := false) (e := { st := { s.swept v with run := r, out := [] } })
    (e' := { st := { s.swept v with run := r, out := [] } }) hturn nofun
  rw [← hscan] at hends
  exact congrArg Host.Outcome.next (runEvent_ends (ns := []) (t := { s.swept v with run := r }) hends (by simp) (by omega))

/-- A closed clear run is a ready frame. -/
theorem exec_scan_closes (hv : s.currentVol = some v) (hs : s.scans) {r : Run}
    (hr : r = match runView (s.vol v) s.run.pos with
      | some _ => { s.run with scanRead := true }
      | none => s.run.gathered)
    (hc : r.clearCount ≠ 0) (hd : r.scanRead ∨ 65535 ≤ r.clearCount ∨ (s.vol v).size ≤ r.pos)
    (hw : s.port.up = false ∨ s.port.held = true ∨ s.port.pace < s.port.nextSend) :
    exec .fullScanStep s = .next ((s.swept v).clearMade v r).closed := by
  let u := { (s.swept v).clearMade v r with out := [] }
  have hscan : scanStep (openEvent s) = { ({ st := u } : Event) with todo := { port := true } } := by
    rw [scanStep_eq (e := openEvent s) hv hs]
    dsimp only
    rw [← show r = match runView ((openEvent s).st.vol v) (openEvent s).st.run.pos with
      | some _ => { (openEvent s).st.run with scanRead := true }
      | none => (openEvent s).st.run.gathered from hr, if_pos ⟨hc, hd⟩]
    unfold u State.clearMade
    rw [swept_eq, swept_eq]
    rfl
  have hends := ends_portWaits (e := { st := u }) (portRests_of (by simp only [u, State.clearMade, swept_eq]; exact hw))
  rw [← hscan] at hends
  exact congrArg Host.Outcome.next (runEvent_ends (ns := []) (t := (s.swept v).clearMade v r) hends (by simp) (by omega))

/-- The read of a mapped view is handed over. -/
theorem exec_scan_reads (hv : s.currentVol = some v) (hs : s.scans) {pcn : Nat} (hview : runView (s.vol v) s.run.pos = some pcn)
    (hc : s.run.clearCount = 0) (hu : s.shelf.up = false) :
    exec .fullScanStep s = .next ({ s.swept v with
      run := { s.run with reading := some { lcn := s.run.pos, reissued := false } }
      shelf := { s.shelf with offsiteQueue := s.shelf.offsiteQueue ++ [sendRead s.format.k pcn] } } : State).closed := by
  let r : Run := { s.run with scanRead := true }
  let p : Shelf := { s.shelf with offsiteQueue := s.shelf.offsiteQueue ++ [sendRead s.format.k pcn] }
  let q : Run := { s.run with reading := some { lcn := s.run.pos, reissued := false } }
  have hscan : scanStep (openEvent s) = { ({ st := { s.swept v with run := r, out := [] } } : Event) with todo := { engine := true } } := by
    rw [scanStep_eq (e := openEvent s) hv hs]
    dsimp only
    rw [show runView ((openEvent s).st.vol v) (openEvent s).st.run.pos = some pcn from hview]
    dsimp only
    rw [if_neg (fun h => h.1 hc)]
    rw [swept_eq, swept_eq]
    rfl
  have hturn : engineTurn { st := { s.swept v with run := r, out := [] } } =
      { st := { s.swept v with run := q, shelf := p, out := [] }, todo := { grant := true } } := by
    rw [engineTurn_sends (v := v) (by rw [swept_eq]; exact hs.1) (by rw [swept_eq]; exact hv) (by exact hs.2.1)]
    unfold sendNext
    dsimp only
    rw [if_pos (by exact hs.2.2.1), if_neg (by exact not_not.mpr hc), if_pos (by rfl)]
    rw [prepareLcn_reads (pcn := pcn) (by exact (runView_swept s v).trans hview)]
    rw [swept_eq]
    have hq : ({ r with reading := some { lcn := s.run.pos, reissued := false }, scanRead := false } : Run) = q := by
      change _ = ({ s.run with reading := some { lcn := s.run.pos, reissued := false }, scanRead := s.run.scanRead } : Run)
      rw [hs.2.2.2.1]
    rw [← hq]
  have hends := ends_engineTurn (g := true) (e := { st := { s.swept v with run := r, out := [] } })
    (e' := { st := { s.swept v with run := q, shelf := p, out := [] } }) hturn (fun _ => .inl hu)
  rw [← hscan] at hends
  exact congrArg Host.Outcome.next (runEvent_ends (ns := []) (t := { s.swept v with run := q, shelf := p }) hends (by simp) (by omega))

end

/-- Settles O42: a full scan visits one LCN in each event. -/
theorem fullScanStepVisitsOneLcn : Obligations.FullScanStepVisitsOneLcn := by
  unfold Obligations.FullScanStepVisitsOneLcn
  intro s v
  dsimp only
  have hscan : ∀ hv : s.currentVol = some v, (s.ctl.part ≠ .recovering ∧ s.run.state ≠ .idle ∧ s.run.state ≠ .stopping ∧
      s.run.phase = .send ∧ s.run.frames = [] ∧ s.run.reading = none ∧ s.run.shelfMark = false ∧ s.run.fullScan = true ∧
      s.run.scanRead = false ∧ s.run.pos < (s.vol v).size) ↔ s.scans := by
    intro hv
    unfold State.scans
    rw [sending_iff, hv]
    simp only [Option.some.injEq, exists_eq_left', ne_eq]
    tauto
  have hswept : ∀ _ : s.currentVol = some v, (if ((s.vol v).entry s.run.pos).stamp = some (s.vol v).runCounter then s.vols
      else tset Volume.absent v (if ((s.vol v).entry s.run.pos).stamp = some (s.vol v).runCounter then s.vol v
        else { s.vol v with map := tset MapEntry.fresh s.run.pos { (s.vol v).entry s.run.pos with stamp := none } (s.vol v).map }) s.vols)
      = (s.swept v).vols := by
    intro _
    rw [swept_eq]
    by_cases hm : ((s.vol v).entry s.run.pos).stamp = some (s.vol v).runCounter
    · simp [hm]
    · simp [hm, Volume.setEntry]
  have hback : ∀ (r : Run) (p : Shelf), ({ s with vols := (s.swept v).vols, run := r, shelf := p } : State) =
      { s.swept v with run := r, shelf := p } := by
    intro r p
    rw [swept_eq]
  refine ⟨fun hn => exec_scan_rests fun h => ?_, fun hv hn => exec_scan_rests fun h => hn ((hscan hv).mpr h), fun hv hs _ => ?_⟩
  · obtain ⟨w, hw, -⟩ := h.2.2.2.2
    simp [hn] at hw
  have hsc := (hscan hv).mp hs
  rw [hswept hv]
  obtain ⟨-, -, -, -, hfr, -, -, -, hsr, -⟩ := hs
  refine ⟨fun hview hc hp => ?_, fun hview hcl hw => ?_, fun pcn hview hc hw => ?_, fun pcn hview hc hu => ?_⟩
  · refine (exec_scan_gathers hv hsc hview hc hp).trans ?_
    rw [swept_eq]
    rfl
  · refine (exec_scan_closes hv hsc (r := s.run.gathered) (by rw [show runView _ _ = none from hview]) (by simp [Run.gathered]) (.inr hcl) hw).trans ?_
    unfold State.clearMade
    rw [swept_eq, show s.run.gathered.frames = [] from hfr]
    rfl
  · refine (exec_scan_closes hv hsc (r := { s.run with scanRead := true }) (by rw [show runView _ _ = some pcn from hview]) hc (.inl rfl) hw).trans ?_
    unfold State.clearMade
    dsimp only
    rw [swept_eq, hfr]
    rfl
  · refine (exec_scan_reads hv hsc hview hc hu).trans ?_
    rw [swept_eq]
    rfl

end Sys2Proof.Machine
end

section
/-! PROOFS. A retry of the offsite port and the loss of its link (O45), and what the port does where it may not transmit. -/

namespace Sys2Proof.Machine

theorem ends_of_idle {e : Event} (h : e.todo = {}) : Ends 0 e e := fun _ => runTodo_of_none (turn_of_idle h) _

/-- A run whose link is lost (R136). -/
def Run.linkDown (r : Run) : Run :=
  if r.state = .idle then r
  else { r with linkMark := true, state := if r.state = .active ∨ r.state = .closing then .suspendedLink else r.state }

/-- The notice of the loss of the link. -/
def State.linkLost (s : State) (reason : Nat) : Notice :=
  s.notice .linkLost (s.port.site.getD 0) reason s.port.outstanding.length

/-- The link is lost: the port sends no more, and the run is suspended (R142, R136). -/
theorem linkLost_eq (reason : Nat) (e : Event) : linkLost reason e = { e with
    st := { e.st with
      port := { e.st.port with up := false, ackTimer := none, held := false, resendPos := none }
      run := e.st.run.linkDown }
    notices := e.notices ++ [e.st.linkLost reason] } := by
  unfold linkLost engineLinkDown Run.linkDown
  dsimp only
  by_cases h : e.st.run.state = .idle
  · rw [if_pos h, if_pos (by exact h)]
    rfl
  · rw [if_neg h, if_neg (by exact h)]
    rfl

/-- What a retry leaves (R151, R152). -/
def State.retried (s : State) (m : Nat) : State :=
  if s.ctl.config.retryLimit < s.port.retry + 1 then
    { s with
      port := { s.port with retry := s.port.retry + 1, up := false, ackTimer := none, held := false, resendPos := none }
      run := s.run.linkDown
      ctl := offer s.ctl (s.linkLost 2) }
  else { s with port := { s.port with retry := s.port.retry + 1, resendPos := some m } }

/-- An event that makes a retry while the pacing time has not come. -/
theorem runEvent_retry {s : State} {f : Event → Event} {m : Nat} {timer : Option Nat}
    (hf : f (openEvent s) = retryFrom m ((openEvent s).updPort fun p => { p with ackTimer := timer }))
    (hw : s.port.pace < s.port.nextSend) :
    runEvent s f = (State.retried { s with port := { s.port with ackTimer := timer } } m).closed := by
  unfold State.retried
  split_ifs with hr
  · refine (runEvent_ends (k := 0) (outs := []) (ns := [s.linkLost 2]) (t := { s with
      port := { s.port with retry := s.port.retry + 1, up := false, ackTimer := none, held := false, resendPos := none }
      run := s.run.linkDown }) ?_ (by simp) (by omega)).trans rfl
    rw [hf]
    unfold retryFrom
    dsimp only
    rw [if_pos (by exact hr), linkLost_eq]
    exact ends_of_idle rfl
  · refine (runEvent_ends (k := 1) (outs := []) (ns := []) (t := { s with
      port := { s.port with retry := s.port.retry + 1, ackTimer := timer, resendPos := some m } }) ?_ (by simp)
        (by omega)).trans rfl
    rw [hf]
    unfold retryFrom
    dsimp only
    rw [if_neg (by exact hr)]
    exact ends_portWaits (e := { st := { s with
      port := { s.port with retry := s.port.retry + 1, ackTimer := timer, resendPos := some m }, out := [] } })
      (portRests_of (.inr (.inr hw)))

theorem retried_closed (s : State) (m : Nat) (timer : Option Nat) :
    (State.retried { s with port := { s.port with ackTimer := timer } } m).closed =
      if s.ctl.config.retryLimit < s.port.retry + 1 then
        ({ s with
          port := { s.port with
            retry := s.port.retry + 1, up := false, ackTimer := none, held := false, resendPos := none }
          run := if s.run.state = .idle then s.run
            else { s.run with
              linkMark := true
              state := if s.run.state = .active ∨ s.run.state = .closing then .suspendedLink else s.run.state }
          ctl := offer s.ctl
            { kind := .linkLost, time := if s.sched.clockSet then s.sched.clock else 0, subject := s.port.site.getD 0, d1 := 2,
              d2 := s.port.outstanding.length } } : State).closed
      else ({ s with port := { s.port with retry := s.port.retry + 1, ackTimer := timer, resendPos := some m } } : State).closed := by
  unfold State.retried
  by_cases h : s.ctl.config.retryLimit < s.port.retry + 1
  · rw [if_pos (by exact h), if_pos h]
    rfl
  · rw [if_neg (by exact h), if_neg h]

/-- Settles O45: a NAK and the acknowledgement timer retry, and past the limit the link is lost. -/
theorem nakAndAckTimerRetry : Obligations.NakAndAckTimerRetry := by
  unfold Obligations.NakAndAckTimerRetry
  intro s n run hw
  dsimp only
  refine ⟨fun hup hrun => ?_, fun hn => ?_, fun h => ?_, fun k f hk hf => ?_⟩
  · have hrow : exec (.nak n run) s = .next (runEvent s (takeNak n)) := by
      refine congrArg Host.Outcome.next (congrArg (fun e => closeEvent (runTodo turnBound e)) ?_)
      exact if_pos ⟨hup, hrun⟩
    rw [hrow]
    by_cases hany : ∃ f ∈ s.port.outstanding, f.seq = n
    · rw [if_pos hany, ← retried_closed]
      exact congrArg Host.Outcome.next (runEvent_retry (timer := s.port.ackTimer) (if_pos (by simpa [openEvent] using hany)) hw)
    · rw [if_neg hany]
      exact congrArg Host.Outcome.next (runEvent_silent (if_neg (by simpa [openEvent] using hany)))
  · refine congrArg Host.Outcome.next (runEvent_silent (t := { s with port := { s.port with ignored := s.port.ignored + 1 } }) ?_)
    exact if_neg hn
  · refine congrArg Host.Outcome.next (runEvent_silent ?_)
    unfold ackTimerIn Port.oldest
    rcases h with h | h
    · rw [show (openEvent s).st.port.ackTimer = none from h]
      rfl
    · rw [show (openEvent s).st.port.outstanding = [] from h]
      cases (openEvent s).st.port.ackTimer <;> rfl
  · rw [← retried_closed]
    refine congrArg Host.Outcome.next (runEvent_retry ?_ hw)
    unfold ackTimerIn Port.oldest
    rw [show (openEvent s).st.port.ackTimer = some k from hk, show (openEvent s).st.port.outstanding.head? = some f from hf]
    rfl

end Sys2Proof.Machine
end

section
/-! PROOFS. The arbiter's grant of the one free shelf slot (O47). -/

namespace Sys2Proof.Machine

/-! ### Free slots -/

theorem freeSlot_none {p : Shelf} (h : ∀ n, n ≤ 63 → tfind p.slots n ≠ none) : p.freeSlot = none := by
  unfold Shelf.freeSlot
  rw [List.find?_eq_none]
  intro n hn
  have hn : n < 64 := List.mem_range.mp hn
  simpa using h n (by omega)

/-- The one free slot. -/
theorem freeSlot_only {p : Shelf} {slot : Nat} (hs : slot ≤ 63) (hf : tfind p.slots slot = none)
    (h : ∀ n, n ≤ 63 → n ≠ slot → tfind p.slots n ≠ none) : p.freeSlot = some slot := by
  unfold Shelf.freeSlot
  cases hr : (List.range Config.shelfSlots).find? fun i => (tfind p.slots i).isNone with
  | none =>
    rw [List.find?_eq_none] at hr
    exact absurd hf (by simpa using hr slot (List.mem_range.mpr (by unfold Config.shelfSlots; omega)))
  | some n =>
    have hn : n < 64 := List.mem_range.mp (List.mem_of_find?_eq_some hr)
    by_contra hne
    exact h n (by omega) (fun he => hne (congrArg some he)) (by simpa using List.find?_some hr)

/-! ### One grant -/

/-- The requests after a grant: the in-place write of a chunk has taken a slot (R37). -/
def State.slotted (s : State) (d : ShelfCmd) : List Entry :=
  match d.owner with
  | .request a l .inPlace => s.inflight.map fun x =>
    if x.arrival = a then
      { x with plan := x.plan.map fun m => if m.lcn = l then { m with slotted := true } else m }
    else x
  | _ => s.inflight



/-- The frame that transmits a granted command. -/
def State.grantFrame (s : State) (slot : Nat) (d : ShelfCmd) : Output :=
  .shelf slot s.shelf.epoch (stepWrap 65535 (s.shelf.useOf slot)) d.kind (d.pcn * 2 ^ s.format.k + d.first) d.count d.data

theorem dequeue_frame (p : Shelf) (cls : ShelfClass) :
    (p.dequeue cls).up = p.up ∧ (p.dequeue cls).slots = p.slots ∧ (p.dequeue cls).uses = p.uses ∧
      (p.dequeue cls).epoch = p.epoch := by
  cases cls <;> exact ⟨rfl, rfl, rfl, rfl⟩

theorem markSlotted_eq (d : ShelfCmd) (e : Event) : markSlotted d e = { e with st := { e.st with inflight := e.st.slotted d } } := by
  unfold markSlotted State.slotted
  rcases d.owner with ⟨a, l, why⟩ | _ | _ | _ | _
  · cases why <;> rfl
  all_goals rfl

theorem useOf_occupy (p : Shelf) (slot timeout : Nat) (d : ShelfCmd) :
    (p.occupy slot timeout d).useOf slot = stepWrap 65535 (p.useOf slot) := tget_tset_same ..

theorem grantTo_eq (slot : Nat) (cls : ShelfClass) (d : ShelfCmd) (e : Event) :
    grantTo slot cls d e = { e with st := { e.st with
      inflight := e.st.slotted d
      shelf := (e.st.shelf.dequeue cls).occupy slot e.st.ctl.config.shelfTimeout d
      out := e.st.out ++ [e.st.grantFrame slot d] } } := by
  obtain ⟨-, -, hu, hp⟩ := dequeue_frame e.st.shelf cls
  unfold grantTo State.grantFrame
  dsimp only
  rw [markSlotted_eq]
  unfold emit
  have huse := useOf_occupy (e.st.shelf.dequeue cls) slot e.st.ctl.config.shelfTimeout d
  rw [show (e.st.shelf.dequeue cls).useOf slot = e.st.shelf.useOf slot from congrArg (tget 0 · slot) hu] at huse
  rw [← huse, ← show ((e.st.shelf.dequeue cls).occupy slot e.st.ctl.config.shelfTimeout d).epoch = e.st.shelf.epoch from hp]
  rfl

/-- A free slot goes to the head of the chosen queue. -/
theorem grants_succ {e : Event} {slot : Nat} {cls : ShelfClass} {d : ShelfCmd} (n : Nat) (hup : e.st.shelf.up = true)
    (hf : e.st.shelf.freeSlot = some slot) (hch : e.st.shelf.choose = some cls) (hd : e.st.shelf.headOf cls = some d) :
    grants (n + 1) e = grants n (grantTo slot cls d e) := by
  simp only [grants]
  rw [if_neg (by simpa using hup)]
  simp only [hf, hch, hd]

/-! ### The event -/

theorem judgeReply_done {cmd : ShelfCmd} {data : List Block} (h : data.length = if cmd.kind = .read then cmd.count else 0) :
    judgeReply cmd (.done data 0) = .ok data := if_pos ⟨h, rfl⟩

/-- A reply that names the command of its slot. -/
theorem shelfReplyIn_some {slot : Nat} {c : SlotRec} {e : Event} (hc : tfind e.st.shelf.slots slot = some c) (r : ShelfResult) :
    shelfReplyIn slot c.epoch c.use (c.cmd.kind == .write) r e = endSlot slot c (judgeReply c.cmd r) e := by
  unfold shelfReplyIn
  rw [hc]
  exact if_pos (by simp [SlotRec.answers])

/-- The command that nobody waits for ends: its slot is free. -/
theorem exec_dropped {s : State} {slot : Nat} {c : SlotRec} {data : List Block} (hc : tfind s.shelf.slots slot = some c)
    (ho : c.cmd.owner = .dropped) (hd : data.length = if c.cmd.kind = .read then c.cmd.count else 0) :
    exec (.shelfReply slot c.epoch c.use (c.cmd.kind == .write) (.done data 0)) s = .next (runEvent s fun e =>
      { e with st := { e.st with shelf := { e.st.shelf with slots := tdel slot e.st.shelf.slots } }, todo := { e.todo with grant := true } }) := by
  refine congrArg Host.Outcome.next (congrArg (fun e => closeEvent (runTodo turnBound e)) ?_)
  rw [shelfReplyIn_some (e := openEvent s) hc, judgeReply_done hd]
  unfold endSlot cmdEnd
  rw [ho]
  rfl

/-- The arbiter's one grant. -/
theorem runEvent_grants {s : State} {slot : Nat} {cls : ShelfClass} {d : ShelfCmd} (hs : slot ≤ 63)
    (hf : ∀ n, n ≤ 63 → tfind s.shelf.slots n ≠ none) (hup : s.shelf.up = true)
    (hch : s.shelf.choose = some cls) (hd : s.shelf.headOf cls = some d) :
    runEvent s (fun e =>
      { e with st := { e.st with shelf := { e.st.shelf with slots := tdel slot e.st.shelf.slots } }, todo := { e.todo with grant := true } }) =
    { State.closed { s with
        inflight := s.slotted d
        shelf := { s.shelf.dequeue cls with
          uses := tset 0 slot (stepWrap 65535 (s.shelf.useOf slot)) s.shelf.uses
          slots := tput slot { cmd := d, epoch := s.shelf.epoch, use := stepWrap 65535 (s.shelf.useOf slot), timeout := s.ctl.config.shelfTimeout }
            (tdel slot s.shelf.slots) } } with
      out := [s.grantFrame slot d] } := by
  let u : State := { s with shelf := { s.shelf with slots := tdel slot s.shelf.slots }, out := [] }
  let w := grantTo slot cls d { st := u }
  have hfree : u.shelf.freeSlot = some slot := by
    refine freeSlot_only hs (tfind_tdel_same ..) fun n hn hne => ?_
    rw [tfind_tdel_ne _ _ _ hne]
    exact hf n hn
  have hch' : u.shelf.choose = some cls := hch
  have hd' : u.shelf.headOf cls = some d := by rw [← hd]; cases cls <;> rfl
  have hfull : w.st.shelf.freeSlot = none := by
    refine freeSlot_none fun n hn => ?_
    rw [show w.st.shelf.slots = tput slot _ (u.shelf.dequeue cls).slots from by rw [show w = _ from grantTo_eq ..]; rfl,
      (dequeue_frame u.shelf cls).2.1]
    by_cases hne : n = slot
    · rw [hne, tfind_tput_same]
      nofun
    · rw [tfind_tput_ne _ _ _ _ hne, tfind_tdel_ne _ _ _ hne]
      exact hf n hn
  have hgrants : grants Config.shelfSlots { st := u } = w := by
    change grants (63 + 1) { st := u } = w
    rw [grants_succ (e := { st := u }) 63 hup hfree hch' hd']
    exact grants_none _ (.inr (.inl hfull))
  have hends : Ends 1 { st := u, todo := { grant := true } } w :=
    Ends.turn (e' := w) (congrArg some hgrants) (ends_of_idle (by rw [show w = _ from grantTo_eq ..]))
  rw [show w = _ from grantTo_eq ..] at hends
  refine (runEvent_ends (ns := []) (outs := [s.grantFrame slot d]) (t := { s with
    inflight := s.slotted d
    shelf := (u.shelf.dequeue cls).occupy slot u.ctl.config.shelfTimeout d }) hends
      (fun o ho => by rw [List.mem_singleton.mp ho]; rfl) (by omega)).trans ?_
  cases cls <;> rfl

theorem background_iff (p : Shelf) : p.background = true ↔ p.restoreQueue ≠ [] ∨ p.offsiteQueue ≠ [] := by
  unfold Shelf.background
  cases p.restoreQueue <;> cases p.offsiteQueue <;> simp

/-- A background grant goes by the turn (R161). -/
theorem choose_back {p : Shelf} (h : p.fgQueue = [] ∨ (p.streak = 15 ∧ (p.restoreQueue ≠ [] ∨ p.offsiteQueue ≠ []))) :
    p.choose = if p.turnOffsite then
        if !p.offsiteQueue.isEmpty then some .offsite else if !p.restoreQueue.isEmpty then some .restore else none
      else if !p.restoreQueue.isEmpty then some .restore else if !p.offsiteQueue.isEmpty then some .offsite else none := by
  unfold Shelf.choose
  dsimp only
  rcases h with h | ⟨h1, h2⟩
  · rw [if_pos (by simp [h])]
  · rw [if_pos (c := p.streak = Config.streakLimit ∧ p.background = true) ⟨h1, (background_iff p).mpr h2⟩, ite_self]

/-- Settles O47: the arbiter's grant of the freed slot. -/
theorem shelfArbiterChoosesTheGrant : Obligations.ShelfArbiterChoosesTheGrant := by
  unfold Obligations.ShelfArbiterChoosesTheGrant
  intro s slot c data
  dsimp only
  intro hc hs ho hf hd
  rw [exec_dropped hc ho hd]
  refine ⟨fun h => ?_, fun hup d t hq hst => ?_, fun hup hq => ⟨fun d t hr ht => ?_, fun d t hr ht => ?_⟩⟩
  · refine congrArg Host.Outcome.next (runEvent_ends (k := 1) (ns := []) (outs := [])
      (t := { s with shelf := { s.shelf with slots := tdel slot s.shelf.slots } }) ?_ (by simp) (by omega))
    refine ends_grant true { st := { s with shelf := { s.shelf with slots := tdel slot s.shelf.slots }, out := [] } } ?_
    rcases h with h | ⟨h, hb⟩
    · exact .inl h
    · obtain ⟨h1, h2⟩ : s.shelf.restoreQueue = [] ∧ s.shelf.offsiteQueue = [] := by simpa using hb
      refine .inr (.inr ?_)
      simp [Shelf.choose, h, h1, h2]
  · refine (congrArg Host.Outcome.next (runEvent_grants (cls := .foreground) (d := d) hs hf hup ?_ ?_)).trans ?_
    · unfold Shelf.choose
      rw [if_neg (by simp [hq]), if_neg (by rw [background_iff]; rintro ⟨h1, h2⟩; exact hst.elim (· h1) (· h2))]
    · exact congrArg List.head? hq
    · rw [show s.shelf.dequeue .foreground = { s.shelf with
          fgQueue := t, streak := if s.shelf.restoreQueue ≠ [] ∨ s.shelf.offsiteQueue ≠ [] then s.shelf.streak + 1 else 0 } from by
        simp only [Shelf.dequeue, hq, background_iff]
        rfl]
      rfl
  · refine (congrArg Host.Outcome.next (runEvent_grants (cls := .restore) (d := d) hs hf hup ?_ ?_)).trans ?_
    · rw [choose_back hq]
      rcases ht with ht | ht <;> simp [hr, ht]
    · exact congrArg List.head? hr
    · rw [show s.shelf.dequeue .restore = { s.shelf with restoreQueue := t, streak := 0, turnOffsite := true } from by
        simp only [Shelf.dequeue, hr]
        rfl]
      rfl
  · refine (congrArg Host.Outcome.next (runEvent_grants (cls := .offsite) (d := d) hs hf hup ?_ ?_)).trans ?_
    · rw [choose_back hq]
      rcases ht with ht | ht <;> simp [hr, ht]
    · exact congrArg List.head? hr
    · rw [show s.shelf.dequeue .offsite = { s.shelf with offsiteQueue := t, streak := 0, turnOffsite := false } from by
        simp only [Shelf.dequeue, hr]
        rfl]
      rfl

end Sys2Proof.Machine
end

section
/-! PROOFS. The paced port (O46): a resend, a new frame, and the frame that the engine prepares in the same event. -/

namespace Sys2Proof.Machine

/-! ### What the turns of an event's end leave as it is -/

/-- The port's turn where a resend is pending. -/
theorem portTurn_resends {e : Event} {n : Nat} {f : Frame} (hc : e.st.port.clear = true) (hn : e.st.port.resendPos = some n)
    (hf : e.st.port.outstanding.find? (fun g => g.seq == n) = some f) : portTurn e = resend n f e := by
  unfold portTurn
  dsimp only
  rw [if_neg (by simp [hc]), hn]
  dsimp only
  rw [hf]

/-- The port's turn where a new frame may go out. -/
theorem portTurn_sends {e : Event} {f : Frame} {more : List Frame} (hc : e.st.port.clear = true) (hn : e.st.port.resendPos = none)
    (hf : e.st.run.frames = f :: more) (hq : e.st.port.seqRun ≠ none) (hw : e.st.port.outstanding.length < e.st.ctl.config.window) :
    portTurn e = sendNew f e := by
  unfold portTurn
  dsimp only
  rw [if_neg (by simp [hc]), hn]
  dsimp only
  rw [hf]
  exact if_pos ⟨Option.isSome_iff_ne_none.mpr hq, hw⟩

/-- The run once the port has taken a frame of it. -/
def Run.took (r : Run) (f : Frame) : Run :=
  let data := if f.kind = .chunkData then 1 else 0
  let clear := if f.kind = .chunkClear then 1 else 0
  { r with
    frames := r.frames.drop 1, volData := r.volData + data, dataFrames := r.dataFrames + data, volClear := r.volClear + clear,
    clearFrames := r.clearFrames + clear, pos := r.pos + data + (if r.fullScan then 0 else clear),
    clearCount := if f.kind = .chunkClear then 0 else r.clearCount }

theorem frameTaken_eq (f : Frame) (e : Event) :
    frameTaken f e = { e with st := { e.st with run := e.st.run.took f }, todo := { e.todo with engine := true } } := by
  unfold frameTaken Run.took
  cases f.kind
  case chunkClear =>
    by_cases hfs : e.st.run.fullScan = true <;> simp [wakeEngine, Event.updRun, Event.upd, hfs]
  all_goals simp [wakeEngine, Event.updRun, Event.upd]

/-- The port once it has sent the frame of its resend position again. -/
def State.resentPort (s : State) (n : Nat) (f : Frame) : Port :=
  { s.port with
    nextSend := pacedAfter s f, resent := s.port.resent + 1,
    ackTimer := if s.port.oldest = some n then some s.ctl.config.ackTimeout else s.port.ackTimer,
    resendPos := if s.port.newest ≤ n then none else some (n + 1) }

theorem resend_eq (n : Nat) (f : Frame) (e : Event) : resend n f e =
    { e with st := { e.st with port := e.st.resentPort n f, out := e.st.out ++ [.offsite f] } } := rfl

/-- The port once it has sent a new frame. -/
def State.sentPort (s : State) (f : Frame) : Port :=
  { s.port with
    outstanding := s.port.outstanding ++ [{ f with seq := s.port.nextNo }], nextNo := s.port.nextNo + 1,
    nextSend := pacedAfter s f, ackTimer := if s.port.outstanding = [] then some s.ctl.config.ackTimeout else s.port.ackTimer }

theorem sendNew_eq (f : Frame) (e : Event) : sendNew f e = { e with
    st := { e.st with
      port := e.st.sentPort f
      run := e.st.run.took f
      out := e.st.out ++ [.offsite { f with seq := e.st.port.nextNo }] }
    todo := { e.todo with engine := true } } := by
  unfold sendNew
  dsimp only
  rw [frameTaken_eq]
  rfl

/-- A frame that has gone out leaves the port waiting for its pacing time. -/
theorem pacedAfter_gt {s : State} (f : Frame) (h : 0 < activeRate s) : s.port.pace < pacedAfter s f := by
  have hl : 48 ≤ f.length := Nat.le_add_right _ _
  have : 0 < paceInterval f.length (activeRate s) := Nat.div_pos (by omega) (by omega)
  unfold pacedAfter
  omega

/-- What the engine's preparation of a frame leaves of the counts of its run. -/
structure Run.Prepares (r q : Run) : Prop where
  state : q.state = r.state
  pos : q.pos = r.pos
  volData : q.volData = r.volData
  volClear : q.volClear = r.volClear
  dataFrames : q.dataFrames = r.dataFrames
  clearFrames : q.clearFrames = r.clearFrames

/-- What an event is once the engine has prepared a frame, or has found none to prepare. -/
def Event.Prepared (e f : Event) : Prop :=
  e.st.run.Prepares f.st.run ∧ f.st.shelf.up = e.st.shelf.up ∧
    f = { e with st := { e.st with run := f.st.run, shelf := f.st.shelf }, todo := { e.todo with port := f.todo.port, grant := f.todo.grant } }

theorem prepared_refl (e : Event) : e.Prepared e := ⟨⟨rfl, rfl, rfl, rfl, rfl, rfl⟩, rfl, rfl⟩

theorem prepared_prepareLcn (v lcn : Nat) (e : Event) : e.Prepared (prepareLcn v lcn e) := by
  cases h : runView (e.st.vol v) lcn with
  | some pcn =>
    rw [prepareLcn_reads h]
    exact ⟨⟨rfl, rfl, rfl, rfl, rfl, rfl⟩, rfl, rfl⟩
  | none =>
    rw [prepareLcn_clears h]
    exact ⟨⟨rfl, rfl, rfl, rfl, rfl, rfl⟩, rfl, rfl⟩

theorem prepared_toSeal (v : Nat) (e : Event) : e.Prepared (toSeal v e) :=
  ⟨⟨rfl, rfl, rfl, rfl, rfl, rfl⟩, rfl, rfl⟩

theorem prepared_sendNext (v : Nat) (e : Event) : e.Prepared (sendNext v e) := by
  unfold sendNext
  dsimp only
  split_ifs
  · exact prepared_refl e
  · exact prepared_prepareLcn ..
  · exact prepared_toSeal ..
  · exact prepared_refl e
  · split
    · exact prepared_prepareLcn ..
    · exact prepared_toSeal ..

/-- The engine's turn where no freeze falls due. -/
theorem prepared_engineTurn {e : Event} (h : e.st.freezeDue = none) : e.Prepared (engineTurn e) := by
  unfold engineTurn
  by_cases hp : e.st.ctl.part = .recovering
  · rw [if_pos hp]
    exact prepared_refl e
  · rw [if_neg hp]
    cases e.st.currentVol with
    | none => exact prepared_refl e
    | some v =>
      dsimp only
      rw [h, if_neg (by simp)]
      split_ifs
      · exact prepared_sendNext ..
      · exact prepared_refl e

/-- What the arbiter's grants change. -/
theorem grants_frame (n : Nat) (e : Event) : ∃ fl sh outs, (∀ o ∈ outs, o.isPlain = true) ∧
    grants n e = { e with st := { e.st with inflight := fl, shelf := sh, out := e.st.out ++ outs } } := by
  induction n generalizing e with
  | zero => exact ⟨e.st.inflight, e.st.shelf, [], nofun, by simp [grants]⟩
  | succ n ih =>
    have hrefl : ∃ fl sh outs, (∀ o ∈ outs, o.isPlain = true) ∧
        e = { e with st := { e.st with inflight := fl, shelf := sh, out := e.st.out ++ outs } } :=
      ⟨e.st.inflight, e.st.shelf, [], nofun, by simp⟩
    by_cases hup : e.st.shelf.up = true
    · cases hf : e.st.shelf.freeSlot with
      | none =>
        rw [grants_none (n + 1) (.inr (.inl hf))]
        exact hrefl
      | some slot =>
        cases hch : e.st.shelf.choose with
        | none =>
          rw [grants_none (n + 1) (.inr (.inr hch))]
          exact hrefl
        | some cls =>
          cases hd : e.st.shelf.headOf cls with
          | none =>
            have hstop : grants (n + 1) e = e := by simp [grants, hup, hf, hch, hd]
            rwa [hstop]
          | some d =>
            obtain ⟨fl, sh, outs, ho, h⟩ := ih (grantTo slot cls d e)
            rw [grants_succ n hup hf hch hd, h, grantTo_eq]
            exact ⟨fl, sh, e.st.grantFrame slot d :: outs, by simpa [State.grantFrame, Output.isPlain] using ho, by simp⟩
    · rw [grants_none (n + 1) (.inl (by simpa using hup))]
      exact hrefl

/-! ### The events -/

/-- The state at an instant of the pacing clock. -/
def State.atPace (s : State) (instant : Nat) : State :=
  { s with port := { s.port with pace := if s.port.pace < instant then instant else s.port.pace } }

theorem paceTo_eq (s : State) (instant : Nat) :
    paceTo instant (openEvent s) = { st := { s.atPace instant with out := [] }, todo := { port := true } } := by
  unfold paceTo State.atPace
  rw [show (if s.port.pace < instant then instant else s.port.pace) = max s.port.pace instant from by
    split_ifs <;> omega]
  rfl

/-- A turn of the port that changes only the port and what goes out. -/
theorem ends_portTurn {e e' : Event} (ht : portTurn e = e') (h : e.todo = {}) :
    ∀ {k r}, Ends k e' r → Ends (k + 1) { e with todo := { port := true } } r := by
  intro k r hr
  refine Ends.turn (e' := e') ?_ hr
  rw [← ht]
  obtain ⟨⟩ := e
  cases h
  rfl

/-- What is left of an event once the engine has taken its turn, where the port waits for its pacing time. -/
theorem ends_afterEngine {e : Event} (hp : e.st.PortRests) : ∃ fl sh outs, (∀ o ∈ outs, o.isPlain = true) ∧
    (e.st.shelf.up = false → sh = e.st.shelf) ∧
    ∀ b g, Ends 2 { e with todo := { port := b, grant := g } }
      { e with
        st := { e.st with
          inflight := if g then fl else e.st.inflight
          shelf := if g then sh else e.st.shelf
          out := e.st.out ++ if g then outs else [] }
        todo := {} } := by
  obtain ⟨fl, sh, outs, ho, h⟩ := grants_frame Config.shelfSlots { e with todo := {} }
  refine ⟨fl, sh, outs, ho, fun hu => ?_, fun b g => ?_⟩
  · rw [grants_none (e := { e with todo := {} }) _ (.inl hu)] at h
    exact (congrArg (fun f : Event => f.st.shelf) h).symm
  · refine ends_clears (f := fun b => { e with todo := { port := b, grant := g } }) (fun _ => ?_) ?_
    · exact congrArg some (hp _ rfl)
    · cases g
      · simpa using (ends_of_idle (e := { e with todo := {} }) rfl).more
      · refine Ends.turn (e' := grants Config.shelfSlots { e with todo := {} }) rfl ?_
        rw [h]
        exact ends_of_idle rfl

/-- The state behind a new frame that goes out. -/
def State.afterSend (s : State) (f : Frame) : State :=
  { s with port := s.sentPort f, run := s.run.took f, out := [.offsite { f with seq := s.port.nextNo }] }

/-- A new frame goes out; the engine prepares the next one, and the arbiter grants what waits. -/
theorem exec_newFrame {s : State} {instant : Nat} {f : Frame} {more : List Frame} (hc : (s.atPace instant).port.clear = true)
    (hn : s.port.resendPos = none) (hf : s.run.frames = f :: more) (hq : s.port.seqRun ≠ none)
    (hw : s.port.outstanding.length < s.ctl.config.window) (hr : 0 < activeRate s)
    (hdue : ((s.atPace instant).afterSend f).freezeDue = none) :
    let u := (s.atPace instant).afterSend f
    ∃ fl sh outs, (s.shelf.up = false → sh = (engineTurn { st := u }).st.shelf) ∧
      exec (.pacingTimeReached instant) s = .next
        { State.closed { u with run := (engineTurn { st := u }).st.run, inflight := fl, shelf := sh } with
          out := u.out ++ outs } := by
  intro u
  obtain ⟨-, hup, hprep⟩ := prepared_engineTurn (e := { st := u }) hdue
  let e : Event := { st := { u with run := (engineTurn { st := u }).st.run, shelf := (engineTurn { st := u }).st.shelf } }
  have hrests : e.st.PortRests := portRests_of (.inr (.inr (pacedAfter_gt (s := s.atPace instant) f hr)))
  obtain ⟨fl, sh, outs, ho, hsh, hrest⟩ := ends_afterEngine hrests
  obtain ⟨b, hb⟩ : ∃ b, b = (engineTurn { st := u }).todo.port := ⟨_, rfl⟩
  obtain ⟨g, hg⟩ : ∃ g, g = (engineTurn { st := u }).todo.grant := ⟨_, rfl⟩
  rw [← hb, ← hg] at hprep
  have hturn : Ends 2 (engineTurn { st := u }) _ := Eq.mpr (congrArg (Ends 2 · _) hprep) (hrest b g)
  have hends := ends_portTurn (e := { st := { s.atPace instant with out := [] } })
    ((portTurn_sends (by exact hc) (by exact hn) (by exact hf) (by exact hq) (by exact hw)).trans (sendNew_eq ..)) rfl
    (Ends.turn (e' := engineTurn { st := u }) rfl hturn)
  rw [← paceTo_eq] at hends
  refine ⟨if g then fl else u.inflight, if g then sh else e.st.shelf, if g then outs else [], fun hu => ?_,
    congrArg Host.Outcome.next (runEvent_ends (k := 4) (ns := []) (t := { e.st with
      inflight := if g then fl else u.inflight, shelf := if g then sh else e.st.shelf }) hends ?_ (by omega))⟩
  · split_ifs
    · exact hsh (hup.trans hu)
    · rfl
  · intro o hm
    rcases List.mem_append.mp hm with hm | hm
    · rw [List.mem_singleton.mp hm]
      rfl
    · split_ifs at hm
      · exact ho o hm
      · nomatch hm

/-- The frame that the engine prepares in a send whose last frame has been taken (R129 to R132). -/
theorem preparesNext {u : State} {v : Nat} (hp : u.ctl.part ≠ .recovering) (hv : u.currentVol = some v)
    (hs : u.run.sending = true) :
    let t := (engineTurn { st := u }).st
    let reads := fun l => ∀ pcn, runView (u.vol v) l = some pcn →
      t.run = { u.run with reading := some { lcn := l, reissued := false }, scanRead := false } ∧
      t.shelf = { u.shelf with offsiteQueue := u.shelf.offsiteQueue ++ [sendRead u.format.k pcn] }
    let seals := t.shelf = u.shelf ∧ t.run = { u.run with
      phase := .seal, frames := [{ Frame.plain .volumeSeal u.run.runId with vol := v, a := u.run.volData, b := u.run.volClear }] }
    (u.run.fullScan = false →
      (∀ l, (u.vol v).runList[u.run.pos]? = some l → reads l ∧
        (runView (u.vol v) l = none → t.shelf = u.shelf ∧
          t.run = { u.run with frames := [{ Frame.plain .chunkClear u.run.runId with vol := v, lcn := l, count := 1 }] })) ∧
      ((u.vol v).runList.length ≤ u.run.pos → seals)) ∧
    (u.run.fullScan = true → u.run.clearCount = 0 →
      (u.run.scanRead = true → reads u.run.pos) ∧
      (u.run.scanRead = false → (u.vol v).size ≤ u.run.pos → seals) ∧
      (u.run.scanRead = false → u.run.pos < (u.vol v).size → t.shelf = u.shelf ∧ t.run = u.run)) := by
  have hfr : u.run.frames = [] := ((sending_iff _).mp hs).2.2.2.1
  dsimp only
  rw [engineTurn_sends (e := { st := u }) hp hv hs]
  have hreads : ∀ l pcn, runView (u.vol v) l = some pcn →
      (prepareLcn v l { st := u }).st.run = { u.run with reading := some { lcn := l, reissued := false }, scanRead := false } ∧
      (prepareLcn v l { st := u }).st.shelf =
        { u.shelf with offsiteQueue := u.shelf.offsiteQueue ++ [sendRead u.format.k pcn] } := by
    intro l pcn h
    rw [prepareLcn_reads (e := { st := u }) h]
    exact ⟨rfl, rfl⟩
  have hseals : (toSeal v { st := u }).st.shelf = u.shelf ∧ (toSeal v { st := u }).st.run = { u.run with
      phase := .seal,
      frames := [{ Frame.plain .volumeSeal u.run.runId with vol := v, a := u.run.volData, b := u.run.volClear }] } := by
    refine ⟨rfl, ?_⟩
    change ({ u.run with phase := .seal, frames := u.run.frames ++ _ } : Run) = _
    rw [hfr]
    rfl
  refine ⟨fun hinc => ?_, fun hfull hc => ?_⟩
  · have hnext : sendNext v { st := u } = match (u.vol v).runList[u.run.pos]? with
        | some lcn => prepareLcn v lcn { st := u }
        | none => toSeal v { st := u } := by
      unfold sendNext
      exact if_neg (by simp [hinc])
    rw [hnext]
    refine ⟨fun l hl => ?_, fun hl => ?_⟩
    · rw [hl]
      refine ⟨hreads l, fun hnone => ?_⟩
      dsimp only
      rw [prepareLcn_clears (e := { st := u }) hnone]
      refine ⟨rfl, ?_⟩
      change ({ u.run with frames := u.run.frames ++ _ } : Run) = _
      rw [hfr]
      rfl
    · rw [List.getElem?_eq_none hl]
      exact hseals
  · have hnext : sendNext v { st := u } =
        if u.run.scanRead then prepareLcn v u.run.pos { st := u }
        else if (u.vol v).size ≤ u.run.pos then toSeal v { st := u } else { st := u } := by
      unfold sendNext
      dsimp only
      rw [if_pos hfull, if_neg (not_not.mpr hc)]
    rw [hnext]
    refine ⟨fun hr => ?_, fun hr hl => ?_, fun hr hl => ?_⟩
    · rw [if_pos hr]
      exact hreads _
    · rw [if_neg (by simp [hr]), if_pos hl]
      exact hseals
    · rw [if_neg (by simp [hr]), if_neg (by omega)]
      exact ⟨rfl, rfl⟩

/-- Settles O46: the paced port resends first, else sends the engine's frame, and the engine prepares the next one. -/
theorem pacedPortResendsFirst : Obligations.PacedPortResendsFirst := by
  unfold Obligations.PacedPortResendsFirst
  intro s instant
  dsimp only
  refine ⟨fun h => ?_, fun hup hh hp n f hn hf => ?_, fun hup hh hp hn hq hw hr f more hf hfr => ?_⟩
  · refine congrArg Host.Outcome.next ((runEvent_ends (k := 1) (outs := []) (ns := []) (t := s.atPace instant) ?_ (by simp)
      (by omega)).trans rfl)
    rw [paceTo_eq]
    exact ends_portWaits (e := { st := { s.atPace instant with out := [] } }) (portRests_of h)
  · have hc : (s.atPace instant).port.clear = true := by
      simp only [Port.clear, State.atPace, hup, hh, hp]
      rfl
    have hends := ends_portTurn (e := { st := { s.atPace instant with out := [] } })
      ((portTurn_resends (by exact hc) (by exact hn) (by exact hf)).trans (resend_eq ..)) rfl (ends_of_idle rfl)
    rw [← paceTo_eq] at hends
    exact congrArg Host.Outcome.next (runEvent_ends (k := 1) (ns := []) (outs := [.offsite f])
      (t := { s.atPace instant with port := (s.atPace instant).resentPort n f }) hends
      (fun o ho => by rw [List.mem_singleton.mp ho]; rfl) (by omega))
  · have hc : (s.atPace instant).port.clear = true := by
      simp only [Port.clear, State.atPace, hup, hh, hp]
      rfl
    have hdue : ((s.atPace instant).afterSend f).freezeDue = none := by
      rw [Option.eq_none_iff_forall_ne_some]
      intro v hv
      obtain ⟨hcur, -, hph, -⟩ := freezeDue_eq hv
      refine hfr hph v hcur ?_
      unfold State.freezeDue at hv
      rw [Option.filter_eq_some_iff] at hv
      exact Option.isNone_iff_eq_none.mp ((Bool.and_eq_true _ _).mp hv.2).2
    obtain ⟨fl, sh, outs, hsh, hex⟩ := exec_newFrame hc hn hf hq hw hr hdue
    obtain ⟨hprep, -, -⟩ := prepared_engineTurn (e := { st := (s.atPace instant).afterSend f }) hdue
    refine ⟨_, hex, rfl, rfl, hprep.state, hprep.dataFrames, hprep.volData, hprep.clearFrames, hprep.volClear, hprep.pos, rfl, rfl,
      rfl, rfl, rfl, fun hnr hm hi hst hph hrd hsm hdown v hv => ?_⟩
    have hrun : s.run.took f = { s.run with
        frames := []
        volData := s.run.volData + (if f.kind = .chunkData then 1 else 0)
        dataFrames := s.run.dataFrames + (if f.kind = .chunkData then 1 else 0)
        volClear := s.run.volClear + (if f.kind = .chunkClear then 1 else 0)
        clearFrames := s.run.clearFrames + (if f.kind = .chunkClear then 1 else 0)
        pos := s.run.pos + (if f.kind = .chunkData then 1 else 0) +
          (if s.run.fullScan then 0 else if f.kind = .chunkClear then 1 else 0)
        clearCount := if f.kind = .chunkClear then 0 else s.run.clearCount } := by
      unfold Run.took
      rw [hf, hm]
      rfl
    have key := preparesNext (u := (s.atPace instant).afterSend f) (v := v) hnr hv
      ((sending_iff _).mpr ⟨hi, hst, hph, by rw [show ((s.atPace instant).afterSend f).run = _ from hrun], hrd, hsm⟩)
    obtain rfl := hsh hdown
    rw [show ((s.atPace instant).afterSend f).run = _ from hrun] at key
    exact key

end Sys2Proof.Machine
end

section
/-! PROOFS. RUN START (O39): its refusals, and the opening of the first pass. -/

namespace Sys2Proof.Machine

/-! ### A served request whose event puts other frames before its reply -/

/-- The end of an event whose decided reply goes out behind other frames. -/
theorem close_answeredBehind {e : Event} {a : Answer} (ha : e.todo.answer = some a) (hj : a.job = none)
    (hx : e.st.ctl.executing = none) (hu : e.st.frontUp = true) (ho : ∀ o ∈ e.st.out, o.isPlain = true) (hd : e.done = [])
    (hs : e.sent = []) (hl : e.late = []) (h38 : a.number ≠ 38) (h7 : a.number ≠ 7) :
    closeEvent e.sendAnswer = { State.answered { e.evaluated with ctl := e.offered } a.number a.tag a.code a.result with
      out := e.st.out ++ (State.answered { e.evaluated with ctl := e.offered } a.number a.tag a.code a.result).out } := by
  obtain ⟨b, vs, as, q, he⟩ := evaluate_frame e
  have hexec : e.offered.executing = none := by
    unfold Event.offered
    rw [foldl_offer, he]
    exact hx
  rw [closeEvent_answer ha hu hd ho, hj]
  dsimp only
  rw [completeReply_read _ _ _ _ _ (.inl h38) (.inl h7), hl, hs]
  simp only [List.foldl_nil, List.nil_append, State.answered]
  rw [show ({ e.offered with executing := none } : Control) = e.offered from by
    cases hc : e.offered
    rw [hc] at hexec
    cases hexec
    rfl]
  rfl

/-- A served request whose event ends with its reply, behind some frames, and some notices. -/
theorem exec_replies {s : State} (h : s.ctlServes) {i : Instr} {tag : Nat} {r : Request} (hrow : Arrives i tag r)
    {f : Event → Event} (hf : ∀ e : Event, e.st.ctl.part ≠ .recovering → perform r e = f e) (t : State) {k : Nat}
    {outs : List Output} {ns : List Notice} {code : Code} {result : List Nat}
    (hrun : Ends k (f { st := s.executes ⟨tag, r⟩ }) ({
      st := { t with ctl := { t.ctl with executing := none }, out := outs }
      todo := { answer := some { number := r.number, tag := tag, code := code, result := result, job := none } }
      notices := ns } : Event).sendAnswer)
    (ho : ∀ o ∈ outs, o.isPlain = true) (hk : k ≤ 1000) (hu : t.frontUp = s.frontUp) (h38 : r.number ≠ 38) (h7 : r.number ≠ 7) :
    exec i s = .next { State.answered { t with ctl := ns.foldl offer t.ctl } r.number tag code result with
      out := outs ++ (State.answered { t with ctl := ns.foldl offer t.ctl } r.number tag code result).out } := by
  rw [hrow, runEvent, controlArrive_of_free h.1, hf _ (executes_part_ne h _), hrun.runTodo hk,
    close_answeredBehind rfl rfl rfl (hu.trans h.1.1) ho rfl rfl rfl h38 h7]
  refine congrArg Host.Outcome.next ?_
  let e : Event := {
    st := { t with ctl := { t.ctl with executing := none }, out := outs }
    todo := { answer := some { number := r.number, tag := tag, code := code, result := result, job := none } }
    notices := ns }
  have hoff : e.offered = { ns.foldl offer t.ctl with executing := none } := foldl_offer_executing ns t.ctl none
  change { State.answered { e.evaluated with ctl := e.offered } r.number tag code result with
    out := e.st.out ++ (State.answered { e.evaluated with ctl := e.offered } r.number tag code result).out } = _
  rw [hoff]
  rfl

/-! ### The opening of a run -/

/-- The engine has nothing to ask for and no frame to prepare. -/
theorem engineRests_of {s : State} (hd : s.freezeDue = none) (hs : s.run.sending = false) : s.EngineRests := by
  rintro e rfl
  unfold engineTurn
  by_cases hp : e.st.ctl.part = .recovering
  · exact if_pos hp
  · rw [if_neg hp]
    cases e.st.currentVol with
    | none => rfl
    | some v =>
      dsimp only
      rw [hd, hs]
      rfl

/-- The run that a start opens (R125, R126). -/
def State.openedRun (s : State) (mode minute : Nat) : Run :=
  { s.run with
    state := .active, mode := modeOf mode, deadline := nextMinute s.sched.clock minute, runId := stepWrap max32 s.run.runId,
    pass := 1, planIndex := 0, phase := .freeze, asked := false, passSealed := 0, passSkipped := 0, sealedVols := 0,
    skippedVols := 0, dataFrames := 0, clearFrames := 0, retries := 0, linkMark := false, shelfMark := false, frames := [],
    reading := none }

/-- The frame that opens a run. -/
def State.runOpens (s : State) (mode : Nat) : Frame :=
  { Frame.plain .runOpen (stepWrap max32 s.run.runId) with flags := flag (modeOf mode == .continuous), a := 1, b := s.plan.length }

/-- The state once a start has opened its run, its RUN OPEN being ready. -/
def State.started (s : State) (mode minute : Nat) : State :=
  { s with
    run := { s.openedRun mode minute with frames := [s.runOpens mode] }
    port := { s.port with
      seqRun := some (stepWrap max32 s.run.runId), nextNo := 1, highestAcked := 0, retry := 0, resendPos := none } }

/-- The frame that opens a pass. -/
def State.passOpens (s : State) : Frame :=
  { Frame.plain .runOpen (stepWrap max32 s.run.runId) with
    flags := flag (s.run.mode == .continuous), a := s.run.pass, b := s.plan.length }

theorem beginSequence_eq (id : Nat) (e : Event) : beginSequence id e = { e with
    st := { e.st with port := { e.st.port with
      seqRun := some id, nextNo := 1, highestAcked := 0, retry := 0, resendPos := none } } } := rfl

theorem readyFrame_eq (f : State → Frame) (e : Event) : readyFrame f e = { e with
    st := { e.st with run := { e.st.run with frames := e.st.run.frames ++ [f e.st] } }
    todo := { e.todo with port := true } } := rfl

/-- A pass opens (R126). -/
theorem openPass_eq (e : Event) : openPass e = { e with
    st := { e.st with
      run := { e.st.run with
        runId := stepWrap max32 e.st.run.runId, state := .active, planIndex := 0, phase := .freeze, asked := false,
        passSealed := 0, passSkipped := 0, frames := e.st.run.frames ++ [e.st.passOpens] }
      port := { e.st.port with
        seqRun := some (stepWrap max32 e.st.run.runId), nextNo := 1, highestAcked := 0, retry := 0, resendPos := none } }
    todo := { e.todo with engine := true, port := true } } := by
  unfold openPass wakeEngine State.passOpens
  dsimp only
  rw [readyFrame_eq, beginSequence_eq]
  generalize stepWrap max32 = g
  rfl

theorem startRun_eq (mode minute : Nat) (e : Event) : startRun (modeOf mode) minute e =
    { e with st := e.st.started mode minute, todo := { e.todo with engine := true, port := true } } := by
  unfold startRun
  rw [openPass_eq]
  unfold State.started State.openedRun State.runOpens State.passOpens
  generalize stepWrap max32 = g
  generalize nextMinute = d
  rfl

theorem perform_runStart (mode minute : Nat) (e : Event) (h : e.st.ctl.part ≠ .recovering) :
    perform (.runStart mode minute) e = doRunStart mode minute e := if_neg fun hr => h hr.1

theorem runStart_row (tag mode minute : Nat) : Arrives (.runStart tag mode minute) tag (.runStart mode minute) := fun _ => rfl

/-! ### The checks -/

theorem planCheck_eq (s : State) : planCheck s =
    if s.plan = [] then some (2, 0)
    else match s.plan.find? fun v => !(s.vol v).usable with
      | some v => some (3, v)
      | none => (s.plan.find? fun v => !(s.vol v).offsite).map fun v => (4, v) := rfl

section
variable {s : State} {tag mode minute : Nat}

/-- A start that fails a check is refused with its reason, and with the volume of reasons 3 and 4. -/
theorem exec_notArmed (h : s.ctlServes) (hm : mode ≤ 1) (hn : minute ≤ 1439) (hp : s.ctl.part = .running) {reason v : Nat}
    (hc : startCheck s = some (reason, v)) : exec (.runStart tag mode minute) s = .next (s.answered 29 tag .notArmed
      ([reason] ++ optField (if reason = 3 ∨ reason = 4 then some v else none))) := by
  refine exec_stands h (runStart_row tag mode minute) (perform_runStart mode minute) ?_ nofun nofun
  unfold doRunStart
  rw [if_neg (by omega), if_neg (by omega), if_neg (by simpa [State.executes] using hp),
    show startCheck (s.executes ⟨tag, .runStart mode minute⟩) = some (reason, v) from hc]
  rfl

/-- A start that passes its checks. -/
theorem doRunStart_starts (hm : mode ≤ 1) (hn : minute ≤ 1439) {e : Event} (hp : e.st.ctl.part = .running)
    (hc : startCheck e.st = none) : doRunStart mode minute e =
      reply .ok [stepWrap max32 e.st.run.runId, nextMinute e.st.sched.clock minute]
        { e with st := e.st.started mode minute, todo := { e.todo with engine := true, port := true } } := by
  unfold doRunStart
  rw [if_neg (by omega), if_neg (by omega), if_neg (by simp [hp]), hc]
  dsimp only
  rw [startRun_eq]
  rfl

end

/-- The place of a start that has opened its run: the engine waits for slot 0 of the first volume. -/
theorem started_rests {u : State} (hp : u.run.phase = .freeze)
    (hs : ∀ v, u.currentVol = some v → tfind (u.vol v).snaps 0 ≠ none) : u.EngineRests := by
  refine engineRests_of (Option.eq_none_iff_forall_ne_some.mpr fun v hv => ?_) (by simp [Run.sending, hp])
  unfold State.freezeDue at hv
  rw [Option.filter_eq_some_iff] at hv
  exact hs v hv.1 (Option.isNone_iff_eq_none.mp ((Bool.and_eq_true _ _).mp hv.2).2)

/-- A start whose frame waits for the port. -/
theorem exec_started (h : s.ctlServes) (hm : mode ≤ 1) (hn : minute ≤ 1439) (hp : s.ctl.part = .running)
    (hc : startCheck s = none) (hs : ∀ v, s.plan[0]? = some v → tfind (s.vol v).snaps 0 ≠ none)
    (hw : s.port.held = true ∨ s.port.pace < s.port.nextSend) :
    exec (.runStart tag mode minute) s = .next ((s.started mode minute).answered 29 tag .ok
      [stepWrap max32 s.run.runId, nextMinute s.sched.clock minute]) := by
  refine exec_noted h (runStart_row tag mode minute) (perform_runStart mode minute) (s.started mode minute) (ns := [])
    (todo := { engine := true, port := true })
    (doRunStart_starts hm hn (e := { st := s.executes ⟨tag, .runStart mode minute⟩ }) hp hc) ?_ (by simp) rfl nofun nofun
  rw [reply_eq (x := ⟨tag, 29⟩) rfl]
  exact ⟨nofun, nofun, nofun, nofun, nofun, nofun, fun _ => started_rests rfl hs, fun _ => portRests_of (.inr hw),
    fun _ _ => h.1.2.2, nofun⟩

theorem took_opens (r : Run) {f : Frame} (h : f.kind = .runOpen) : r.took f = { r with frames := r.frames.drop 1 } := by
  simp [Run.took, h]

theorem pacedAfter_header (s : State) {f : Frame} (h : f.payload = []) :
    pacedAfter s f = s.port.pace + (48 * 1000000 + (activeRate s * 1024 - 1)) / (activeRate s * 1024) := by
  unfold pacedAfter paceInterval Frame.length Frame.payloadLength
  rw [h]
  rfl

/-- A start whose frame the port sends at once. -/
theorem exec_startSends (h : s.ctlServes) (hm : mode ≤ 1) (hn : minute ≤ 1439) (hp : s.ctl.part = .running)
    (hc : startCheck s = none) (hs : ∀ v, s.plan[0]? = some v → tfind (s.vol v).snaps 0 ≠ none)
    (hup : s.port.up = true) (hh : s.port.held = false) (hpa : s.port.nextSend ≤ s.port.pace)
    (hw : s.port.outstanding.length < s.ctl.config.window) :
    let u := State.answered { s.started mode minute with
      port := (s.started mode minute).sentPort (s.runOpens mode), run := (s.started mode minute).run.took (s.runOpens mode) }
      29 tag .ok [stepWrap max32 s.run.runId, nextMinute s.sched.clock minute]
    exec (.runStart tag mode minute) s = .next { u with out := .offsite { s.runOpens mode with seq := 1 } :: u.out } := by
  intro u
  let t : State := { s.started mode minute with
    port := (s.started mode minute).sentPort (s.runOpens mode), run := (s.started mode minute).run.took (s.runOpens mode) }
  let a : Answer := ⟨29, tag, .ok, [stepWrap max32 s.run.runId, nextMinute s.sched.clock minute], none⟩
  let fr : Output := .offsite { s.runOpens mode with seq := 1 }
  let e : Event := { st := { s.started mode minute with out := [], ctl := { s.ctl with executing := none } } }
  have hclear : e.st.port.clear = true := by
    simp only [Port.clear]
    rw [show e.st.port.up = true from hup, show e.st.port.held = false from hh,
      show decide (e.st.port.nextSend ≤ e.st.port.pace) = true from decide_eq_true hpa]
    rfl
  have hsend : portTurn { e with todo := { answer := some a } } =
      { st := { t with ctl := { t.ctl with executing := none }, out := [fr] }, todo := { engine := true, answer := some a } } := by
    rw [portTurn_sends (e := { e with todo := { answer := some a } }) (f := s.runOpens mode) (more := []) hclear rfl rfl nofun hw,
      sendNew_eq]
    rfl
  have hends : Ends 6 { e with todo := { engine := true, port := true, answer := some a } }
      ({ st := { t with ctl := { t.ctl with executing := none }, out := [fr] }, todo := { answer := some a } } : Event).sendAnswer := by
    refine Ends.turn (e' := { e with todo := { port := true, answer := some a } })
      (congrArg some (started_rests (u := e.st) rfl hs _ rfl)) ?_
    refine Ends.turn (e' := portTurn { e with todo := { answer := some a } }) rfl ?_
    rw [hsend]
    refine Ends.turn (e' := { st := { t with ctl := { t.ctl with executing := none }, out := [fr] }, todo := { answer := some a } })
      (congrArg some (started_rests (u := { t with ctl := { t.ctl with executing := none }, out := [fr] }) rfl hs _ rfl)) ?_
    exact ends_answerFlag (some a) false false { st := { t with ctl := { t.ctl with executing := none }, out := [fr] } }
      (fun _ _ => h.1.2.2) nofun
  refine exec_replies (k := 6) h (runStart_row tag mode minute) (perform_runStart mode minute) t (ns := [])
    (outs := [fr]) ?_ (fun o ho => by rw [List.mem_singleton.mp ho]; rfl) (by omega) rfl nofun nofun
  rw [doRunStart_starts hm hn (e := { st := s.executes ⟨tag, .runStart mode minute⟩ }) hp hc, reply_eq (x := ⟨tag, 29⟩) rfl]
  exact hends

/-- Settles O39: RUN START checks in order, and opens the pass. -/
theorem runStartChecksAndOpensThePass : Obligations.RunStartChecksAndOpensThePass := by
  unfold Obligations.RunStartChecksAndOpensThePass
  intro s tag mode minute h
  dsimp only
  have hus : (fun w => !(s.vol w).usable) = fun w => decide ((s.vol w).state = .absent ∨ (s.vol w).state = .deleting) := by
    funext w
    rw [Bool.eq_iff_iff]
    simpa using not_usable_iff (s.vol w)
  refine ⟨fun hm => ?_, fun hm hn => ?_, fun hm hn hp => ?_, fun hm hn hp => ⟨fun hi => ?_, fun hi he => ?_, fun hi v hv => ?_,
    fun hi hd v hv => ?_, fun hi he hpl => ⟨fun hl => ?_, fun hl first hf hsl => ⟨fun hw => ?_, fun hh hpa hw => ?_⟩⟩⟩⟩
  · refine exec_stands h (runStart_row tag mode minute) (perform_runStart mode minute) (if_pos hm) nofun nofun
  · refine exec_stands h (runStart_row tag mode minute) (perform_runStart mode minute) ?_ nofun nofun
    unfold doRunStart
    rw [if_neg (by omega), if_pos hn]
    rfl
  · refine exec_stands h (runStart_row tag mode minute) (perform_runStart mode minute) ?_ nofun nofun
    unfold doRunStart
    rw [if_neg (by omega), if_neg (by omega), if_pos (by simp [State.executes, hp])]
    rfl
  · exact exec_notArmed (v := 0) h hm hn hp (reason := 1) (if_pos hi)
  · refine exec_notArmed (v := 0) h hm hn hp (reason := 2) ?_
    unfold startCheck
    rw [if_neg (not_not.mpr hi), planCheck_eq, if_pos he]
  · refine exec_notArmed (v := v) h hm hn hp (reason := 3) ?_
    unfold startCheck
    rw [if_neg (not_not.mpr hi), planCheck_eq, if_neg (by rintro he; simp [he] at hv), hus, hv]
  · refine exec_notArmed (v := v) h hm hn hp (reason := 4) ?_
    unfold startCheck
    rw [if_neg (not_not.mpr hi), planCheck_eq, if_neg (by rintro he; simp [he] at hv), hus,
      List.find?_eq_none.mpr fun w hw => by simpa using hd w hw, hv]
    rfl
  all_goals
    have hplan : planCheck s = none := by
      rw [planCheck_eq, if_neg he, hus, List.find?_eq_none.mpr fun w hw => by simpa using (hpl w hw).1]
      dsimp only
      rw [List.find?_eq_none.mpr fun w hw => by simpa using (hpl w hw).2]
      rfl
  · refine exec_notArmed (v := 0) h hm hn hp (reason := 5) ?_
    unfold startCheck
    rw [if_neg (not_not.mpr hi), hplan]
    exact if_neg hl
  all_goals
    have hframe : s.runOpens mode =
        { kind := .runOpen, flags := if mode = 0 then 0 else 1, vol := 0, seq := 0,
          runId := if 4294967295 ≤ s.run.runId then 0 else s.run.runId + 1, lcn := 0, count := 0,
          crc := 0#32, gen := 0, a := 1, b := s.plan.length, payload := [] } := by
      obtain rfl | rfl : mode = 0 ∨ mode = 1 := by omega
      · rfl
      · rfl
    have hcheck : startCheck s = none := by
      unfold startCheck
      rw [if_neg (not_not.mpr hi), hplan]
      exact if_pos hl
    have hslot : ∀ v, s.plan[0]? = some v → tfind (s.vol v).snaps 0 ≠ none := fun v hv => by
      rwa [← Option.some.inj (hf.symm.trans hv)]
  · rw [exec_started h hm hn hp hcheck hslot hw]
    unfold State.started State.openedRun
    rw [hframe]
    rfl
  · refine ⟨_, rfl, ?_⟩
    rw [exec_startSends h hm hn hp hcheck hslot hl.1 hh hpa hw, took_opens _ rfl]
    unfold State.sentPort
    rw [pacedAfter_header _ rfl]
    unfold State.started State.openedRun
    rw [hframe]
    rfl

end Sys2Proof.Machine
end

section
/-! PROOFS. The run's own freeze of its volume (O40): the RUN create at once, behind a drain, or skipped. -/

namespace Sys2Proof.Machine

/-! ### The freeze of a send (R128) -/

/-- A volume frozen for its send: the run counter has stepped and the lists have swapped. -/
def Volume.swapped (x : Volume) : Volume :=
  let c := stepWrap Config.maxRunCounter x.runCounter
  { x with
    runCounter := c, runList := x.activeList, runIncomplete := x.activeIncomplete, activeList := [], activeIncomplete := false,
    fullScan := x.fullScan || c == 0 }

/-- The reasons of a volume for a full scan at its freeze. -/
def Volume.reasons (x : Volume) : Nat := scanReasons x (stepWrap Config.maxRunCounter x.runCounter)

/-- The frame that opens the send of a volume frozen at generation `gen`. -/
def State.volumeOpens (s : State) (v gen : Nat) : Frame :=
  { Frame.plain .volumeOpen s.run.runId with
    flags := flag ((s.vol v).reasons != 0) + 2 * (s.vol v).reasons, vol := v, count := (s.vol v).size, gen := gen,
    a := s.format.k }

/-- The run at the beginning of the send of a volume. -/
def State.sendRun (s : State) (v gen : Nat) : Run :=
  { s.run with
    phase := .send, fullScan := (s.vol v).reasons != 0, reasons := (s.vol v).reasons,
    keep := stepWrap Config.maxRunCounter (s.vol v).runCounter == 0, pos := 0, clearStart := 0, clearCount := 0,
    scanRead := false, volData := 0, volClear := 0, frames := s.run.frames ++ [s.volumeOpens v gen] }

theorem volumeFreeze_eq (v gen : Nat) (e : Event) : volumeFreeze v gen e = { e with
    st := { e.st.setVol v (e.st.vol v).swapped with run := e.st.sendRun v gen }
    todo := { e.todo with engine := true, port := true } } := by
  have hvol : ((e.updVol v Volume.swapped).st.vol v) = (e.st.vol v).swapped := updVol_st_vol ..
  have hsize : ((e.updVol v Volume.swapped).st.vol v).size = (e.st.vol v).size := by rw [hvol]; rfl
  unfold State.sendRun State.volumeOpens
  rw [← hsize]
  unfold volumeFreeze Volume.reasons Volume.swapped
  dsimp only
  rw [readyFrame_eq]
  generalize stepWrap Config.maxRunCounter = g
  generalize scanReasons = q
  rfl

/-- The create of a run is refused at the last generation. -/
theorem createCheck_run {x : Volume} (h : tfind x.snaps 0 = none) :
    createCheck .run x = if 4294967294 ≤ x.gen then some .genLimit else none := by
  unfold createCheck
  dsimp only
  rw [if_neg (by simp [h]), if_neg (by simp)]
  rfl

/-- The run's own create of its current volume (R127). -/
def runCreate (label : Nat) : CreateReq := { kind := .run, series := none, label := label, asker := .run }

theorem makeSnapshot_run {v label : Nat} {e : Event} (hs : tfind (e.st.vol v).snaps 0 = none) (hg : (e.st.vol v).gen < 4294967294) :
    makeSnapshot v (runCreate label) e =
      volumeFreeze v (e.st.vol v).gen (e.updVol v fun x => x.snapped 0 (newSnap e.st v (runCreate label))) := by
  have hc : createCheck (runCreate label).kind (e.st.vol v) = none := by
    rw [show (runCreate label).kind = .run from rfl, createCheck_run hs, if_neg (by omega)]
  unfold makeSnapshot
  rw [createEvent_made hc]
  rfl

theorem makeSnapshot_skips {v label : Nat} {e : Event} (hs : tfind (e.st.vol v).snaps 0 = none) (hg : 4294967294 ≤ (e.st.vol v).gen) :
    makeSnapshot v (runCreate label) e = skipVolume v e := by
  have hc : createCheck (runCreate label).kind (e.st.vol v) = some .genLimit := by
    rw [show (runCreate label).kind = .run from rfl, createCheck_run hs, if_pos hg]
  unfold makeSnapshot
  rw [createEvent_refused hc]
  rfl

/-- The only volume of a plan is skipped: the pass closes. -/
theorem skipVolume_last {v : Nat} {e : Event} (hn : e.st.plan[e.st.run.planIndex + 1]? = none) (ha : e.st.run.state = .active) :
    skipVolume v e = { e with
      st := { e.st with run := { e.st.run with
        skippedVols := e.st.run.skippedVols + 1, passSkipped := e.st.run.passSkipped + 1, planIndex := e.st.run.planIndex + 1,
        asked := false, state := .closing,
        frames := e.st.run.frames ++
          [{ Frame.plain .runClose e.st.run.runId with a := e.st.run.passSealed, b := e.st.run.passSkipped + 1 }] } }
      todo := { e.todo with port := true }
      notices := e.notices ++ [e.st.notice .runVolumeSkipped v 20 0] } := by
  unfold skipVolume nextVolume
  dsimp only
  rw [if_neg (by simpa [State.currentVol, Event.updRun, Event.upd, Event.note] using hn), readyFrame_eq]
  simp only [Event.updRun, Event.upd, Event.note, ha, if_true]
  rfl

/-- The state once the RUN create of a volume has been made. -/
def State.runFrozen (s : State) (v label : Nat) : State :=
  { s.setVol v ((s.vol v).snapped 0 (newSnap s v (runCreate label))).swapped with run := s.sendRun v (s.vol v).gen }

theorem makeSnapshot_runFrozen {v label : Nat} {e : Event} (hs : tfind (e.st.vol v).snaps 0 = none)
    (hg : (e.st.vol v).gen < 4294967294) (habs : (e.st.vol v).state ≠ .absent) :
    makeSnapshot v (runCreate label) e =
      { e with st := e.st.runFrozen v label, todo := { e.todo with engine := true, port := true } } := by
  rw [makeSnapshot_run hs hg, volumeFreeze_eq, updVol_st_vol]
  unfold State.runFrozen State.sendRun State.volumeOpens
  rw [updVol_st_vol]
  simp only [Event.updVol, Event.upd]
  rw [State.setVol_setVol _ _ (by exact habs) (by exact habs)]
  rfl

/-- The drain of a RUN create that finds no changing work in hand ends at once. -/
theorem askCreate_runEmpty {v label : Nat} {e : Event} {n : Event → Event} (hf : (e.st.vol v).state ≠ .frozen)
    (hd : (e.st.vol v).drain = none) (hw : (e.st.vol v).waiting = []) (hm : drainSet e.st v = [])
    (hh : ∀ d, ((makeSnapshot v (runCreate label) (e.updVol v fun x => { x with drain := some d })).st.vol v).holdList = [])
    (hn : ∀ d, (makeSnapshot v (runCreate label) (e.updVol v fun x => { x with drain := some d })).updVol v
      (fun x => { x with drain := none, holdList := [] }) = n e) :
    askCreate v (runCreate label) e =
      { n e with todo := { (n e).todo with jobs := true, drainBegin := insertAsc v (n e).todo.drainBegin } } := by
  obtain ⟨d, hask, hwork⟩ := askDrain_holding_empty (c := runCreate label) hd hw hm
  have haction : drainAction v d .taken (e.updVol v fun x => { x with drain := some d }) =
      makeSnapshot v (runCreate label) (e.updVol v fun x => { x with drain := some d }) := by
    simp only [drainAction, hwork]
  rw [askCreate, if_neg hf, hask, finishDrain_some (d := d) (by rw [updVol_st_vol]) (by rw [haction]; exact hh d)]
  dsimp only
  rw [haction, hn d]

theorem undrain_eq {x : Volume} (hd : x.drain = none) (hh : x.holdList = []) : { x with drain := none, holdList := [] } = x := by
  cases x
  cases hd
  cases hh
  rfl

/-- A drain that ends in the event in which it began leaves no trace on its volume. -/
theorem setVol_undrains (s : State) {v : Nat} {x : Volume} {d : Option Drain} (habs : x.state ≠ .absent) (hd : x.drain = none)
    (hh : x.holdList = []) : (s.setVol v { x with drain := d }).setVol v
      { ((s.setVol v { x with drain := d }).vol v) with drain := none, holdList := [] } = s.setVol v x := by
  rw [State.vol_setVol, State.setVol_setVol _ _ (by exact habs) (by exact habs)]
  exact congrArg (s.setVol v) (undrain_eq hd hh)

theorem askCreate_runFrozen {v label : Nat} {e : Event} (hs : tfind (e.st.vol v).snaps 0 = none)
    (hg : (e.st.vol v).gen < 4294967294) (habs : (e.st.vol v).state ≠ .absent) (hf : (e.st.vol v).state ≠ .frozen)
    (hd : (e.st.vol v).drain = none) (hw : (e.st.vol v).waiting = []) (hh : (e.st.vol v).holdList = []) (hm : drainSet e.st v = []) :
    askCreate v (runCreate label) e = { e with
      st := e.st.runFrozen v label
      todo := { e.todo with engine := true, port := true, jobs := true, drainBegin := insertAsc v e.todo.drainBegin } } := by
  have hmake : ∀ d, makeSnapshot v (runCreate label) (e.updVol v fun x => { x with drain := some d }) = { e with
      st := { e.st.setVol v { ((e.st.vol v).snapped 0 (newSnap e.st v (runCreate label))).swapped with drain := some d } with
        run := e.st.sendRun v (e.st.vol v).gen }
      todo := { e.todo with engine := true, port := true } } := by
    intro d
    rw [makeSnapshot_runFrozen (by rw [updVol_st_vol]; exact hs) (by rw [updVol_st_vol]; exact hg) (by rw [updVol_st_vol]; exact habs)]
    unfold State.runFrozen State.sendRun State.volumeOpens newSnap
    rw [updVol_st_vol]
    simp only [Event.updVol, Event.upd]
    rw [State.setVol_setVol _ _ (by exact habs) (by exact habs)]
    rfl
  refine askCreate_runEmpty (n := fun e => { e with
    st := e.st.runFrozen v label, todo := { e.todo with engine := true, port := true } }) hf hd hw hm (fun d => ?_) fun d => ?_
  · rw [hmake]
    change ((e.st.setVol v _).vol v).holdList = []
    rw [State.vol_setVol]
    exact hh
  · rw [hmake]
    exact congrArg (fun s => ({ e with
      st := { s with run := e.st.sendRun v (e.st.vol v).gen }, todo := { e.todo with engine := true, port := true } } : Event))
      (setVol_undrains e.st (v := v) (d := some d) (x := ((e.st.vol v).snapped 0 (newSnap e.st v (runCreate label))).swapped)
        habs hd hh)

theorem askCreate_runSkips {v label : Nat} {e : Event} (hs : tfind (e.st.vol v).snaps 0 = none)
    (hg : 4294967294 ≤ (e.st.vol v).gen) (habs : (e.st.vol v).state ≠ .absent) (hf : (e.st.vol v).state ≠ .frozen)
    (hd : (e.st.vol v).drain = none) (hw : (e.st.vol v).waiting = []) (hh : (e.st.vol v).holdList = []) (hm : drainSet e.st v = [])
    (hn : e.st.plan[e.st.run.planIndex + 1]? = none) (ha : e.st.run.state = .active) :
    askCreate v (runCreate label) e =
      let f := skipVolume v e
      { f with
        st := f.st.setVol v (e.st.vol v)
        todo := { f.todo with jobs := true, drainBegin := insertAsc v f.todo.drainBegin } } := by
  have hmake : ∀ d, makeSnapshot v (runCreate label) (e.updVol v fun x => { x with drain := some d }) =
      skipVolume v (e.updVol v fun x => { x with drain := some d }) := fun d =>
    makeSnapshot_skips (by rw [updVol_st_vol]; exact hs) (by rw [updVol_st_vol]; exact hg)
  have hskip : ∀ d, skipVolume v (e.updVol v fun x => { x with drain := some d }) = { skipVolume v e with
      st := (skipVolume v e).st.setVol v { e.st.vol v with drain := some d } } := by
    intro d
    rw [skipVolume_last (by exact hn) (by exact ha), skipVolume_last hn ha]
    rfl
  refine askCreate_runEmpty (n := fun e => { skipVolume v e with st := (skipVolume v e).st.setVol v (e.st.vol v) })
    hf hd hw hm (fun d => ?_) fun d => ?_
  · rw [hmake, hskip]
    change (((skipVolume v e).st.setVol v _).vol v).holdList = []
    rw [State.vol_setVol]
    exact hh
  · rw [hmake, hskip]
    exact congrArg (fun s => ({ skipVolume v e with st := s } : Event))
      (setVol_undrains (skipVolume v e).st (v := v) (d := some d) (x := e.st.vol v) habs hd hh)

/-- The engine's turn asks for the RUN create that falls due. -/
theorem engineTurn_asks {e : Event} {v : Nat} (hp : e.st.ctl.part ≠ .recovering) (hd : e.st.freezeDue = some v) :
    engineTurn e = askRunCreate v e := by
  unfold engineTurn
  rw [if_neg hp, (freezeDue_eq hd).1]
  dsimp only
  rw [if_pos (by rw [hd]; rfl)]

/-! ### RUN START on a plan whose first volume has slot 0 empty -/

section
variable {s : State} {tag minute v : Nat} {rest : List Nat}

/-- The state in which the engine asks for its first RUN create. -/
def State.askingRun (s : State) (minute : Nat) : State :=
  { s.started 0 minute with
    run := { (s.started 0 minute).run with asked := true }, ctl := { s.ctl with executing := none }, out := [] }

/-- The answer to a start. -/
def State.startAnswer (s : State) (tag minute : Nat) : Answer :=
  ⟨29, tag, .ok, [stepWrap max32 s.run.runId, nextMinute s.sched.clock minute], none⟩

/-- A start whose engine asks for its RUN create in the same event. -/
theorem exec_startAsks (h : s.ctlServes) (hm : minute ≤ 1439) (hp : s.ctl.part = .running) (hc : startCheck s = none)
    (hplan : s.plan[0]? = some v) (hslot : tfind (s.vol v).snaps 0 = none) {t : State} {todo : Todo} {ns : List Notice}
    (hask : askCreate v (runCreate (stepWrap max32 s.run.runId))
      { st := s.askingRun minute, todo := { port := true, answer := some (s.startAnswer tag minute) } } =
        { st := { t with ctl := { t.ctl with executing := none }, out := [] }, todo := todo, notices := ns })
    (ha : todo.answer = some (s.startAnswer tag minute))
    (hs : ({ st := { t with ctl := { t.ctl with executing := none }, out := [] }, todo := todo, notices := ns } : Event).Settled)
    (hl : todo.drainBegin.length ≤ 900) (hu : t.frontUp = s.frontUp) :
    exec (.runStart tag 0 minute) s = .next (State.answered { t with ctl := ns.foldl offer t.ctl } 29 tag .ok
      [stepWrap max32 s.run.runId, nextMinute s.sched.clock minute]) := by
  refine exec_replies (k := 10 + todo.drainBegin.length + 1) h (runStart_row tag 0 minute) (perform_runStart 0 minute) t (ns := ns)
    (outs := []) ?_ (by simp) (by omega) hu nofun nofun
  rw [doRunStart_starts (by omega) hm (e := { st := s.executes ⟨tag, .runStart 0 minute⟩ }) hp hc, reply_eq (x := ⟨tag, 29⟩) rfl]
  have hdue : (s.started 0 minute).freezeDue = some v := by
    unfold State.freezeDue
    rw [show (s.started 0 minute).currentVol = some v from hplan, Option.filter_some, if_pos]
    rw [show tfind ((s.started 0 minute).vol v).snaps 0 = none from hslot]
    rfl
  cases todo
  subst ha
  refine Ends.turn (e' := askCreate v (runCreate (stepWrap max32 s.run.runId))
    { st := s.askingRun minute, todo := { port := true, answer := some (s.startAnswer tag minute) } }) (congrArg some ?_) ?_
  · refine (engineTurn_asks (v := v) ?_ ?_).trans rfl
    · exact fun hr => absurd (hp.symm.trans hr) nofun
    · exact hdue
  · rw [hask]
    exact ends_settled hs

/-- A request behind which only rests are left: no job begins a visit, nothing waits for a drain, and the engine and the port rest. -/
theorem settled_ofRests {t : State} {ns : List Notice} {a : Answer} {j en po : Bool} {l : List Nat}
    (hj : ∀ p ∈ t.jobs, p.2.state ≠ .running) (hl : ∀ w ∈ l, (t.vol w).waiting = []) (hd : t.freezeDue = none)
    (hs : t.run.sending = false) (hp : t.port.held = true) (hq : t.ctl.queue = []) :
    ({ st := t, todo := { jobs := j, drainBegin := l, engine := en, port := po, answer := some a }, notices := ns } : Event).Settled :=
  ⟨nofun, nofun, nofun, nofun, fun _ p hp => canVisit_of_state (hj p hp), fun w hw _ => hl w hw,
    fun _ => engineRests_of hd hs, fun _ => portRests_of (.inr (.inl hp)), fun _ _ => hq, nofun⟩

theorem freezeDue_none {s : State} (h : s.run.phase ≠ .freeze ∨ s.run.asked = true ∨ s.currentVol = none) : s.freezeDue = none := by
  refine Option.eq_none_iff_forall_ne_some.mpr fun v hv => ?_
  obtain ⟨hc, -, hp, ha⟩ := freezeDue_eq hv
  rcases h with h | h | h
  · exact h hp
  · simp [h] at ha
  · simp [h] at hc

/-- The RUN snapshot is created at once. -/
theorem exec_startFreezes (h : s.ctlServes) (hm : minute ≤ 1439) (hp : s.ctl.part = .running) (hc : startCheck s = none)
    (hplan : s.plan[0]? = some v) (hslot : tfind (s.vol v).snaps 0 = none) (hjobs : ∀ p ∈ s.jobs, p.2.state ≠ .running)
    (hheld : s.port.held = true) (habs : (s.vol v).state ≠ .absent) (hg : (s.vol v).gen < 4294967294) (hd : (s.vol v).drain = none)
    (hw : (s.vol v).waiting = []) (hh : (s.vol v).holdList = []) (hr : (s.vol v).state = .frozen ∨ drainSet s v = []) :
    exec (.runStart tag 0 minute) s = .next (State.answered
      { (s.askingRun minute).runFrozen v (stepWrap max32 s.run.runId) with ctl := s.ctl } 29 tag .ok
        [stepWrap max32 s.run.runId, nextMinute s.sched.clock minute]) := by
  have hwait : ∀ w ∈ [v], (((s.askingRun minute).runFrozen v (stepWrap max32 s.run.runId)).vol w).waiting = [] := by
    intro w hw'
    rw [List.mem_singleton.mp hw']
    change (((s.askingRun minute).setVol v _).vol v).waiting = []
    rw [State.vol_setVol]
    exact hw
  have hsend : ((s.askingRun minute).runFrozen v (stepWrap max32 s.run.runId)).run.sending = false := by
    simp [Run.sending, State.runFrozen, State.sendRun]
  by_cases hf : (s.vol v).state = .frozen
  · refine exec_startAsks h hm hp hc hplan hslot (ns := []) (todo := { port := true, engine := true, answer := some (s.startAnswer tag minute) })
      (t := { (s.askingRun minute).runFrozen v (stepWrap max32 s.run.runId) with ctl := s.ctl }) ?_ rfl ?_ (by simp) rfl
    · unfold askCreate
      rw [if_pos (by exact hf), makeSnapshot_runFrozen (by exact hslot) (by exact hg) (by exact habs)]
      rfl
    · exact settled_ofRests hjobs nofun (freezeDue_none (.inl nofun)) hsend hheld h.1.2.2
  · refine exec_startAsks h hm hp hc hplan hslot (ns := [])
      (todo := { jobs := true, drainBegin := [v], port := true, engine := true, answer := some (s.startAnswer tag minute) })
      (t := { (s.askingRun minute).runFrozen v (stepWrap max32 s.run.runId) with ctl := s.ctl }) ?_ rfl ?_ (by simp) rfl
    · rw [askCreate_runFrozen (by exact hslot) (by exact hg) (by exact habs) (by exact hf) (by exact hd) (by exact hw) (by exact hh)
        (by exact hr.resolve_left hf)]
      rfl
    · exact settled_ofRests hjobs hwait (freezeDue_none (.inl nofun)) hsend hheld h.1.2.2

/-- The drain of a RUN create. -/
def State.runDrain (s : State) (v label : Nat) : Drain :=
  { work := .holding (runCreate label), members := drainSet s v, timeout := s.ctl.config.drainTimeout }

theorem askCreate_runWaits {v label : Nat} {e : Event} (hf : (e.st.vol v).state ≠ .frozen) (hd : (e.st.vol v).drain = none)
    (hw : (e.st.vol v).waiting = []) (hm : drainSet e.st v ≠ []) : askCreate v (runCreate label) e =
      e.updVol v fun x => { x with drain := some (e.st.runDrain v label) } := by
  have hask : (e.st.vol v).drain = none ∧ (e.st.vol v).waiting = [] := ⟨hd, hw⟩
  rw [askCreate, if_neg hf]
  simp only [askDrain, if_pos hask, beginDrain]
  exact if_neg hm

/-- The RUN create waits for changing work in hand. -/
theorem exec_startWaits (h : s.ctlServes) (hm : minute ≤ 1439) (hp : s.ctl.part = .running) (hc : startCheck s = none)
    (hplan : s.plan[0]? = some v) (hslot : tfind (s.vol v).snaps 0 = none) (hjobs : ∀ p ∈ s.jobs, p.2.state ≠ .running)
    (hheld : s.port.held = true) (hd : (s.vol v).drain = none) (hw : (s.vol v).waiting = []) (hf : (s.vol v).state ≠ .frozen)
    (hr : drainSet s v ≠ []) :
    exec (.runStart tag 0 minute) s = .next (State.answered
      { (s.askingRun minute).setVol v { s.vol v with drain := some (s.runDrain v (stepWrap max32 s.run.runId)) } with ctl := s.ctl }
        29 tag .ok [stepWrap max32 s.run.runId, nextMinute s.sched.clock minute]) := by
  refine exec_startAsks h hm hp hc hplan hslot (ns := []) (todo := { port := true, answer := some (s.startAnswer tag minute) })
    (t := { (s.askingRun minute).setVol v { s.vol v with drain := some (s.runDrain v (stepWrap max32 s.run.runId)) } with ctl := s.ctl })
    ?_ rfl ?_ (by simp) rfl
  · exact (askCreate_runWaits (by exact hf) (by exact hd) (by exact hw) (by exact hr)).trans rfl
  · exact settled_ofRests hjobs nofun (freezeDue_none (.inr (.inl rfl))) (by simp [Run.sending, State.askingRun, State.started, State.openedRun])
      hheld h.1.2.2

/-- The state once the only volume of the plan has been skipped. -/
def State.startSkips (s : State) (minute v : Nat) : State :=
  { (s.askingRun minute).setVol v (s.vol v) with
    run := { (s.askingRun minute).run with
      skippedVols := 1, passSkipped := 1, planIndex := 1, asked := false, state := .closing,
      frames := (s.askingRun minute).run.frames ++ [{ Frame.plain .runClose (stepWrap max32 s.run.runId) with a := 0, b := 1 }] }
    ctl := s.ctl }

/-- The RUN create is refused at the last generation, and the only volume of the plan skipped. -/
theorem exec_startSkips (h : s.ctlServes) (hm : minute ≤ 1439) (hp : s.ctl.part = .running) (hc : startCheck s = none)
    (hplan : s.plan = [v]) (hslot : tfind (s.vol v).snaps 0 = none) (hjobs : ∀ p ∈ s.jobs, p.2.state ≠ .running) (hwf : s.wf = true)
    (hheld : s.port.held = true) (habs : (s.vol v).state ≠ .absent) (hg : 4294967294 ≤ (s.vol v).gen) (hd : (s.vol v).drain = none)
    (hw : (s.vol v).waiting = []) (hh : (s.vol v).holdList = []) (hr : (s.vol v).state = .frozen ∨ drainSet s v = []) :
    exec (.runStart tag 0 minute) s = .next (State.answered
      { s.startSkips minute v with ctl := offer s.ctl (s.notice .runVolumeSkipped v 20 0) } 29 tag .ok
        [stepWrap max32 s.run.runId, nextMinute s.sched.clock minute]) := by
  have hnone : s.plan[1]? = none := by rw [hplan]; rfl
  have hwait : ∀ w ∈ [v], ((s.startSkips minute v).vol w).waiting = [] := by
    intro w hw'
    rw [List.mem_singleton.mp hw']
    change (((s.askingRun minute).setVol v _).vol v).waiting = []
    rw [State.vol_setVol]
    exact hw
  have hsend : (s.startSkips minute v).run.sending = false := by
    simp [Run.sending, State.startSkips]
  have hdue : (s.startSkips minute v).freezeDue = none := freezeDue_none (.inr (.inr hnone))
  by_cases hf : (s.vol v).state = .frozen
  · refine exec_startAsks h hm hp hc (by rw [hplan]; rfl) hslot (ns := [s.notice .runVolumeSkipped v 20 0])
      (todo := { port := true, answer := some (s.startAnswer tag minute) }) (t := s.startSkips minute v) ?_ rfl ?_ (by simp) rfl
    · unfold askCreate
      rw [if_pos (by exact hf), makeSnapshot_skips (by exact hslot) (by exact hg), skipVolume_last (by exact hnone) rfl]
      have hself : (s.askingRun minute).setVol v (s.vol v) = s.askingRun minute :=
        State.setVol_self (s.askingRun minute) v (wf_vols hwf)
      unfold State.startSkips
      rw [hself]
      rfl
    · exact settled_ofRests hjobs nofun hdue hsend hheld h.1.2.2
  · refine exec_startAsks h hm hp hc (by rw [hplan]; rfl) hslot (ns := [s.notice .runVolumeSkipped v 20 0])
      (todo := { jobs := true, drainBegin := [v], port := true, answer := some (s.startAnswer tag minute) })
      (t := s.startSkips minute v) ?_ rfl ?_ (by simp) rfl
    · rw [askCreate_runSkips (by exact hslot) (by exact hg) (by exact habs) (by exact hf) (by exact hd) (by exact hw) (by exact hh)
        (by exact hr.resolve_left hf) (by exact hnone) rfl, skipVolume_last (by exact hnone) rfl]
      rfl
    · exact settled_ofRests hjobs hwait hdue hsend hheld h.1.2.2

end

/-! ### The drain of a RUN create that times out (R28, R127) -/

/-- A key unlisted and listed again stands in its place. -/
theorem tput_tdel {α : Type} {i : Nat} {t : Table α} (hs : Table.sorted t = true) (v : α) : tput i v (tdel i t) = tput i v t := by
  have hp := pairwise_of_sorted hs
  clear hs
  induction t with
  | nil => rfl
  | cons p t ih =>
    obtain ⟨k, x⟩ := p
    obtain ⟨hk, ht⟩ := List.pairwise_cons.mp hp
    have hnone : i ≤ k → tdel i t = t := fun hi => tdel_none i t <| Option.eq_none_iff_forall_ne_some.mpr fun y hy => by
      have := hk _ (mem_of_tfind hy)
      simp only at this
      omega
    by_cases hik : i = k
    · subst hik
      rw [tdel, if_pos rfl, hnone le_rfl]
      cases t with
      | nil => simp [tput]
      | cons q t =>
        have hq : i < q.1 := hk q (List.mem_cons_self ..)
        simp [tput, hq]
    · rw [tdel, if_neg hik, tput, tput, ih ht]
      split_ifs with hlt
      · rw [hnone hlt.le]
      · rfl

theorem tset_again {α : Type} [DecidableEq α] {d : α} {i : Nat} {t : Table α} (hs : Table.sorted t = true) (v w : α) :
    tset d i v (tset d i w t) = tset d i v t := by
  unfold tset
  by_cases hv : v = d <;> by_cases hw : w = d <;> simp [hv, hw, tput_tput, tput_tdel hs, tdel_tput]
  exact tdel_none _ _ (tfind_tdel_same ..)

theorem State.setVol_again {s : State} (h : s.wf = true) (v : Nat) (x y : Volume) : (s.setVol v x).setVol v y = s.setVol v y := by
  simp only [State.setVol, tset_again (d := Volume.absent) (t := s.vols) ((Bool.and_eq_true _ _).mp (wf_vols h)).1 y x]

theorem setVol_redrains (s : State) {v : Nat} {d : Option Drain} (hwf : s.wf = true) (hh : (s.vol v).holdList = []) :
    (s.setVol v { s.vol v with drain := none, holdList := [] }).setVol v
      { (s.setVol v { s.vol v with drain := none, holdList := [] }).vol v with drain := d } = s.setVol v { s.vol v with drain := d } := by
  rw [State.vol_setVol, State.setVol_again hwf]
  have : ∀ x : Volume, x.holdList = [] → ({ x with drain := d, holdList := [] } : Volume) = { x with drain := d } := by
    intro x hx
    cases x
    cases hx
    rfl
  exact congrArg (s.setVol v) (this _ hh)

/-- The engine asks again in the event in which the drain of its create times out. -/
theorem exec_runDrainTimeout {s : State} {v : Nat} {d : Drain} {label : Nat} (hwf : s.wf = true) (hp : s.ctl.part ≠ .recovering)
    (hv : s.currentVol = some v) (hi : s.run.state ≠ .idle) (hph : s.run.phase = .freeze) (hslot : tfind (s.vol v).snaps 0 = none)
    (hf : (s.vol v).state ≠ .frozen) (hh : (s.vol v).holdList = []) (hw : (s.vol v).waiting = []) (hm : drainSet s v ≠ [])
    (hjobs : ∀ p ∈ s.jobs, p.2.state ≠ .running) (hd : (s.vol v).drain = some d) (hwork : d.work = .holding (runCreate label)) :
    exec (.drainTimeout v) s = .next
      ({ s.setVol v { s.vol v with drain := some (s.runDrain v s.run.runId) } with
        run := { s.run with retries := s.run.retries + 1, asked := true } } : State).closed := by
  let t : State := { s.setVol v { s.vol v with drain := none, holdList := [] } with
    run := { s.run with retries := s.run.retries + 1, asked := false }, out := [] }
  have hvol : t.vol v = { s.vol v with drain := none, holdList := [] } := State.vol_setVol ..
  have haction : drainAction v d .timeout (openEvent s) = { openEvent s with
      st := { (openEvent s).st with run := { s.run with retries := s.run.retries + 1, asked := false } }
      todo := { engine := true } } := by
    simp only [drainAction, hwork]
    rfl
  have hfin : finishDrain v .timeout (openEvent s) = { st := t, todo := { engine := true, jobs := true, drainBegin := [v] } } := by
    rw [finishDrain_some (d := d) hd (by rw [haction]; exact hh)]
    dsimp only
    rw [haction]
    rfl
  have hdue : t.freezeDue = some v := by
    unfold State.freezeDue
    rw [show t.currentVol = some v from hv, Option.filter_some, if_pos]
    rw [hvol]
    simp [t, hi, hph, hslot]
  have hturn : engineTurn { st := t } = { st := { s.setVol v { s.vol v with drain := some (s.runDrain v s.run.runId) } with
      run := { s.run with retries := s.run.retries + 1, asked := true }, out := [] } } := by
    rw [engineTurn_asks (v := v) hp hdue]
    have hf' : (t.vol v).state ≠ .frozen := by rw [hvol]; exact hf
    have hd' : (t.vol v).drain = none := by rw [hvol]
    have hw' : (t.vol v).waiting = [] := by rw [hvol]; exact hw
    refine (askCreate_runWaits (by exact hf') (by exact hd') (by exact hw') (by exact hm)).trans ?_
    exact congrArg (fun u : State => ({ st := { u with
      run := { s.run with retries := s.run.retries + 1, asked := true }, out := [] } } : Event))
      (setVol_redrains s (d := some (s.runDrain v s.run.runId)) hwf hh)
  have hends : Ends 4 (finishDrain v .timeout (openEvent s)) { st := { s.setVol v { s.vol v with drain := some (s.runDrain v s.run.runId) } with
      run := { s.run with retries := s.run.retries + 1, asked := true }, out := [] } } := by
    rw [hfin]
    refine Ends.turn (e' := { st := t, todo := { engine := true, drainBegin := [v] } }) ?_ ?_
    · refine (congrArg some (jobTurn_none (e := { st := t, todo := { engine := true, jobs := true, drainBegin := [v] } })
        fun p hp => canVisit_of_state (hjobs p hp))).trans rfl
    refine Ends.turn (e' := { st := t, todo := { engine := true } }) ?_ ?_
    · change some (if (t.vol v).drain = none then beginNext v _ else _) = _
      rw [if_pos (by rw [hvol]), beginNext, show (t.vol v).waiting = [] from by rw [hvol]; exact hw]
    exact ends_engineTurn (e := { st := t }) (e' := { st := _ }) (g := false) hturn nofun
  exact congrArg Host.Outcome.next (runEvent_ends (ns := []) (outs := []) (t := { s.setVol v { s.vol v with drain := some (s.runDrain v s.run.runId) } with
      run := { s.run with retries := s.run.retries + 1, asked := true } }) hends (by simp) (by omega))

theorem flag_ne_zero (n : Nat) : flag (n != 0) = if n = 0 then 0 else 1 := by
  cases n <;> rfl

theorem reasons_eq (x : Volume) : x.reasons = (if x.fullScan then 1 else 0) + (if x.overflow then 2 else 0) +
    (if x.everSealed then 0 else 4) +
      if (if 65534 ≤ x.runCounter then 0 else x.runCounter + 1) = 0 then 8 else 0 := by
  have hc : stepWrap Config.maxRunCounter x.runCounter = if 65534 ≤ x.runCounter then 0 else x.runCounter + 1 := rfl
  unfold Volume.reasons scanReasons flag
  rw [hc]
  generalize (if 65534 ≤ x.runCounter then 0 else x.runCounter + 1) = c
  cases x.fullScan <;> cases x.overflow <;> cases x.everSealed <;> cases c <;> rfl

theorem startCheck_of {s : State} (hi : s.run.state = .idle) (hp : s.plan ≠ [])
    (ha : ∀ w ∈ s.plan, (s.vol w).usable = true ∧ (s.vol w).offsite = true)
    (hl : s.port.up = true ∧ s.port.site = some s.ctl.config.partnerSite) : startCheck s = none := by
  unfold startCheck
  rw [if_neg (not_not.mpr hi), planCheck_eq, if_neg hp, List.find?_eq_none.mpr fun w hw => by simp [(ha w hw).1]]
  dsimp only
  rw [List.find?_eq_none.mpr fun w hw => by simp [(ha w hw).2]]
  exact if_pos hl

/-- Settles O40: the run freezes its volume at once or behind a drain, or skips it; a timeout asks again. -/
theorem runFreezesItsVolume : Obligations.RunFreezesItsVolume := by
  unfold Obligations.RunFreezesItsVolume
  intro s tag minute v rest hwf hjobs
  dsimp only
  have hcheck : s.run.state = .idle → s.plan = v :: rest → (∀ w ∈ s.plan, (s.vol w).state ≠ .absent ∧ (s.vol w).state ≠ .deleting ∧
      (s.vol w).offsite = true) → s.port.up = true → s.port.site = some s.ctl.config.partnerSite → startCheck s = none :=
    fun hi hplan hall hup hsite => startCheck_of hi (by rw [hplan]; nofun)
      (fun w hw => ⟨(usable_iff _).mpr ⟨(hall w hw).1, (hall w hw).2.1⟩, (hall w hw).2.2⟩) ⟨hup, hsite⟩
  refine ⟨fun h hp hm hi hplan hall hup hsite hheld hslot hd hw hh => ⟨fun hr hg => ?_, fun hf hr => ?_, fun hr hg hrest => ?_⟩,
    fun hp hv hi hph hslot hf hh hw hm d label hd hwork => ?_⟩
  · rw [exec_startFreezes h hm hp (hcheck hi hplan hall hup hsite) (by rw [hplan]; rfl) hslot hjobs hheld
      (hall v (by rw [hplan]; exact List.mem_cons_self ..)).1 hg hd hw hh hr]
    have hreasons := reasons_eq (s.vol v)
    have hopens : (s.askingRun minute).volumeOpens v (s.vol v).gen = { Frame.plain .volumeOpen (stepWrap max32 s.run.runId) with
        flags := (if (s.vol v).reasons = 0 then 0 else 1) + 2 * (s.vol v).reasons, vol := v, count := (s.vol v).size,
        gen := (s.vol v).gen, a := s.format.k } := by
      rw [← flag_ne_zero]
      rfl
    rw [← hreasons]
    unfold State.runFrozen State.sendRun
    rw [show ((s.askingRun minute).vol v).gen = (s.vol v).gen from rfl, hopens]
    rfl
  · rw [exec_startWaits h hm hp (hcheck hi hplan hall hup hsite) (by rw [hplan]; rfl) hslot hjobs hheld hd hw hf hr]
    unfold State.askingRun State.started State.openedRun State.runOpens
    rfl
  · subst hrest
    rw [exec_startSkips h hm hp (hcheck hi hplan hall hup hsite) hplan hslot hjobs hwf hheld
      (hall v (by rw [hplan]; exact List.mem_cons_self ..)).1 hg hd hw hh hr]
    unfold State.startSkips State.askingRun State.started State.openedRun State.runOpens
    rfl
  · rw [exec_runDrainTimeout hwf hp hv hi hph hslot hf hh hw hm hjobs hd hwork]
    rfl

end Sys2Proof.Machine
end

section
/-! PROOFS. The release of a hold list and the beginning of the next drain (R27), in the words of the statements. -/

namespace Sys2Proof.Machine

/-! ### The hold list -/

/-- An entry released as the `n`-th arrival from now. -/
def Entry.releasedAs (z : Entry) (n : Nat) : Entry := { z with arrival := n, state := .waiting }

/-- The in-flight table with the requests of a hold list released. -/
def releasedEntries (n : Nat) (l : List Nat) (es : List Entry) : List Entry :=
  es.map fun z => if l.contains z.arrival then z.releasedAs (n + l.idxOf z.arrival) else z

/-- The items of the requests of a hold list. -/
def releasedItems (k n : Nat) (l : List Nat) (es : List Entry) : List BusyItem :=
  l.filterMap fun a => (es.find? fun z => z.arrival == a).map fun z => busyItemOf k (z.releasedAs (n + l.idxOf z.arrival))

/-- The requests of a hold list stand in the in-flight table, each once. -/
structure Holds (n : Nat) (l : List Nat) (es : List Entry) : Prop where
  nodup : l.Nodup
  arrivals : (es.map Entry.arrival).Nodup
  below : ∀ z ∈ es, z.arrival < n
  stand : ∀ a ∈ l, ∃ z ∈ es, z.arrival = a

theorem releaseHeld_eq {e : Event} {a : Nat} {x : Entry} (hx : e.st.inflight.find? (fun z => z.arrival == a) = some x) :
    releaseHeld a e = { e with
      st := { e.st with
        inflight := e.st.inflight.map fun z => if z.arrival = a then x.releasedAs e.st.nextArrival else z
        nextArrival := e.st.nextArrival + 1
        busy := e.st.busy ++ [busyItemOf e.st.format.k (x.releasedAs e.st.nextArrival)] }
      todo := { e.todo with retest := true } } := by
  unfold releaseHeld State.entryOf
  rw [hx]
  rfl

/-- The table after the first request of a hold list has been released. -/
def releasedFirst (n a : Nat) (x : Entry) (es : List Entry) : List Entry :=
  es.map fun z => if z.arrival = a then x.releasedAs n else z

section
variable {n a : Nat} {l : List Nat} {es : List Entry} {x : Entry}

theorem eq_of_arrival (h : (es.map Entry.arrival).Nodup) {y z : Entry} (hy : y ∈ es) (hz : z ∈ es) (he : y.arrival = z.arrival) :
    y = z := List.inj_on_of_nodup_map h hy hz he

/-- The rest of the hold list stands in the table after the first release. -/
theorem Holds.tail (h : Holds n (a :: l) es) (x : Entry) : Holds (n + 1) l (releasedFirst n a x es) := by
  obtain ⟨hnd, harr, hlt, hst⟩ := h
  have hmap : (releasedFirst n a x es).map Entry.arrival = (es.map Entry.arrival).map fun b => if b = a then n else b := by
    rw [releasedFirst, List.map_map, List.map_map]
    refine List.map_congr_left fun z _ => ?_
    simp only [Function.comp_apply]
    split_ifs <;> rfl
  have hfresh : ∀ b ∈ es.map Entry.arrival, b ≠ n := by
    rintro _ hb rfl
    obtain ⟨z, hz, he⟩ := List.mem_map.mp hb
    exact absurd (hlt z hz) (by omega)
  refine ⟨(List.nodup_cons.mp hnd).2, ?_, fun z hz => ?_, fun b hb => ?_⟩
  · rw [hmap]
    refine harr.map_on fun b hb c hc he => ?_
    have hbn := hfresh b hb
    have hcn := hfresh c hc
    split_ifs at he with h1 h2 h2
    · rw [h1, h2]
    · exact absurd he.symm hcn
    · exact absurd he hbn
    · exact he
  · obtain ⟨y, hy, rfl⟩ := List.mem_map.mp hz
    have := hlt y hy
    split_ifs
    · exact Nat.lt_succ_self n
    · omega
  · obtain ⟨z, hz, hzb⟩ := hst b (List.mem_cons_of_mem _ hb)
    have hne : z.arrival ≠ a := by
      rw [hzb]
      rintro rfl
      exact (List.nodup_cons.mp hnd).1 hb
    exact ⟨z, List.mem_map.mpr ⟨z, hz, if_neg hne⟩, hzb⟩

theorem Holds.notMem (h : Holds n l es) : n ∉ l := fun hm => by
  obtain ⟨z, hz, he⟩ := h.stand n hm
  exact absurd (h.below z hz) (by omega)

theorem releasedEntries_cons (h : Holds n (a :: l) es) (hx : x ∈ es) (hxa : x.arrival = a) :
    releasedEntries (n + 1) l (releasedFirst n a x es) = releasedEntries n (a :: l) es := by
  rw [releasedEntries, releasedEntries, releasedFirst, List.map_map]
  refine List.map_congr_left fun z hz => ?_
  have hn : n ∉ l := fun hm => h.notMem (List.mem_cons_of_mem _ hm)
  simp only [Function.comp_apply]
  by_cases hza : z.arrival = a
  · obtain rfl : z = x := eq_of_arrival h.arrivals hz hx (hza.trans hxa.symm)
    rw [if_pos hza, if_neg (by simpa [Entry.releasedAs] using hn), if_pos (by simp [hza]), hza, List.idxOf_cons_self]
    rfl
  · rw [if_neg hza]
    have hc : (a :: l).contains z.arrival = l.contains z.arrival := by simp [hza]
    rw [hc, List.idxOf_cons_ne _ (Ne.symm hza), show n + 1 + l.idxOf z.arrival = n + (l.idxOf z.arrival + 1) from by omega]

theorem find_releasedFirst {b : Nat} (hb : b ≠ a) (hn : b ≠ n) (es : List Entry) :
    (releasedFirst n a x es).find? (fun z => z.arrival == b) = es.find? fun z => z.arrival == b := by
  rw [releasedFirst, List.find?_map]
  have hp : ((fun z : Entry => z.arrival == b) ∘ fun z => if z.arrival = a then x.releasedAs n else z) = fun z => z.arrival == b := by
    funext z
    simp only [Function.comp_apply]
    split_ifs with hz
    · rw [hz, beq_eq_false_iff_ne.mpr (Ne.symm hb)]
      exact beq_eq_false_iff_ne.mpr (Ne.symm hn)
    · rfl
  rw [hp]
  cases hf : es.find? fun z => z.arrival == b with
  | none => rfl
  | some z =>
    have hz : z.arrival = b := by simpa using List.find?_some hf
    exact congrArg some (if_neg (by rw [hz]; exact hb))

theorem releasedItems_cons (k : Nat) (h : Holds n (a :: l) es) (hf : es.find? (fun z => z.arrival == a) = some x) :
    releasedItems k n (a :: l) es =
      busyItemOf k (x.releasedAs n) :: releasedItems k (n + 1) l (releasedFirst n a x es) := by
  have hxa : x.arrival = a := by simpa using List.find?_some hf
  rw [releasedItems, List.filterMap_cons, hf]
  simp only [Option.map_some, hxa, List.idxOf_cons_self, Nat.add_zero]
  refine congrArg _ (List.filterMap_congr fun b hb => ?_)
  have hba : b ≠ a := by
    rintro rfl
    exact (List.nodup_cons.mp h.nodup).1 hb
  have hbn : b ≠ n := by
    rintro rfl
    exact h.notMem (List.mem_cons_of_mem _ hb)
  rw [find_releasedFirst hba hbn]
  cases hz : es.find? fun z => z.arrival == b with
  | none => rfl
  | some z =>
    have hzb : z.arrival = b := by simpa using List.find?_some hz
    simp only [Option.map_some, hzb]
    rw [List.idxOf_cons_ne _ (Ne.symm hba), show n + (l.idxOf b + 1) = n + 1 + l.idxOf b from by omega]

end

theorem foldl_releaseHeld {l : List Nat} {e : Event} (h : Holds e.st.nextArrival l e.st.inflight) :
    l.foldl (fun e a => releaseHeld a e) e = { e with
      st := { e.st with
        inflight := releasedEntries e.st.nextArrival l e.st.inflight
        nextArrival := e.st.nextArrival + l.length
        busy := e.st.busy ++ releasedItems e.st.format.k e.st.nextArrival l e.st.inflight }
      todo := { e.todo with retest := e.todo.retest || !l.isEmpty } } := by
  induction l generalizing e with
  | nil => simp [releasedEntries, releasedItems]
  | cons a l ih =>
    obtain ⟨x, hx, hxa⟩ := h.stand a (List.mem_cons_self ..)
    have hfind : e.st.inflight.find? (fun z => z.arrival == a) = some x := by
      cases hf : e.st.inflight.find? fun z => z.arrival == a with
      | none => exact absurd (List.find?_eq_none.mp hf x hx) (by simp [hxa])
      | some y =>
        rw [eq_of_arrival h.arrivals (List.mem_of_find?_eq_some hf) hx (by rw [hxa]; simpa using List.find?_some hf)]
    have hentries := releasedEntries_cons h hx hxa
    have hitems := releasedItems_cons e.st.format.k h hfind
    rw [List.foldl_cons, releaseHeld_eq hfind, ih (h.tail x), hitems, ← hentries]
    simp only [Bool.true_or, List.isEmpty_cons, Bool.not_false, Bool.or_true, List.append_assoc, List.singleton_append,
      List.length_cons, show e.st.nextArrival + 1 + l.length = e.st.nextArrival + (l.length + 1) from by omega]
    rfl

end Sys2Proof.Machine
end

section
/-! PROOFS. The run list merged back into the active list, and the RUN snapshot queued for deletion (R138). -/

namespace Sys2Proof.Machine

/-! ### A list logged with its repetitions -/

/-- A stamp that stands, or a list that is full with its overflow reported, makes a second log of an LCN change nothing. -/
theorem LogsTo.again {s : State} {e : Event} {v : Nat} {ls : List Nat} (h : LogsTo s e v ls) {c : Nat} (hc : c ∈ ls) :
    LogsTo s (logLcn v c e) v ls := by
  have h' := h
  obtain ⟨⟨h1, h2, h3, -⟩, h5, h6, h7, -⟩ := h'
  unfold logLcn
  dsimp only
  by_cases ho : (e.st.vol v).offsite = true
  swap
  · rw [if_pos ho]
    exact h
  rw [if_neg (not_not.mpr ho)]
  by_cases hst : ((e.st.vol v).entry c).stamp = some (e.st.vol v).runCounter
  · rw [if_pos hst]
    exact h
  rw [if_neg hst]
  have htaken : c ∉ (s.vol v).logTaken ls := fun hm => hst (by rw [h6, if_pos hm, h3])
  have hnew : c ∈ (s.vol v).logNew ls := by
    rw [h6, if_neg htaken, h3] at hst
    unfold Volume.logNew
    rw [if_pos (h1 ▸ ho)]
    exact List.mem_filter.mpr ⟨hc, by simpa using hst⟩
  have hfull : (s.vol v).cap - (s.vol v).activeList.length < ((s.vol v).logNew ls).length := by
    by_contra hle
    exact htaken (by rw [Volume.logTaken, List.take_of_length_le (by omega)]; exact hnew)
  have hlen : ((s.vol v).logTaken ls).length = (s.vol v).cap - (s.vol v).activeList.length := by
    rw [Volume.logTaken, List.length_take]
    omega
  obtain ⟨hinc, hover, -⟩ := h7 (by omega)
  rw [if_neg (by rw [h5, h2, List.length_append]; omega), if_pos hover]
  have hsame : ∀ x : Volume, x.activeIncomplete = true → x.overflow = true →
      { x with activeIncomplete := true, overflow := true } = x := by
    intro x h1 h2
    obtain ⟨⟩ := x
    simp only at h1 h2
    rw [h1, h2]
  exact h.of_st rfl rfl ((updVol_st_vol ..).trans (hsame _ hinc hover))

theorem logsTo_logLcns {s : State} {e : Event} {v : Nat} (hs : e.st.sched = s.sched) (hv : e.st.vol v = s.vol v) (ls : List Nat) :
    LogsTo s (logLcns v ls e) v ls.eraseDups := by
  induction ls using List.reverseRecOn with
  | nil => exact LogsTo.refl hs hv
  | append_singleton ls c ih =>
    have hfold : logLcns v (ls ++ [c]) e = logLcn v c (logLcns v ls e) := List.foldl_concat ..
    rw [hfold, List.eraseDups_append]
    by_cases hc : c ∈ ls
    · have hr : [c].removeAll ls = [] := by simp [List.removeAll, hc]
      rw [hr]
      simp only [List.eraseDups_nil, List.append_nil]
      exact ih.again (List.mem_eraseDups.mpr hc)
    · have hr : [c].removeAll ls = [c] := by simp [List.removeAll, hc]
      rw [hr]
      exact ih.snoc fun hm => hc (List.mem_eraseDups.mp hm)

/-- What a log leaves as it stands: all but one volume's map, active list and flags, and the overflow notices. -/
theorem logLcns_frame (v : Nat) (ls : List Nat) (e : Event) : ∃ vs on,
    logLcns v ls e = { e with st := { e.st with vols := vs }, overflowNotices := on } ∧
    (∀ w, w ≠ v → ({ e.st with vols := vs } : State).vol w = e.st.vol w) ∧
    ∃ m al ai ov, ({ e.st with vols := vs } : State).vol v =
      { e.st.vol v with map := m, activeList := al, activeIncomplete := ai, overflow := ov } ∧
      ∀ l, (({ e.st with vols := vs } : State).vol v |>.entry l).form = ((e.st.vol v).entry l).form := by
  induction ls generalizing e with
  | nil => exact ⟨_, _, rfl, fun _ _ => rfl, _, _, _, _, rfl, fun _ => rfl⟩
  | cons c ls ih =>
    have hone : ∃ vs on, logLcn v c e = { e with st := { e.st with vols := vs }, overflowNotices := on } ∧
        (∀ w, w ≠ v → ({ e.st with vols := vs } : State).vol w = e.st.vol w) ∧
        ∃ m al ai ov, ({ e.st with vols := vs } : State).vol v =
          { e.st.vol v with map := m, activeList := al, activeIncomplete := ai, overflow := ov } := by
      rcases logLcn_cases v c e with h | h | ⟨on, h⟩
      · exact ⟨_, _, h, fun _ _ => rfl, _, _, _, _, rfl⟩
      · exact ⟨_, _, h, fun w hw => State.vol_setVol_ne _ _ _ _ hw, _, _, _, _, State.vol_setVol ..⟩
      · exact ⟨_, _, h, fun w hw => State.vol_setVol_ne _ _ _ _ hw, _, _, _, _, State.vol_setVol ..⟩
    obtain ⟨vs, on, h, hw, m, al, ai, ov, hv⟩ := hone
    have hform : ∀ l, (({ e.st with vols := vs } : State).vol v |>.entry l).form = ((e.st.vol v).entry l).form := by
      intro l
      have := form_logLcn v c v l e
      rwa [h] at this
    obtain ⟨vs', on', h', hw', m', al', ai', ov', hv', hform'⟩ := ih (logLcn v c e)
    rw [h] at h' hw' hv' hform'
    refine ⟨vs', on', ?_, fun w hne => (hw' w hne).trans (hw w hne), m', al', ai', ov', ?_, fun l => (hform' l).trans (hform l)⟩
    · rw [← h] at h'
      change logLcns v ls (logLcn v c e) = _
      rw [h', h]
    · refine hv'.trans ?_
      dsimp only
      rw [hv]

/-! ### The RUN snapshot queued for deletion -/

/-- The snapshots and the deletion queue of a volume whose slot 0 has been queued for deletion, the part RUNNING or not. -/
def Volume.queues (x : Volume) (running : Bool) (sn : Table Snap) (dq : List Nat) : Prop :=
  (tfind x.snaps 0 = none → sn = x.snaps ∧ dq = x.deleteQueue) ∧
  ∀ d, tfind x.snaps 0 = some d →
    (x.deleteQueue ≠ [] → sn = tput 0 { d with state := .deletePending } x.snaps ∧ dq = x.deleteQueue ++ [0]) ∧
    (x.deleteQueue = [] → d.retained ≠ [] ∨ running = false → sn = tput 0 { d with state := .deleting } x.snaps ∧ dq = [0]) ∧
    (x.deleteQueue = [] → d.retained = [] → running = true → sn = tdel 0 x.snaps ∧ dq = [])

theorem endWalk_zero (v : Nat) (e : Event) :
    endWalk v 0 e = { e with
      st := e.st.setVol v { e.st.vol v with snaps := tdel 0 (e.st.vol v).snaps, deleteQueue := (e.st.vol v).deleteQueue.drop 1 }
      todo := { e.todo with engine := true }
      notices := e.notices ++ [e.st.notice .deleteDone v 0 (((tfind (e.st.vol v).snaps 0).map Snap.freed).getD 0)] } := by
  unfold endWalk
  dsimp only
  rw [if_pos rfl]
  rfl

/-- Slot 0 alone in the queue becomes its head (R89), and its walk ends at once if its set is empty in a RUNNING part. -/
theorem startHead_zero {v : Nat} {e : Event} {d : Snap} (hq : (e.st.vol v).deleteQueue = [0])
    (hd : tfind (e.st.vol v).snaps 0 = some d) : ∃ vs en ns,
    startHead v 17 e = { e with st := { e.st with vols := vs }, todo := { e.todo with engine := en }, notices := e.notices ++ ns } ∧
    (∀ w, w ≠ v → ({ e.st with vols := vs } : State).vol w = e.st.vol w) ∧
    ({ e.st with vols := vs } : State).vol v =
      if d.retained = [] ∧ e.st.ctl.part = .running then { e.st.vol v with snaps := tdel 0 (e.st.vol v).snaps, deleteQueue := [] }
      else { e.st.vol v with snaps := tput 0 { d with state := .deleting } (e.st.vol v).snaps } := by
  have hstart : startHead v 17 e =
      if d.retained = [] ∧ e.st.ctl.part = .running then
        startHead v 16 (endWalk v 0 (e.updVol v fun x => x.setSnap 0 { d with state := .deleting }))
      else e.updVol v fun x => x.setSnap 0 { d with state := .deleting } := by
    rw [startHead, hq]
    dsimp only
    rw [hd]
    rfl
  by_cases hr : d.retained = [] ∧ e.st.ctl.part = .running
  swap
  · refine ⟨(e.st.setVol v ((e.st.vol v).setSnap 0 { d with state := .deleting })).vols, e.todo.engine, [], ?_,
      fun w hw => State.vol_setVol_ne e.st _ _ _ hw, ?_⟩
    · rw [hstart, if_neg hr, List.append_nil]
      rfl
    · rw [if_neg hr]
      exact State.vol_setVol ..
  rw [hstart, if_pos hr, endWalk_zero, updVol_st_vol]
  have hv : ∀ y, ((e.st.setVol v y).setVol v { y with snaps := tdel 0 y.snaps, deleteQueue := y.deleteQueue.drop 1 }).vol v =
      { y with snaps := tdel 0 y.snaps, deleteQueue := y.deleteQueue.drop 1 } := fun y => State.vol_setVol ..
  rw [startHead_empty (by
    refine (congrArg Volume.deleteQueue (hv _)).trans ?_
    change (e.st.vol v).deleteQueue.drop 1 = []
    rw [hq]
    rfl)]
  refine ⟨_, _, _, rfl, fun w hw => (State.vol_setVol_ne _ _ _ _ hw).trans (State.vol_setVol_ne _ _ _ _ hw), ?_⟩
  rw [if_pos hr]
  refine (hv _).trans ?_
  unfold Volume.setSnap
  dsimp only
  rw [tdel_tput, hq]
  rfl

/-- What the deletion of slot 0 leaves as it stands: all but one volume's snapshots and queue, and the notices. -/
theorem queueDeletion_vol (v : Nat) (e : Event) : ∃ vs en ns,
    queueDeletion v 0 e = { e with st := { e.st with vols := vs }, todo := { e.todo with engine := en }, notices := e.notices ++ ns } ∧
    (∀ w, w ≠ v → ({ e.st with vols := vs } : State).vol w = e.st.vol w) ∧
    ∃ sn dq, ({ e.st with vols := vs } : State).vol v = { e.st.vol v with snaps := sn, deleteQueue := dq } ∧
      (e.st.vol v).queues (e.st.ctl.part == .running) sn dq := by
  cases hd : tfind (e.st.vol v).snaps 0 with
  | none =>
    refine ⟨e.st.vols, e.todo.engine, [], ?_, fun _ _ => rfl, _, _, rfl, fun _ => ⟨rfl, rfl⟩, fun d h => absurd (hd.symm.trans h) nofun⟩
    unfold queueDeletion
    rw [hd, List.append_nil]
  | some d =>
    by_cases hq : (e.st.vol v).deleteQueue = []
    swap
    · refine ⟨_, e.todo.engine, [], ?_, fun w hw => State.vol_setVol_ne e.st _ _ _ hw, _, _, State.vol_setVol e.st v
        { e.st.vol v with
          snaps := tput 0 { d with state := .deletePending } (e.st.vol v).snaps
          deleteQueue := (e.st.vol v).deleteQueue ++ [0] },
        fun h => absurd (hd.symm.trans h) nofun, fun d' h => ?_⟩
      · rw [queueDeletion_behind hd hq, List.append_nil]
        rfl
      · obtain rfl : d = d' := Option.some.inj (hd.symm.trans h)
        exact ⟨fun _ => ⟨rfl, rfl⟩, fun h => absurd h hq, fun h => absurd h hq⟩
    have hmark : queueDeletion v 0 e = startHead v 17 (e.updVol v fun x =>
        { x with snaps := tput 0 { d with state := .deletePending } x.snaps, deleteQueue := [0] }) := by
      unfold queueDeletion
      rw [hd]
      dsimp only
      rw [if_pos (by rw [hq]; rfl)]
      refine congrArg (fun y => startHead v 17 { e with st := e.st.setVol v y }) ?_
      change { e.st.vol v with
        snaps := tput 0 { d with state := .deletePending } (e.st.vol v).snaps
        deleteQueue := (e.st.vol v).deleteQueue ++ [0] } = _
      rw [hq]
      rfl
    have hvol : ∀ y, (e.st.setVol v y).vol v = y := fun y => State.vol_setVol ..
    obtain ⟨vs, en, ns, he, hw, hv⟩ := startHead_zero (v := v) (d := { d with state := .deletePending })
      (e := e.updVol v fun x => { x with snaps := tput 0 { d with state := .deletePending } x.snaps, deleteQueue := [0] })
      (by rw [updVol_st_vol]) (by rw [updVol_st_vol]; exact tfind_tput_same ..)
    rw [updVol_st_vol] at hv
    dsimp only at hv
    rw [tdel_tput, tput_tput] at hv
    refine ⟨vs, en, ns, hmark.trans he, fun w hne => (hw w hne).trans (State.vol_setVol_ne _ _ _ _ hne), ?_⟩
    by_cases hr : d.retained = [] ∧ e.st.ctl.part = .running
    · rw [if_pos (by exact hr)] at hv
      refine ⟨_, _, hv, fun h => absurd (hd.symm.trans h) nofun, fun d' h => ?_⟩
      obtain rfl : d = d' := Option.some.inj (hd.symm.trans h)
      exact ⟨fun h => absurd hq h, fun _ h => h.elim (absurd hr.1) (fun hp => by simp [hr.2] at hp), fun _ _ _ => ⟨rfl, rfl⟩⟩
    · rw [if_neg (by exact hr)] at hv
      refine ⟨_, _, hv, fun h => absurd (hd.symm.trans h) nofun, fun d' h => ?_⟩
      obtain rfl : d = d' := Option.some.inj (hd.symm.trans h)
      exact ⟨fun h => absurd hq h, fun _ _ => ⟨rfl, rfl⟩, fun _ h1 h2 => absurd ⟨h1, by simpa using h2⟩ hr⟩

end Sys2Proof.Machine
end

section
/-! PROOFS. The early end of a run (R138): its RUN create withdrawn, or its run list merged back. -/

namespace Sys2Proof.Machine

/-! ### The withdrawn drain and the next one -/

theorem releasedEntries_nil (n : Nat) (es : List Entry) : releasedEntries n [] es = es := by
  simp [releasedEntries]

theorem foldl_releaseHeld_of {l : List Nat} {e : Event} (h : l ≠ [] → Holds e.st.nextArrival l e.st.inflight) :
    l.foldl (fun e a => releaseHeld a e) e = { e with
      st := { e.st with
        inflight := releasedEntries e.st.nextArrival l e.st.inflight
        nextArrival := e.st.nextArrival + l.length
        busy := e.st.busy ++ releasedItems e.st.format.k e.st.nextArrival l e.st.inflight }
      todo := { e.todo with retest := e.todo.retest || !l.isEmpty } } := by
  cases l with
  | nil => simp [releasedEntries_nil, releasedItems]
  | cons a l => exact foldl_releaseHeld (h nofun)

theorem holds_of_releaseWaits {s : State} {v : Nat} (h : s.releaseWaits v) (hne : (s.vol v).holdList ≠ []) :
    Holds s.nextArrival (s.vol v).holdList s.inflight := by
  obtain ⟨-, hheld, -⟩ := h
  obtain ⟨-, hnd, harr, hlt, hst⟩ := hheld hne
  exact ⟨hnd, harr, hlt, hst⟩

/-- A withdrawn RUN create leaves its drain ended and its hold list released (R27, R29). -/
theorem finishDrain_withdrawn {v : Nat} {e : Event} {d : Drain} (hd : (e.st.vol v).drain = some d) (hr : d.work.isRun = true)
    (hq : e.st.releaseWaits v) : finishDrain v .withdrawn e = { e with
      st := e.st.released v
      todo := { e.todo with
        retest := e.todo.retest || !(e.st.vol v).holdList.isEmpty
        jobs := true
        drainBegin := insertAsc v e.todo.drainBegin } } := by
  have haction : drainAction v d .withdrawn e = e := by
    unfold drainAction
    cases hw : d.work with
    | holding c => rfl
    | refusing fs => simp [DrainWork.isRun, hw] at hr
  have hholds : (e.st.vol v).holdList ≠ [] → Holds e.st.nextArrival (e.st.vol v).holdList e.st.inflight :=
    holds_of_releaseWaits hq
  unfold finishDrain
  rw [hd]
  dsimp only
  rw [haction, foldl_releaseHeld_of (by exact hholds)]
  rfl

/-- The next waiting drain begins where it finds changing work in hand (R25, R26). -/
theorem beginNext_waits {v : Nat} {e : Event}
    (h : ∀ w ∈ (e.st.vol v).waiting.head?, drainSet e.st v ≠ [] ∧ (w.freezes = true → (e.st.vol v).state = .normal)) :
    ∃ vs, beginNext v e = { e with st := { e.st with vols := vs } } ∧
      (∀ w, w ≠ v → ({ e.st with vols := vs } : State).vol w = e.st.vol w) ∧
      ({ e.st with vols := vs } : State).vol v = (e.st.nextDrain v).vol v := by
  unfold beginNext State.nextDrain
  dsimp only
  cases hw : (e.st.vol v).waiting with
  | nil => exact ⟨_, rfl, fun _ _ => rfl, rfl⟩
  | cons w rest =>
    obtain ⟨hset, hnormal⟩ := h w (by rw [hw]; rfl)
    dsimp only
    rw [show (State.vol { e.st with vols := tset Volume.absent v _ e.st.vols } v) = _ from State.vol_setVol e.st v _]
    cases w with
    | holding c =>
      unfold beginDrain
      dsimp only
      rw [if_neg (by exact hset)]
      refine ⟨_, rfl, fun w hne => (State.vol_setVol_ne _ _ _ _ hne).trans (State.vol_setVol_ne _ _ _ _ hne), ?_⟩
      refine (State.vol_setVol ..).trans ?_
      rw [updVol_st_vol]
      rfl
    | refusing fs =>
      unfold beginDrain
      dsimp only
      rw [updVol_st_vol, if_neg (by rw [show (e.st.vol v).state = .normal from hnormal rfl]; exact nofun), if_neg (by exact hset)]
      refine ⟨_, rfl, fun w hne => (State.vol_setVol_ne _ _ _ _ hne).trans
        ((State.vol_setVol_ne _ _ _ _ hne).trans (State.vol_setVol_ne _ _ _ _ hne)), ?_⟩
      refine (State.vol_setVol ..).trans ?_
      rw [updVol_st_vol, updVol_st_vol]
      rfl

/-! ### The run list merged back -/

/-- What leaves the log's own fields and the stamps of the volume logs nothing. -/
theorem LogsTo.of_lists {s : State} {e f : Event} {v : Nat} {ls : List Nat} (h : LogsTo s e v ls) (hs : f.st.sched = e.st.sched)
    (hn : f.overflowNotices = e.overflowNotices) (hstamp : ∀ c, ((f.st.vol v).entry c).stamp = ((e.st.vol v).entry c).stamp)
    (hv : (f.st.vol v).offsite = (e.st.vol v).offsite ∧ (f.st.vol v).cap = (e.st.vol v).cap ∧
      (f.st.vol v).runCounter = (e.st.vol v).runCounter ∧ (f.st.vol v).activeList = (e.st.vol v).activeList ∧
      (f.st.vol v).activeIncomplete = (e.st.vol v).activeIncomplete ∧ (f.st.vol v).overflow = (e.st.vol v).overflow) :
    LogsTo s f v ls := by
  obtain ⟨h1, h2, h3, h4, h5, h6⟩ := hv
  obtain ⟨⟨g1, g2, g3, g4⟩, g5, g6, g7, g8⟩ := h
  refine ⟨⟨h1.trans g1, h2.trans g2, h3.trans g3, hs.trans g4⟩, h4.trans g5, fun c => (hstamp c).trans (g6 c), ?_, ?_⟩
  · rw [h5, h6, hn]
    exact g7
  · rw [h5, h6]
    exact g8

/-- The volume of `t` is that of `s` with its run list merged back and its RUN snapshot queued for deletion. -/
structure MergedBack (s t : State) (v : Nat) : Prop where
  others : ∀ w, w ≠ v → t.vol w = s.vol w
  vol : ∃ m al ai ov sn dq, t.vol v = { s.vol v with
      map := m, activeList := al, activeIncomplete := ai, overflow := ov, runList := [], runIncomplete := false, snaps := sn,
      deleteQueue := dq } ∧ (s.vol v).queues (s.ctl.part == .running) sn dq
  forms : ∀ l, ((t.vol v).entry l).form = ((s.vol v).entry l).form

/-- The merge changes the volume, and queues its own notices. -/
theorem mergeBack_eq (v : Nat) (e : Event) : ∃ vs en ns on,
    mergeBack v e = { e with
      st := { e.st with vols := vs }
      todo := { e.todo with engine := en }
      notices := e.notices ++ ns
      overflowNotices := on } ∧
    LogsTo e.st (mergeBack v e) v (e.st.vol v).runList.eraseDups ∧ MergedBack e.st { e.st with vols := vs } v := by
  have hlogs := logsTo_logLcns (s := e.st) (e := e) (v := v) rfl rfl (e.st.vol v).runList
  obtain ⟨vs, on, hl, hw, m, al, ai, ov, hv, hform⟩ := logLcns_frame v (e.st.vol v).runList e
  obtain ⟨vs', en, ns, hq, hw', sn, dq, hv', hqueues⟩ := queueDeletion_vol v
    ((logLcns v (e.st.vol v).runList e).updVol v fun x => { x with runList := [], runIncomplete := false })
  have hmerge : mergeBack v e = queueDeletion v 0
    ((logLcns v (e.st.vol v).runList e).updVol v fun x => { x with runList := [], runIncomplete := false }) := rfl
  rw [← hmerge] at hq
  rw [updVol_st_vol] at hv' hqueues
  have hvol : (mergeBack v e).st.vol v = { e.st.vol v with
      map := m, activeList := al, activeIncomplete := ai, overflow := ov, runList := [], runIncomplete := false, snaps := sn,
      deleteQueue := dq } := by
    refine (congrArg (fun f : Event => f.st.vol v) hq).trans (hv'.trans ?_)
    rw [hl]
    dsimp only
    rw [hv]
  have hmap : ((mergeBack v e).st.vol v).map = ((logLcns v (e.st.vol v).runList e).st.vol v).map := by
    rw [hvol, hl]
    dsimp only
    rw [hv]
  have hst : (mergeBack v e).st = { e.st with vols := vs' } := by
    refine (congrArg Event.st hq).trans ?_
    rw [hl]
    rfl
  have hform' : ∀ l, (((mergeBack v e).st.vol v).entry l).form = ((e.st.vol v).entry l).form := fun l => by
    unfold Volume.entry
    rw [hmap, hl]
    exact hform l
  refine ⟨vs', en, ns, on, ?_, hlogs.of_lists ?_ ?_ (fun c => ?_) ?_, ⟨fun w hne => ?_, ⟨m, al, ai, ov, sn, dq, ?_, ?_⟩, ?_⟩⟩
  · rw [hq, hl]
    rfl
  · rw [hst, hl]
  · rw [hq]
    rfl
  · unfold Volume.entry
    rw [hmap]
  · rw [hvol, hl]
    dsimp only
    rw [hv]
    exact ⟨rfl, rfl, rfl, rfl, rfl, rfl⟩
  · refine (hw' w hne).trans ((State.vol_setVol_ne _ _ _ _ hne).trans ?_)
    rw [hl]
    exact hw w hne
  · rw [← hst]
    exact hvol
  · rw [hl] at hqueues
    dsimp only at hqueues
    rw [hv] at hqueues
    exact hqueues
  · rw [← hst]
    exact hform'

/-- The log of the run list, in the words of the statements. -/
theorem MergedBack.givenUp {s t : State} {v : Nat} {on : List Notice} (h : MergedBack s t v) {e : Event}
    (hl : LogsTo s e v (s.vol v).runList.eraseDups) (he : e.st.vol v = t.vol v) (hon : e.overflowNotices = on)
    (hv : s.currentVol = some v) (hp : s.run.phase ≠ .freeze) (hin : t.inflight = s.inflight) (hb : t.busy = s.busy)
    (hn : t.nextArrival = s.nextArrival) (hs : t.sched = s.sched)
    (hnot : t.ctl.lost = false → ∀ n ∈ on, n ∈ t.ctl.notices) : RunGivenUp s t := by
  have hno : ∀ w, ¬ s.runDrains w := fun w hw => hp hw.2.1
  refine ⟨fun w hw => h.others w fun hwv => hw (by rw [hwv]; exact hv), fun w hw => absurd hw (hno w), fun _ => ⟨hin, hb, hn⟩,
    fun w _ hf => absurd hf hp, fun w hw _ => ?_⟩
  obtain rfl : w = v := Option.some.inj (hw.symm.trans hv)
  have hlogged : Logged s t w (s.vol w).runList.eraseDups := by
    refine hl.logged ⟨(e.st.vol w).map, (e.st.vol w).snaps, (e.st.vol w).reserveOver, ?_⟩ (fun c => by rw [he]) ?_
    · rw [he]
    · rw [hon]
      exact hnot
  obtain ⟨m, al, ai, ov, sn, dq, hvol, hnone, hsome⟩ := h.vol
  dsimp only
  refine ⟨by rw [hs]; exact hlogged, ?_⟩
  refine ⟨by rw [hvol], by rw [hvol], h.forms, by rw [hvol], by rw [hvol], by rw [hvol], by rw [hvol], by rw [hvol],
    by rw [hvol], by rw [hvol], by rw [hvol], by rw [hvol], ?_⟩
  unfold RunSnapQueued
  dsimp only
  rw [hvol]
  refine ⟨hnone, fun d hd => ?_⟩
  obtain ⟨h1, h2, h3⟩ := hsome d hd
  exact ⟨h1, fun hq hr => h2 hq (hr.imp_right fun hp => by simpa using hp), fun hq hr hp => h3 hq hr (by simpa using hp)⟩

/-! ### The volume given up -/

/-- The run's current volume is given up. -/
def giveUp (e : Event) : Event :=
  match e.st.currentVol with
  | none => e
  | some v => if e.st.run.phase = .freeze then withdrawRunDrain v e else mergeBack v e

/-- The state `u` shows the volume of `s` given up, once a waiting drain has begun. -/
def State.ShowsGivenUp (s u : State) (on : List Notice) : Prop :=
  ∀ t : State, t.vols = u.vols → t.inflight = u.inflight → t.busy = u.busy → t.nextArrival = u.nextArrival → t.sched = s.sched →
    (t.ctl.lost = false → ∀ n ∈ on, n ∈ t.ctl.notices) → RunGivenUp s t



/-- The volume is given up in `u`, but for the drain that begins next; `td` is the work that calls for. -/
def State.AfterGiveUp (s u : State) (td : Todo) (on : List Notice) : Prop :=
  (∃ en, td = { engine := en }) ∧ s.ShowsGivenUp u on ∨
    ∃ v, s.runDrains v ∧ td = { retest := !(s.vol v).holdList.isEmpty, jobs := true, drainBegin := [v] } ∧ u = s.released v
theorem giveUp_eq {e : Event} (hq : ∀ v, e.st.runDrains v → e.st.releaseWaits v) (ht : e.todo = {}) (hon : e.overflowNotices = []) :
    ∃ vs es n b td ns on,
      giveUp e = { e with
        st := { e.st with vols := vs, inflight := es, nextArrival := n, busy := b }
        todo := td
        notices := e.notices ++ ns
        overflowNotices := on } ∧
      e.st.AfterGiveUp { e.st with vols := vs, inflight := es, nextArrival := n, busy := b } td on := by
  obtain ⟨s, td, pt, ac, rp, rs, an, on, ns, la, dn, se⟩ := e
  dsimp only at ht hon hq ⊢
  subst ht hon
  unfold giveUp
  dsimp only
  cases hv : s.currentVol with
  | none =>
    refine ⟨s.vols, s.inflight, s.nextArrival, s.busy, {}, [], [], by rw [List.append_nil], .inl ⟨⟨false, rfl⟩, ?_⟩⟩
    intro t h1 h2 h3 h4 _ _
    have hno : ∀ w, ¬ s.runDrains w := fun w hw => absurd (hv.symm.trans hw.1) nofun
    have hvol : ∀ w, t.vol w = s.vol w := fun w => by unfold State.vol; rw [h1]
    exact ⟨fun w _ => hvol w, fun w hw => absurd hw (hno w), fun _ => ⟨h2, h3, h4⟩,
      fun w hw => absurd (hv.symm.trans hw) nofun, fun w hw => absurd (hv.symm.trans hw) nofun⟩
  | some v =>
    dsimp only
    by_cases hp : s.run.phase = .freeze
    swap
    · rw [if_neg hp]
      obtain ⟨vs, en, ns', on', he, hl, hm⟩ := mergeBack_eq v
        { st := s, poolTouched := pt, accts := ac, reports := rp, reserves := rs, acctNotices := an, notices := ns, late := la,
          done := dn, sent := se }
      refine ⟨vs, s.inflight, s.nextArrival, s.busy, { engine := en }, ns', on', he, .inl ⟨⟨en, rfl⟩, ?_⟩⟩
      intro t h1 h2 h3 h4 h5 h6
      have hvol : ∀ w, t.vol w = ({ s with vols := vs } : State).vol w := fun w => by unfold State.vol; rw [h1]
      have hm' : MergedBack s t v := by
        obtain ⟨ho, hvv, hf⟩ := hm
        refine ⟨fun w hw => (hvol w).trans (ho w hw), ?_, ?_⟩
        · rw [hvol v]
          exact hvv
        · rw [hvol v]
          exact hf
      refine hm'.givenUp hl ?_ (congrArg Event.overflowNotices he) hv hp h2 h3 h4 h5 h6
      rw [hvol v]
      exact congrArg (fun f : Event => f.st.vol v) he
    · rw [if_pos hp]
      by_cases hd : s.runDrains v
      · obtain ⟨d, hd', hr⟩ : ∃ d, (s.vol v).drain = some d ∧ d.work.isRun = true := by
          have h := hd.2.2
          cases hc : (s.vol v).drain with
          | none => rw [hc] at h; cases h
          | some d => rw [hc] at h; exact ⟨d, rfl, h⟩
        refine ⟨(s.released v).vols, (s.released v).inflight, (s.released v).nextArrival, (s.released v).busy, _, [], [], ?_,
          .inr ⟨v, hd, rfl, rfl⟩⟩
        unfold withdrawRunDrain
        dsimp only
        rw [hd']
        dsimp only
        rw [if_pos hr, finishDrain_withdrawn (by exact hd') hr (hq v hd), List.append_nil]
        rfl
      · have hwith : ∀ e : Event, e.st = s → withdrawRunDrain v e =
            e.updVol v fun x => { x with waiting := x.waiting.filter fun w => !w.isRun } := by
          rintro e rfl
          unfold withdrawRunDrain
          cases hd' : (e.st.vol v).drain with
          | none => rfl
          | some d =>
            refine if_neg fun hr => hd ⟨hv, hp, ?_⟩
            rw [hd']
            exact hr
        refine ⟨(s.setVol v { s.vol v with waiting := (s.vol v).waiting.filter fun w => !w.isRun }).vols, s.inflight,
          s.nextArrival, s.busy, {}, [], [], ?_, .inl ⟨⟨false, rfl⟩, ?_⟩⟩
        · rw [hwith _ rfl, List.append_nil]
          rfl
        · intro t h1 h2 h3 h4 _ _
          have hvol : ∀ w, t.vol w =
              (s.setVol v { s.vol v with waiting := (s.vol v).waiting.filter fun w => !w.isRun }).vol w := fun w => by
            unfold State.vol
            rw [h1]
            rfl
          have hno : ∀ w, ¬ s.runDrains w := fun w hw => hd (by
            obtain rfl : v = w := Option.some.inj (hv.symm.trans hw.1)
            exact hw)
          refine ⟨fun w hw => (hvol w).trans (State.vol_setVol_ne _ _ _ _ fun h => hw (by rw [h]; exact hv)),
            fun w hw => absurd hw (hno w), fun _ => ⟨h2, h3, h4⟩, fun w hw _ _ => ?_, fun w _ h => absurd hp h⟩
          obtain rfl : v = w := Option.some.inj (hv.symm.trans hw)
          exact (hvol v).trans (State.vol_setVol ..)

theorem portRests_none {s : State} (hf : s.run.frames = []) (hr : s.port.resendPos = none) : s.PortRests := by
  rintro e rfl
  unfold portTurn
  dsimp only
  rw [hr, hf]
  exact ite_self _

/-- The run of an event is IDLE, and its port has nothing to send. -/
structure Event.RunOver (g : Event) : Prop where
  idle : g.st.run.state = .idle
  frames : g.st.run.frames = []
  resend : g.st.port.resendPos = none
  queue : g.todo.control = true ∨ g.todo.answer ≠ none → g.st.ctl.executing = none → g.st.ctl.queue = []
  grant : g.todo.grant = true → g.st.shelf.up = false ∨ g.st.shelf.freeSlot = none ∨ g.st.shelf.choose = none

/-- The turns after a run's end: the next waiting drain begins, and nothing else happens. -/
theorem ends_afterGiveUp {s u : State} {td : Todo} {on : List Notice} (h : s.AfterGiveUp u td on)
    (hq : ∀ v, s.runDrains v → s.releaseWaits v) {g : Event} (hr : g.RunOver) (hvols : g.st.vols = u.vols)
    (hin : g.st.inflight = u.inflight) (hbusy : g.st.busy = u.busy) (hna : g.st.nextArrival = u.nextArrival)
    (hjobs : g.st.jobs = s.jobs) (hconf : g.st.ctl.config = s.ctl.config)
    (ht : g.todo = { td with port := g.todo.port, answer := g.todo.answer, control := g.todo.control, grant := g.todo.grant }) :
    ∃ vs, Ends 20 g ({ g with st := { g.st with vols := vs }, todo := { answer := g.todo.answer } } : Event).sendAnswer ∧
      s.ShowsGivenUp { g.st with vols := vs } on := by
  obtain ⟨hidle, hframes, hresend, hqueue, hgrant⟩ := hr
  have hsend : ∀ e : Event, e.sendAnswer = ({ e with todo := { answer := e.todo.answer } } : Event).sendAnswer := fun _ => rfl
  rcases h with ⟨⟨en, rfl⟩, hshow⟩ | ⟨v, hd, rfl, rfl⟩
  · refine ⟨g.st.vols, ?_, fun t h1 h2 h3 h4 => hshow t (h1.trans hvols) (h2.trans hin) (h3.trans hbusy) (h4.trans hna)⟩
    have hset : g.Settled := by
      have field : ∀ {β : Type} (f : Todo → β), f g.todo = f { g.todo with
          retest := false, drains := false, occupancy := false, pool := false, jobs := false, drainBegin := [], engine := en } := by
        intro β f
        exact congrArg f ht
      refine ⟨?_, ?_, ?_, ?_, ?_, ?_, fun _ => engineRests_idle hidle, fun _ => portRests_none hframes hresend, hqueue, hgrant⟩
      · rw [field (·.retest)]
        exact nofun
      · rw [field (·.drains)]
        exact nofun
      · rw [field (·.occupancy)]
        exact nofun
      · rw [field (·.pool)]
        exact nofun
      · rw [field (·.jobs), field (·.pool)]
        rintro (h | h) <;> cases h
      · rw [field (·.drainBegin)]
        exact nofun
    have hlen : g.todo.drainBegin.length = 0 := by rw [ht]; rfl
    have hends := ends_settled hset
    rw [hlen, hsend] at hends
    exact fun n => hends (n + 10)
  · obtain ⟨hjobsIdle, hheld, hnext⟩ := hq v hd
    obtain ⟨gs, gt, pt, ac, rp, rs, an, o, ns, la, dn, se⟩ := g
    dsimp only at hidle hframes hresend hqueue hgrant hvols hin hbusy hna hjobs hconf ht ⊢
    have hvol : gs.vol v = { s.vol v with drain := none, holdList := [] } := by
      unfold State.vol
      rw [hvols]
      exact State.vol_setVol ({ s with vols := s.vols }) v { s.vol v with drain := none, holdList := [] }
    have hset : drainSet gs v = drainSet (s.released v) v := by
      unfold drainSet
      rw [hin, hbusy]
    have hafter : (gs.nextDrain v).vol v = ((s.released v).nextDrain v).vol v := by
      unfold State.nextDrain
      rw [hvol, show (s.released v).vol v = { s.vol v with drain := none, holdList := [] } from by
        exact State.vol_setVol ({ s with vols := s.vols }) v _, hset, hconf]
      dsimp only
      cases (s.vol v).waiting with
      | nil =>
        dsimp only
        rw [hvol]
        exact (State.vol_setVol ({ s with vols := s.vols }) v _).symm
      | cons w rest =>
        dsimp only
        exact (State.vol_setVol gs v _).trans (State.vol_setVol (s.released v) v _).symm
    let rest : Todo := { port := gt.port, answer := gt.answer, control := gt.control, grant := gt.grant }
    obtain ⟨vs, hb, hother, hvv⟩ := beginNext_waits (v := v) (e := {
        st := gs, todo := rest, poolTouched := pt, accts := ac, reports := rp, reserves := rs, acctNotices := an,
        overflowNotices := o, notices := ns, late := la, done := dn, sent := se }) (by
      dsimp only
      rw [hvol, hset]
      exact hnext)
    refine ⟨vs, ?_, ?_⟩
    · have settled : Ends 10 _ _ := ends_settled (e := {
          st := { gs with vols := vs }, todo := rest, poolTouched := pt, accts := ac, reports := rp, reserves := rs,
          acctNotices := an, overflowNotices := o, notices := ns, late := la, done := dn, sent := se })
        ⟨nofun, nofun, nofun, nofun, fun h => by simp [rest] at h, nofun, nofun,
          fun _ => portRests_none hframes hresend, hqueue, hgrant⟩
      obtain ⟨r, dr, oc, po, jb, db, en, pt', ao, ct, gr⟩ := gt
      simp only [Todo.mk.injEq] at ht
      obtain ⟨rfl, rfl, rfl, rfl, rfl, rfl, rfl, -⟩ := ht
      have started := Ends.turn (e := {
          st := gs, todo := { rest with drainBegin := [v] }, poolTouched := pt, accts := ac, reports := rp,
          reserves := rs, acctNotices := an, overflowNotices := o, notices := ns, late := la, done := dn, sent := se })
        (by
          rw [← hb]
          exact congrArg some (if_pos (congrArg Volume.drain hvol))) settled
      have visited := Ends.turn (e := {
          st := gs, todo := { rest with jobs := true, drainBegin := [v] }, poolTouched := pt, accts := ac,
          reports := rp, reserves := rs, acctNotices := an, overflowNotices := o, notices := ns, late := la, done := dn,
          sent := se })
        (congrArg some (jobTurn_none fun p hp => canVisit_of_state (hjobsIdle p (by rw [← hjobs]; exact hp)))) started
      have tested := ends_clears (f := fun b => {
          st := gs, todo := { rest with retest := b, jobs := true, drainBegin := [v] }, poolTouched := pt, accts := ac,
          reports := rp, reserves := rs, acctNotices := an, overflowNotices := o, notices := ns, late := la, done := dn,
          sent := se }) (b := !(s.vol v).holdList.isEmpty) (fun hb => by
        have hne : (s.vol v).holdList ≠ [] := by
          rintro h
          rw [h] at hb
          cases hb
        exact congrArg some (retestTurn_none (by
          obtain ⟨hnone, -⟩ := hheld hne
          rw [← hbusy] at hnone
          exact hnone))) visited
      exact fun n => tested (n + 7)
    · intro t h1 h2 h3 h4 _ _
      have hvt : ∀ w, t.vol w = ({ gs with vols := vs } : State).vol w := fun w => by
        unfold State.vol
        rw [h1]
      have hnd : ∀ r : State, (r.nextDrain v).inflight = r.inflight ∧ (r.nextDrain v).busy = r.busy ∧
          (r.nextDrain v).nextArrival = r.nextArrival := by
        intro r
        unfold State.nextDrain
        dsimp only
        cases (r.vol v).waiting <;> exact ⟨rfl, rfl, rfl⟩
      have honly : ∀ w, s.runDrains w → w = v := fun w hw => Option.some.inj (hw.1.symm.trans hd.1)
      refine ⟨fun w hw => ?_, fun w hw => ?_, fun hno => absurd hd (hno v), fun w hw _ hno => ?_, fun w _ hp => absurd hd.2.1 hp⟩
      · have hne : w ≠ v := fun h => hw (by rw [h]; exact hd.1)
        refine (hvt w).trans ((hother w hne).trans ?_)
        unfold State.vol
        rw [hvols]
        exact State.vol_setVol_ne s _ _ _ hne
      · obtain rfl := honly w hw
        obtain ⟨g1, g2, g3⟩ := hnd (s.released w)
        dsimp only
        exact ⟨(hvt w).trans (hvv.trans hafter), h2.trans (hin.trans g1.symm), h3.trans (hbusy.trans g2.symm),
          h4.trans (hna.trans g3.symm)⟩
      · obtain rfl : w = v := Option.some.inj (hw.symm.trans hd.1)
        exact absurd hd hno

end Sys2Proof.Machine
end

section
/-! PROOFS. The early end of a run (O41): the run is IDLE, its volume given up, and RUN ENDED queued (R134, R135, R138). -/

namespace Sys2Proof.Machine

/-! ### The end of the run -/

/-- A run that has ended with result `k` (R138). -/
def Run.endsAs (r : Run) (k : RunResult) : Run :=
  { r with
    state := .idle, result := k, asked := false, linkMark := false, shelfMark := false, frames := [], reading := none,
    scanRead := false }

/-- The port emptied at the end of a run (R155). -/
def Port.emptied (p : Port) : Port :=
  { p with outstanding := [], resendPos := none, ackTimer := none, retry := 0, seqRun := none }

/-- The shelf port once the read of the send is given up. -/
def Shelf.sendDropped (p : Shelf) : Shelf :=
  { p with
    fgQueue := p.fgQueue.filter fun c => !ofSend c.owner
    restoreQueue := p.restoreQueue.filter fun c => !ofSend c.owner
    offsiteQueue := p.offsiteQueue.filter fun c => !ofSend c.owner
    slots := p.slots.map fun x =>
      if ofSend x.2.cmd.owner then (x.1, { x.2 with cmd := { x.2.cmd with owner := .dropped } }) else x }

def State.runEndedNotice (s : State) (k : RunResult) : Notice := s.notice .runEnded s.run.runId k.value s.run.sealedVols

/-- The records of the run and of its port and read as the end of the run leaves them. -/
def runOff (k : RunResult) (e : Event) : Event :=
  (emptyPort (reownSlots ofSend .dropped (withdrawCmds ofSend e))).updRun fun r => r.endsAs k

theorem endRun_eq {e : Event} {vs : Table Volume} {es : List Entry} {n : Nat} {b : List BusyItem} {td : Todo}
    {ns on : List Notice} (h : giveUp e = { e with
      st := { e.st with vols := vs, inflight := es, nextArrival := n, busy := b }
      todo := td
      notices := e.notices ++ ns
      overflowNotices := on }) (k : RunResult) :
    endRun k e = { e with
      st := { e.st with
        vols := vs, inflight := es, nextArrival := n, busy := b, run := e.st.run.endsAs k, port := e.st.port.emptied,
        shelf := e.st.shelf.sendDropped }
      todo := td
      notices := e.notices ++ ns ++ [e.st.runEndedNotice k]
      overflowNotices := on } := by
  have hend : endRun k e =
      (runOff k (giveUp e)).note .runEnded (runOff k (giveUp e)).st.run.runId k.value (runOff k (giveUp e)).st.run.sealedVols := rfl
  rw [hend, h]
  rfl

/-! ### Recovery goes on -/

theorem settleAccounts_none {e : Event} (ha : e.accts = []) (hr : e.reports = []) : e.settleAccounts = e := by
  obtain ⟨st, td, pt, ac, rp, rs, an, on, ns, la, dn, se⟩ := e
  cases ha
  cases hr
  change ({
    st := st, todo := td, poolTouched := pt, reserves := rs, acctNotices := an ++ [], overflowNotices := on, notices := ns,
    late := la, done := dn, sent := se } : Event) = _
  rw [List.append_nil]

/-- What the passing of recovery steps leaves as it stands. -/
theorem advanceRecovery_frame (n : Nat) {e : Event} (ha : e.accts = []) (hr : e.reports = []) : ∃ pl part step ns,
    advanceRecovery n e = { e with
      st := { e.st with poolLow := pl, ctl := { e.st.ctl with part := part, recStep := step } }
      notices := e.notices ++ ns } := by
  induction n generalizing e with
  | zero => exact ⟨e.st.poolLow, e.st.ctl.part, e.st.ctl.recStep, [], by rw [List.append_nil]; rfl⟩
  | succ n ih =>
    rw [advanceRecovery, settleAccounts_none ha hr]
    dsimp only
    by_cases h1 : ¬ stepDone e.st
    · rw [if_pos h1]
      exact ⟨e.st.poolLow, e.st.ctl.part, e.st.ctl.recStep, [], by rw [List.append_nil]⟩
    rw [if_neg h1]
    by_cases h2 : 4 ≤ e.st.ctl.recStep
    · rw [if_pos h2]
      unfold endRecovery
      dsimp only
      split_ifs
      · exact ⟨_, _, _, [e.st.notice .poolLow 0 e.st.freeCount e.st.format.low, e.st.notice .recovered 0 e.st.ctl.recMirror e.st.ctl.recJobs],
          by rw [List.append_cons]; rfl⟩
      · exact ⟨_, _, _, _, rfl⟩
    · rw [if_neg h2]
      obtain ⟨pl, part, step, ns, h⟩ := ih (e := e.updCtl fun c => { c with recStep := c.recStep + 1 }) ha hr
      exact ⟨pl, part, step, ns, h⟩

/-- What the end of a run leaves of an event: `u` is its state, `td` the work it calls for, and `ns` its notices. -/
structure RunGone (s u : State) (k : RunResult) (td : Todo) (ns on : List Notice) : Prop where
  frame : ∃ vs es n b pl part step, u = { s with
    vols := vs, inflight := es, nextArrival := n, busy := b, run := s.run.endsAs k, port := s.port.emptied,
    shelf := s.shelf.sendDropped, poolLow := pl, ctl := { s.ctl with part := part, recStep := step } }
  after : s.AfterGiveUp { s with vols := u.vols, inflight := u.inflight, nextArrival := u.nextArrival, busy := u.busy } td on
  last : s.ctl.part ≠ .recovering → ∃ l, ns = l ++ [s.runEndedNotice k]

theorem endRunNow_eq {e : Event} (k : RunResult) (hq : ∀ v, e.st.runDrains v → e.st.releaseWaits v) (ht : e.todo = {})
    (hon : e.overflowNotices = []) (ha : e.accts = []) (hr : e.reports = []) : ∃ u td ns on,
    endRunNow k e = { e with st := u, todo := td, notices := e.notices ++ ns, overflowNotices := on } ∧
      RunGone e.st u k td ns on := by
  obtain ⟨vs, es, n, b, td, ns, on, hg, hafter⟩ := giveUp_eq hq ht hon
  have hend := endRun_eq hg k
  unfold endRunNow
  dsimp only
  by_cases hstep : inStep 3 (endRun k e).st = true
  · rw [if_pos hstep, hend]
    obtain ⟨pl, part, step, ns', hadv⟩ := advanceRecovery_frame 4 (e := endRun k e) (by rw [hend]; exact ha) (by rw [hend]; exact hr)
    rw [hend] at hadv
    refine ⟨_, td, ns ++ [e.st.runEndedNotice k] ++ ns', on, ?_, ⟨vs, es, n, b, pl, part, step, rfl⟩, hafter, fun hp => absurd ?_ hp⟩
    · refine (Eq.trans ?_ hadv).trans ?_
      · rfl
      · simp only [List.append_assoc]
    · rw [hend] at hstep
      unfold inStep at hstep
      simp only [Bool.and_eq_true, beq_iff_eq] at hstep
      exact hstep.1
  · rw [if_neg hstep, hend]
    exact ⟨_, td, ns ++ [e.st.runEndedNotice k], on, by simp only [List.append_assoc],
      ⟨_, _, _, _, e.st.poolLow, e.st.ctl.part, e.st.ctl.recStep, rfl⟩, hafter, fun _ => ⟨ns, rfl⟩⟩

/-! ### The end, in the words of the statements -/

/-- What shows that the run has ended: the records of the run and the port, and the volumes given up. -/
theorem runEnded_of {s t : State} {k : RunResult} (hrun : t.run = s.run.endsAs k)
    (hport : t.port.outstanding = [] ∧ t.port.resendPos = none ∧ t.port.ackTimer = none ∧ t.port.seqRun = none ∧ t.port.retry = 0)
    (hrest : t.plan = s.plan ∧ t.free = s.free ∧ t.accounts = s.accounts ∧ t.jobs = s.jobs ∧ t.claims = s.claims)
    (hgiven : RunGivenUp s t)
    (hctl : s.ctl.part ≠ .recovering → ∃ d, t.ctl = offer d (State.runEndedNotice { s with sched := t.sched } k)) :
    RunEnded s t k := by
  obtain ⟨p1, p2, p3, p4, p5⟩ := hport
  obtain ⟨r1, r2, r3, r4, r5⟩ := hrest
  refine ⟨by rw [hrun]; rfl, by rw [hrun]; rfl, by rw [hrun]; rfl, by rw [hrun]; rfl, by rw [hrun]; rfl, by rw [hrun]; rfl,
    by rw [hrun]; rfl, by rw [hrun]; rfl, p1, p2, p3, p4, p5, r1, r2, r3, r4, r5, hgiven, fun h => ?_⟩
  obtain ⟨d, hd⟩ := hctl h
  exact ⟨d, hd⟩

/-! ### What an event with overflow notices leaves -/

theorem due_noted (s : State) (t : Todo) (on ns : List Notice) :
    ({ st := s, todo := t, overflowNotices := on, notices := ns } : Event).evaluate.2.due
      ({ st := s, todo := t, overflowNotices := on, notices := ns } : Event).causes = on ++ ns := by
  change [] ++ [] ++ [] ++ [] ++ on ++ ns = on ++ ns
  simp

theorem runEvent_endsNoted {s t : State} {f : Event → Event} {k : Nat} {on ns : List Notice}
    (hf : Ends k (f (openEvent s)) { st := { t with out := [] }, overflowNotices := on, notices := ns }) (hk : k ≤ 1000) :
    runEvent s f = State.closed { t with ctl := (on ++ ns).foldl offer t.ctl } := by
  rw [runEvent, hf.runTodo hk, closeEvent_quiet rfl (by simp)]
  unfold Event.offered
  rw [due_noted]
  rfl

theorem exec_repliesNoted {s : State} (h : s.ctlServes) {i : Instr} {tag : Nat} {r : Request} (hrow : Arrives i tag r)
    {f : Event → Event} (hf : ∀ e : Event, e.st.ctl.part ≠ .recovering → perform r e = f e) (t : State) {k : Nat}
    {on ns : List Notice} {code : Code} {result : List Nat}
    (hrun : Ends k (f { st := s.executes ⟨tag, r⟩ }) ({
      st := { t with ctl := { t.ctl with executing := none }, out := [] }
      todo := { answer := some { number := r.number, tag := tag, code := code, result := result, job := none } }
      overflowNotices := on
      notices := ns } : Event).sendAnswer)
    (hk : k ≤ 1000) (hu : t.frontUp = s.frontUp) (h38 : r.number ≠ 38) (h7 : r.number ≠ 7) :
    exec i s = .next (State.answered { t with ctl := (on ++ ns).foldl offer t.ctl } r.number tag code result) := by
  rw [hrow, runEvent, controlArrive_of_free h.1, hf _ (executes_part_ne h _), hrun.runTodo hk,
    close_answeredBehind rfl rfl rfl (hu.trans h.1.1) (by simp) rfl rfl rfl h38 h7]
  refine congrArg Host.Outcome.next ?_
  let e : Event := {
    st := { t with ctl := { t.ctl with executing := none }, out := [] }
    todo := { answer := some { number := r.number, tag := tag, code := code, result := result, job := none } }
    overflowNotices := on
    notices := ns }
  have hoff : e.offered = { (on ++ ns).foldl offer t.ctl with executing := none } := by
    unfold Event.offered
    rw [due_noted]
    exact foldl_offer_executing (on ++ ns) t.ctl none
  change { State.answered { e.evaluated with ctl := e.offered } r.number tag code result with
    out := [] ++ (State.answered { e.evaluated with ctl := e.offered } r.number tag code result).out } = _
  rw [hoff, List.nil_append]
  rfl

/-- The words of the giving up do not look at the clock, the ports and the queues of the control unit. -/
theorem RunGivenUp.of_frame {s t : State} {sc : Schedule} {fi : Bool} {p : Port} {c : Control} {o : List Output}
    (h : RunGivenUp { s with sched := sc, firing := fi, port := p, ctl := c, out := o } t) (hp : c.part = s.ctl.part)
    (hc : c.config = s.ctl.config) : RunGivenUp s t := by
  obtain ⟨h1, h2, h3, h4, h5⟩ := h
  refine ⟨h1, fun v hv => ?_, h3, h4, fun v hv hf => ?_⟩
  · obtain ⟨g1, g2, g3, g4⟩ := h2 v hv
    dsimp only at g1 g2 g3 g4 ⊢
    have key : ∀ u w : State, u.vol v = w.vol v → u.inflight = w.inflight → u.busy = w.busy → u.nextArrival = w.nextArrival →
        u.ctl.config = w.ctl.config → (u.nextDrain v).vol v = (w.nextDrain v).vol v ∧
          (u.nextDrain v).inflight = (w.nextDrain v).inflight ∧ (u.nextDrain v).busy = (w.nextDrain v).busy ∧
          (u.nextDrain v).nextArrival = (w.nextDrain v).nextArrival := by
      intro u w k1 k2 k3 k4 k5
      have hset : drainSet u v = drainSet w v := by
        unfold drainSet
        rw [k2, k3]
      unfold State.nextDrain
      dsimp only
      rw [k1, k5, hset]
      cases (w.vol v).waiting with
      | nil => exact ⟨k1, k2, k3, k4⟩
      | cons a l => exact ⟨(State.vol_setVol ..).trans (State.vol_setVol ..).symm, k2, k3, k4⟩
    obtain ⟨e1, e2, e3, e4⟩ := key (State.released { s with sched := sc, firing := fi, port := p, ctl := c, out := o } v)
      (s.released v) rfl rfl rfl rfl hc
    exact ⟨g1.trans e1, g2.trans e2, g3.trans e3, g4.trans e4⟩
  · obtain ⟨g1, g2, g3, g4, g5, g6, g7, g8, g9, g10, g11, g12, g13, g14, g15⟩ := h5 v hv hf
    refine ⟨g1, g2, g3, g4, g5, g6, g7, g8, g9, g10, g11, g12, g13, g14, fun d hd => ?_⟩
    obtain ⟨q1, q2, q3⟩ := g15 d hd
    exact ⟨q1, fun hq hr => q2 hq (hr.imp_right fun hn hx => hn (hp ▸ hx)), fun hq hr hx => q3 hq hr (hp.trans hx)⟩

/-! ### The events in which a run ends -/

/-- A control request that ends the run. -/
theorem exec_runEnds {s : State} (h : s.ctlServes) {i : Instr} {tag : Nat} {r : Request} (hrow : Arrives i tag r)
    {f : Event → Event} (hf : ∀ e : Event, e.st.ctl.part ≠ .recovering → perform r e = f e) {sc : Schedule} {fi : Bool}
    {k : RunResult} {result : List Nat}
    (hd : f { st := s.executes ⟨tag, r⟩ } = reply .ok result (endRunNow k {
      st := State.executes { s with sched := sc, firing := fi } ⟨tag, r⟩ }))
    (hq : ∀ v, s.runDrains v → s.releaseWaits v) (h38 : r.number ≠ 38) (h7 : r.number ≠ 7) :
    ∃ t, exec i s = .next t ∧ RunEnded s t k ∧ t.port.up = s.port.up ∧ t.sched = sc ∧
      ∃ pending lost, t.out = [.control pending lost r.number tag .ok result] := by
  obtain ⟨u, td, ns, on, he, hgone⟩ := endRunNow_eq (e := {
    st := State.executes { s with sched := sc, firing := fi } ⟨tag, r⟩ }) k (by exact hq) rfl rfl rfl rfl
  obtain ⟨⟨vs, es, n, b, pl, part, step, rfl⟩, hafter, hlast⟩ := hgone
  rw [he, reply_eq (x := ⟨tag, r.number⟩) rfl] at hd
  obtain ⟨vs', hends, hshow⟩ := ends_afterGiveUp hafter (by exact hq) (g := f { st := s.executes ⟨tag, r⟩ })
    (by
      rw [hd]
      exact ⟨rfl, rfl, rfl, fun _ _ => h.1.2.2, by
        rcases hafter with ⟨⟨en, rfl⟩, -⟩ | ⟨v, -, rfl, -⟩ <;> exact nofun⟩)
    (by rw [hd]; rfl) (by rw [hd]; rfl) (by rw [hd]; rfl) (by rw [hd]; rfl) (by rw [hd]; rfl) (by rw [hd]; rfl)
    (by rcases hafter with ⟨⟨en, rfl⟩, -⟩ | ⟨v, -, rfl, -⟩ <;> rw [hd])
  rw [hd] at hends hshow
  let t : State := { s with
    sched := sc, firing := fi, vols := vs', inflight := es, nextArrival := n, busy := b, run := s.run.endsAs k,
    port := s.port.emptied, shelf := s.shelf.sendDropped, poolLow := pl, ctl := { s.ctl with part := part, recStep := step } }
  have hex := exec_repliesNoted h hrow hf t (on := on) (ns := ns) (code := .ok) (result := result) (by
    rw [hd]
    exact hends) (by omega) rfl h38 h7
  refine ⟨_, hex, runEnded_of rfl ⟨rfl, rfl, rfl, rfl, rfl⟩ ⟨rfl, rfl, rfl, rfl, rfl⟩ ?_ (fun hp => ?_), rfl, rfl, _, _, rfl⟩
  · refine RunGivenUp.of_frame (hshow _ rfl rfl rfl rfl rfl fun hl m hm => ?_) rfl rfl
    exact mem_foldl_offer hl m (.inl (List.mem_append_left _ hm))
  · obtain ⟨l, rfl⟩ := hlast hp
    refine ⟨{ (on ++ l).foldl offer t.ctl with executing := none }, ?_⟩
    change { ((on ++ (l ++ [_])).foldl offer t.ctl) with executing := none } = _
    rw [← List.append_assoc, List.foldl_append]
    exact (foldl_offer_executing [_] _ none).symm

/-- An event of a part that runs no control request, in which the run ends. -/
theorem runEvent_runEnds {s : State} {f : Event → Event} {sc : Schedule} {p : Port} {l : List Notice} {k : RunResult} {fi : Bool}
    (hf : f (openEvent s) = (endRunNow k { st := { s with sched := sc, port := p, out := [] }, notices := l }).upd fun u =>
      { u with firing := fi })
    (hq : ∀ v, s.runDrains v → s.releaseWaits v) : ∃ t, runEvent s f = t ∧ RunEnded s t k ∧ t.port = p.emptied ∧ t.sched = sc ∧
      t.out = [] ∧ ∀ m ∈ l, t.ctl.lost = false → m ∈ t.ctl.notices := by
  obtain ⟨u, td, ns, on, he, hgone⟩ := endRunNow_eq (e := { st := { s with sched := sc, port := p, out := [] }, notices := l }) k
    (by exact hq) rfl rfl rfl rfl
  obtain ⟨⟨vs, es, n, b, pl, part, step, rfl⟩, hafter, hlast⟩ := hgone
  rw [he] at hf
  obtain ⟨vs', hends, hshow⟩ := ends_afterGiveUp hafter (by exact hq) (g := f (openEvent s))
    (by
      rw [hf]
      exact ⟨rfl, rfl, rfl, by
        rcases hafter with ⟨⟨en, rfl⟩, -⟩ | ⟨v, -, rfl, -⟩ <;> exact fun h => h.elim nofun (fun h => absurd rfl h), by
        rcases hafter with ⟨⟨en, rfl⟩, -⟩ | ⟨v, -, rfl, -⟩ <;> exact nofun⟩)
    (by rw [hf]; rfl) (by rw [hf]; rfl) (by rw [hf]; rfl) (by rw [hf]; rfl) (by rw [hf]; rfl) (by rw [hf]; rfl)
    (by rcases hafter with ⟨⟨en, rfl⟩, -⟩ | ⟨v, -, rfl, -⟩ <;> rw [hf] <;> rfl)
  rw [hf] at hends hshow
  let t : State := { s with
    sched := sc, firing := fi, vols := vs', inflight := es, nextArrival := n, busy := b, run := s.run.endsAs k,
    port := p.emptied, shelf := s.shelf.sendDropped, poolLow := pl, ctl := { s.ctl with part := part, recStep := step } }
  have hans : td.answer = none := by rcases hafter with ⟨⟨en, rfl⟩, -⟩ | ⟨v, -, rfl, -⟩ <;> rfl
  have hev := runEvent_endsNoted (s := s) (t := t) (f := f) (on := on) (ns := l ++ ns) (by
    rw [hf]
    unfold Event.sendAnswer at hends
    dsimp only [Event.upd] at hends
    rw [hans] at hends
    exact hends) (by omega)
  refine ⟨_, hev, runEnded_of rfl ⟨rfl, rfl, rfl, rfl, rfl⟩ ⟨rfl, rfl, rfl, rfl, rfl⟩ ?_ (fun hp => ?_), rfl, rfl, rfl, fun m hm hl => ?_⟩
  · refine RunGivenUp.of_frame (hshow _ rfl rfl rfl rfl rfl fun hl m hm => ?_) rfl rfl
    exact mem_foldl_offer hl m (.inl (List.mem_append_left _ hm))
  · obtain ⟨l', rfl⟩ := hlast hp
    refine ⟨(on ++ (l ++ l')).foldl offer t.ctl, ?_⟩
    change (on ++ (l ++ (l' ++ [_]))).foldl offer t.ctl = _
    rw [← List.append_assoc l, ← List.append_assoc, List.foldl_append]
    rfl
  · exact mem_foldl_offer hl m (.inl (List.mem_append_right _ (List.mem_append_left _ hm)))

/-! ### RUN STOP and the deadline -/

theorem endRunNow_stands {e : Event} (k : RunResult) (hp : e.st.ctl.part ≠ .recovering)
    (hq : ∀ v, e.st.runDrains v → e.st.releaseWaits v) (ht : e.todo = {}) (hon : e.overflowNotices = []) :
    endRunNow k e = endRun k e := by
  obtain ⟨vs, es, n, b, td, ns, on, hg, -⟩ := giveUp_eq hq ht hon
  unfold endRunNow
  dsimp only
  refine if_neg ?_
  rw [endRun_eq hg k]
  simp [inStep, hp]

/-- Settles O41: RUN STOP and the deadline end a run early. -/
theorem runEndsEarly : Obligations.RunEndsEarly := by
  unfold Obligations.RunEndsEarly
  intro s tag now ended quiet
  have hrow : Arrives (.runStop tag) tag .runStop := fun _ => rfl
  have hperform : ∀ e : Event, e.st.ctl.part ≠ .recovering → perform .runStop e = doRunStop e := fun e h => if_neg fun hr => h hr.1
  refine ⟨fun h hi => ?_, fun h hst => ?_, fun h hi hst hr => ?_, fun h hi hst hr hq => ?_, fun h hi hq hd => ?_,
    fun hset hi hq hc hd hm => ?_⟩
  · exact exec_stands h hrow hperform (if_pos hi) nofun nofun
  · refine exec_stands h hrow hperform ?_ nofun nofun
    unfold doRunStop
    dsimp only
    rw [if_neg (by exact fun hi => nomatch hst.symm.trans hi), if_pos (by exact hst)]
  · refine exec_plain h hrow hperform { s with run := { s.run with state := .stopping } } ?_ rfl rfl nofun nofun
    unfold doRunStop
    dsimp only
    rw [if_neg (by exact hi), if_neg (by exact hst), if_pos (by exact Option.isSome_iff_ne_none.mpr hr)]
    rfl
  · obtain ⟨t, hex, hend, hup, -, hout⟩ := exec_runEnds h hrow hperform (sc := s.sched) (fi := s.firing) (k := .stopped) (result := [])
      (by
        unfold doRunStop
        dsimp only
        rw [if_neg (by exact hi), if_neg (by exact hst), if_neg (by exact fun h => Option.isSome_iff_ne_none.mp h hr),
          ← endRunNow_stands .stopped (by exact h.2) (by exact hq) rfl rfl]) hq nofun nofun
    exact ⟨t, hex, ⟨hend, hup⟩, hout⟩
  · obtain ⟨t, hex, hend, hup, hsched, hout⟩ := exec_runEnds h (r := .timeSet now) (i := .timeSet tag now) (fun _ => rfl)
      (f := doTimeSet now) (fun _ hp => if_neg fun hr => hp hr.1) (sc := { s.sched with clockSet := true, clock := now }) (fi := true)
      (k := .deadline) (result := [now])
      (by
        have hpass : beginPass (Event.updSched { st := s.executes ⟨tag, .timeSet now⟩ } fun d =>
            { d with clockSet := true, clock := now }) = {
              st := State.executes { s with sched := { s.sched with clockSet := true, clock := now }, firing := true }
                ⟨tag, .timeSet now⟩ } := if_neg h.2
        unfold doTimeSet setClock
        rw [hpass]
        refine congrArg (reply .ok [now]) ?_
        exact if_pos ⟨hi, hd⟩) hq nofun nofun
    exact ⟨t, hex, ⟨hend, hup⟩, by rw [hsched], by rw [hsched], hout⟩
  · obtain ⟨t, hex, hend, hport, hsched, hout, -⟩ := runEvent_runEnds (s := s) (f := advanceClock)
      (sc := { s.sched with clock := s.sched.clock + 1 }) (p := s.port) (l := []) (k := .deadline)
      (fi := if (endRunNow .deadline {
        st := { s with sched := { s.sched with clock := s.sched.clock + 1 }, out := [] } }).st.ctl.part = .recovering then s.firing
        else true) (by
        obtain ⟨u, td, ns, on, he, ⟨⟨vs, es, n, b, pl, part, step, rfl⟩, -, -⟩⟩ := endRunNow_eq (e := {
          st := { s with sched := { s.sched with clock := s.sched.clock + 1 }, out := [] } }) .deadline (by exact hq) rfl rfl rfl rfl
        have htest : testDeadline ((openEvent s).updSched fun d => { d with clock := d.clock + 1 }) = endRunNow .deadline {
            st := { s with sched := { s.sched with clock := s.sched.clock + 1 }, out := [] } } := if_pos ⟨hi, hd⟩
        unfold advanceClock
        rw [if_neg (by
          rintro (h | h)
          · exact h hset
          · have h' : 4294967295 ≤ s.sched.clock := h
            omega)]
        dsimp only
        rw [htest, he]
        unfold beginPass
        dsimp only
        by_cases hpart : part = .recovering
        · rw [if_pos hpart, if_pos hpart, if_neg (by exact hm)]
          rfl
        · rw [if_neg hpart, if_neg hpart, if_neg (by exact hm)]) hq
    exact ⟨t, congrArg Host.Outcome.next hex, ⟨hend, by rw [hport]; rfl⟩, by rw [hsched], hout⟩

end Sys2Proof.Machine
end

section
/-! PROOFS. The offsite link (O43): a HELLO, HOLD and RESUME, the hold timer and the loss of the carrier (R136, R142, R153, R154). -/

namespace Sys2Proof.Machine

section
variable {s : State} {site : Nat}

/-- The notices of a HELLO: LINK UP where the link was DOWN or at another site. -/
def State.helloNotices (s : State) (site : Nat) : List Notice :=
  if s.port.up = false ∨ s.port.site ≠ some site then
    [s.notice .linkUp site (if site = s.ctl.config.partnerSite then 1 else 0) 0] else []

/-- The part once a HELLO has brought the link up at a site. -/
def State.linkedTo (s : State) (site : Nat) : State := { s with port := { s.port with up := true, site := some site } }

/-- The port of a matching site (R154). -/
def State.helloPort (s : State) (site : Nat) : Port :=
  { s.port with up := true, site := some site, retry := 0, held := false, resendPos := s.port.outstanding.head?.map Frame.seq }

/-- The run after a matching HELLO (R136). -/
def State.helloRun (s : State) : Run :=
  if s.run.state = .idle then s.run
  else { s.run with
    linkMark := false
    state := if s.run.state = .stopping then .stopping
      else if s.run.shelfMark then .suspendedShelf
      else if s.currentVol = none then .closing else .active }

/-- The part after a matching HELLO. -/
def State.helloUp (s : State) (site : Nat) : State := { s with port := s.helloPort site, run := s.helloRun }

/-- A HELLO, by its site. -/
theorem takeHello_eq (s : State) (site : Nat) : takeHello site (openEvent s) =
    if site = s.ctl.config.partnerSite then {
      st := { s.helloUp site with out := [] }
      todo := { engine := s.run.state != .idle, port := true }
      notices := s.helloNotices site }
    else if s.run.state = .idle then { st := { s.linkedTo site with out := [] }, notices := s.helloNotices site }
    else endRunNow .failed { st := { s.linkedTo site with out := [] }, notices := s.helloNotices site } := by
  have hnote : (if ¬ (openEvent s).st.port.up = true ∨ (openEvent s).st.port.site ≠ some site then
      (openEvent s).note .linkUp site (flag (site == (openEvent s).st.ctl.config.partnerSite)) 0 else openEvent s) =
        { openEvent s with notices := s.helloNotices site } := by
    have hflag : flag (site == s.ctl.config.partnerSite) = if site = s.ctl.config.partnerSite then 1 else 0 := by
      by_cases h : site = s.ctl.config.partnerSite
      · rw [if_pos h, h, beq_self_eq_true]
        rfl
      · rw [if_neg h, beq_eq_false_iff_ne.mpr h]
        rfl
    have hup : (¬ s.port.up = true ∨ s.port.site ≠ some site) ↔ (s.port.up = false ∨ s.port.site ≠ some site) := by simp
    unfold State.helloNotices
    by_cases h : s.port.up = false ∨ s.port.site ≠ some site
    · rw [if_pos (by exact hup.mpr h), if_pos h, ← hflag]
      rfl
    · rw [if_neg (by exact fun h' => h (hup.mp h')), if_neg h]
      rfl
  unfold takeHello
  dsimp only
  rw [hnote]
  by_cases hok : site = s.ctl.config.partnerSite
  · rw [if_pos (by exact beq_iff_eq.mpr hok), if_pos hok]
    unfold engineLinkUp State.helloUp State.helloRun
    by_cases hi : s.run.state = .idle
    · rw [if_pos (by exact hi), if_pos hi, hi]
      rfl
    · rw [if_neg (by exact hi), if_neg hi, show (s.run.state != .idle) = true from bne_iff_ne.mpr hi]
      have hvol : s.currentVol.isNone = decide (s.currentVol = none) := by cases s.currentVol <;> rfl
      have hcl : ∀ a b : RunState, (if s.currentVol.isNone = true then a else b) = if s.currentVol = none then a else b := by
        intro a b
        rw [hvol]
        simp
      rw [← hcl]
      rfl
  · rw [if_neg (by exact fun h => hok (beq_iff_eq.mp h)), if_neg hok]
    rfl

/-- The engine finds nothing to do after a matching HELLO. -/
theorem helloUp_rests (h : s.run.state ≠ .idle → s.ctl.part ≠ .recovering → ∀ v, s.currentVol = some v →
      (s.run.phase = .freeze → s.run.asked = true ∨ tfind (s.vol v).snaps 0 ≠ none) ∧
      (s.run.phase = .send → s.run.state = .stopping ∨ s.run.frames ≠ [] ∨ s.run.reading ≠ none ∨ s.run.shelfMark = true))
    {t : State} (ht : t = { s.helloUp site with out := t.out }) : t.EngineRests := by
  by_cases hi : s.run.state = .idle
  · refine engineRests_idle ?_
    rw [ht]
    unfold State.helloUp State.helloRun
    dsimp only
    rw [if_pos hi, hi]
  have hrun : t.run = { s.run with linkMark := false, state := t.run.state } := by
    rw [ht]
    unfold State.helloUp State.helloRun
    dsimp only
    rw [if_neg hi]
  have hstop : s.run.state = .stopping → t.run.state = .stopping := by
    intro hst
    rw [ht]
    unfold State.helloUp State.helloRun
    dsimp only
    rw [if_neg hi, if_pos hst]
  have hcur : t.currentVol = s.currentVol := by
    unfold State.currentVol
    rw [hrun, show t.plan = s.plan from by rw [ht]; rfl]
  have hvols : ∀ v, t.vol v = s.vol v := fun v => by rw [ht]; rfl
  by_cases hp : s.ctl.part = .recovering
  · rintro e rfl
    exact if_pos (by rw [ht]; exact hp)
  cases hc : s.currentVol with
  | none =>
    rintro e rfl
    unfold engineTurn
    rw [if_neg (by rw [ht]; exact hp), hcur, hc]
  | some v =>
  refine engineRests_of ?_ ?_
  · rw [Option.eq_none_iff_forall_ne_some]
    intro v hv
    obtain ⟨hc', -, hph, hask⟩ := freezeDue_eq hv
    rw [hcur] at hc'
    unfold State.freezeDue at hv
    rw [Option.filter_eq_some_iff] at hv
    have hnone := Option.isNone_iff_eq_none.mp ((Bool.and_eq_true _ _).mp hv.2).2
    rw [hvols] at hnone
    rw [hrun] at hph hask
    rcases (h hi hp v hc').1 hph with h | h
    · exact absurd (h.symm.trans hask) nofun
    · exact h hnone
  · by_contra hs
    obtain ⟨-, hns, hph, hfr, hrd, hsm⟩ := (sending_iff _).mp (Bool.of_not_eq_false hs)
    rw [hrun] at hph hfr hrd hsm
    rcases (h hi hp v hc).2 hph with h | h | h | h
    · exact hns (hstop h)
    · exact h hfr
    · exact h hrd
    · exact absurd (h.symm.trans hsm) nofun

/-- A HELLO whose event ends with its notices and some frames. -/
theorem exec_hello {t : State} {outs : List Output} {k : Nat} (hk : k ≤ 1000) (ho : ∀ o ∈ outs, o.isPlain = true)
    (h : Ends k (takeHello site (openEvent s)) { st := { t with out := outs }, notices := s.helloNotices site }) :
    exec (.hello site) s = .next { State.closed { t with ctl := (s.helloNotices site).foldl offer t.ctl } with out := outs } :=
  congrArg Host.Outcome.next (runEvent_ends (f := partnerFrame (.hello site)) h ho hk)

theorem helloNotices_offered (s : State) (site : Nat) (c : Control) : (s.helloNotices site).foldl offer c =
    if s.port.up = false ∨ s.port.site ≠ some site then
      offer c (s.notice .linkUp site (if site = s.ctl.config.partnerSite then 1 else 0) 0) else c := by
  unfold State.helloNotices
  split_ifs <;> rfl

/-- The turns of a matching HELLO: the engine rests, then the port takes its turn. -/
theorem ends_helloUp (hrest : State.EngineRests { s.helloUp site with out := [] }) {r : Event}
    (hport : portTurn { st := { s.helloUp site with out := [] }, notices := s.helloNotices site } = r) (hr : r.todo = {})
    (hok : site = s.ctl.config.partnerSite) : Ends 2 (takeHello site (openEvent s)) r := by
  rw [takeHello_eq, if_pos hok]
  refine ends_clears (f := fun b => {
    st := { s.helloUp site with out := [] }, todo := { engine := b, port := true }, notices := s.helloNotices site })
    (fun _ => congrArg some (hrest _ rfl)) ?_
  exact Ends.turn (congrArg some hport) (ends_of_idle hr)

end

/-- An event of the partner that changes the port alone. -/
theorem exec_port {s : State} {i : Instr} {f : Event → Event} (hi : ∀ s, exec i s = .next (runEvent s f)) {p : Port}
    (hf : f (openEvent s) = { st := { s with port := p, out := [] } }) :
    exec i s = .next (({ s with port := p } : State).closed) := by
  rw [hi, runEvent_silent (t := { s with port := p }) hf]

/-- The loss of the link, in the words of the statement. -/
theorem runEvent_linkLost {s : State} {f : Event → Event} {reason : Nat} (hf : f (openEvent s) = linkLost reason (openEvent s)) :
    runEvent s f = (({ s with
      port := { s.port with up := false, ackTimer := none, held := false, resendPos := none }
      run := if s.run.state = .idle then s.run
        else { s.run with
          linkMark := true
          state := if s.run.state = .active ∨ s.run.state = .closing then .suspendedLink else s.run.state }
      ctl := offer s.ctl
        { kind := .linkLost, time := if s.sched.clockSet then s.sched.clock else 0, subject := s.port.site.getD 0,
          d1 := reason, d2 := s.port.outstanding.length } } : State).closed) := by
  refine (runEvent_ends (k := 0) (outs := []) (ns := [s.linkLost reason]) (t := { s with
    port := { s.port with up := false, ackTimer := none, held := false, resendPos := none }
    run := s.run.linkDown }) ?_ (by simp) (by omega)).trans rfl
  rw [hf, linkLost_eq]
  exact ends_of_idle rfl

/-- Settles O43: a HELLO brings the offsite link up, and it is held, resumed or lost. -/
theorem offsiteLinkComesUpAndIsHeldOrLost : Obligations.OffsiteLinkComesUpAndIsHeldOrLost := by
  unfold Obligations.OffsiteLinkComesUpAndIsHeldOrLost
  refine ⟨fun s site => ?_, fun s => ?_⟩
  · intro ok news notice ctl
    have hctl : (s.helloNotices site).foldl offer s.ctl = ctl := helloNotices_offered s site s.ctl
    refine ⟨fun hi hfr hout => ?_, fun hi hbad hq => ?_, fun hok hrest => ?_⟩
    · by_cases hok : ok
      · have hends := ends_helloUp (s := s) (site := site) (engineRests_idle (by
            unfold State.helloUp State.helloRun
            dsimp only
            rw [if_pos hi, hi])) (portRests_none (by
              unfold State.helloUp State.helloRun
              dsimp only
              rw [if_pos hi, hfr]) (by
              unfold State.helloUp State.helloPort
              dsimp only
              rw [hout]
              rfl) _ rfl) rfl hok
        refine (exec_hello (outs := []) (by omega) (by simp) hends).trans ?_
        rw [if_pos hok, if_pos hok, if_pos hok, ← hctl]
        unfold State.helloUp State.helloRun State.helloPort
        rw [if_pos hi, hout]
        rfl
      · refine (exec_hello (t := s.linkedTo site) (outs := []) (k := 0) (by omega) (by simp) ?_).trans ?_
        · rw [takeHello_eq, if_neg hok, if_pos hi]
          exact ends_of_idle rfl
        · rw [if_neg hok, if_neg hok, if_neg hok, ← hctl]
          rfl
    · obtain ⟨t, hex, hend, hport, -, hout, hnot⟩ := runEvent_runEnds (s := s) (f := partnerFrame (.hello site)) (sc := s.sched)
        (p := { s.port with up := true, site := some site }) (l := s.helloNotices site) (k := .failed) (fi := s.firing) (by
          change takeHello site (openEvent s) = _
          obtain ⟨u, td, ns, on, he, ⟨⟨vs, es, n, b, pl, part, step, rfl⟩, -, -⟩⟩ := endRunNow_eq (e := {
            st := { s.linkedTo site with out := [] }, notices := s.helloNotices site }) .failed (by exact hq) rfl rfl rfl rfl
          rw [takeHello_eq, if_neg hbad, if_neg hi]
          exact he.trans (congrArg (fun e : Event => e.upd fun u => { u with firing := s.firing }) he.symm)) hq
      refine ⟨t, congrArg Host.Outcome.next hex, hend, by rw [hport]; rfl, by rw [hport]; rfl, hout, fun hn hl => ?_⟩
      refine hnot _ ?_ hl
      unfold State.helloNotices
      rw [if_pos hn]
      exact List.mem_singleton_self _
    · intro rate port up
      have hup : up = { s.helloUp site with ctl := ctl } := rfl
      have hrests := helloUp_rests (s := s) (site := site) hrest (t := { s.helloUp site with out := [] }) rfl
      refine ⟨fun hw => ?_, fun hw f more hf => ?_⟩
      · have hports : State.PortRests { s.helloUp site with out := [] } := by
          rcases hw with hw | ⟨hout, hfr⟩
          · exact portRests_of (.inr (.inr hw))
          · refine portRests_none ?_ ?_
            · unfold State.helloUp State.helloRun
              dsimp only
              split_ifs <;> exact hfr
            · unfold State.helloUp State.helloPort
              dsimp only
              rw [hout]
              rfl
        refine (exec_hello (outs := []) (by omega) (by simp) (ends_helloUp hrests (hports _ rfl) rfl hok)).trans ?_
        rw [hup, ← hctl]
        rfl
      · have hclear : (s.helloPort site).clear = true := by
          simp only [Port.clear, State.helloPort, hw]
          rfl
        have hport : portTurn { st := { s.helloUp site with out := [] }, notices := s.helloNotices site } = _ :=
          (portTurn_resends (n := f.seq) (f := f) (by exact hclear) (by
            change s.port.outstanding.head?.map Frame.seq = some f.seq
            rw [hf]
            rfl) (by
            change s.port.outstanding.find? _ = some f
            rw [hf]
            simp)).trans (resend_eq ..)
        refine (exec_hello (outs := [.offsite f]) (t := { s.helloUp site with port := State.resentPort { s.helloUp site with out := [] } f.seq f })
          (by omega) (fun o ho => by rw [List.mem_singleton.mp ho]; rfl) (ends_helloUp hrests hport rfl hok)).trans ?_
        have hport' : State.resentPort { s.helloUp site with out := [] } f.seq f = { port with
            nextSend := s.port.pace + ((48 + f.payload.length * 4096) * 1000000 + (rate * 1024 - 1)) / (rate * 1024)
            resent := s.port.resent + 1
            ackTimer := some s.ctl.config.ackTimeout
            resendPos := if s.port.nextNo - 1 ≤ f.seq then none else some (f.seq + 1) } := by
          have hold : (State.port { s.helloUp site with out := [] }).oldest = some f.seq := by
            change s.port.outstanding.head?.map Frame.seq = some f.seq
            rw [hf]
            rfl
          unfold State.resentPort
          rw [if_pos hold]
          rfl
        rw [hport', hup, ← hctl]
        rfl
  · intro p ignored lost
    have hign : ∀ {i : Instr} {q : Partner}, (∀ s, exec i s = .next (runEvent s (partnerFrame q))) → p.up = false →
        partnerFrame q (openEvent s) = ignoreFrame (openEvent s) → exec i s = .next ignored :=
      fun hi _ hf => exec_port hi hf
    have hlost : ∀ {i : Instr} {f : Event → Event} (reason : Nat), exec i s = .next (runEvent s f) →
        f (openEvent s) = linkLost reason (openEvent s) → exec i s = .next (lost reason) :=
      fun reason hi hf => hi.trans (congrArg Host.Outcome.next (runEvent_linkLost hf))
    have hstands : ∀ {i : Instr} {f : Event → Event}, exec i s = .next (runEvent s f) → f (openEvent s) = openEvent s →
        exec i s = .next s.closed := fun hi hf => hi.trans (congrArg Host.Outcome.next (runEvent_silent hf))
    refine ⟨?_, fun hfr hres => ?_, ?_, ?_⟩
    · by_cases hup : p.up = true
      · rw [if_neg (by simp [hup])]
        by_cases hh : p.held = true
        · rw [if_pos hh]
          exact hstands rfl ((if_pos hup).trans (if_pos hh))
        · rw [if_neg hh]
          exact exec_port (i := .hold) (fun _ => rfl) ((if_pos hup).trans (if_neg hh))
      · rw [if_pos (Bool.of_not_eq_true hup)]
        exact hign (i := .hold) (fun _ => rfl) (Bool.of_not_eq_true hup) (if_neg hup)
    · by_cases hup : p.up = true
      · rw [if_neg (by simp [hup])]
        by_cases hh : p.held = true
        · rw [if_pos hh]
          let q : Port := { p with
            held := false, ackTimer := if p.outstanding = [] then none else some s.ctl.config.ackTimeout }
          have hf : partnerFrame .resume (openEvent s) = { st := { s with port := q, out := [] }, todo := { port := true } } :=
            (if_pos hup).trans (if_pos hh)
          refine congrArg Host.Outcome.next ((runEvent_ends (k := 1) (outs := []) (ns := []) (t := { s with port := q }) ?_ (by simp)
            (by omega)).trans rfl)
          rw [hf]
          exact ends_portWaits (e := { st := { s with port := q, out := [] } }) (portRests_none hfr hres)
        · rw [if_neg hh]
          exact hstands rfl ((if_pos hup).trans (if_neg hh))
      · rw [if_pos (Bool.of_not_eq_true hup)]
        exact hign (i := .resume) (fun _ => rfl) (Bool.of_not_eq_true hup) (if_neg hup)
    · by_cases hh : p.held = true
      · rw [if_pos hh]
        exact hlost 3 rfl (if_pos hh)
      · rw [if_neg hh]
        exact hstands rfl (if_neg hh)
    · by_cases hup : p.up = true
      · rw [if_pos hup]
        exact hlost 1 rfl (if_pos hup)
      · rw [if_neg hup]
        exact hstands rfl (if_neg hup)

end Sys2Proof.Machine
end

section
/-! PROOFS. An ACK takes frames off the outstanding list (O44): a seal releases its volume, a close ends the pass (R132, R133, R150). -/

namespace Sys2Proof.Machine

section
variable {s : State} {n : Nat}

/-! ### The frames acknowledged -/

/-- The frames that an ACK of `n` leaves on the outstanding list. -/
def Port.leftBy (p : Port) (n : Nat) : List Frame := p.outstanding.filter fun f => decide (n < f.seq)

/-- The port after an ACK of `n`, no resend being pending. -/
def State.ackedPort (s : State) (n : Nat) : Port :=
  { s.port with
    outstanding := s.port.leftBy n, highestAcked := n, retry := 0,
    ackTimer := if s.port.leftBy n = [] ∨ s.port.held = true then none else some s.ctl.config.ackTimeout, resendPos := none }

theorem takeAck_outside (h : ∀ f, s.port.outstanding.head? = some f → n < f.seq ∨ s.port.nextNo ≤ n) (hn : 1 ≤ s.port.nextNo) :
    takeAck n (openEvent s) = openEvent s := by
  unfold takeAck Port.oldest Port.newest
  dsimp only
  cases hf : s.port.outstanding.head? with
  | none =>
    rw [show (openEvent s).st.port.outstanding.head? = none from hf]
    rfl
  | some f =>
    rw [show (openEvent s).st.port.outstanding.head? = some f from hf]
    refine if_pos ?_
    change n < f.seq ∨ s.port.nextNo - 1 < n
    rcases h f hf with h | h <;> omega

theorem takeAck_inside (h : ¬ ∀ f, s.port.outstanding.head? = some f → n < f.seq ∨ s.port.nextNo ≤ n) (hr : s.port.resendPos = none) :
    takeAck n (openEvent s) = wakePort (reportAcked (s.port.outstanding.filter fun f => decide (f.seq ≤ n))
      { st := { s with port := s.ackedPort n, out := [] } }) := by
  obtain ⟨f, hf, hin⟩ : ∃ f, s.port.outstanding.head? = some f ∧ ¬ (n < f.seq ∨ s.port.nextNo ≤ n) := by
    by_contra hno
    exact h fun f hf => by_contra fun hc => hno ⟨f, hf, hc⟩
  have hafter : resendAfter s.port n = none := by
    unfold resendAfter
    rw [hr]
  unfold takeAck Port.oldest Port.newest
  dsimp only
  rw [show (openEvent s).st.port.outstanding.head? = some f from hf]
  dsimp only [Option.map_some]
  rw [if_neg (by
    change ¬ (n < f.seq ∨ s.port.nextNo - 1 < n)
    omega)]
  unfold State.ackedPort
  rw [← hafter]
  rfl

/-! ### A VOLUME SEAL -/

/-- The volume that a seal has released, but for its RUN snapshot (R132). -/
def Volume.sealed (x : Volume) (r : Run) : Volume :=
  { x with
    fullScan := x.fullScan && r.keep, overflow := x.overflow && !(r.fullScan && !x.activeIncomplete), everSealed := true,
    runList := [], runIncomplete := false }

/-- The run with one volume more sealed. -/
def Run.seals (r : Run) : Run := { r with sealedVols := r.sealedVols + 1, passSealed := r.passSealed + 1 }

def State.sealNotice (s : State) (v : Nat) : Notice := s.notice .runVolumeSealed v s.run.volData s.run.volClear

/-- `u` shows the volume of `s` sealed and released. -/
structure SealedIn (s u : State) (v : Nat) : Prop where
  others : ∀ w, w ≠ v → u.vol w = s.vol w
  vol : ∃ sn dq, u.vol v = { (s.vol v).sealed s.run with snaps := sn, deleteQueue := dq } ∧
    (s.vol v).queues (s.ctl.part == .running) sn dq

theorem sealAcked_eq {e : Event} {v : Nat} (hv : e.st.currentVol = some v) : ∃ vs en ns,
    sealAcked e = nextVolume { e with
      st := { e.st with vols := vs, run := e.st.run.seals }
      todo := { e.todo with engine := en }
      notices := e.notices ++ e.st.sealNotice v :: ns } ∧ SealedIn e.st { e.st with vols := vs } v := by
  obtain ⟨vs, en, ns, hq, hw, sn, dq, hvol, hqueues⟩ := queueDeletion_vol v { e with
    st := { e.st.setVol v ((e.st.vol v).sealed e.st.run) with run := e.st.run.seals }, notices := e.notices ++ [e.st.sealNotice v] }
  have hsealed : sealAcked e = nextVolume (queueDeletion v 0 { e with
      st := { e.st.setVol v ((e.st.vol v).sealed e.st.run) with run := e.st.run.seals }
      notices := e.notices ++ [e.st.sealNotice v] }) := by
    unfold sealAcked
    rw [hv]
    rfl
  have hself : (State.vol { e.st.setVol v ((e.st.vol v).sealed e.st.run) with run := e.st.run.seals } v) =
      (e.st.vol v).sealed e.st.run := State.vol_setVol ..
  dsimp only at hvol hqueues
  rw [hself] at hvol hqueues
  refine ⟨vs, en, ns, ?_, ⟨fun w hne => (hw w hne).trans (State.vol_setVol_ne _ _ _ _ hne), sn, dq, hvol, hqueues⟩⟩
  rw [hsealed, hq]
  refine congrArg nextVolume ?_
  simp only [List.append_assoc, List.singleton_append]
  rfl

theorem nextVolume_last {e : Event} (h : e.st.plan[e.st.run.planIndex + 1]? = none) : nextVolume e = { e with
    st := { e.st with run := { e.st.run with
      planIndex := e.st.run.planIndex + 1, asked := false, state := if e.st.run.state = .active then .closing else e.st.run.state
      frames := e.st.run.frames ++
        [{ Frame.plain .runClose e.st.run.runId with a := e.st.run.passSealed, b := e.st.run.passSkipped }] } }
    todo := { e.todo with port := true } } := by
  unfold nextVolume
  dsimp only
  rw [if_neg (by simpa [State.currentVol, Event.updRun, Event.upd] using h), readyFrame_eq]
  rfl

theorem nextVolume_next {e : Event} {w : Nat} (h : e.st.plan[e.st.run.planIndex + 1]? = some w) : nextVolume e = { e with
    st := { e.st with run := { e.st.run with planIndex := e.st.run.planIndex + 1, asked := false, phase := .freeze } }
    todo := { e.todo with engine := true } } := by
  unfold nextVolume
  dsimp only
  rw [if_pos (by simp [State.currentVol, Event.updRun, Event.upd, h])]
  rfl

/-- What the queue of notices holds where a seal's is the first of its event. -/
theorem take_offered (c : Control) (m : Notice) (l : List Notice) :
    ((m :: l).foldl offer c).notices.take (c.notices.length + 1) = (offer c m).notices := by
  have hstep : ∀ (c : Control) (a : Notice), ∃ q, (offer c a).notices = c.notices ++ q ∧
      (c.notices.length < Config.noticeQueueSize → q = [a]) ∧ (¬ c.notices.length < Config.noticeQueueSize → q = []) := by
    intro c a
    unfold offer
    by_cases h : c.notices.length < Config.noticeQueueSize
    · exact ⟨[a], by rw [if_pos h], fun _ => rfl, fun hn => absurd h hn⟩
    · exact ⟨[], by rw [if_neg h, List.append_nil], fun hn => absurd hn h, fun _ => rfl⟩
  have hfold : ∀ (l : List Notice) (c : Control), ∃ q, (l.foldl offer c).notices = c.notices ++ q ∧
      (¬ c.notices.length < Config.noticeQueueSize → q = []) := by
    intro l
    induction l with
    | nil => exact fun c => ⟨[], by rw [List.append_nil]; rfl, fun _ => rfl⟩
    | cons a l ih =>
      intro c
      obtain ⟨q, hq, -, hfull⟩ := hstep c a
      obtain ⟨r, hr, hrfull⟩ := ih (offer c a)
      refine ⟨q ++ r, by rw [List.foldl_cons, hr, hq, List.append_assoc], fun hn => ?_⟩
      have hq0 := hfull hn
      rw [hq0, hrfull (by rw [hq, hq0, List.append_nil]; exact hn)]
      rfl
  obtain ⟨q, hq, hroom, hfull⟩ := hstep c m
  obtain ⟨r, hr, hrfull⟩ := hfold l (offer c m)
  rw [List.foldl_cons, hr]
  by_cases hn : c.notices.length < Config.noticeQueueSize
  · rw [hq, hroom hn]
    exact List.take_left' (by simp)
  · rw [hrfull (by rw [hq, hfull hn, List.append_nil]; exact hn), List.append_nil, hq, hfull hn, List.append_nil]
    exact List.take_of_length_le (by omega)

/-- What the seal of a volume leaves of it, in the words of the statement. -/
theorem SealedIn.released {s u t : State} {v : Nat} (h : SealedIn s u v) (hv : t.vol v = u.vol v) :
    (t.vol v).everSealed = true ∧ (t.vol v).runList = [] ∧ (t.vol v).runIncomplete = false ∧
      (t.vol v).fullScan = ((s.vol v).fullScan && s.run.keep) ∧
      (t.vol v).overflow = ((s.vol v).overflow && !(s.run.fullScan && !(s.vol v).activeIncomplete)) ∧
      (t.vol v).map = (s.vol v).map ∧ (t.vol v).activeList = (s.vol v).activeList ∧ (t.vol v).state = (s.vol v).state ∧
      (t.vol v).gen = (s.vol v).gen ∧ (t.vol v).runCounter = (s.vol v).runCounter ∧ RunSnapQueued s t v := by
  obtain ⟨-, sn, dq, hvol, hnone, hsome⟩ := h
  rw [← hv] at hvol
  unfold RunSnapQueued
  dsimp only
  rw [hvol]
  refine ⟨rfl, rfl, rfl, rfl, rfl, rfl, rfl, rfl, rfl, rfl, hnone, fun d hd => ?_⟩
  obtain ⟨h1, h2, h3⟩ := hsome d hd
  exact ⟨h1, fun hq hr => h2 hq (hr.imp_right fun hp => by simpa using hp), fun hq hr hp => h3 hq hr (by simpa using hp)⟩

/-! ### The turns behind a seal -/

theorem portTurn_cases {e : Event} (h : e.st.port.resendPos = none) :
    portTurn e = e ∨ ∃ f, e.st.run.frames.head? = some f ∧ portTurn e = sendNew f e := by
  unfold portTurn
  dsimp only
  by_cases hc : ¬ e.st.port.clear = true
  · exact .inl (if_pos hc)
  rw [if_neg hc, h]
  dsimp only
  cases e.st.run.frames with
  | nil => exact .inl rfl
  | cons f l =>
    dsimp only
    split_ifs
    · exact .inr ⟨f, rfl, rfl⟩
    · exact .inl rfl

/-- Past the last volume the engine rests; the port may send what is ready. -/
theorem ends_noVolume {e : Event} (hv : e.st.currentVol = none) (hr : e.st.port.resendPos = none) (ht : e.todo = {}) (en : Bool) :
    ∃ po run outs, Ends 3 { e with todo := { engine := en, port := true } }
        { e with st := { e.st with port := po, run := run, out := e.st.out ++ outs } } ∧
      (∀ o ∈ outs, o.isPlain = true) ∧ po.highestAcked = e.st.port.highestAcked ∧
      (run = e.st.run ∨ ∃ f, run = e.st.run.took f) ∧
      (e.st.port.held = true ∨ e.st.port.pace < e.st.port.nextSend → po = e.st.port ∧ run = e.st.run) := by
  have hengine : ∀ f : Event, f.st.currentVol = none → engineTurn f = f := by
    intro f hf
    unfold engineTurn
    rw [hf]
    exact ite_self _
  have hclear : ∀ {k : Nat} {r : Event}, Ends k { e with todo := { port := true } } r →
      Ends (k + 1) { e with todo := { engine := en, port := true } } r := fun h =>
    ends_clears (f := fun b => { e with todo := { engine := b, port := true } }) (fun _ => congrArg some (hengine _ hv)) h
  have hrest : portTurn e = e → Ends 3 { e with todo := { engine := en, port := true } }
      { e with st := { e.st with port := e.st.port, run := e.st.run, out := e.st.out ++ [] } } := by
    intro h
    rw [List.append_nil]
    exact hclear (ends_portTurn h ht (ends_of_idle ht)).more
  by_cases hw : e.st.port.held = true ∨ e.st.port.pace < e.st.port.nextSend
  · exact ⟨e.st.port, e.st.run, [], hrest (portRests_of (.inr hw) _ rfl), nofun, rfl, .inl rfl, fun _ => ⟨rfl, rfl⟩⟩
  rcases portTurn_cases hr with h | ⟨f, -, h⟩
  · exact ⟨e.st.port, e.st.run, [], hrest h, nofun, rfl, .inl rfl, fun _ => ⟨rfl, rfl⟩⟩
  · refine ⟨e.st.sentPort f, e.st.run.took f, [.offsite { f with seq := e.st.port.nextNo }], hclear ?_,
      fun o ho => by rw [List.mem_singleton.mp ho]; rfl, rfl, .inr ⟨f, rfl⟩, fun h => absurd h hw⟩
    obtain ⟨st, td, pt, ac, rp, rs, an, on, ns, la, dn, se⟩ := e
    obtain rfl : td = {} := ht
    exact ends_portTurn (h.trans (sendNew_eq f _)) rfl (Ends.turn (congrArg some (hengine _ hv)) (ends_of_idle rfl))

end

end Sys2Proof.Machine
end

section
/-! PROOFS. An ACK, in the words of the statement (O44). -/

namespace Sys2Proof.Machine

section
variable {s : State} {n run : Nat}

theorem exec_ack (h : s.port.up = true ∧ s.port.seqRun = some run) : exec (.ack n run) s = .next (runEvent s (takeAck n)) := by
  refine congrArg Host.Outcome.next (congrArg (fun e => closeEvent (runTodo turnBound e)) ?_)
  exact if_pos h

/-- An ACK of the one outstanding frame empties the list. -/
theorem left_single {f : Frame} (hf : s.port.outstanding = [f])
    (h : ¬ ∀ f, s.port.outstanding.head? = some f → n < f.seq ∨ s.port.nextNo ≤ n) :
    f.seq ≤ n ∧ s.port.leftBy n = [] ∧ s.port.outstanding.filter (fun f => decide (f.seq ≤ n)) = [f] := by
  have hin : f.seq ≤ n := by
    by_contra hlt
    refine h fun g hg => .inl ?_
    rw [hf] at hg
    obtain rfl : f = g := Option.some.inj hg
    omega
  refine ⟨hin, ?_, ?_⟩
  · unfold Port.leftBy
    rw [hf, List.filter_singleton]
    simp [Nat.not_lt.mpr hin]
  · rw [hf, List.filter_singleton]
    simp [hin]

/-- The state behind the seal of the current volume, `vs` being the volumes. -/
def State.sealedBy (s : State) (n : Nat) (vs : Table Volume) : State :=
  { s with port := s.ackedPort n, out := [], vols := vs, run := s.run.seals }

/-- An ACK of the current volume's seal. -/
theorem takeAck_seal {f : Frame} {v : Nat} (hf : s.port.outstanding = [f]) (hk : f.kind = .volumeSeal) (hr : s.port.resendPos = none)
    (h : ¬ ∀ f, s.port.outstanding.head? = some f → n < f.seq ∨ s.port.nextNo ≤ n) (hv : s.currentVol = some v) : ∃ vs en ns,
    takeAck n (openEvent s) =
      wakePort (nextVolume { st := s.sealedBy n vs, todo := { engine := en }, notices := s.sealNotice v :: ns }) ∧
    SealedIn s { s with vols := vs } v := by
  obtain ⟨-, -, hfilter⟩ := left_single hf h
  obtain ⟨vs, en, ns, hs, hsealed⟩ := sealAcked_eq (e := { st := { s with port := s.ackedPort n, out := [] } }) hv
  refine ⟨vs, en, ns, ?_, ⟨hsealed.others, hsealed.vol⟩⟩
  rw [takeAck_inside h hr, hfilter]
  have hreport : ∀ e : Event, reportAcked [f] e = sealAcked e := by
    intro e
    simp only [reportAcked, List.foldl_cons, List.foldl_nil, hk]
  rw [hreport, hs]
  rfl

/-- The run that has frozen none of its next volume `i` yet (R127). -/
def Run.freezes (r : Run) (i : Nat) (asked : Bool) : Run := { r with planIndex := i, asked := asked, phase := .freeze }

/-- The state behind the seal of a volume that is not the plan's last: the next one is to be frozen. -/
def State.sealedNext (s : State) (n : Nat) (vs : Table Volume) (asked : Bool) : State :=
  { s.sealedBy n vs with run := s.run.seals.freezes (s.run.planIndex + 1) asked }

/-- A create of a volume whose drain runs waits behind it (R25). -/
theorem askCreate_behind {v : Nat} {c : CreateReq} {e : Event} (hf : (e.st.vol v).state ≠ .frozen) (hd : (e.st.vol v).drain ≠ none) :
    askCreate v c e = e.updVol v fun x => { x with waiting := x.waiting ++ [.holding c] } := by
  unfold askCreate askDrain
  rw [if_neg hf]
  exact if_neg fun h => hd h.1

/-- The event of such a seal: the engine takes its turn, and the port waits. -/
theorem exec_sealNext {vs : Table Volume} {en en' : Bool} {ns : List Notice} {w : Nat} {t : State}
    (hc : s.port.up = true ∧ s.port.seqRun = some run) (hw : s.plan[s.run.planIndex + 1]? = some w)
    (hack : takeAck n (openEvent s) = wakePort (nextVolume { st := s.sealedBy n vs, todo := { engine := en }, notices := ns }))
    (hturn : engineTurn { st := s.sealedNext n vs false, todo := { port := true }, notices := ns } =
      { st := { t with out := [] }, todo := { engine := en', port := true }, notices := ns })
    (he : en' = true → State.EngineRests { t with out := [] })
    (hp : t.port.held = true ∨ t.port.pace < t.port.nextSend) :
    exec (.ack n run) s = .next (State.closed { t with ctl := ns.foldl offer t.ctl }) := by
  rw [exec_ack hc]
  refine congrArg Host.Outcome.next ((runEvent_ends (k := 3) (outs := []) (ns := ns) (t := t) ?_ (by simp) (by omega)).trans rfl)
  rw [hack, nextVolume_next (by exact hw)]
  refine Ends.turn (congrArg some hturn) ?_
  refine ends_clears (f := fun b => { st := { t with out := [] }, todo := { engine := b, port := true }, notices := ns })
    (fun hb => congrArg some (he hb _ rfl)) ?_
  exact ends_portWaits (e := { st := { t with out := [] }, notices := ns }) (portRests_of (.inr hp))

theorem closeAcked_nightly {e : Event} (h : e.st.run.mode = .nightly) : closeAcked e = { e with
    st := { e.st with
      run := { e.st.run with state := .idle, result := .complete }
      port := { e.st.port with outstanding := [], resendPos := none, ackTimer := none, retry := 0, seqRun := none } }
    notices := e.notices ++ [e.st.notice .runEnded e.st.run.runId 1 e.st.run.sealedVols] } := by
  have hclose : closeAcked e = (emptyPort (e.updRun fun r => { r with state := .idle, result := .complete })).note .runEnded
      e.st.run.runId RunResult.complete.value e.st.run.sealedVols := by
    unfold closeAcked
    dsimp only
    rw [h]
  rw [hclose]
  rfl

/-- The run at the opening of its next pass. -/
def Run.nextPass (r : Run) (id : Nat) (f : Frame) : Run :=
  { r with
    state := .active, result := .complete, runId := id, pass := if r.pass = 65535 then 1 else r.pass + 1, planIndex := 0,
    phase := .freeze, asked := false, passSealed := 0, passSkipped := 0, frames := r.frames ++ [f] }

theorem closeAcked_continuous {e : Event} (h : e.st.run.mode = .continuous) : closeAcked e = { e with
    st := { e.st with
      run := e.st.run.nextPass (stepWrap max32 e.st.run.runId)
        { Frame.plain .runOpen (stepWrap max32 e.st.run.runId) with
          flags := flag (e.st.run.mode == .continuous), a := if e.st.run.pass = 65535 then 1 else e.st.run.pass + 1, b := e.st.plan.length }
      port := { e.st.port with
        seqRun := some (stepWrap max32 e.st.run.runId), nextNo := 1, highestAcked := 0, retry := 0, resendPos := none } }
    todo := { e.todo with engine := true, port := true }
    notices := e.notices ++ [e.st.notice .runPassDone e.st.run.runId e.st.run.pass e.st.run.passSealed] } := by
  have hclose : closeAcked e = openPass ((e.note .runPassDone e.st.run.runId e.st.run.pass e.st.run.passSealed).updRun fun r =>
      { r with result := .complete, pass := if r.pass = 65535 then 1 else r.pass + 1 }) := by
    unfold closeAcked
    dsimp only
    rw [h]
  rw [hclose, openPass_eq]
  unfold State.passOpens Run.nextPass
  generalize stepWrap max32 = g
  rfl

theorem port_noResend {q : Port} (h : q.resendPos = none) : { q with resendPos := none } = q := by
  obtain ⟨⟩ := q
  cases h
  rfl

section
variable {vs : Table Volume} {w : Nat} {ns : List Notice}

/-- The freeze of the next volume falls due while its slot 0 is empty. -/
theorem sealedNext_freezeDue (hw : s.plan[s.run.planIndex + 1]? = some w) (hvolw : State.vol { s with vols := vs } w = s.vol w)
    (hi : s.run.state ≠ .idle) (hs : tfind (s.vol w).snaps 0 = none) : (s.sealedNext n vs false).freezeDue = some w := by
  have hcur : (s.sealedNext n vs false).currentVol = some w := hw
  have hslot : tfind ((s.sealedNext n vs false).vol w).snaps 0 = none := by
    rw [← hs]
    exact congrArg (fun x : Volume => tfind x.snaps 0) hvolw
  have hst : ((s.sealedNext n vs false).run.state != .idle) = true := bne_iff_ne.mpr hi
  unfold State.freezeDue
  rw [hcur]
  simp only [Option.filter_some, hslot]
  rw [hst]
  rfl

theorem sealedNext_rests (hw : s.plan[s.run.planIndex + 1]? = some w) (hvolw : State.vol { s with vols := vs } w = s.vol w)
    (hrest : s.ctl.part = .recovering ∨ tfind (s.vol w).snaps 0 ≠ none) : State.EngineRests (s.sealedNext n vs false) := by
  have hcur : (s.sealedNext n vs false).currentVol = some w := hw
  by_cases hp : s.ctl.part = .recovering
  · rintro e he
    exact if_pos (by rw [he]; exact hp)
  · refine engineRests_of ?_ (by simp [Run.sending, State.sealedNext, Run.freezes])
    refine Option.eq_none_iff_forall_ne_some.mpr fun u hu => ?_
    obtain ⟨hcu, -⟩ := freezeDue_eq hu
    obtain rfl : w = u := Option.some.inj (hcur.symm.trans hcu)
    unfold State.freezeDue at hu
    rw [Option.filter_eq_some_iff] at hu
    have hnone := Option.isNone_iff_eq_none.mp ((Bool.and_eq_true _ _).mp hu.2).2
    refine (hrest.resolve_left hp) ?_
    rw [← hnone]
    exact congrArg (fun x : Volume => tfind x.snaps 0) hvolw.symm

theorem sealedNext_asksBehind (hw : s.plan[s.run.planIndex + 1]? = some w) (hvolw : State.vol { s with vols := vs } w = s.vol w)
    (hi : s.run.state ≠ .idle) (hp : s.ctl.part ≠ .recovering) (hs : tfind (s.vol w).snaps 0 = none)
    (hf : (s.vol w).state ≠ .frozen) (hd : (s.vol w).drain ≠ none) :
    engineTurn { st := s.sealedNext n vs false, todo := { port := true }, notices := ns } =
      { st := { (s.sealedNext n vs true).setVol w { s.vol w with waiting := (s.vol w).waiting ++ [.holding (runCreate s.run.runId)] }
          with out := [] }
        todo := { port := true }, notices := ns } := by
  have hvw : (s.sealedNext n vs true).vol w = s.vol w := hvolw
  rw [engineTurn_asks (by exact hp) (sealedNext_freezeDue hw hvolw hi hs)]
  refine Eq.trans (askCreate_behind (v := w) (c := runCreate s.run.runId) (e := {
    st := s.sealedNext n vs true, todo := { port := true }, notices := ns })
    (by rw [hvw]; exact hf) (by rw [hvw]; exact hd)) ?_
  unfold Event.updVol Event.upd
  dsimp only
  rw [hvw]
  rfl

theorem sealedNext_freezes (hw : s.plan[s.run.planIndex + 1]? = some w) (hvolw : State.vol { s with vols := vs } w = s.vol w)
    (hi : s.run.state ≠ .idle) (hp : s.ctl.part ≠ .recovering) (hs : tfind (s.vol w).snaps 0 = none)
    (hf : (s.vol w).state = .frozen) (hg : (s.vol w).gen < 4294967294) :
    engineTurn { st := s.sealedNext n vs false, todo := { port := true }, notices := ns } =
      { st := { (s.sealedNext n vs true).runFrozen w s.run.runId with out := [] }
        todo := { engine := true, port := true }, notices := ns } := by
  have hvw : (s.sealedNext n vs true).vol w = s.vol w := hvolw
  have hask : ∀ e : Event, (e.st.vol w).state = .frozen → askCreate w (runCreate s.run.runId) e =
      makeSnapshot w (runCreate s.run.runId) e := fun e he => if_pos he
  rw [engineTurn_asks (by exact hp) (sealedNext_freezeDue hw hvolw hi hs)]
  refine (hask { st := s.sealedNext n vs true, todo := { port := true }, notices := ns }
    (by rw [hvw]; exact hf)).trans ?_
  rw [makeSnapshot_runFrozen (by rw [hvw]; exact hs) (by rw [hvw]; exact hg) (by rw [hvw, hf]; exact nofun)]
  rfl

theorem sealedNext_frames (hvolw : State.vol { s with vols := vs } w = s.vol w) (hfr : s.run.frames = []) :
    ((s.sealedNext n vs true).runFrozen w s.run.runId).run.frames = [(s.sealedNext n vs true).volumeOpens w (s.vol w).gen] := by
  change s.run.frames ++ [(s.sealedNext n vs true).volumeOpens w ((s.sealedNext n vs true).vol w).gen] = _
  rw [hfr, show (s.sealedNext n vs true).vol w = s.vol w from hvolw]
  rfl

theorem sealedNext_frozen (hvolw : State.vol { s with vols := vs } w = s.vol w) :
    ((s.sealedNext n vs true).runFrozen w s.run.runId).vol w =
      ((s.vol w).snapped 0 (newSnap (s.sealedNext n vs true) w (runCreate s.run.runId))).swapped := by
  refine (State.vol_setVol (s.sealedNext n vs true) w _).trans ?_
  rw [show (s.sealedNext n vs true).vol w = s.vol w from hvolw]

theorem sealedNext_opens (hvolw : State.vol { s with vols := vs } w = s.vol w) (hfr : s.run.frames = []) :
    State.EngineRests { (s.sealedNext n vs true).runFrozen w s.run.runId with out := [] } := by
  refine engineRests_of (freezeDue_none (.inl nofun)) ?_
  by_contra hsend
  obtain ⟨-, -, -, hf0, -⟩ := (sending_iff _).mp (Bool.of_not_eq_false hsend)
  exact absurd ((sealedNext_frames hvolw hfr).symm.trans hf0) nofun

end

/-- RUN CLOSE acknowledged alone: the list is empty, and the engine takes up the end of the pass (R133). -/
theorem takeAck_close {f : Frame} (hf : s.port.outstanding = [f]) (hk : f.kind = .runClose) (hr : s.port.resendPos = none)
    (ho : ¬ ∀ f, s.port.outstanding.head? = some f → n < f.seq ∨ s.port.nextNo ≤ n) :
    takeAck n (openEvent s) = wakePort (closeAcked { st := { s with
      port := { s.port with outstanding := [], highestAcked := n, retry := 0, ackTimer := none }, out := [] } }) := by
  obtain ⟨-, hleft, hfilter⟩ := left_single hf ho
  have hacked : s.ackedPort n = { s.port with outstanding := [], highestAcked := n, retry := 0, ackTimer := none } := by
    unfold State.ackedPort
    rw [hleft, if_pos (.inl rfl), ← hr]
  rw [takeAck_inside ho hr, hfilter, hacked]
  simp only [reportAcked, List.foldl_cons, List.foldl_nil, hk]

/-- A NIGHTLY run complete, the port emptied (R133). -/
def State.nightDone (s : State) (n : Nat) : State :=
  { s with
    run := { s.run with state := .idle, result := .complete }
    port := { s.port with outstanding := [], highestAcked := n, retry := 0, ackTimer := none, seqRun := none, resendPos := none } }

theorem exec_ackClose_nightly {f : Frame} (hc : s.port.up = true ∧ s.port.seqRun = some run) (hf : s.port.outstanding = [f])
    (hk : f.kind = .runClose) (hr : s.port.resendPos = none)
    (ho : ¬ ∀ f, s.port.outstanding.head? = some f → n < f.seq ∨ s.port.nextNo ≤ n) (hfr : s.run.frames = [])
    (hm : s.run.mode = .nightly) : exec (.ack n run) s = .next ({ s with
      run := { s.run with state := .idle, result := .complete }
      port := { s.port with outstanding := [], highestAcked := n, retry := 0, ackTimer := none, seqRun := none }
      ctl := offer s.ctl (s.notice .runEnded s.run.runId 1 s.run.sealedVols) } : State).closed := by
  rw [exec_ack hc]
  refine congrArg Host.Outcome.next ((runEvent_ends (k := 1) (outs := []) (ns := [s.notice .runEnded s.run.runId 1 s.run.sealedVols])
    (t := s.nightDone n) ?_ (by simp) (by omega)).trans (congrArg (fun q : Port => State.closed { s.nightDone n with
      port := q
      ctl := [s.notice .runEnded s.run.runId 1 s.run.sealedVols].foldl offer s.ctl }) (port_noResend (q := { s.port with
        outstanding := [], highestAcked := n, retry := 0, ackTimer := none, seqRun := none }) (by exact hr))))
  rw [takeAck_close hf hk hr ho, closeAcked_nightly (by exact hm)]
  exact ends_portWaits (e := {
    st := { s.nightDone n with out := [] }, notices := [s.notice .runEnded s.run.runId 1 s.run.sealedVols] }) (portRests_none hfr rfl)

/-- The next pass of a CONTINUOUS run opened: a new run id and sequence, RUN OPEN the next frame (R133). -/
def State.passOpened (s : State) : State :=
  { s with
    run := { s.run with
      state := .active, result := .complete, runId := stepWrap max32 s.run.runId
      pass := if s.run.pass = 65535 then 1 else s.run.pass + 1, planIndex := 0, phase := .freeze
      asked := false, passSealed := 0, passSkipped := 0
      frames := [{ Frame.plain .runOpen (stepWrap max32 s.run.runId) with
        flags := 1, a := if s.run.pass = 65535 then 1 else s.run.pass + 1, b := s.plan.length }] }
    port := { s.port with
      outstanding := [], highestAcked := 0, nextNo := 1, retry := 0, ackTimer := none
      seqRun := some (stepWrap max32 s.run.runId), resendPos := none } }

theorem closeAcked_opens {ns : List Notice} {p : Port} (hp : p = { s.port with
      outstanding := [], highestAcked := n, retry := 0, ackTimer := none }) (hm : s.run.mode = .continuous) (hfr : s.run.frames = []) :
    closeAcked { st := { s with port := p, out := [] }, notices := ns } = {
      st := { s.passOpened with out := [] }, todo := { engine := true, port := true }
      notices := ns ++ [s.notice .runPassDone s.run.runId s.run.pass s.run.passSealed] } := by
  have hflag : flag (s.run.mode == .continuous) = 1 := by rw [hm]; rfl
  rw [closeAcked_continuous (by exact hm)]
  dsimp only
  rw [hflag, hp]
  unfold Run.nextPass
  rw [hfr]
  rfl

/-- With slot 0 of the plan's first volume occupied no freeze falls due, and the engine rests. -/
theorem passOpened_rests (hslot : ∀ v, s.plan[0]? = some v → tfind (s.vol v).snaps 0 ≠ none) :
    State.EngineRests { s.passOpened with out := [] } := by
  refine engineRests_of ?_ rfl
  refine Option.eq_none_iff_forall_ne_some.mpr fun u hu => ?_
  obtain ⟨hcu, -⟩ := freezeDue_eq hu
  unfold State.freezeDue at hu
  rw [Option.filter_eq_some_iff] at hu
  exact hslot u hcu (Option.isNone_iff_eq_none.mp ((Bool.and_eq_true _ _).mp hu.2).2)

theorem exec_ackClose_continuous {f : Frame} (hc : s.port.up = true ∧ s.port.seqRun = some run) (hf : s.port.outstanding = [f])
    (hk : f.kind = .runClose) (hr : s.port.resendPos = none)
    (ho : ¬ ∀ f, s.port.outstanding.head? = some f → n < f.seq ∨ s.port.nextNo ≤ n) (hfr : s.run.frames = [])
    (hm : s.run.mode = .continuous) (hwaits : s.port.held = true ∨ s.port.pace < s.port.nextSend)
    (hslot : ∀ v, s.plan[0]? = some v → tfind (s.vol v).snaps 0 ≠ none) : exec (.ack n run) s = .next ({ s.passOpened with
      port := { s.port with
        outstanding := [], highestAcked := 0, nextNo := 1, retry := 0, ackTimer := none
        seqRun := some (stepWrap max32 s.run.runId) }
      ctl := offer s.ctl (s.notice .runPassDone s.run.runId s.run.pass s.run.passSealed) } : State).closed := by
  rw [exec_ack hc]
  refine congrArg Host.Outcome.next ((runEvent_ends (k := 2) (outs := [])
    (ns := [s.notice .runPassDone s.run.runId s.run.pass s.run.passSealed]) (t := s.passOpened) ?_ (by simp)
    (by omega)).trans (congrArg (fun q : Port => State.closed { s.passOpened with
      port := q, ctl := [s.notice .runPassDone s.run.runId s.run.pass s.run.passSealed].foldl offer s.ctl })
      (port_noResend (q := { s.port with
        outstanding := [], highestAcked := 0, nextNo := 1, retry := 0, ackTimer := none
        seqRun := some (stepWrap max32 s.run.runId) }) (by exact hr))))
  rw [takeAck_close hf hk hr ho, closeAcked_opens rfl hm hfr]
  refine Ends.turn (congrArg some (passOpened_rests hslot _ rfl)) ?_
  exact ends_portWaits (e := {
    st := { s.passOpened with out := [] }, notices := [s.notice .runPassDone s.run.runId s.run.pass s.run.passSealed] })
    (portRests_of (.inr hwaits))

/-- Settles O44: an ACK takes frames off the outstanding list, and ends volumes and passes. -/
theorem ackTakesFramesOffTheList : Obligations.AckTakesFramesOffTheList := by
  unfold Obligations.AckTakesFramesOffTheList
  intro s n run p current left outside
  refine ⟨fun hc => ?_, fun hc hn ho => ?_, fun hc hn ho hfr hr => ⟨fun hall => ?_, fun f v hf hk hv hi => ?_, fun f hf hk => ?_⟩⟩
  · refine congrArg Host.Outcome.next (runEvent_silent (t := { s with port := { s.port with ignored := s.port.ignored + 1 } }) ?_)
    exact if_neg hc
  · rw [exec_ack hc]
    exact congrArg Host.Outcome.next (runEvent_silent (takeAck_outside ho hn))
  · rw [exec_ack hc]
    refine congrArg Host.Outcome.next ((runEvent_ends (k := 1) (outs := []) (ns := []) (t := { s with port := s.ackedPort n }) ?_
      (by simp) (by omega)).trans ?_)
    · rw [takeAck_inside ho hr, reportAcked_none fun f hf => ?_]
      · exact ends_portWaits (e := { st := { s with port := s.ackedPort n, out := [] } }) (portRests_none hfr rfl)
      · obtain ⟨hmem, hle⟩ := List.mem_filter.mp hf
        obtain ⟨h1, h2⟩ := hall f hmem (of_decide_eq_true hle)
        exact fun hlast => hlast.elim h1 h2
    · unfold State.ackedPort
      rw [← hr]
      rfl
  · obtain ⟨vs, en, ns, hack, hsealed⟩ := takeAck_seal hf hk hr ho hv
    obtain ⟨-, hleft, -⟩ := left_single hf ho
    intro x i waits note released
    have hreleased : ∀ {t : State} {l : List Notice}, t.vol v = State.vol { s with vols := vs } v →
        t.ctl.notices = ((note :: l).foldl offer s.ctl).notices → t.run.sealedVols = s.run.sealedVols + 1 →
        t.run.passSealed = s.run.passSealed + 1 → t.run.planIndex = i → t.port.highestAcked = n →
        (t.free = s.free ∧ t.accounts = s.accounts ∧ t.jobs = s.jobs ∧ t.inflight = s.inflight) → released t := by
      intro t l hvol hnot h1 h2 h3 h4 h5
      obtain ⟨r1, r2, r3, r4, r5, r6, r7, r8, r9, r10, r11⟩ := hsealed.released hvol
      exact ⟨r1, r2, r3, r4, r5, r6, r7, r8, r9, r10, r11, by rw [hnot]; exact take_offered .., h1, h2, h3, h4, h5⟩
    refine ⟨fun hlast => ?_, fun w hw hne hwaits => ?_⟩
    · have hnone : s.plan[s.run.planIndex + 1]? = none := List.getElem?_eq_none (by omega)
      rw [exec_ack hc]
      rw [nextVolume_last (by exact hnone)] at hack
      obtain ⟨po, r, outs, hends, ho, hacked, hrun, hwait⟩ := ends_noVolume (e := {
          st := { s.sealedBy n vs with run := { s.run.seals with
            planIndex := s.run.planIndex + 1, asked := false, state := if s.run.state = .active then .closing else s.run.state
            frames := s.run.frames ++
              [{ Frame.plain .runClose s.run.runId with a := s.run.passSealed + 1, b := s.run.passSkipped }] } }
          notices := s.sealNotice v :: ns }) (by exact hnone) rfl rfl en
      refine ⟨_, congrArg Host.Outcome.next (runEvent_ends (f := takeAck n) (ns := s.sealNotice v :: ns) (outs := outs)
        (t := { s.sealedBy n vs with port := po, run := r }) (by
          rw [hack]
          exact hends) ho (by omega)), ?_, ?_, fun w hw => hsealed.others w hw, fun hw => ?_⟩
      · refine hreleased (l := ns) rfl rfl ?_ ?_ ?_ hacked ⟨rfl, rfl, rfl, rfl⟩
        · rcases hrun with rfl | ⟨g, rfl⟩ <;> rfl
        · rcases hrun with rfl | ⟨g, rfl⟩ <;> rfl
        · rcases hrun with rfl | ⟨g, rfl⟩ <;> rfl
      · rcases hrun with rfl | ⟨g, rfl⟩ <;> rfl
      · obtain ⟨rfl, rfl⟩ := hwait hw
        refine ⟨hleft, ?_⟩
        change s.run.frames ++ _ = _
        rw [hfr]
        rfl
    · have hvolw : State.vol { s with vols := vs } w = s.vol w := hsealed.others w hne
      intro y stays
      have hstays : ∀ u, u ≠ v → u ≠ w → State.vol { s with vols := vs } u = s.vol u := fun u hu _ => hsealed.others u hu
      refine ⟨fun hrest => ?_, fun hp hs hf hd => ?_, fun hp hs hf hg => ?_⟩
      · have hrests : State.EngineRests (s.sealedNext n vs false) := sealedNext_rests hw hvolw hrest
        refine ⟨_, exec_sealNext (t := s.sealedNext n vs false) (en' := false) hc hw hack (hrests _ rfl) nofun hwaits, ?_, rfl, rfl, rfl,
          hfr, hstays, hvolw⟩
        exact hreleased (l := ns) rfl rfl rfl rfl rfl rfl ⟨rfl, rfl, rfl, rfl⟩
      · have hask := sealedNext_asksBehind (n := n) (vs := vs) (ns := s.sealNotice v :: ns) hw hvolw hi hp hs hf hd
        refine ⟨_, exec_sealNext (t := (s.sealedNext n vs true).setVol w _) (en' := false) hc hw hack hask nofun hwaits, ?_, rfl, rfl, rfl,
          hfr, fun u hu huw => ?_, ?_⟩
        · refine hreleased (l := ns) ?_ rfl rfl rfl rfl rfl ⟨rfl, rfl, rfl, rfl⟩
          exact State.vol_setVol_ne (s.sealedNext n vs true) _ _ _ hne.symm
        · exact (State.vol_setVol_ne (s.sealedNext n vs true) _ _ _ huw).trans (hstays u hu huw)
        · exact State.vol_setVol ..
      · have hturn := sealedNext_freezes (n := n) (vs := vs) (ns := s.sealNotice v :: ns) hw hvolw hi hp hs hf hg
        have hframes := sealedNext_frames (n := n) (vs := vs) hvolw hfr
        have hvolF := sealedNext_frozen (n := n) (vs := vs) hvolw
        have hrests := sealedNext_opens (n := n) (vs := vs) hvolw hfr
        refine ⟨_, exec_sealNext (t := (s.sealedNext n vs true).runFrozen w s.run.runId) (en' := true) hc hw hack hturn
          (fun _ => hrests) hwaits, ?_, rfl, rfl, ?_, fun u hu huw => ?_, ?_, ?_, ?_, ?_⟩
        · refine hreleased (l := ns) ?_ rfl rfl rfl rfl rfl ⟨rfl, rfl, rfl, rfl⟩
          exact State.vol_setVol_ne (s.sealedNext n vs true) _ _ _ hne.symm
        · exact congrArg (List.map Frame.kind) hframes
        · exact (State.vol_setVol_ne (s.sealedNext n vs true) _ _ _ huw).trans (hstays u hu huw)
        · exact congrArg Volume.gen hvolF
        · exact congrArg Volume.runList hvolF
        · exact congrArg Volume.activeList hvolF
        · refine (congrArg (fun x : Volume => (tfind x.snaps 0).map Snap.gen) hvolF).trans ?_
          change (tfind (tput 0 _ (s.vol w).snaps) 0).map Snap.gen = _
          rw [tfind_tput_same]
          exact congrArg (fun x : Volume => some x.gen) hvolw
  · intro time id pass
    exact ⟨fun hm => exec_ackClose_nightly hc hf hk hr ho hfr hm, fun hm hwaits hslot =>
      exec_ackClose_continuous hc hf hk hr ho hfr hm hwaits hslot⟩

end

end Sys2Proof.Machine
end

section
/-! PROOFS. The campus clock and the firing pass (O52): R63, R168, R172, R177. -/

namespace Sys2Proof.Machine

/-! ### The clock -/

/-- The part once its clock has advanced by a second that brings no deadline (R168). -/
def State.ticked (s : State) : State :=
  { s with
    sched := { s.sched with clock := s.sched.clock + 1 }
    firing := if s.ctl.part = .recovering then s.firing else true }

theorem advanceClock_eq {s : State} (hset : s.sched.clockSet = true) (hc : s.sched.clock < 4294967295)
    (hd : s.run.state = .idle ∨ s.sched.clock + 1 < s.run.deadline) : advanceClock (openEvent s) =
      if (s.sched.clock + 1) % 60 = 0 then minuteBoundary { st := { s.ticked with out := [] } }
      else { st := { s.ticked with out := [] } } := by
  have hnot : ¬ (¬ (openEvent s).st.sched.clockSet = true ∨ max32 ≤ (openEvent s).st.sched.clock) := by
    rintro (h | h)
    · exact h hset
    · have h' : 4294967295 ≤ s.sched.clock := h
      omega
  unfold advanceClock
  rw [if_neg hnot]
  dsimp only
  rw [testDeadline_of_not (by exact hd)]
  have hpass : beginPass ((openEvent s).updSched fun d => { d with clock := d.clock + 1 }) = { st := { s.ticked with out := [] } } := by
    unfold beginPass State.ticked
    by_cases hp : s.ctl.part = .recovering
    · rw [if_pos (by exact hp), if_pos hp]
      rfl
    · rw [if_neg (by exact hp), if_neg hp]
      rfl
  rw [hpass]
  rfl

/-- The entries of a bank that are due, by the three conditions of R172. -/
theorem filter_due (now : Nat) (bank : Table SchedEntry) :
    (bank.filter fun p => entryDue now p.2) = bank.filter fun p => decide
      (p.2.used = true ∧ p.2.minute = now % 86400 / 60 ∧ p.2.weekdays.testBit (now / 86400 % 7) = true) := by
  refine List.filter_congr fun p _ => ?_
  rw [Bool.eq_iff_iff, decide_eq_true_iff]
  simp only [entryDue, Bool.and_eq_true, beq_iff_eq, and_assoc]
  exact Iff.rfl

/-- A boundary in RUNNING that applies no swap fires the due entries of the active bank. -/
theorem minuteBoundary_running {e : Event} (hp : e.st.ctl.part = .running)
    (hs : e.st.sched.clock % 86400 ≠ 0 ∨ e.st.sched.swap = false) : minuteBoundary e =
      ((if e.st.sched.activeB then e.st.sched.bankB else e.st.sched.bankA).filter fun p =>
        entryDue e.st.sched.clock p.2).foldl (fun e p => fireEntry p.1 p.2 e) e := by
  have hswap : (if e.st.sched.clock % Config.daySeconds = 0 ∧ e.st.ctl.part ≠ .recovering then midnightSwap e else e) = e := by
    split_ifs with h
    · unfold midnightSwap
      rw [if_pos (by simp [hs.resolve_left (not_not.mpr h.1)])]
    · rfl
  unfold minuteBoundary
  dsimp only
  rw [hswap, if_pos hp]
  rfl

/-- A midnight boundary in STANDBY applies a pending swap, and fires nothing (R177). -/
theorem minuteBoundary_swaps {e : Event} (hp : e.st.ctl.part = .standby) (hm : e.st.sched.clock % 86400 = 0)
    (hs : e.st.sched.swap = true) : minuteBoundary e = { e with
      st := { e.st with sched := { e.st.sched with activeB := !e.st.sched.activeB, swap := false } }
      notices := e.notices ++ [e.st.notice .scheduleSwapped (flag (!e.st.sched.activeB)) (e.st.sched.clock / 86400) 0] } := by
  have hswap : (if e.st.sched.clock % Config.daySeconds = 0 ∧ e.st.ctl.part ≠ .recovering then midnightSwap e else e) = { e with
      st := { e.st with sched := { e.st.sched with activeB := !e.st.sched.activeB, swap := false } }
      notices := e.notices ++ [e.st.notice .scheduleSwapped (flag (!e.st.sched.activeB)) (e.st.sched.clock / 86400) 0] } := by
    rw [if_pos ⟨hm, by rw [hp]; exact nofun⟩]
    unfold midnightSwap
    rw [if_neg (by simp [hs])]
    rfl
  unfold minuteBoundary
  dsimp only
  rw [hswap]
  exact if_neg (by rw [show (_ : Control).part = .standby from hp]; exact nofun)

/-! ### The firing pass -/

theorem exec_runsEvent (i : Instr) (s : State) : ∃ f, exec i s = .next (runEvent s f) := by
  cases i <;> exact ⟨_, rfl⟩

/-- A pass that stands after an event has a due head (R63). -/
theorem runEvent_firing {s : State} {f : Event → Event} (h : (runEvent s f).firing = true) :
    ∃ x tag rest, (runEvent s f).expiryQueue = (x, tag) :: rest ∧ (runEvent s f).sched.clockSet = true ∧
      x ≤ (runEvent s f).sched.clock := by
  obtain ⟨u, c, o, hu⟩ : ∃ (u : State) (c : Control) (o : List Output),
      runEvent s f = { u with ctl := c, out := o, firing := u.firing && u.headDue } := ⟨_, _, _, rfl⟩
  rw [hu] at h ⊢
  have hdue : u.headDue = true := ((Bool.and_eq_true _ _).mp h).2
  unfold State.headDue at hdue
  cases hq : u.expiryQueue with
  | nil =>
    rw [hq] at hdue
    cases hdue
  | cons p rest =>
    rw [hq] at hdue
    obtain ⟨h1, h2⟩ := (Bool.and_eq_true _ _).mp hdue
    exact ⟨p.1, p.2, rest, rfl, h1, of_decide_eq_true h2⟩

/-- An event that touches one account. -/
theorem runEvent_touched {s t : State} {f : Event → Event} {o : Nat}
    (hf : f (openEvent s) = { st := { t with out := [] }, accts := touched o }) :
    runEvent s f = State.closed { (evaluateAccount t o).1 with ctl := (evaluateAccount t o).2.foldl offer (evaluateAccount t o).1.ctl } := by
  rw [runEvent, hf, runTodo_of_none (turn_of_idle rfl), closeEvent_quiet rfl (by simp), offered_touched]
  unfold Event.evaluated
  rw [evaluate_touched, show ({ t with out := [] } : State) = { t with out := [], ctl := t.ctl } from rfl,
    evaluateAccount_ctl t o [] rfl rfl, evaluateAccount_ctl_eq]
  rfl

/-- Settles O52: the clock advances by a second, and a firing pass takes the due heads. -/
theorem clockAdvancesAndFiringPassTakesTheHead : Obligations.ClockAdvancesAndFiringPassTakesTheHead := by
  unfold Obligations.ClockAdvancesAndFiringPassTakesTheHead
  refine ⟨fun s => ?_, fun c s t hs hfir => ?_, fun s => ⟨fun hfir => ?_, fun x tag rest hq => ⟨fun hnot => ?_, fun hfir hset hx => ?_⟩⟩⟩
  · intro now firing plain due bank
    refine ⟨fun h => ?_, fun hset hc hd => ⟨fun hm => ?_, fun hm hp hs => ?_, fun hm hs hp => ⟨fun hnone => ?_, fun i x hone hact => ?_⟩⟩⟩
    · refine congrArg Host.Outcome.next (runEvent_silent (if_pos ?_))
      rcases h with h | h
      · exact .inl (by rw [show (openEvent s).st.sched.clockSet = false from h]; exact nofun)
      · exact .inr h
    · exact congrArg Host.Outcome.next (runEvent_silent (t := s.ticked) ((advanceClock_eq hset hc hd).trans (if_neg hm)))
    · have hstep : advanceClock (openEvent s) = _ :=
        (advanceClock_eq hset hc hd).trans ((if_pos (by omega)).trans (minuteBoundary_swaps (by exact hp) (by exact hm) (by exact hs)))
      refine congrArg Host.Outcome.next ((runEvent_ends (k := 0) (outs := [])
        (ns := [s.ticked.notice .scheduleSwapped (flag (!s.sched.activeB)) (now / 86400) 0])
        (t := { s.ticked with sched := { s.sched with clock := now, activeB := !s.sched.activeB, swap := false } }) ?_ (by simp)
          (by omega)).trans ?_)
      · rw [hstep]
        exact ends_of_idle rfl
      · have hnotice : s.ticked.notice .scheduleSwapped (flag (!s.sched.activeB)) (now / 86400) 0 =
            { kind := .scheduleSwapped, time := now, subject := if s.sched.activeB then 0 else 1, d1 := now / 86400, d2 := 0 } := by
          have hstamp : s.ticked.stamp = now := if_pos hset
          have hflag : flag (!s.sched.activeB) = if s.sched.activeB then 0 else 1 := by cases s.sched.activeB <;> rfl
          unfold State.notice
          rw [hstamp, hflag]
        rw [hnotice]
        rfl
    · refine congrArg Host.Outcome.next (runEvent_silent (t := s.ticked) ((advanceClock_eq hset hc hd).trans
        ((if_pos hm).trans ((minuteBoundary_running (by exact hp) (by exact hs)).trans ?_))))
      rw [filter_due, List.filter_eq_nil_iff.mpr fun p hp => by
        rw [decide_eq_true_iff]
        exact hnone p hp]
      rfl
    · refine congrArg Host.Outcome.next (runEvent_silent (t := { s.ticked with
        sched := { s.sched with clock := now, rate := if x.param = 0 then .night else .day } }) ((advanceClock_eq hset hc hd).trans
        ((if_pos hm).trans ((minuteBoundary_running (by exact hp) (by exact hs)).trans ?_))))
      rw [filter_due]
      refine (congrArg (fun l => List.foldl _ _ l) hone).trans ?_
      simp only [List.foldl_cons, List.foldl_nil, fireEntry, hact]
      rfl
  · obtain ⟨f, hf⟩ := exec_runsEvent c s
    obtain rfl : runEvent s f = t := by
      rw [hf] at hs
      exact Host.Outcome.next.inj hs
    exact runEvent_firing hfir
  · refine congrArg Host.Outcome.next (runEvent_silent (f := fireExpiry) ?_)
    unfold fireExpiry
    split
    · rfl
    · exact if_pos (.inl (by simp [openEvent, hfir]))
  · refine congrArg Host.Outcome.next (runEvent_silent (f := fireExpiry) ?_)
    unfold fireExpiry
    rw [show (openEvent s).st.expiryQueue = (x, tag) :: rest from hq]
    refine if_pos (.inr ?_)
    unfold State.headDue
    rw [show (openEvent s).st.expiryQueue = (x, tag) :: rest from hq]
    rcases hnot with h | h
    · simp [openEvent, h]
    · simp [openEvent, Nat.not_le.mpr h]
  · intro u r
    refine congrArg Host.Outcome.next (runEvent_touched (t := u) (o := tag) (f := fireExpiry) ?_)
    unfold fireExpiry
    rw [show (openEvent s).st.expiryQueue = (x, tag) :: rest from hq]
    dsimp only
    rw [if_neg (by
      rintro (h | h)
      · exact h hfir
      · refine h ?_
        unfold State.headDue
        rw [show (openEvent s).st.expiryQueue = (x, tag) :: rest from hq]
        simp [openEvent, hset, hx])]
    rw [touchAcct_eq]
    unfold touching touched
    by_cases ht : tag = 0
    · rw [if_pos ht, if_pos ht]
      rfl
    · rw [if_neg ht, if_neg ht]
      rfl

end Sys2Proof.Machine
end

section
/-! PROOFS. Power-on and RESET (O59): what they clear, and the step at which recovery then stands (R178, R181). -/

namespace Sys2Proof.Machine

/-! ### The recovery steps passed -/

section
variable {e : Event} {n : Nat}

theorem advance_stays (ha : e.accts = []) (hr : e.reports = []) (h : stepDone e.st = false) : advanceRecovery (n + 1) e = e := by
  rw [advanceRecovery, settleAccounts_none ha hr]
  exact if_pos (by simp [h])

theorem advance_passes (ha : e.accts = []) (hr : e.reports = []) (h : stepDone e.st = true) (hs : e.st.ctl.recStep < 4) :
    advanceRecovery (n + 1) e = advanceRecovery n (e.updCtl fun c => { c with recStep := c.recStep + 1 }) := by
  rw [advanceRecovery, settleAccounts_none ha hr, if_neg (by simp [h]), if_neg (by omega)]

theorem advance_ends (ha : e.accts = []) (hr : e.reports = []) (h : stepDone e.st = true) (hs : 4 ≤ e.st.ctl.recStep) :
    advanceRecovery (n + 1) e = endRecovery e := by
  rw [advanceRecovery, settleAccounts_none ha hr, if_neg (by simp [h]), if_pos hs]

/-- The pool is below its low mark as recovery ends (R5). -/
def State.endsLow (s : State) : Bool := s.format.cond == .valid && decide (s.freeCount < s.format.low)

/-- The notices of the end of recovery. -/
def State.endNotices (s : State) : List Notice :=
  (if s.endsLow then [s.notice .poolLow 0 s.freeCount s.format.low] else []) ++
    [s.notice .recovered 0 s.ctl.recMirror s.ctl.recJobs]

theorem endRecovery_eq (e : Event) : endRecovery e = { e with
    st := { e.st with poolLow := e.st.endsLow, ctl := { e.st.ctl with part := .standby, recStep := 0 } }
    notices := e.notices ++ e.st.endNotices } := by
  unfold endRecovery State.endNotices
  dsimp only
  by_cases h : e.st.endsLow = true
  · rw [if_pos (by exact h), if_pos h, ← List.append_assoc]
    rfl
  · rw [if_neg (by exact h), if_neg h]
    rfl

/-- The work left to recovery from a step on; 0 with none. -/
def State.stepFrom (s : State) (k : Nat) : Nat :=
  if k ≤ 1 ∧ s.mirror ≠ [] then 1
  else if k ≤ 2 ∧ (s.returns ≠ [] ∨ openJob s ≠ none) then 2
  else if k ≤ 3 ∧ s.run.state ≠ .idle then 3
  else if rebuiltQueue s.accounts ≠ [] then 4 else 0

/-- The state in which recovery stands once it has passed the steps with nothing to do. -/
def State.wentOn (s : State) (k : Nat) : State :=
  if s.stepFrom k = 0 then { s with poolLow := s.endsLow, ctl := { s.ctl with part := .standby, recStep := 0 } }
  else { s with ctl := { s.ctl with recStep := s.stepFrom k } }

theorem stepDone_eq {k : Nat} (hk : e.st.ctl.recStep = k) (h1 : 1 ≤ k) (h4 : k ≤ 4) :
    stepDone e.st = decide (e.st.stepFrom k ≠ k) := by
  have hmirror : e.st.mirror.isEmpty = decide (e.st.mirror = []) := by cases e.st.mirror <;> rfl
  have hreturns : e.st.returns.isEmpty = decide (e.st.returns = []) := by cases e.st.returns <;> rfl
  have hjob : (openJob e.st).isNone = decide (openJob e.st = none) := by cases openJob e.st <;> rfl
  have hqueue : (rebuiltQueue e.st.accounts).isEmpty = decide (rebuiltQueue e.st.accounts = []) := by
    cases rebuiltQueue e.st.accounts <;> rfl
  unfold stepDone State.stepFrom
  rw [hk, hmirror, hreturns, hjob, hqueue]
  have hk' : k = 1 ∨ k = 2 ∨ k = 3 ∨ k = 4 := by omega
  rcases hk' with rfl | rfl | rfl | rfl
  · by_cases h : e.st.mirror = [] <;> simp [h]
    split_ifs <;> simp
  · by_cases h : e.st.returns = [] <;> by_cases h' : openJob e.st = none <;> simp [h, h']
    split_ifs <;> simp
  · by_cases h : e.st.run.state = .idle <;> simp [h]
    split_ifs <;> simp
  · by_cases h : rebuiltQueue e.st.accounts = [] <;> simp [h]

theorem stepFrom_succ {s : State} {k : Nat} (hk : k ≤ 3) (h : s.stepFrom k ≠ k) (h1 : 1 ≤ k) : s.stepFrom (k + 1) = s.stepFrom k := by
  unfold State.stepFrom at h ⊢
  have hk' : k = 1 ∨ k = 2 ∨ k = 3 := by omega
  rcases hk' with rfl | rfl | rfl
  · by_cases hm : s.mirror = []
    · simp [hm]
    · simp [hm] at h
  · by_cases hm : s.returns ≠ [] ∨ openJob s ≠ none
    · simp [hm] at h
    · simp [hm]
  · by_cases hm : s.run.state = .idle
    · simp [hm]
    · simp [hm] at h

/-- The steps from `k` on are passed up to the first that has work (R178). -/
theorem advanceRecovery_eq {k : Nat} (n : Nat) {e : Event} (hn : 5 ≤ n + k) (ha : e.accts = []) (hr : e.reports = [])
    (hk : e.st.ctl.recStep = k) (h1 : 1 ≤ k) (h4 : k ≤ 4) : advanceRecovery n e = { e with
      st := e.st.wentOn k
      notices := e.notices ++ if e.st.stepFrom k = 0 then e.st.endNotices else [] } := by
  induction n generalizing e k with
  | zero => omega
  | succ n ih =>
    have hdone := stepDone_eq hk h1 h4
    by_cases hs : e.st.stepFrom k = k
    · rw [advance_stays ha hr (by rw [hdone]; simp [hs])]
      unfold State.wentOn
      rw [if_neg (by omega), if_neg (by omega), hs, ← hk, List.append_nil]
    · have hd : stepDone e.st = true := by
        rw [hdone]
        exact decide_eq_true hs
      by_cases hlt : k = 4
      · subst hlt
        have hzero : e.st.stepFrom 4 = 0 := by
          unfold State.stepFrom at hs ⊢
          split_ifs at hs ⊢ <;> simp_all
        rw [advance_ends ha hr hd (by omega), endRecovery_eq]
        unfold State.wentOn
        rw [if_pos hzero, if_pos hzero]
      · rw [advance_passes ha hr hd (by omega), ih (k := k + 1) (by omega) (by exact ha) (by exact hr) (by
          change e.st.ctl.recStep + 1 = k + 1
          rw [hk]) (by omega) (by omega)]
        have hnext : (e.updCtl fun c => { c with recStep := c.recStep + 1 }).st.stepFrom (k + 1) = e.st.stepFrom k :=
          (stepFrom_succ (s := e.st) (by omega) hs h1)
        have hwent : (e.updCtl fun c => { c with recStep := c.recStep + 1 }).st.wentOn (k + 1) = e.st.wentOn k := by
          unfold State.wentOn
          rw [hnext]
          split_ifs <;> rfl
        rw [hwent, hnext]
        rfl

theorem goOnRecovering_eq {k : Nat} {e : Event} (ha : e.accts = []) (hr : e.reports = []) (hk : e.st.ctl.recStep = k) (h1 : 1 ≤ k)
    (h4 : k ≤ 4) : goOnRecovering e = { e with
      st := e.st.wentOn k
      notices := e.notices ++ if e.st.stepFrom k = 0 then e.st.endNotices else [] } :=
  advanceRecovery_eq 4 (by omega) ha hr hk h1 h4

end

/-! ### What the reset leaves -/

theorem tget_tmap {α : Type} [DecidableEq α] {d : α} {f : α → α} (hd : f d = d) {t : Table α} (hs : Table.sorted t = true) (k : Nat) :
    tget d (tmap d f t) k = f (tget d t k) := by
  have hp := pairwise_of_sorted hs
  clear hs
  induction t with
  | nil => exact hd.symm
  | cons p t ih =>
    obtain ⟨j, x⟩ := p
    obtain ⟨hj, ht⟩ := List.pairwise_cons.mp hp
    have hnone : tget d t j = d := by
      unfold tget
      cases hf : tfind t j with
      | none => rfl
      | some y => exact absurd (hj _ (mem_of_tfind hf)) (lt_irrefl j)
    have hcons : ∀ (y : α) (u : Table α), tget d ((j, y) :: u) k = if k = j then y else tget d u k := by
      intro y u
      unfold tget
      rw [tfind]
      split_ifs <;> rfl
    rw [tmap, hcons]
    by_cases hx : f x = d
    · rw [if_pos hx, ih ht]
      split_ifs with hk
      · rw [hk, hnone, hd, hx]
      · rfl
    · rw [if_neg hx, hcons, ih ht]
      split_ifs <;> rfl

/-- The event of a reset: `u` is the part that is reset. -/
theorem resetPart_eq (b : Bool) (e : Event) : resetPart b e = {
    st := (resetState b e.st).wentOn 1
    notices := if (resetState b e.st).stepFrom 1 = 0 then (resetState b e.st).endNotices else [] } :=
  (goOnRecovering_eq (k := 1) (e := { st := resetState b e.st }) rfl rfl rfl (by omega) (by omega)).trans (by rw [List.nil_append])

/-- What an event leaves that resets the part and has nothing more to do. -/
theorem closeEvent_reset {t : State} {ns : List Notice} {sn : List Output} (ho : t.out = []) :
    closeEvent { st := t, notices := ns, sent := sn } = { State.closed { t with ctl := ns.foldl offer t.ctl } with out := sn } := by
  rw [closeEvent_quiet rfl (by rw [ho]; simp)]
  unfold Event.offered
  rw [show ({ st := t, notices := ns, sent := sn } : Event).evaluate.2.due ({ st := t, notices := ns, sent := sn } : Event).causes = ns
    from by
      change [] ++ [] ++ [] ++ [] ++ [] ++ ns = ns
      rfl]
  dsimp only
  rw [ho, List.append_nil]
  rfl

/-- The part that a reset of `s` leaves, its notices offered. -/
def State.afterReset (s : State) (b : Bool) (o : List Output) : State :=
  let r := resetState b { s with out := [] }
  { State.closed { r.wentOn 1 with
      ctl := (if r.stepFrom 1 = 0 then r.endNotices else []).foldl offer (r.wentOn 1).ctl } with out := o }

theorem exec_powerOn (s : State) : exec .powerOn s = .next (s.afterReset true []) := by
  refine congrArg Host.Outcome.next ?_
  rw [runEvent, resetPart_eq, runTodo_of_none (turn_of_idle rfl)]
  refine (closeEvent_reset (sn := []) ?_).trans rfl
  unfold State.wentOn
  split_ifs <;> rfl

theorem completed_reset {up : Bool} (h : up = true) (c : Control) (tag : Nat) :
    (completeReplies up {} c {} [{}, {}] [.control false false 6 tag .ok []]).2 = [.control (!c.notices.isEmpty) c.lost 6 tag .ok []] := by
  simp [completeReplies, completeReply, takes, Verdicts.due, h]

theorem exec_reset {s : State} (h : s.ctlServes) (tag : Nat) : exec (.reset tag) s = .next
    (s.afterReset false [.control (!s.ctl.notices.isEmpty) s.ctl.lost 6 tag .ok []]) := by
  have hreset : doReset { st := s.executes ⟨tag, .reset⟩ } =
      { resetPart false { st := { s with out := [] } } with sent := [.control (!s.ctl.notices.isEmpty) s.ctl.lost 6 tag .ok []] } := by
    rw [doReset]
    dsimp only
    rw [show (({ st := s.executes ⟨tag, .reset⟩ } : Event).st.ctl.executing) = some { number := 6, tag := tag } from rfl]
    have hup : s.frontUp = true := h.1.1
    change ({ resetPart false { st := { s.executes ⟨tag, .reset⟩ with out := [] } } with
      sent := (completeReplies s.frontUp { accts := [] } (s.executes ⟨tag, .reset⟩).ctl {} [{}, {}] [.control false false 6 tag .ok []]).2 } : Event) = _
    rw [completed_reset hup]
    rw [show resetPart false { st := { s.executes ⟨tag, .reset⟩ with out := [] } } = resetPart false { st := { s with out := [] } } from rfl]
    rfl
  have hperform : ∀ e : Event, e.st.ctl.part ≠ .recovering → perform .reset e = doReset e := fun e h => if_neg fun hr => h hr.1
  refine congrArg Host.Outcome.next ?_
  rw [runEvent, controlArrive_of_free h.1, hperform _ (executes_part_ne h _), hreset, resetPart_eq, runTodo_of_none (turn_of_idle rfl)]
  refine (closeEvent_reset ?_).trans rfl
  unfold State.wentOn
  split_ifs <;> rfl

/-! ### The work that a reset leaves to recovery -/

theorem mem_tmap {α : Type} [DecidableEq α] {d : α} {f : α → α} {t : Table α} {p : Nat × α} :
    p ∈ tmap d f t ↔ ∃ x, (p.1, x) ∈ t ∧ f x = p.2 ∧ f x ≠ d := by
  induction t with
  | nil => simp [tmap]
  | cons q t ih =>
    obtain ⟨k, x⟩ := q
    obtain ⟨j, y⟩ := p
    rw [tmap]
    split_ifs with hx
    · rw [ih]
      constructor
      · rintro ⟨z, hz, h⟩
        exact ⟨z, List.mem_cons_of_mem _ hz, h⟩
      · rintro ⟨z, hz, hfz, hne⟩
        rcases List.mem_cons.mp hz with hz | hz
        · cases hz
          exact absurd hx hne
        · exact ⟨z, hz, hfz, hne⟩
    · rw [List.mem_cons, ih]
      constructor
      · rintro (hz | ⟨z, hz, h⟩)
        · cases hz
          exact ⟨x, List.mem_cons_self, rfl, hx⟩
        · exact ⟨z, List.mem_cons_of_mem _ hz, h⟩
      · rintro ⟨z, hz, hfz, hne⟩
        rcases List.mem_cons.mp hz with hz | hz
        · cases hz
          exact .inl (Prod.ext rfl hfz.symm)
        · exact .inr ⟨z, hz, hfz, hne⟩

/-- A queue is to be rebuilt where an account other than tag 0 has an expiry (R75). -/
theorem rebuiltQueue_ne_nil {t : Table Account} (hs : Table.sorted t = true) :
    rebuiltQueue t ≠ [] ↔ ∃ p ∈ t, p.1 ≠ 0 ∧ p.2.expiry ≠ none := by
  obtain ⟨-, -, hfrom, hto⟩ := rebuiltQueue_spec hs
  constructor
  · intro h
    obtain ⟨p, hp⟩ := List.exists_mem_of_ne_nil _ h
    obtain ⟨h0, a, ha, hx⟩ := hfrom p hp
    exact ⟨(p.2, a), mem_of_tfind ha, h0, by simp [hx]⟩
  · rintro ⟨p, hp, h0, hx⟩ hnil
    obtain ⟨x, hx⟩ := Option.ne_none_iff_exists'.mp hx
    rcases hto p hp h0 x hx with h | ⟨h, -⟩
    · rw [hnil] at h
      exact List.not_mem_nil h
    · rw [hnil] at h
      exact absurd h (by simp)

theorem rebuiltQueue_reset {s : State} (h : s.wf = true) (b : Bool) :
    rebuiltQueue (resetState b s).accounts ≠ [] ↔ ∃ p ∈ s.accounts, p.1 ≠ 0 ∧ p.2.expiry ≠ none := by
  obtain ⟨-, -, ha, -⟩ := (State.wf_iff s).mp h
  have hsorted : Table.sorted (resetState b s).accounts = true :=
    ((Bool.and_eq_true _ _).mp (wf_tmap ((Bool.and_eq_true _ _).mp ha).1)).1
  rw [rebuiltQueue_ne_nil hsorted]
  constructor
  · rintro ⟨p, hp, h0, hx⟩
    obtain ⟨a, hmem, hfa, -⟩ := mem_tmap.mp hp
    refine ⟨_, hmem, h0, ?_⟩
    rw [← hfa] at hx
    exact hx
  · rintro ⟨⟨k, a⟩, hp, h0, hx⟩
    exact ⟨(k, resetAccount a), mem_tmap.mpr ⟨a, hp, rfl, fun hd => hx (congrArg Account.expiry hd)⟩, h0, hx⟩

theorem openJob_reset (b : Bool) (s : State) :
    openJob (resetState b s) ≠ none ↔ ∃ p ∈ s.jobs, p.2.state.ended = false := by
  unfold openJob
  rw [Option.ne_none_iff_isSome, List.find?_isSome]
  change (∃ x ∈ s.jobs.map _, _) ↔ _
  constructor
  · rintro ⟨x, hx, hend⟩
    obtain ⟨p, hp, rfl⟩ := List.mem_map.mp hx
    exact ⟨p, hp, (Bool.not_eq_true' _).mp hend⟩
  · rintro ⟨p, hp, hend⟩
    exact ⟨_, List.mem_map.mpr ⟨p, hp, rfl⟩, (Bool.not_eq_true' _).mpr hend⟩

open Classical in
/-- The recovery step at which the part stands behind a reset (R178). -/
theorem stepFrom_reset {s : State} (h : s.wf = true) (b : Bool) : (resetState b s).stepFrom 1 =
    if s.mirror ≠ [] then 1 else if s.returns ≠ [] ∨ ∃ p ∈ s.jobs, p.2.state.ended = false then 2
    else if s.run.state ≠ .idle then 3 else if ∃ p ∈ s.accounts, p.1 ≠ 0 ∧ p.2.expiry ≠ none then 4 else 0 := by
  unfold State.stepFrom
  simp only [rebuiltQueue_reset h b, openJob_reset b s, le_refl, true_and, Nat.one_le_ofNat]
  rfl

theorem wentOn_zero {s : State} {k : Nat} (h : s.stepFrom k = 0) :
    s.wentOn k = { s with poolLow := s.endsLow, ctl := { s.ctl with part := .standby, recStep := 0 } } := if_pos h

theorem wentOn_step {s : State} {k : Nat} (h : s.stepFrom k ≠ 0) :
    s.wentOn k = { s with ctl := { s.ctl with recStep := s.stepFrom k } } := if_neg h

theorem acct_reset {s : State} (h : s.wf = true) (b : Bool) (o : Nat) :
    (resetState b s).acct o = { s.acct o with reserved := 0, queued := false } := by
  obtain ⟨-, -, ha, -⟩ := (State.wf_iff s).mp h
  exact tget_tmap rfl ((Bool.and_eq_true _ _).mp ha).1 o

theorem vol_reset {s : State} (h : s.wf = true) (b : Bool) (v : Nat) : (resetState b s).vol v = resetVolume (s.vol v) :=
  tget_tmap rfl ((Bool.and_eq_true _ _).mp (wf_vols h)).1 v

/-- The notices at the end of recovery, in an empty queue. -/
theorem offered_endNotices {s : State} {c : Control} (hn : c.notices = []) (hl : c.lost = false) :
    s.endNotices.foldl offer c = { c with notices := s.endNotices } := by
  obtain ⟨⟩ := c
  cases hn
  cases hl
  unfold State.endNotices
  split_ifs <;> rfl

/-- `s` behind a reset, with the recovery state given. -/
def State.resetTo (s : State) (b low : Bool) (part : PartState) (step : Nat) (ns : List Notice) (o : List Output) : State :=
  { resetState b s with
    poolLow := low
    ctl := { (resetState b s).ctl with part := part, recStep := step, notices := ns }
    out := o }

theorem afterReset_over {s : State} {b : Bool} (h : (resetState b s).stepFrom 1 = 0) (o : List Output) :
    s.afterReset b o = s.resetTo b (resetState b s).endsLow .standby 0 (resetState b s).endNotices o := by
  have hr : (resetState b { s with out := [] }).stepFrom 1 = 0 := h
  unfold State.afterReset
  dsimp only
  rw [wentOn_zero hr, if_pos hr, offered_endNotices rfl rfl]
  rfl

theorem afterReset_stands {s : State} {b : Bool} (h : (resetState b s).stepFrom 1 ≠ 0) (o : List Output) :
    s.afterReset b o = s.resetTo b false .recovering ((resetState b s).stepFrom 1) [] o := by
  have hr : (resetState b { s with out := [] }).stepFrom 1 ≠ 0 := h
  unfold State.afterReset
  dsimp only
  rw [wentOn_step hr, if_neg hr]
  rfl

theorem afterReset_sched (s : State) (b : Bool) (o : List Output) : (s.afterReset b o).sched = resetSched b s.sched := by
  by_cases h : (resetState b s).stepFrom 1 = 0
  · rw [afterReset_over h]
    rfl
  · rw [afterReset_stands h]
    rfl

theorem endsLow_iff (s : State) : s.endsLow = decide (s.format.cond = .valid ∧ s.free.length < s.format.low) := by
  unfold State.endsLow State.freeCount
  rw [Bool.decide_and]
  rfl

theorem endNotices_iff (s : State) : s.endNotices =
    (if s.format.cond = .valid ∧ s.free.length < s.format.low then
      [s.notice .poolLow 0 s.free.length s.format.low] else []) ++ [s.notice .recovered 0 s.ctl.recMirror s.ctl.recJobs] := by
  unfold State.endNotices
  rw [endsLow_iff]
  simp only [decide_eq_true_eq]
  rfl

/-- Settles O59: what power-on and RESET clear and keep, and the step at which recovery then stands. -/
theorem powerOnAndResetClearTheVolatileState : Obligations.PowerOnAndResetClearTheVolatileState := by
  unfold Obligations.PowerOnAndResetClearTheVolatileState
  intro s tag hwf cleared
  have kept : ∀ b low part step ns o,
      (let t := s.resetTo b low part step ns o
      let work := if s.mirror ≠ [] then 1 else if s.returns ≠ [] ∨ ∃ p ∈ s.jobs, p.2.state.ended = false then 2
        else if s.run.state ≠ .idle then 3 else if ∃ p ∈ s.accounts, p.1 ≠ 0 ∧ p.2.expiry ≠ none then 4 else 0
      let under := t.format.cond = .valid ∧ t.free.length < t.format.low
      let time := if t.sched.clockSet then t.sched.clock else 0
      t.ctl.recStep = work ∧
      (work ≠ 0 → t.ctl.part = .recovering ∧ t.ctl.notices = [] ∧ t.poolLow = false) ∧
      (work = 0 → t.ctl.part = .standby ∧ t.poolLow = decide under ∧
        t.ctl.notices =
          (if under then
            [{ kind := .poolLow, time := time, subject := 0, d1 := t.free.length, d2 := t.format.low : Notice }]
          else []) ++ [{ kind := .recovered, time := time, subject := 0, d1 := 0, d2 := 0 }])) →
      cleared (s.resetTo b low part step ns o) := by
    intro b low part step ns o hstep
    exact ⟨rfl, rfl, rfl, rfl, rfl, rfl, rfl, rfl, rfl, rfl, rfl, rfl, rfl, vol_reset hwf b, acct_reset hwf b, rfl, rfl, rfl, rfl,
      rfl, rfl, rfl, rfl, rfl, rfl, rfl, rfl, rfl, rfl, rfl, rfl, rfl, rfl, rfl, hstep⟩
  have key : ∀ b o, cleared (s.afterReset b o) := by
    intro b o
    by_cases h : (resetState b s).stepFrom 1 = 0
    · rw [afterReset_over h]
      refine kept _ _ _ _ _ _ ?_
      have hwork := stepFrom_reset hwf b
      rw [h] at hwork
      refine ⟨hwork, fun hne => absurd hwork.symm hne, fun _ => ⟨rfl, ?_, ?_⟩⟩
      · exact endsLow_iff _
      · exact endNotices_iff _
    · rw [afterReset_stands h]
      refine kept _ _ _ _ _ _ ?_
      have hwork := stepFrom_reset hwf b
      exact ⟨hwork, fun _ => ⟨rfl, rfl, rfl⟩, fun h0 => absurd (hwork.trans h0) h⟩
  refine ⟨⟨_, exec_powerOn s, key _ _, ?_, ?_, rfl⟩, fun hs => ⟨_, exec_reset hs tag, key _ _, ?_, ?_, rfl⟩⟩
  · rw [afterReset_sched]
    exact Bool.and_false _
  · rw [afterReset_sched]
    rfl
  · rw [afterReset_sched]
    exact Bool.and_true _
  · rw [afterReset_sched]
    rfl

end Sys2Proof.Machine
end

section
/-! PROOFS. The recovery steps (O60): each takes one piece of work, and recovery goes on to the next step with work (R178). -/

namespace Sys2Proof.Machine

/-! ### The end of the run in recovery step 3 -/



/-- A run that ends in recovery step 3 completes the step (log entry 46). -/
theorem endRunNow_recovers {e : Event} (k : RunResult) (hno : ∀ v, ¬ e.st.runDrains v) (hp : e.st.ctl.part = .recovering)
    (h3 : e.st.ctl.recStep = 3) (ht : e.todo = {}) (hon : e.overflowNotices = []) (ha : e.accts = []) (hr : e.reports = []) :
    ∃ vs es n b en ns on pl part step,
      endRunNow k e = { e with
        st := { e.st with
          vols := vs, inflight := es, nextArrival := n, busy := b, run := e.st.run.endsAs k, port := e.st.port.emptied,
          shelf := e.st.shelf.sendDropped, poolLow := pl, ctl := { e.st.ctl with part := part, recStep := step } }
        todo := { engine := en }
        notices := e.notices ++ ns
        overflowNotices := on } ∧
      e.st.ShowsGivenUp { e.st with vols := vs, inflight := es, nextArrival := n, busy := b } on ∧
      e.st.runEndedNotice k ∈ ns ∧ (step = 4 ∨ part = .standby) ∧ part ≠ .running := by
  obtain ⟨vs, es, n, b, td, ns, on, hg, hafter⟩ := giveUp_eq (fun v hv => absurd hv (hno v)) ht hon
  obtain ⟨⟨en, rfl⟩, hshow⟩ := hafter.resolve_right fun ⟨v, hv, _⟩ => hno v hv
  have hend := endRun_eq hg k
  have hstep : inStep 3 (endRun k e).st = true := by
    rw [hend]
    unfold inStep
    rw [hp, h3]
    rfl
  obtain ⟨u, hu⟩ : ∃ u, (endRun k e).st = u := ⟨_, rfl⟩
  have hgo := goOnRecovering_eq (k := 3) (e := endRun k e) (by rw [hend]; exact ha) (by rw [hend]; exact hr)
    (by rw [hend]; exact h3) (by omega) (by omega)
  have hfrom : (endRun k e).st.stepFrom 3 = 4 ∨ (endRun k e).st.stepFrom 3 = 0 := by
    have hidle : (endRun k e).st.run.state = .idle := by rw [hend]; rfl
    unfold State.stepFrom
    rw [if_neg (by omega), if_neg (by omega), if_neg (fun h => h.2 hidle)]
    split_ifs
    · exact .inl rfl
    · exact .inr rfl
  have hnow : endRunNow k e = goOnRecovering (endRun k e) := if_pos hstep
  rcases hfrom with hfrom | hfrom
  · refine ⟨vs, es, n, b, en, ns ++ [e.st.runEndedNotice k], on, e.st.poolLow, e.st.ctl.part, 4, ?_, hshow,
      List.mem_append_right _ (List.mem_singleton_self _), .inl rfl, by rw [hp]; exact nofun⟩
    rw [hnow, hgo, wentOn_step (by rw [hfrom]; decide), if_neg (by rw [hfrom]; decide), hfrom, hend, List.append_nil, List.append_assoc]
  · refine ⟨vs, es, n, b, en, ns ++ [e.st.runEndedNotice k] ++ (endRun k e).st.endNotices, on, (endRun k e).st.endsLow, .standby, 0, ?_,
      hshow, List.mem_append_left _ (List.mem_append_right _ (List.mem_singleton_self _)), .inr rfl, nofun⟩
    rw [hnow, hgo, wentOn_zero hfrom, if_pos hfrom, hend, ← List.append_assoc, ← List.append_assoc]

/-- What an event leaves in which the run ends in recovery step 3. -/
structure RecoveredRun (s t : State) (k : RunResult) (sc : Schedule) (p : Port) : Prop where
  run : t.run = s.run.endsAs k
  port : t.port = p.emptied
  given : RunGivenUp s t
  noted : t.ctl.lost = false → State.runEndedNotice { s with sched := sc } k ∈ t.ctl.notices
  rest : t.free = s.free ∧ t.accounts = s.accounts ∧ t.claims = s.claims ∧ t.jobs = s.jobs
  goesOn : t.ctl.recStep = 4 ∨ t.ctl.part = .standby

theorem runEvent_runRecovers {s : State} {f : Event → Event} {sc : Schedule} {p : Port} {l l' : List Notice} {k : RunResult}
    {fi a w : Bool} {g : Event}
    (hg : g = endRunNow k { st := { s with sched := sc, port := p, out := [] }, notices := l })
    (hf : f (openEvent s) = { g with
      st := { g.st with sched := { sc with activeB := a, swap := w }, firing := fi }, notices := g.notices ++ l' })
    (hno : ∀ v, ¬ s.runDrains v) (hp : s.ctl.part = .recovering) (h3 : s.ctl.recStep = 3) :
    ∃ t, runEvent s f = t ∧ RecoveredRun s t k sc p ∧ t.sched = { sc with activeB := a, swap := w } := by
  obtain ⟨vs, es, n, b, en, ns, on, pl, part, step, he, hshow, hnote, hstep, -⟩ :=
    endRunNow_recovers (e := { st := { s with sched := sc, port := p, out := [] }, notices := l }) k (by exact hno) hp h3 rfl rfl rfl rfl
  rw [hg, he] at hf
  let sc' : Schedule := { sc with activeB := a, swap := w }
  let u : State := { s with sched := sc, port := p, out := [] }
  obtain ⟨vs', hends, hshow'⟩ := ends_afterGiveUp (s := u) (u := { u with vols := vs, inflight := es, nextArrival := n, busy := b })
    (td := { engine := en }) (on := on) (.inl ⟨⟨en, rfl⟩, hshow⟩) (fun v hv => absurd hv (hno v)) (g := f (openEvent s))
    (by
      rw [hf]
      exact ⟨rfl, rfl, rfl, fun h => h.elim nofun (fun h => absurd rfl h), nofun⟩)
    (by rw [hf]) (by rw [hf]) (by rw [hf]) (by rw [hf]) (by rw [hf]) (by rw [hf]) (by rw [hf])
  rw [hf] at hends hshow'
  let t : State := { s with
    sched := sc', firing := fi, vols := vs', inflight := es, nextArrival := n, busy := b, run := s.run.endsAs k,
    port := p.emptied, shelf := s.shelf.sendDropped, poolLow := pl, ctl := { s.ctl with part := part, recStep := step } }
  have hev := runEvent_endsNoted (s := s) (t := t) (f := f) (on := on) (ns := l ++ ns ++ l') (by
    rw [hf]
    exact hends) (by omega)
  refine ⟨_, hev, ⟨rfl, rfl, ?_, fun hl => ?_, ⟨rfl, rfl, rfl, rfl⟩, ?_⟩, rfl⟩
  · have hgiven := hshow' { (State.closed { t with ctl := (on ++ (l ++ ns ++ l')).foldl offer t.ctl }) with sched := sc }
      rfl rfl rfl rfl rfl fun hl m hm => mem_foldl_offer hl m (.inl (List.mem_append_left _ hm))
    exact RunGivenUp.of_frame hgiven rfl rfl
  · exact mem_foldl_offer hl _ (.inl (List.mem_append_right _ (List.mem_append_left _ (List.mem_append_right _ hnote))))
  · obtain ⟨h1, h2⟩ : ((on ++ (l ++ ns ++ l')).foldl offer t.ctl).recStep = step ∧
        ((on ++ (l ++ ns ++ l')).foldl offer t.ctl).part = part := by
      constructor <;> rw [foldl_offer]
    exact hstep.imp h1.trans h2.trans

/-! ### What a piece of recovery work leaves -/

/-- The accounts touched by a piece of work are evaluated, and nothing else changes. -/
theorem settleAccounts_frame (e : Event) (hr : e.reports = []) : ∃ as q an,
    e.settleAccounts = { e with st := { e.st with accounts := as, expiryQueue := q }, accts := [], acctNotices := an } ∧
    (∀ o, (State.acct { e.st with accounts := as } o).sameMoney (e.st.acct o)) ∧
    (∀ o, o ∉ e.accts → State.acct { e.st with accounts := as } o = e.st.acct o) ∧ (e.accts = [] → as = e.st.accounts) := by
  have hkeep : ∀ {R : State → State → Prop}, (∀ s, R s s) → (∀ {a b c}, R a b → R b c → R a c) →
      (∀ o ∈ e.accts, ∀ s, R s (evaluateAccount s o).1) → R e.st (e.causes.evalAccounts e.st).1 := by
    intro R hrefl htrans hf
    refine evalEach_relates hrefl htrans (fun k hk s => ?_) _
    have hmem : k ∈ e.accts := by
      exact ((mem_unionAsc ..).mp hk).resolve_right (by
        change k ∉ e.reports
        rw [hr]
        exact List.not_mem_nil)
    rw [if_pos (by exact hmem)]
    exact hf k hmem s
  obtain ⟨as, q, hst⟩ : ∃ as q, (e.causes.evalAccounts e.st).1 = { e.st with accounts := as, expiryQueue := q } :=
    hkeep (R := fun s t => ∃ as q, t = { s with accounts := as, expiryQueue := q }) (fun _ => ⟨_, _, rfl⟩)
      (fun ⟨_, _, h⟩ ⟨as, q, h'⟩ => ⟨as, q, by rw [h', h]⟩) fun o _ s => evaluateAccount_frame s o
  refine ⟨as, q, e.acctNotices ++ (e.causes.evalAccounts e.st).2, ?_, fun o => ?_, fun o ho => ?_, fun hn => ?_⟩
  · unfold Event.settleAccounts
    dsimp only
    rw [hst, hr]
  · have h := hkeep (R := fun s t => (t.acct o).sameMoney (s.acct o)) (fun _ => .refl _) (fun h h' => h'.trans h)
      fun k _ s => (evaluateAccount_acct s k o).1
    rw [hst] at h
    exact h
  · have h := hkeep (R := fun s t => t.acct o = s.acct o) (fun _ => rfl) (fun h h' => h'.trans h)
      fun k hk s => (evaluateAccount_acct s k o).2 fun hok => ho (hok ▸ hk)
    rw [hst] at h
    exact h
  · have h := hkeep (R := fun s t => t.accounts = s.accounts) (fun _ => rfl) (fun h h' => h'.trans h)
      fun k hk => absurd hk (by rw [hn]; exact List.not_mem_nil)
    rw [hst] at h
    exact h

theorem goOnRecovering_settles (e : Event) (hr : e.settleAccounts.reports = []) (ha : e.settleAccounts.accts = []) :
    goOnRecovering e = goOnRecovering e.settleAccounts := by
  have hone : ∀ e' : Event, goOnRecovering e' = (let e := e'.settleAccounts
      if ¬ stepDone e.st then e
      else if 4 ≤ e.st.ctl.recStep then endRecovery e
      else advanceRecovery 3 (e.updCtl fun c => { c with recStep := c.recStep + 1 })) := fun _ => rfl
  rw [hone, hone e.settleAccounts, settleAccounts_none ha hr]

/-- What an event leaves that does one piece of recovery work. -/
structure PieceDone (e : Event) (t : State) : Prop where
  frame : ∃ pl as q c fi, t = { e.st with poolLow := pl, accounts := as, expiryQueue := q, ctl := c, firing := fi, out := [] }
  money : ∀ o, (t.acct o).sameMoney (e.st.acct o)
  others : ∀ o, o ∉ e.accts → t.acct o = e.st.acct o
  accounts : e.accts = [] → t.accounts = e.st.accounts
  noted : t.ctl.lost = false → ∀ m ∈ e.overflowNotices, m ∈ t.ctl.notices

theorem wentOn_frame (s : State) (k : Nat) : ∃ pl part step,
    s.wentOn k = { s with poolLow := pl, ctl := { s.ctl with part := part, recStep := step } } ∧
    (s.ctl.part ≠ .running → part ≠ .running) := by
  unfold State.wentOn
  split_ifs
  · exact ⟨_, _, _, rfl, fun _ => nofun⟩
  · exact ⟨_, _, _, rfl, id⟩

theorem evaluated_poolOnly {f : Event} (ha : f.all.accts = []) (hr : f.all.reports = []) (hv : f.all.reserves = []) :
    ∃ b, f.evaluated = { f.st with poolLow := b } :=
  evaluated_keeps (R := fun s t => ∃ b, t = { s with poolLow := b }) (fun _ => ⟨_, rfl⟩)
    (fun ⟨_, h⟩ ⟨b, h'⟩ => ⟨b, by rw [h', h]⟩) f
    (fun _ s => by unfold evalPool; split_ifs <;> exact ⟨_, rfl⟩)
    (fun k hk => by simp [ha, hr] at hk)
    fun v hk => by simp [hv] at hk

theorem runEvent_recovers {s : State} {f : Event → Event} {e : Event} {k : Nat} {b : Bool} (hf : f (openEvent s) = goOnRecovering e)
    (hp : e.st.ctl.part = .recovering) (hk : e.st.ctl.recStep = k) (h1 : 1 ≤ k) (h4 : k ≤ 4) (ht : e.todo = { pool := b })
    (hd : e.done = []) (hrs : e.reserves = []) (hr : e.reports = []) (hl : e.late = []) (hs : e.sent = []) (ho : e.st.out = [])
    (hj : ∀ p ∈ e.st.jobs, p.2.state ≠ .pausedPool) : PieceDone e (runEvent s f) := by
  obtain ⟨as, q, an, hset, hmoney, hothers, hnone⟩ := settleAccounts_frame e hr
  have hgo := goOnRecovering_settles e (by rw [hset]; exact hr) (by rw [hset])
  rw [goOnRecovering_eq (e := e.settleAccounts) (k := k) (by rw [hset]) (by rw [hset]; exact hr) (by rw [hset]; exact hk) h1 h4] at hgo
  obtain ⟨pl, part, step, hwent, hpart⟩ := wentOn_frame e.settleAccounts.st k
  have hrun : part ≠ .running := hpart (by rw [hset]; exact fun h => nomatch hp.symm.trans h)
  rw [hwent, hset] at hgo
  obtain ⟨ns, hns⟩ : ∃ ns, (if e.settleAccounts.st.stepFrom k = 0 then e.settleAccounts.st.endNotices else []) = ns := ⟨_, rfl⟩
  obtain ⟨g, hg⟩ : ∃ g : Event, goOnRecovering e = g := ⟨_, rfl⟩
  have hgst : g.st = { e.st with
      accounts := as, expiryQueue := q, poolLow := pl, ctl := { e.st.ctl with part := part, recStep := step } } := by
    rw [← hg, hgo]
  have hgtodo : g.todo = { pool := b } := by rw [← hg, hgo]; exact ht
  have hsettled : g.Settled := by
    refine ⟨?_, ?_, ?_, fun _ _ => ?_, fun _ p _ => ?_, ?_, ?_, ?_, ?_, ?_⟩
    case refine_4 =>
      rw [hgst]
      exact hj
    case refine_5 =>
      rw [hgst]
      simp [canVisit, hrun]
    all_goals rw [hgtodo]; simp
  have hgd : g.done = [] := by rw [← hg, hgo]; exact hd
  have hparts : g.all.accts = [] ∧ g.all.reports = [] ∧ g.all.reserves = [] := by
    unfold Event.all
    rw [hgd]
    refine ⟨?_, ?_, ?_⟩
    · change g.accts = []
      rw [← hg, hgo]
    · change g.reports = []
      rw [← hg, hgo]
      exact hr
    · change g.reserves = []
      rw [← hg, hgo]
      exact hrs
  obtain ⟨b', hev⟩ := evaluated_poolOnly hparts.1 hparts.2.1 hparts.2.2
  have hclose : runEvent s f = { g.evaluated with ctl := g.offered, out := [], firing := g.evaluated.firing && g.evaluated.headDue } := by
    have hout : g.st.out = [] := by rw [hgst]; exact ho
    have hlate : g.late = [] := by rw [← hg, hgo]; exact hl
    have hsent : g.sent = [] := by rw [← hg, hgo]; exact hs
    rw [runEvent, hf, hg, runTodo_settled hsettled (by rw [hgtodo]; simp), closeEvent_noAnswer (by rw [hgtodo]),
      closeEvent_quiet hgd (by rw [hout]; simp), hlate, hsent, hout]
    rfl
  rw [hclose]
  generalize (g.evaluated.firing && g.evaluated.headDue) = fi
  have hframe : { g.evaluated with ctl := g.offered, out := [], firing := fi } = { e.st with
      poolLow := b', accounts := as, expiryQueue := q, ctl := g.offered, firing := fi, out := [] } := by
    rw [hev, hgst]
  rw [hframe]
  refine ⟨⟨_, _, _, _, _, rfl⟩, hmoney, hothers, hnone, fun hl m hm => ?_⟩
  refine mem_foldl_offer hl m (.inl ?_)
  have hon : m ∈ g.causes.overflowNotices := by
    change m ∈ g.overflowNotices
    rw [← hg, hgo]
    exact hm
  unfold Verdicts.due
  exact List.mem_append_left _ (List.mem_append_right _ hon)

/-! ### The pieces of work -/

theorem returnClaims_frame (ps : List Nat) (e : Event) : ∃ b b',
    returnClaims ps e = { e with
      st := { e.st with free := e.st.free ++ ps, claims := e.st.claims - ps.length }
      poolTouched := b
      todo := { e.todo with pool := b' } } := by
  unfold returnClaims freePcns
  by_cases h : ps = []
  · rw [if_pos h, h]
    exact ⟨e.poolTouched, e.todo.pool, by rw [List.append_nil]; rfl⟩
  · rw [if_neg h]
    exact ⟨true, true, rfl⟩

/-- The net charge changes of a record that names each account once. -/
theorem applyCharges_once (sign : Int) (cs : List (Nat × Int)) (hnd : (cs.map Prod.fst).Nodup) (e : Event) : ∃ as ac,
    applyCharges sign cs e = { e with st := { e.st with accounts := as }, accts := ac } ∧
    (∀ p ∈ cs, (State.acct { e.st with accounts := as } p.1).charge = ((e.st.acct p.1).addCharge (sign * p.2)).charge) ∧
    (∀ o, o ∉ cs.map Prod.fst → State.acct { e.st with accounts := as } o = e.st.acct o) ∧
    ∀ o ∈ ac, o ∈ e.accts ∨ o ∈ cs.map Prod.fst := by
  induction cs generalizing e with
  | nil => exact ⟨e.st.accounts, e.accts, rfl, nofun, fun _ _ => rfl, fun _ h => .inl h⟩
  | cons c cs ih =>
    obtain ⟨x, d⟩ := c
    obtain ⟨hx, hnd⟩ := List.nodup_cons.mp hnd
    obtain ⟨as₁, ac₁, he₁, hch₁, hoth₁, hac₁⟩ : ∃ as ac,
        (if d = 0 then e else (e.updAcct x fun a => a.addCharge (sign * d)).touchAcct x) =
          { e with st := { e.st with accounts := as }, accts := ac } ∧
        (State.acct { e.st with accounts := as } x).charge = ((e.st.acct x).addCharge (sign * d)).charge ∧
        (∀ o, o ≠ x → State.acct { e.st with accounts := as } o = e.st.acct o) ∧ ∀ o ∈ ac, o ∈ e.accts ∨ o = x := by
      split_ifs with h
      · refine ⟨e.st.accounts, e.accts, rfl, ?_, fun _ _ => rfl, fun _ h => .inl h⟩
        rw [h]
        unfold Account.addCharge
        simp [State.acct]
      · rw [touchAcct_eq]
        refine ⟨_, _, rfl, ?_, fun o ho => ?_, fun o ho => (mem_touching ho).symm⟩
        · exact congrArg Account.charge (State.acct_setAcct e.st x _)
        · exact State.acct_setAcct_ne e.st x o _ ho
    have hcons : applyCharges sign ((x, d) :: cs) e =
        applyCharges sign cs (if d = 0 then e else (e.updAcct x fun a => a.addCharge (sign * d)).touchAcct x) := rfl
    obtain ⟨as, ac, he, hch, hoth, hac⟩ := ih hnd { e with st := { e.st with accounts := as₁ }, accts := ac₁ }
    rw [hcons, he₁, he]
    refine ⟨as, ac, rfl, fun p hp => ?_, fun o ho => ?_, fun o ho => ?_⟩
    · rcases List.mem_cons.mp hp with rfl | hp
      · exact (congrArg Account.charge (hoth x hx)).trans hch₁
      · refine (hch p hp).trans ?_
        have hne : p.1 ≠ x := fun h => hx (by
          rw [← h]
          exact List.mem_map.mpr ⟨p, hp, rfl⟩)
        exact congrArg (fun a : Account => (a.addCharge (sign * p.2)).charge) (hoth₁ p.1 hne)
    · rw [List.map_cons, List.mem_cons] at ho
      exact (hoth o fun h => ho (.inr h)).trans (hoth₁ o fun h => ho (.inl h))
    · rw [List.map_cons, List.mem_cons]
      rcases hac o ho with h | h
      · exact (hac₁ o h).imp_right .inl
      · exact .inr (.inr h)

section
variable {s : State}

theorem inStep_eq {k : Nat} (hp : s.ctl.part = .recovering) (hk : s.ctl.recStep = k) : inStep k s = true := by
  unfold inStep
  rw [hp, hk]
  exact beq_self_eq_true k

/-- Step 1 takes a mirror record (R40). -/
theorem runEvent_mirror (hp : s.ctl.part = .recovering) (hk : s.ctl.recStep = 1) (hj : ∀ p ∈ s.jobs, p.2.state ≠ .pausedPool)
    {r : MirrorRec} {rest : List MirrorRec} (hm : s.mirror = r :: rest) (hnd : (r.charges.map Prod.fst).Nodup) :
    ∃ e : Event, PieceDone e (runEvent s recoverMirror) ∧
      (∃ vs as c, e.st = { s with
        free := s.free ++ r.claims, claims := s.claims - r.claims.length, vols := vs, accounts := as, mirror := rest, ctl := c
        out := [] }) ∧
      (∀ p ∈ r.charges, (e.st.acct p.1).charge = (((s.acct p.1).charge : Int) - p.2).toNat) ∧
      (∀ o, o ∉ r.charges.map Prod.fst → o ∉ e.accts ∧ e.st.acct o = s.acct o) ∧
      LogsTo s e r.vol r.inPlace.eraseDups ∧ (r.inPlace = [] → e.st.vols = s.vols) ∧ (∀ v, v ≠ r.vol → e.st.vol v = s.vol v) ∧
      ∃ m al ai ov, e.st.vol r.vol = { s.vol r.vol with map := m, activeList := al, activeIncomplete := ai, overflow := ov } ∧
        ∀ l, ((e.st.vol r.vol).entry l).form = ((s.vol r.vol).entry l).form := by
  obtain ⟨b, b', hret⟩ := returnClaims_frame r.claims (openEvent s)
  obtain ⟨as, ac, happ, hch, hoth, hac⟩ := applyCharges_once (-1) r.charges hnd (returnClaims r.claims (openEvent s))
  rw [hret] at hch hoth hac happ
  let e₁ : Event := { openEvent s with
    st := { (openEvent s).st with free := s.free ++ r.claims, claims := s.claims - r.claims.length, accounts := as }
    poolTouched := b
    todo := { (openEvent s).todo with pool := b' }
    accts := ac }
  obtain ⟨vs, on, hlog, hvols, m, al, ai, ov, hvol, hform⟩ := logLcns_frame r.vol r.inPlace e₁
  have hlogs := logsTo_logLcns (s := s) (e := e₁) (v := r.vol) rfl rfl r.inPlace
  rw [hlog] at hlogs
  let e₂ : Event := { e₁ with
    st := { e₁.st with vols := vs, mirror := rest, ctl := { s.ctl with recMirror := s.ctl.recMirror + 1 } }
    overflowNotices := on }
  have hev : recoverMirror (openEvent s) = goOnRecovering e₂ := by
    have hmir : (openEvent s).st.mirror = r :: rest := hm
    unfold recoverMirror
    rw [hmir]
    dsimp only
    rw [if_neg (by rw [inStep_eq (s := (openEvent s).st) hp hk]; simp), hret, happ]
    exact congrArg (fun e : Event => goOnRecovering (e.upd fun s =>
      { s with mirror := rest, ctl := { s.ctl with recMirror := s.ctl.recMirror + 1 } })) hlog
  refine ⟨e₂, runEvent_recovers hev (k := 1) (b := b') hp hk (by omega) (by omega) rfl rfl rfl rfl rfl rfl rfl hj,
    ⟨vs, as, _, rfl⟩, fun p hp => ?_, fun o ho => ⟨fun hin => (hac o hin).elim List.not_mem_nil ho, hoth o ho⟩,
    hlogs.of_lists rfl rfl (fun _ => rfl) ⟨rfl, rfl, rfl, rfl, rfl, rfl⟩, fun hnil => ?_, hvols, m, al, ai, ov, hvol, hform⟩
  · refine (hch p hp).trans ?_
    change (((s.acct p.1).charge : Int) + -1 * p.2).toNat = _
    congr 1
    omega
  · rw [hnil] at hlog
    exact (congrArg (fun e : Event => e.st.vols) hlog).symm

/-- Step 2 takes a pending return (R118). -/
theorem runEvent_return (hp : s.ctl.part = .recovering) (hk : s.ctl.recStep = 2) (hj : ∀ p ∈ s.jobs, p.2.state ≠ .pausedPool)
    {p : Nat} {rest : List Nat} (hr : s.returns = p :: rest) :
    PieceDone { openEvent s with st := { (openEvent s).st with free := s.free ++ [p], claims := s.claims - 1, returns := rest } }
      (runEvent s recoverReturn) := by
  obtain ⟨b, b', hret⟩ := returnClaims_frame [p] ((openEvent s).upd fun s => { s with returns := rest })
  have hev : recoverReturn (openEvent s) = goOnRecovering (returnClaims [p] ((openEvent s).upd fun s => { s with returns := rest })) := by
    have hlist : (openEvent s).st.returns = p :: rest := hr
    unfold recoverReturn
    rw [hlist]
    dsimp only
    rw [if_neg (by rw [inStep_eq (s := (openEvent s).st) hp hk]; simp)]
  rw [hret] at hev
  obtain ⟨h1, h2, h3, h4, h5⟩ := runEvent_recovers hev (k := 2) (b := b') hp hk (by omega) (by omega) rfl rfl rfl rfl rfl rfl rfl hj
  exact ⟨h1, h2, h3, h4, h5⟩

/-- The copy of a job that recovery ends gives its PCN and its charge back. -/
def State.copyReturned (s : State) (x : Job) : State :=
  match x.copy with
  | none => s
  | some c => { s with free := s.free ++ [c.pcn], claims := s.claims - 1 }.uncharged x.owner

/-- A job that recovery ends. -/
def Job.interrupted (x : Job) : Job := { x with state := .failedInterrupted, remaining := 0, copy := none }

/-- The copy of a job that recovery ends goes back. -/
def copyBack (x : Job) (e : Event) : Event :=
  match x.copy with
  | some c => uncharge x.owner (returnClaims [c.pcn] e)
  | none => e



theorem copyBack_frame (s : State) (x : Job) : ∃ ac b b',
    copyBack x (openEvent s) = { openEvent s with
      st := { s.copyReturned x with out := [] }, accts := ac, poolTouched := b, todo := { pool := b' } } ∧
    (x.copy = none → ac = []) := by
  unfold copyBack State.copyReturned
  cases x.copy with
  | none => exact ⟨[], false, false, rfl, fun _ => rfl⟩
  | some c =>
    obtain ⟨b, b', hret⟩ := returnClaims_frame [c.pcn] (openEvent s)
    refine ⟨touching x.owner [], b, b', ?_, nofun⟩
    dsimp only
    rw [hret, uncharge_eq]
    rfl

/-- Step 2 ends an open job (R118). -/
theorem runEvent_openJob (hp : s.ctl.part = .recovering) (hk : s.ctl.recStep = 2) (hj : ∀ p ∈ s.jobs, p.2.state ≠ .pausedPool)
    (hr : s.returns = []) {j : Nat} {x : Job} (ho : openJob s = some (j, x)) (hx : tfind s.jobs j = some x) : ∃ e : Event,
    PieceDone e (runEvent s recoverJob) ∧ (∃ c, e.st = { s.copyReturned x with
      jobs := tput j { x with state := .failedInterrupted, remaining := 0, copy := none } s.jobs, ctl := c, out := [] }) ∧
    (x.copy = none → e.accts = []) := by
  obtain ⟨ac, b, b', hback, hac⟩ := copyBack_frame s x
  let e : Event := { openEvent s with
    st := { s.copyReturned x with
      jobs := tput j x.interrupted s.jobs
      ctl := { s.ctl with recJobs := s.ctl.recJobs + 1 }
      out := [] }
    accts := ac
    poolTouched := b
    todo := { pool := b' }
    notices := [(s.copyReturned x).notice .restoreEnded j x.interrupted.stateValue x.interrupted.visits] }
  have hjobs : (s.copyReturned x).jobs = s.jobs := by
    unfold State.copyReturned
    cases x.copy <;> rfl
  have hctl : (s.copyReturned x).ctl = s.ctl := by
    unfold State.copyReturned
    cases x.copy <;> rfl
  have hev : recoverJob (openEvent s) = goOnRecovering e := by
    have hopen : openJob (openEvent s).st = some (j, x) := ho
    unfold recoverJob
    rw [hopen, if_neg (by
      rintro (h | h)
      · exact h (inStep_eq (s := (openEvent s).st) hp hk)
      · exact h hr)]
    refine (congrArg (fun e : Event => goOnRecovering (((e.updJob j fun _ => x.interrupted).note .restoreEnded j
      x.interrupted.stateValue x.interrupted.visits).updCtl fun c => { c with recJobs := c.recJobs + 1 })) hback).trans ?_
    have hfind : tfind (s.copyReturned x).jobs j = some x := by rw [hjobs]; exact hx
    unfold Event.updJob
    dsimp only
    rw [hfind, hjobs]
    unfold Event.note Event.updCtl Event.upd
    dsimp only
    rw [hctl]
    rfl
  refine ⟨e, runEvent_recovers hev (k := 2) (b := b') hp hk (by omega) (by omega) rfl rfl rfl rfl rfl rfl rfl ?_, ⟨_, rfl⟩, hac⟩
  intro q hq
  rcases mem_tput hq with rfl | hq
  · exact nofun
  · exact hj q hq

theorem queueAll_frame (q : List (Nat × Nat)) (e : Event) : ∃ as,
    q.foldl (fun e p => e.updAcct p.2 fun a => { a with queued := true }) e = { e with st := { e.st with accounts := as } } ∧
    ∀ o, ((∃ p ∈ q, p.2 = o) ∨ (e.st.acct o).queued = true) → (State.acct { e.st with accounts := as } o).queued = true := by
  induction q generalizing e with
  | nil => exact ⟨e.st.accounts, rfl, fun o h => h.resolve_left fun ⟨_, hp, _⟩ => List.not_mem_nil hp⟩
  | cons p q ih =>
    obtain ⟨as, h, hq⟩ := ih (e.updAcct p.2 fun a => { a with queued := true })
    refine ⟨as, h, fun o ho => hq o ?_⟩
    by_cases hop : o = p.2
    · right
      rw [hop]
      exact congrArg Account.queued (State.acct_setAcct e.st p.2 _)
    · rcases ho with ⟨r, hr, hro⟩ | hqueued
      · rcases List.mem_cons.mp hr with rfl | hr
        · exact absurd hro.symm hop
        · exact .inl ⟨r, hr, hro⟩
      · right
        rw [← hqueued]
        exact congrArg Account.queued (State.acct_setAcct_ne e.st p.2 o _ hop)

/-- Step 4 rebuilds the grace expiry queue, and recovery ends (R75, R178). -/
theorem runEvent_rebuild (hp : s.ctl.part = .recovering) (hk : s.ctl.recStep = 4) : ∃ as, ∃ ns : List Notice,
    runEvent s rebuildExpiry = State.closed { s with
      accounts := as
      expiryQueue := rebuiltQueue s.accounts
      poolLow := s.endsLow
      ctl := ns.foldl offer { s.ctl with part := .standby, recStep := 0 } } ∧
    ∀ p ∈ rebuiltQueue s.accounts, (State.acct { s with accounts := as } p.2).queued = true := by
  obtain ⟨as, hfold, hq⟩ := queueAll_frame (rebuiltQueue s.accounts) ((openEvent s).upd fun u =>
    { u with expiryQueue := rebuiltQueue s.accounts })
  refine ⟨as, s.endNotices, runEvent_noted (t := { s with
      accounts := as
      expiryQueue := rebuiltQueue s.accounts
      poolLow := s.endsLow
      ctl := { s.ctl with part := .standby, recStep := 0 } }) (todo := {}) (ns := s.endNotices) ?_ ?_ rfl (by simp),
    fun p hp => hq p.2 (.inl ⟨p, hp, rfl⟩)⟩
  · unfold rebuildExpiry
    rw [if_neg (by rw [inStep_eq (s := (openEvent s).st) hp hk]; simp)]
    refine (congrArg endRecovery hfold).trans ?_
    rw [endRecovery_eq]
    rfl
  · exact ⟨nofun, nofun, nofun, nofun, fun h => h.elim nofun nofun, nofun, nofun, nofun,
      fun h => h.elim nofun fun h => absurd rfl h, nofun⟩

end

/-! ### The steps, in the words of the statement -/

theorem not_inStep {s : State} (h : s.ctl.part ≠ .recovering) (k : Nat) : inStep k s = false := by
  unfold inStep
  rw [beq_eq_false_iff_ne.mpr h]
  rfl

/-- Outside RECOVERING no recovery step does anything. -/
theorem recovery_stands {s : State} (h : s.ctl.part ≠ .recovering) :
    recoverMirror (openEvent s) = openEvent s ∧ recoverReturn (openEvent s) = openEvent s ∧
      recoverJob (openEvent s) = openEvent s ∧ recoverRun (openEvent s) = openEvent s ∧
      rebuildExpiry (openEvent s) = openEvent s := by
  have hno : ∀ k, inStep k (openEvent s).st = false := not_inStep h
  refine ⟨?_, ?_, ?_, ?_, ?_⟩
  · unfold recoverMirror
    split
    · rfl
    · exact if_pos (by rw [hno]; exact nofun)
  · unfold recoverReturn
    split
    · rfl
    · exact if_pos (by rw [hno]; exact nofun)
  · exact if_pos (.inl (by rw [hno]; exact nofun))
  · exact if_neg (by rw [hno]; exact fun h => nomatch h.1)
  · exact if_pos (by rw [hno]; exact nofun)

theorem not_runDrains {s : State} (h : ∀ p ∈ s.vols, p.2.drain = none) (v : Nat) : ¬ s.runDrains v := by
  rintro ⟨-, -, hd⟩
  have hnone : (s.vol v).drain = none := by
    unfold State.vol tget
    cases hf : tfind s.vols v with
    | none => rfl
    | some x => exact h _ (mem_of_tfind hf)
  rw [hnone] at hd
  exact nomatch hd

/-- A minute boundary outside RUNNING applies a pending swap, or does nothing. -/
theorem minuteBoundary_stands {e : Event} (h : e.st.ctl.part ≠ .running) : ∃ a w l,
    minuteBoundary e = { e with
      st := { e.st with sched := { e.st.sched with activeB := a, swap := w } }, notices := e.notices ++ l } := by
  have hswap : ∃ a w l, (if e.st.sched.clock % Config.daySeconds = 0 ∧ e.st.ctl.part ≠ .recovering then midnightSwap e else e) =
      { e with st := { e.st with sched := { e.st.sched with activeB := a, swap := w } }, notices := e.notices ++ l } := by
    have hsame : ∃ a w l, e = { e with
        st := { e.st with sched := { e.st.sched with activeB := a, swap := w } }, notices := e.notices ++ l } :=
      ⟨e.st.sched.activeB, e.st.sched.swap, [], by rw [List.append_nil]⟩
    split_ifs
    · unfold midnightSwap
      split_ifs
      · exact ⟨_, _, _, rfl⟩
      · exact hsame
    · exact hsame
  obtain ⟨a, w, l, hs⟩ := hswap
  refine ⟨a, w, l, ?_⟩
  unfold minuteBoundary
  dsimp only
  rw [hs]
  exact if_neg h

/-- The advance of the clock to a deadline, in recovery step 3. -/
theorem advanceClock_recovers {s : State} (hset : s.sched.clockSet = true) (hc : s.sched.clock < 4294967295)
    (hi : s.run.state ≠ .idle) (hd : s.run.deadline ≤ s.sched.clock + 1) (hno : ∀ v, ¬ s.runDrains v)
    (hp : s.ctl.part = .recovering) (h3 : s.ctl.recStep = 3) : ∃ a w fi l,
    let sc : Schedule := { s.sched with clock := s.sched.clock + 1 }
    let g := endRunNow .deadline { st := { s with sched := sc, out := [] } }
    advanceClock (openEvent s) = { g with
      st := { g.st with sched := { sc with activeB := a, swap := w }, firing := fi }, notices := g.notices ++ l } := by
  obtain ⟨vs, es, n, b, en, ns, on, pl, part, step, he, -, -, -, hpart⟩ := endRunNow_recovers (e := {
    st := { s with sched := { s.sched with clock := s.sched.clock + 1 }, out := [] } }) .deadline (by exact hno) hp h3 rfl rfl rfl rfl
  obtain ⟨g, hg⟩ : ∃ g, endRunNow .deadline { st := { s with sched := { s.sched with clock := s.sched.clock + 1 }, out := [] } } = g :=
    ⟨_, rfl⟩
  have htest : testDeadline ((openEvent s).updSched fun d => { d with clock := d.clock + 1 }) = g := by
    rw [← hg]
    exact if_pos ⟨hi, hd⟩
  have hsched : g.st.sched = { s.sched with clock := s.sched.clock + 1 } := by rw [← hg, he]
  have hrun : g.st.ctl.part ≠ .running := by
    rw [← hg, he]
    exact hpart
  obtain ⟨fi, hpass⟩ : ∃ fi, beginPass g = g.upd fun u => { u with firing := fi } := by
    unfold beginPass
    split_ifs
    · exact ⟨g.st.firing, rfl⟩
    · exact ⟨true, rfl⟩
  suffices h : ∃ a w fi l, advanceClock (openEvent s) = { g with
      st := { g.st with sched := { g.st.sched with activeB := a, swap := w }, firing := fi }, notices := g.notices ++ l } by
    obtain ⟨a, w, fi, l, h⟩ := h
    rw [hsched] at h
    subst hg
    exact ⟨a, w, fi, l, h⟩
  unfold advanceClock
  rw [if_neg (by
    rintro (h | h)
    · exact h hset
    · have h' : 4294967295 ≤ s.sched.clock := h
      omega)]
  dsimp only
  rw [htest, hpass]
  by_cases hm : (g.upd fun u => { u with firing := fi }).st.sched.clock % 60 = 0
  · rw [if_pos hm]
    obtain ⟨a, w, l, hb⟩ := minuteBoundary_stands (e := g.upd fun u => { u with firing := fi }) hrun
    exact ⟨a, w, fi, l, hb⟩
  · rw [if_neg hm]
    exact ⟨g.st.sched.activeB, g.st.sched.swap, fi, [], by rw [List.append_nil]; rfl⟩

theorem acct_copyReturned (s : State) (x : Job) {c : Copy} (hc : x.copy = some c) :
    ((s.copyReturned x).acct x.owner).charge = (s.acct x.owner).charge - 1 := by
  unfold State.copyReturned
  rw [hc]
  exact congrArg Account.charge (State.acct_setAcct ..)

/-- Settles O60: each recovery step takes one piece of work. -/
theorem recoveryStepsTakeOnePiece : Obligations.RecoveryStepsTakeOnePiece := by
  unfold Obligations.RecoveryStepsTakeOnePiece
  intro s noted
  refine ⟨fun h => ?_, fun hp _ _ hdrain _ _ _ _ hj => ?_⟩
  · obtain ⟨h1, h2, h3, h4, h5⟩ := recovery_stands h
    exact ⟨congrArg Host.Outcome.next (runEvent_silent h1), congrArg Host.Outcome.next (runEvent_silent h2),
      congrArg Host.Outcome.next (runEvent_silent h3), congrArg Host.Outcome.next (runEvent_silent h4),
      congrArg Host.Outcome.next (runEvent_silent h5)⟩
  · have hno := not_runDrains hdrain
    refine ⟨fun hk r rest hm hnd => ?_, fun hk p rest hr => ?_, fun hk hr j x ho hx => ?_, fun hk hi => ?_, fun hk hi => ⟨fun site hs => ?_,
      fun hset hc hd => ?_⟩, fun hk => ?_⟩
    · obtain ⟨e, hpiece, ⟨vs, as, c, hst⟩, hch, hoth, hlog, hvols, hvol, m, al, ai, ov, hv, hform⟩ := runEvent_mirror hp hk hj hm hnd
      obtain ⟨⟨pl, as', q, c', fi, hframe⟩, hmoney, hothers, -, hnoted⟩ := hpiece
      rw [hst] at hframe
      have hvolEq : ∀ v, (runEvent s recoverMirror).vol v = e.st.vol v := fun v => by rw [hframe, hst]; rfl
      refine ⟨_, rfl, by rw [hframe], by rw [hframe], by rw [hframe], fun p hp => ?_, fun o ho => ?_, ?_, ⟨?_, fun l => ?_⟩, fun hnil => ?_,
        fun v hv => (hvolEq v).trans (hvol v hv), by rw [hframe], by rw [hframe], by rw [hframe]⟩
      · exact (hmoney p.1).1.trans (hch p hp)
      · exact (hothers o (hoth o ho).1).trans (hoth o ho).2
      · exact hlog.logged ⟨_, _, _, hvolEq r.vol⟩ (fun c => by rw [hvolEq]) hnoted
      · rw [hvolEq, hv]
      · rw [hvolEq]
        exact hform l
      · rw [← hvols hnil, hframe, hst]
    · obtain ⟨⟨pl, as, q, c, fi, hframe⟩, -, -, hacc, -⟩ := runEvent_return hp hk hj hr
      have hacc' := hacc rfl
      exact ⟨_, rfl, by rw [hframe], by rw [hframe], by rw [hframe], by rw [hframe]; rfl, hacc', by rw [hframe]; rfl,
        by rw [hframe]; rfl, by rw [hframe]; rfl⟩
    · obtain ⟨e, ⟨⟨pl, as, q, c, fi, hframe⟩, hmoney, -, hacc, -⟩, ⟨c', hst⟩, hnone⟩ := runEvent_openJob hp hk hj hr ho hx
      rw [hst] at hframe
      have hkeep : (s.copyReturned x).vols = s.vols ∧ (s.copyReturned x).run = s.run ∧ (s.copyReturned x).mirror = s.mirror := by
        unfold State.copyReturned
        cases x.copy <;> exact ⟨rfl, rfl, rfl⟩
      refine ⟨_, rfl, by rw [hframe], by rw [hframe]; exact hkeep.1, by rw [hframe]; exact hkeep.2.1, by rw [hframe]; exact hkeep.2.2,
        fun hc => ?_, fun d hc => ?_⟩
      · have hsame : s.copyReturned x = s := by
          unfold State.copyReturned
          rw [hc]
        refine ⟨by rw [hframe, hsame], by rw [hframe, hsame], (hacc (hnone hc)).trans ?_⟩
        rw [hst, hsame]
      · have hback : (s.copyReturned x).free = s.free ++ [d.pcn] ∧ (s.copyReturned x).claims = s.claims - 1 := by
          unfold State.copyReturned
          rw [hc]
          exact ⟨rfl, rfl⟩
        refine ⟨by rw [hframe]; exact hback.1, by rw [hframe]; exact hback.2, (hmoney x.owner).1.trans ?_⟩
        rw [hst]
        exact acct_copyReturned s x hc
    · obtain ⟨t, hex, hrec, hsched⟩ := runEvent_runRecovers (s := s) (f := recoverRun) (sc := s.sched) (p := s.port) (l := []) (l' := [])
        (k := .interrupted) (fi := s.firing) (a := s.sched.activeB) (w := s.sched.swap) rfl (by
          obtain ⟨vs, es, n, b, en, ns, on, pl, part, step, he, -⟩ := endRunNow_recovers (e := openEvent s) .interrupted
            (by exact hno) hp hk rfl rfl rfl rfl
          refine (if_pos ⟨inStep_eq (s := (openEvent s).st) hp hk, hi⟩).trans ?_
          refine he.trans ?_
          refine Eq.trans ?_ (congrArg (fun g : Event => { g with
            st := { g.st with sched := { s.sched with activeB := s.sched.activeB, swap := s.sched.swap }, firing := s.firing }
            notices := g.notices ++ [] }) he.symm)
          simp only [List.append_nil]
          rfl) hno hp hk
      obtain ⟨hrun, hport, hgiven, hnote, ⟨h1, h2, h3, h4⟩, hon⟩ := hrec
      exact ⟨t, congrArg Host.Outcome.next hex, by rw [hrun]; rfl, by rw [hrun]; rfl, by rw [hrun]; rfl, by rw [hrun]; rfl, hgiven,
        by rw [hport]; rfl, by rw [hport]; rfl, fun hl => by rw [hsched]; exact hnote hl, h1, h2, h3, h4, hon⟩
    · obtain ⟨t, hex, hrec, hsched⟩ := runEvent_runRecovers (s := s) (f := takeHello site) (sc := s.sched)
        (p := { s.port with up := true, site := some site }) (l := s.helloNotices site) (l' := [])
        (k := .failed) (fi := s.firing) (a := s.sched.activeB) (w := s.sched.swap) rfl (by
          obtain ⟨vs, es, n, b, en, ns, on, pl, part, step, he, -⟩ := endRunNow_recovers (e := {
            st := { s.linkedTo site with out := [] }, notices := s.helloNotices site }) .failed (by exact hno) hp hk rfl rfl rfl rfl
          rw [takeHello_eq, if_neg hs, if_neg hi]
          refine he.trans ?_
          refine Eq.trans ?_ (congrArg (fun g : Event => { g with
            st := { g.st with sched := { s.sched with activeB := s.sched.activeB, swap := s.sched.swap }, firing := s.firing }
            notices := g.notices ++ [] }) he.symm)
          simp only [List.append_nil]
          rfl) hno hp hk
      obtain ⟨hrun, -, hgiven, hnote, -, hon⟩ := hrec
      exact ⟨t, congrArg Host.Outcome.next hex, by rw [hrun]; rfl, by rw [hrun]; rfl, hgiven, fun hl => by rw [hsched]; exact hnote hl, hon⟩
    · obtain ⟨a, w, fi, l, hadv⟩ := advanceClock_recovers hset hc hi hd hno hp hk
      obtain ⟨t, hex, hrec, hsched⟩ := runEvent_runRecovers (s := s) (f := advanceClock)
        (sc := { s.sched with clock := s.sched.clock + 1 }) (p := s.port) (l := []) (l' := l) (k := .deadline) rfl hadv hno hp hk
      obtain ⟨hrun, -, hgiven, hnote, -, hon⟩ := hrec
      exact ⟨t, congrArg Host.Outcome.next hex, by rw [hrun]; rfl, by rw [hrun]; rfl, hgiven, fun hl => by rw [hsched]; exact hnote hl, hon⟩
    · obtain ⟨as, ns, hex, hq⟩ := runEvent_rebuild hp hk
      refine ⟨_, congrArg Host.Outcome.next hex, ?_, ?_, rfl, hq, rfl, rfl, rfl, rfl, rfl, rfl⟩
      · exact congrArg Control.part (foldl_offer ns _)
      · exact congrArg Control.recStep (foldl_offer ns _)

end Sys2Proof.Machine
end

section
/-! PROOFS. A shelf reply ends its command (O48): R163, R32, R36, R37, R116, R130, R134. -/

namespace Sys2Proof.Machine

/-! ### The reply of a slot -/

/-- The event in which the command of a slot has ended: the slot is free, and the arbiter may grant it. -/
def freedSlot (slot : Nat) (e : Event) : Event :=
  { e with
    st := { e.st with shelf := { e.st.shelf with slots := tdel slot e.st.shelf.slots } }
    todo := { e.todo with grant := true } }

section
variable {s : State} {slot : Nat} {c : SlotRec}

theorem isWrite_eq {isWrite : Bool} (h : isWrite = true ↔ c.cmd.kind = .write) : isWrite = (c.cmd.kind == .write) := by
  rw [Bool.eq_iff_iff, h, beq_iff_eq]

/-- The reply that ends a command DONE. -/
theorem exec_done (hc : tfind s.shelf.slots slot = some c) {data : List Block}
    (hd : data.length = if c.cmd.kind = .read then c.cmd.count else 0) :
    exec (.shelfReply slot c.epoch c.use (c.cmd.kind == .write) (.done data 0)) s =
      .next (runEvent s fun e => cmdEnd c.cmd (some data) false (freedSlot slot e)) := by
  refine congrArg Host.Outcome.next (congrArg (fun e => closeEvent (runTodo turnBound e)) ?_)
  rw [shelfReplyIn_some (e := openEvent s) hc, judgeReply_done hd]
  rfl

/-- The reply that ends a command with an error. -/
theorem exec_error (hc : tfind s.shelf.slots slot = some c) (reason : Nat) :
    exec (.shelfReply slot c.epoch c.use (c.cmd.kind == .write) (.error reason)) s =
      .next (runEvent s fun e => cmdEnd c.cmd none false (noteShelfError c.cmd reason (freedSlot slot e))) := by
  refine congrArg Host.Outcome.next (congrArg (fun e => closeEvent (runTodo turnBound e)) ?_)
  rw [shelfReplyIn_some (e := openEvent s) hc]
  rfl

/-- A reply that names no command of its slot is counted (R163). -/
theorem exec_stale {epoch use : Nat} {isWrite : Bool} (result : ShelfResult)
    (h : ∀ c, tfind s.shelf.slots slot = some c → ¬ (c.epoch = epoch ∧ c.use = use ∧ (isWrite = true ↔ c.cmd.kind = .write))) :
    exec (.shelfReply slot epoch use isWrite result) s =
      .next ({ s with shelf := { s.shelf with ignored := s.shelf.ignored + 1 } } : State).closed := by
  refine congrArg Host.Outcome.next (runEvent_silent (t := { s with shelf := { s.shelf with ignored := s.shelf.ignored + 1 } }) ?_)
  unfold shelfReplyIn
  cases hc : tfind (openEvent s).st.shelf.slots slot with
  | none => rfl
  | some c =>
    refine if_neg fun ha => h c hc ?_
    unfold SlotRec.answers at ha
    simp only [Bool.and_eq_true, beq_iff_eq] at ha
    obtain ⟨⟨h1, h2⟩, h3⟩ := ha
    refine ⟨h1, h2, ?_⟩
    rw [← h3, beq_iff_eq]

/-- No command waits for a grant. -/
def Shelf.noneWait (p : Shelf) : Prop := p.fgQueue = [] ∧ p.restoreQueue = [] ∧ p.offsiteQueue = []

theorem choose_noneWait {p : Shelf} (h : p.noneWait) : p.choose = none := by
  obtain ⟨h1, h2, h3⟩ := h
  unfold Shelf.choose
  simp [h1, h2, h3]

end

/-! ### The contents of a whole chunk (R44) -/

theorem length_overwriteAt {α : Type} (l : List α) (i : Nat) (new : List α) : (overwriteAt l i new).length = l.length := by
  simp only [overwriteAt, List.length_append, List.length_take, List.length_drop]
  omega

theorem getElem?_overwriteAt {α : Type} (l : List α) (i : Nat) (new : List α) (b : Nat) (hb : b < l.length) :
    (overwriteAt l i new)[b]? = if i ≤ b ∧ b < i + new.length then new[b - i]? else l[b]? := by
  unfold overwriteAt
  rw [List.append_assoc]
  by_cases h1 : b < i
  · rw [List.getElem?_append_left (by rw [List.length_take]; omega), List.getElem?_take_of_lt h1, if_neg (by omega)]
  · rw [List.getElem?_append_right (by rw [List.length_take]; omega), List.length_take, Nat.min_eq_left (by omega)]
    by_cases h2 : b < i + new.length
    · rw [List.getElem?_append_left (by rw [List.length_take]; omega), List.getElem?_take_of_lt (by omega), if_pos (by omega)]
    · rw [List.getElem?_append_right (by rw [List.length_take]; omega), List.length_take, List.getElem?_drop, if_neg (by omega)]
      congr 1
      omega

/-- The block that the copied runs leave at an offset: the last run that covers it decides. -/
def copiedBlock (copied : List (Nat × List Block)) (b : Nat) : Block :=
  match copied.reverse.find? fun q => decide (q.1 ≤ b ∧ b < q.1 + q.2.length) with
  | some q => q.2[b - q.1]?.getD zeroBlock
  | none => zeroBlock

theorem copied_base (copied : List (Nat × List Block)) (n : Nat) :
    let base := copied.foldl (fun acc r => overwriteAt acc r.1 r.2) (List.replicate n zeroBlock)
    base.length = n ∧ ∀ b, b < n → base[b]? = some (copiedBlock copied b) := by
  induction copied using List.reverseRecOn with
  | nil => exact ⟨List.length_replicate, fun b hb => by simp [copiedBlock, hb]⟩
  | append_singleton l q ih =>
    obtain ⟨hlen, hget⟩ := ih
    dsimp only
    rw [List.foldl_concat]
    refine ⟨(length_overwriteAt ..).trans hlen, fun b hb => ?_⟩
    rw [getElem?_overwriteAt _ _ _ _ (by rw [hlen]; exact hb)]
    unfold copiedBlock
    rw [List.reverse_concat, List.find?_cons]
    by_cases h : q.1 ≤ b ∧ b < q.1 + q.2.length
    · rw [if_pos h, decide_eq_true h]
      dsimp only
      rw [List.getElem?_eq_getElem (by omega)]
      rfl
    · rw [if_neg h, decide_eq_false h]
      exact hget b hb

theorem chunkContents_eq {k b n c : Nat} {data : List Block} (hd : data.length = n) (h1 : b < (c + 1) * 2 ^ k) (h2 : c * 2 ^ k < b + n)
    (copied : List (Nat × List Block)) : chunkContents k b n data copied c = (List.range (2 ^ k)).map fun i =>
      if b ≤ c * 2 ^ k + i ∧ c * 2 ^ k + i < b + n then data[c * 2 ^ k + i - b]?.getD zeroBlock else copiedBlock copied i := by
  obtain ⟨hlen, hget⟩ := copied_base copied (2 ^ k)
  unfold chunkContents
  dsimp only
  have hsucc : (c + 1) * 2 ^ k = c * 2 ^ k + 2 ^ k := by ring
  have hfirst : coverFirst k b c = b - c * 2 ^ k := by unfold coverFirst; omega
  have hcov : (coveredData k b n data c).length = coverEnd k b n c - coverFirst k b c := by
    unfold coveredData
    rw [List.length_take, List.length_drop, hd]
    unfold coverEnd coverFirst
    omega
  have hend : coverEnd k b n c = min (b + n) (c * 2 ^ k + 2 ^ k) - c * 2 ^ k := by unfold coverEnd; rw [hsucc]
  refine List.ext_getElem? fun i => ?_
  by_cases hi : i < 2 ^ k
  · rw [getElem?_overwriteAt _ _ _ _ (by rw [hlen]; exact hi), hcov, List.getElem?_map, List.getElem?_range hi, Option.map_some]
    by_cases hin : b ≤ c * 2 ^ k + i ∧ c * 2 ^ k + i < b + n
    · rw [if_pos (by omega), if_pos hin]
      unfold coveredData
      rw [List.getElem?_take_of_lt (by omega), List.getElem?_drop]
      have hidx : c * 2 ^ k + coverFirst k b c - b + (i - coverFirst k b c) = c * 2 ^ k + i - b := by omega
      rw [hidx, List.getElem?_eq_getElem (by omega)]
      rfl
    · rw [if_neg (by omega), if_neg hin]
      exact hget i hi
  · rw [List.getElem?_eq_none (by rw [length_overwriteAt, hlen]; omega), List.getElem?_eq_none (by simp; omega)]

/-! ### The request answered -/

theorem filter_setEntry {l : List Entry} {z : Entry} :
    (l.map fun y => if y.arrival = z.arrival then z else y).filter (fun y => y.arrival != z.arrival) =
      l.filter fun y => y.arrival != z.arrival := by
  induction l with
  | nil => rfl
  | cons y l ih =>
    rw [List.map_cons, List.filter_cons, List.filter_cons]
    by_cases h : y.arrival = z.arrival
    · rw [if_pos h, if_neg (by simp), if_neg (by simp [h]), ih]
    · rw [if_neg h, ih]

/-- The front request `x` leaves: its entry is freed and its item leaves the busy set. -/
def State.without (s : State) (x : Entry) : State :=
  { s with
    inflight := s.inflight.filter fun y => y.arrival != x.arrival
    busy := s.busy.filter fun i => i.owner != .front x.arrival }

theorem finishEntry_eq {e : Event} (hwf : Table.wf Volume.absent e.st.vols = true) (hd : ∀ p ∈ e.st.vols, p.2.drain = none)
    (hup : e.st.frontUp = true) (x : Entry) (code : Code) (blocks : Nat) (data : List Block) :
    finishEntry x code blocks data e = { e with
      st := { e.st.without x with out := e.st.out ++ [.front x.req.vol x.req.kind.value code x.req.tag blocks data] }
      todo := { e.todo with retest := true, drains := true, occupancy := true } } := by
  unfold finishEntry emitFront
  dsimp only
  rw [if_pos hup, leaveBusy_noDrains (by exact hwf) (by exact hd)]
  rfl

theorem yieldTested_out (t : State) (o : List Output) : ({ t with out := o } : State).yieldTested = { t.yieldTested with out := o } := by
  unfold State.yieldTested
  change (if yieldAfter t = t.yielding then _ else if t.yielding = true then _ else _) = _
  split_ifs <;> rfl

/-- The turns after a request has left, where nothing waits for it. -/
theorem ends_left {t : State} {o : List Output} {ns : List Notice} {b : Bool} (hbusy : firstProceed [] t.busy = none)
    (hd : ∀ p ∈ t.vols, p.2.drain = none) (hy : t.yieldSettles)
    (hg : b = true → t.shelf.up = false ∨ t.shelf.freeSlot = none ∨ t.shelf.choose = none) :
    Ends 13 { st := { t with out := o }, todo := { retest := true, drains := true, occupancy := true, grant := b }, notices := ns }
      { st := { t.yieldTested with out := o }, notices := ns } := by
  refine Ends.turn (e' := { st := { t with out := o }, todo := { drains := true, occupancy := true, grant := b }, notices := ns })
    ((turn_of_retest rfl).trans (congrArg some (retestTurn_none (by exact hbusy)))) ?_
  refine Ends.turn (e' := { st := { t with out := o }, todo := { occupancy := true, grant := b }, notices := ns })
    ((turn_of_drains rfl rfl).trans (congrArg some (drainTurn_none (emptyDrain_none (by exact hd))))) ?_
  refine ends_yieldTest (k := 1) (e := { st := { t with out := o }, todo := { grant := b }, notices := ns }) (by exact hy) rfl rfl rfl rfl ?_
  dsimp only
  rw [yieldTested_out]
  refine ends_grantFlag b { st := { t.yieldTested with out := o }, notices := ns } fun hb => ?_
  have hshelf : t.yieldTested.shelf = t.shelf := by
    unfold State.yieldTested
    split_ifs <;> rfl
  dsimp only
  rw [hshelf]
  exact hg hb

section
variable {s : State} {slot : Nat} {c : SlotRec} {x : Entry} {lcn : Nat}

/-- A request's command ends DONE, with others of the request left or none. -/
theorem requestCmdEnd_some {why : Purpose} {first : Nat} {data : List Block} {e : Event} (hx : e.st.entryOf x.arrival = some x)
    {r : Entry × Event} (hr : takeData { x with left := x.left - 1 } lcn why first data e = r) :
    requestCmdEnd x.arrival lcn why first (some data) e = requestOver r.1 (setEntry r.1 r.2) := by
  unfold requestCmdEnd
  rw [hx]
  dsimp only
  rw [hr]

/-- The event in which a READ's last read ends DONE (R36). -/
theorem exec_readDone (hc : tfind s.shelf.slots slot = some c) (hk : c.cmd.kind = .read)
    (ho : c.cmd.owner = .request x.arrival lcn .readData) (hwf : s.wf = true) (hx : s.entryOf x.arrival = some x)
    (hreq : x.req.kind = .read) (hl : x.left = 1) (hf : x.failed = false) (hup : s.frontUp = true)
    (hbusy : firstProceed [] (s.busy.filter fun i => i.owner != .front x.arrival) = none) (hd : ∀ p ∈ s.vols, p.2.drain = none)
    (hw : s.shelf.noneWait)
    (hy : ({ s.without x with shelf := { s.shelf with slots := tdel slot s.shelf.slots } } : State).yieldSettles)
    {data : List Block} (hlen : data.length = c.cmd.count) {code : Code} {blocks : Nat} {res : List Block}
    (hcode : (if viewStands (s.vol x.req.vol) x.req x.gen then (Code.ok, x.req.count,
      overwriteAt x.data (lcn * 2 ^ s.format.k + c.cmd.first - x.req.start) data) else (Code.noView, 0, [])) = (code, blocks, res)) :
    exec (.shelfReply slot c.epoch c.use (c.cmd.kind == .write) (.done data 0)) s = .next
      { State.closed ({ s.without x with shelf := { s.shelf with slots := tdel slot s.shelf.slots } } : State).yieldTested with
        out := [.front x.req.vol 1 code x.req.tag blocks res] } := by
  let t : State := { s.without x with shelf := { s.shelf with slots := tdel slot s.shelf.slots } }
  let y : Entry := { x with left := x.left - 1, data := overwriteAt x.data (lcn * 2 ^ s.format.k + c.cmd.first - x.req.start) data }
  rw [exec_done hc (by rw [hk]; exact hlen)]
  have hend : cmdEnd c.cmd (some data) false (freedSlot slot (openEvent s)) = {
      st := { t with out := [.front x.req.vol 1 code x.req.tag blocks res] }
      todo := { retest := true, drains := true, occupancy := true, grant := true } } := by
    unfold cmdEnd
    rw [ho]
    dsimp only
    rw [requestCmdEnd_some (by exact hx) (r := (y, freedSlot slot (openEvent s))) rfl]
    have hover : ∀ e, requestOver y e = completeRead y e := by
      intro e
      unfold requestOver
      have hzero : y.left = 0 := by
        change x.left - 1 = 0
        omega
      rw [if_pos hzero, if_neg (by exact fun h => nomatch hf.symm.trans h), hreq]
    rw [hover]
    have hfin := fun (code : Code) (blocks : Nat) (res : List Block) =>
      finishEntry_eq (e := setEntry y (freedSlot slot (openEvent s))) (wf_vols (s := s) hwf) hd hup y code blocks res
    have hstate : ∀ o : List Output, ({ (setEntry y (freedSlot slot (openEvent s))).st.without y with out := o } : State) =
        { t with out := o } := by
      intro o
      exact congrArg (fun l => ({ t with inflight := l, out := o } : State)) (filter_setEntry (l := s.inflight) (z := y))
    unfold completeRead
    by_cases hst : viewStands (s.vol x.req.vol) x.req x.gen = true
    · rw [if_pos (by exact hst)]
      rw [if_pos hst] at hcode
      cases hcode
      rw [hfin, hstate]
      change ({ st := { t with out := [] ++ [.front x.req.vol x.req.kind.value _ x.req.tag _ _] }, todo := _ } : Event) = _
      rw [hreq]
      rfl
    · rw [if_neg (by exact hst)]
      rw [if_neg hst] at hcode
      cases hcode
      rw [hfin, hstate]
      change ({ st := { t with out := [] ++ [.front x.req.vol x.req.kind.value _ x.req.tag _ _] }, todo := _ } : Event) = _
      rw [hreq]
      rfl
  refine congrArg Host.Outcome.next ((runEvent_ends (k := 13) (t := t.yieldTested) (ns := []) (outs := [_]) ?_ (by simp [Output.isPlain])
    (by omega)).trans rfl)
  rw [hend]
  exact ends_left hbusy hd hy fun _ => .inr (.inr (choose_noneWait hw))

theorem ne_of_mem_tdel {α : Type} {i : Nat} {t : Table α} {p : Nat × α} (h : p ∈ tdel i t) : p.1 ≠ i := by
  induction t with
  | nil => exact absurd h List.not_mem_nil
  | cons q t ih =>
    obtain ⟨j, v⟩ := q
    unfold tdel at h
    split_ifs at h with hj
    · exact ih h
    · rcases List.mem_cons.mp h with rfl | h
      · exact fun he => hj he.symm
      · exact ih h

theorem requestFail_bare {y : Entry} {e : Event} (h1 : y.claims = []) (h2 : y.charges = []) (h3 : y.plan = [])
    (h4 : ∀ m ∈ e.st.mirror, m.arrival ≠ y.arrival) : requestFail y e = finishEntry y .media 0 [] e := by
  unfold requestFail
  rw [h1, h2, h3]
  have hkept : (e.st.mirror.filter fun r => r.arrival != y.arrival) = e.st.mirror :=
    List.filter_eq_self.mpr fun m hm => by simp [h4 m hm]
  have hmirror : eraseMirror y.arrival e = e := congrArg (fun l => ({ e with st := { e.st with mirror := l } } : Event)) hkept
  exact congrArg (finishEntry y .media 0 []) hmirror

theorem withdrawCmds_noneWait {own : CmdOwner → Bool} {e : Event} (h : e.st.shelf.noneWait) : withdrawCmds own e = e := by
  have hshelf : ∀ p : Shelf, p.noneWait → ({ p with
      fgQueue := p.fgQueue.filter fun c => !own c.owner
      restoreQueue := p.restoreQueue.filter fun c => !own c.owner
      offsiteQueue := p.offsiteQueue.filter fun c => !own c.owner } : Shelf) = p := by
    rintro ⟨up, fq, rq, oq, slots, uses, epoch, streak, turn, ignored⟩ ⟨h1, h2, h3⟩
    cases h1
    cases h2
    cases h3
    rfl
  exact congrArg (fun p => ({ e with st := { e.st with shelf := p } } : Event)) (hshelf _ h)

/-- The SHELF ERROR of a command (R165). -/
def State.shelfError (s : State) (d : ShelfCmd) (reason : Nat) : Notice :=
  s.notice .shelfError d.pcn reason (2 * d.cls.value + d.kind.value)

/-- The event in which a READ's last read ends with an error (R37). -/
theorem exec_readError (hc : tfind s.shelf.slots slot = some c)
    (ho : c.cmd.owner = .request x.arrival lcn .readData) (hwf : s.wf = true) (hx : s.entryOf x.arrival = some x)
    (hreq : x.req.kind = .read) (hup : s.frontUp = true)
    (hbusy : firstProceed [] (s.busy.filter fun i => i.owner != .front x.arrival) = none) (hd : ∀ p ∈ s.vols, p.2.drain = none)
    (hw : s.shelf.noneWait)
    (hy : ({ s.without x with shelf := { s.shelf with slots := tdel slot s.shelf.slots } } : State).yieldSettles)
    (hdrop : ∀ p ∈ s.shelf.slots, p.1 ≠ slot → p.2.cmd.owner = .dropped) (h1 : x.claims = []) (h2 : x.charges = []) (h3 : x.plan = [])
    (h4 : ∀ m ∈ s.mirror, m.arrival ≠ x.arrival) (reason : Nat) :
    exec (.shelfReply slot c.epoch c.use (c.cmd.kind == .write) (.error reason)) s = .next
      { State.closed { ({ s.without x with shelf := { s.shelf with slots := tdel slot s.shelf.slots } } : State).yieldTested with
          ctl := offer s.ctl (s.shelfError c.cmd reason) } with
        out := [.front x.req.vol 1 .media x.req.tag 0 []] } := by
  let t : State := { s.without x with shelf := { s.shelf with slots := tdel slot s.shelf.slots } }
  let e : Event := noteShelfError c.cmd reason (freedSlot slot (openEvent s))
  let y : Entry := { x with left := 0, failed := true }
  rw [exec_error hc]
  have hzero : countInSlots (ofRequest x.arrival) e.st.shelf = 0 := by
    unfold countInSlots
    rw [List.filter_eq_nil_iff.mpr, List.length_nil]
    intro p hp hown
    rw [hdrop p (mem_tdel hp) (ne_of_mem_tdel hp)] at hown
    exact nomatch hown
  have hend : cmdEnd c.cmd none false e = {
      st := { t with out := [.front x.req.vol 1 .media x.req.tag 0 []] }
      todo := { retest := true, drains := true, occupancy := true, grant := true }
      notices := [s.shelfError c.cmd reason] } := by
    unfold cmdEnd
    rw [ho]
    dsimp only
    have hmark : markFailed { x with left := x.left - 1 } e = (y, setEntry y e) := by
      unfold markFailed
      dsimp only
      rw [withdrawCmds_noneWait (by exact hw), hzero]
    unfold requestCmdEnd
    rw [show e.st.entryOf x.arrival = some x from hx]
    dsimp only
    rw [hmark]
    dsimp only
    have hover : requestOver y (setEntry y e) = requestFail y (setEntry y e) := by
      unfold requestOver
      rw [if_pos rfl]
      exact if_pos rfl
    rw [hover, requestFail_bare (y := y) (e := setEntry y e) h1 h2 h3 h4, finishEntry_eq (wf_vols (s := s) hwf) hd hup]
    have hstate : ∀ o : List Output, ({ (setEntry y e).st.without y with out := o } : State) = { t with out := o } := fun o =>
      congrArg (fun l => ({ t with inflight := l, out := o } : State)) (filter_setEntry (l := s.inflight) (z := y))
    rw [hstate]
    change ({ st := { t with out := [] ++ [.front x.req.vol x.req.kind.value _ x.req.tag _ _] }, todo := _, notices := _ } : Event) = _
    rw [hreq]
    rfl
  refine congrArg Host.Outcome.next ((runEvent_ends (k := 13) (t := t.yieldTested) (ns := [s.shelfError c.cmd reason])
    (outs := [.front x.req.vol 1 .media x.req.tag 0 []]) ?_
    (by simp [Output.isPlain]) (by omega)).trans ?_)
  · rw [hend]
    exact ends_left hbusy hd hy fun _ => .inr (.inr (choose_noneWait hw))
  · rw [yieldTested_ctl]
    rfl

end

/-! ### One grant -/

theorem freeSlot_lowest {p : Shelf} {n : Nat} (hn : n ≤ 63) (hf : tfind p.slots n = none) (h : ∀ i, i < n → tfind p.slots i ≠ none) :
    p.freeSlot = some n := by
  unfold Shelf.freeSlot
  rw [List.find?_range_eq_some]
  refine ⟨by rw [hf]; rfl, List.mem_range.mpr (by unfold Config.shelfSlots; omega), fun i hi => ?_⟩
  cases ht : tfind p.slots i with
  | none => exact absurd ht (h i hi)
  | some r => rfl

/-- The port once the one waiting command `d` has taken slot `n` (R158 to R161). -/
def Shelf.granted (p : Shelf) (n timeout : Nat) (d : ShelfCmd) : Shelf :=
  { p with
    slots := tput n { cmd := d, epoch := p.epoch, use := stepWrap 65535 (p.useOf n), timeout := timeout } p.slots
    uses := tset 0 n (stepWrap 65535 (p.useOf n)) p.uses
    streak := 0
    turnOffsite := match d.cls with
      | .foreground => p.turnOffsite
      | .restore => true
      | .offsite => false }

/-- The event hands over one command, and a slot is free for it. -/
theorem runEvent_grantsOne {s t : State} {f : Event → Event} {d : ShelfCmd} {b : Bool} {n : Nat}
    (hf : f (openEvent s) = handOver d { st := { t with out := [] }, todo := { grant := b } }) (hw : t.shelf.noneWait)
    (hup : t.shelf.up = true) (hn : n ≤ 63) (hfree : tfind t.shelf.slots n = none) (hlow : ∀ i, i < n → tfind t.shelf.slots i ≠ none) :
    runEvent s f = { State.closed { t with inflight := t.slotted d, shelf := t.shelf.granted n t.ctl.config.shelfTimeout d } with
      out := [t.grantFrame n d] } := by
  obtain ⟨p, hp⟩ : ∃ p, (handOver d { st := { t with out := [] }, todo := { grant := b } }).st.shelf = p := ⟨_, rfl⟩
  have hslot : p.freeSlot = some n := by
    refine freeSlot_lowest hn ?_ fun i hi => ?_
    · rw [← hp, ← hfree]
      unfold handOver Event.updShelf Event.upd
      cases d.cls <;> rfl
    · have h := hlow i hi
      rw [← hp]
      unfold handOver Event.updShelf Event.upd
      cases d.cls <;> exact h
  obtain ⟨h1, h2, h3⟩ := hw
  have hchoose : p.choose = some d.cls ∧ p.headOf d.cls = some d := by
    rw [← hp]
    unfold handOver Event.updShelf Event.upd Shelf.choose Shelf.headOf Shelf.background
    cases d.cls <;> simp [h1, h2, h3]
  have hev : handOver d { st := { t with out := [] }, todo := { grant := b } } =
      { st := { t with shelf := p, out := [] }, todo := { grant := true } } := by
    rw [← hp]
    rfl
  have hup' : p.up = true := by
    rw [← hp, ← hup]
    unfold handOver Event.updShelf Event.upd
    cases d.cls <;> rfl
  have hafter : (p.dequeue d.cls).occupy n t.ctl.config.shelfTimeout d = t.shelf.granted n t.ctl.config.shelfTimeout d := by
    have hdeq : p.dequeue d.cls = { t.shelf with
        streak := 0
        turnOffsite := match d.cls with
          | .foreground => t.shelf.turnOffsite
          | .restore => true
          | .offsite => false } := by
      rw [← hp]
      unfold handOver Event.updShelf Event.upd Shelf.dequeue Shelf.background
      generalize t.shelf = q at h1 h2 h3 ⊢
      obtain ⟨up, fq, rq, oq, slots, uses, epoch, streak, turn, ignored⟩ := q
      dsimp only at h1 h2 h3
      subst h1 h2 h3
      cases d.cls <;> simp
    rw [hdeq]
    rfl
  have hgrants : grants Config.shelfSlots { st := { t with shelf := p, out := [] } } = {
      st := { t with
        inflight := t.slotted d, shelf := t.shelf.granted n t.ctl.config.shelfTimeout d, out := [t.grantFrame n d] } } := by
    change grants (63 + 1) _ = _
    rw [grants_succ (e := { st := { t with shelf := p, out := [] } }) 63 hup' hslot hchoose.1 hchoose.2, grantTo_eq]
    dsimp only
    rw [hafter]
    have hframe : State.grantFrame { t with shelf := p, out := [] } n d = t.grantFrame n d := by
      unfold State.grantFrame Shelf.useOf
      rw [← hp]
      unfold handOver Event.updShelf Event.upd
      cases d.cls <;> rfl
    rw [hframe]
    exact grants_none _ (.inr (.inr (choose_noneWait ⟨h1, h2, h3⟩)))
  refine runEvent_ends (k := 1) (ns := []) (outs := [t.grantFrame n d])
    (t := { t with inflight := t.slotted d, shelf := t.shelf.granted n t.ctl.config.shelfTimeout d }) ?_
    (fun o ho => by rw [List.mem_singleton.mp ho]; rfl) (by omega)
  rw [hf, hev]
  exact Ends.turn (congrArg some hgrants) (ends_of_idle rfl)

/-! ### The other owners -/

theorem settled_slot {t : State} {ns : List Notice} {b p en : Bool} (hw : t.shelf.noneWait) (hp : p = true → t.PortRests)
    (he : en = true → t.EngineRests) :
    ({ st := t, todo := { engine := en, port := p, grant := b }, notices := ns } : Event).Settled :=
  ⟨nofun, nofun, nofun, nofun, fun h => h.elim nofun nofun, nofun, he, hp, fun h => h.elim nofun fun h => absurd rfl h,
    fun _ => .inr (.inr (choose_noneWait hw))⟩

/-- An event that has changed F, where F crosses no mark. -/
theorem runEvent_pooled {s t : State} {f : Event → Event} {todo : Todo} {ns : List Notice}
    (hf : f (openEvent s) = { st := { t with out := [] }, poolTouched := true, notices := ns, todo := todo })
    (hs : ({ st := { t with out := [] }, poolTouched := true, notices := ns, todo := todo } : Event).Settled)
    (ha : todo.answer = none) (hl : todo.drainBegin.length ≤ 900) (hp : evalPool t = (t, [])) :
    runEvent s f = State.closed { t with ctl := ns.foldl offer t.ctl } := by
  let e : Event := { st := { t with out := [] }, poolTouched := true, notices := ns, todo := { todo with answer := none } }
  have hev : e.evaluate = ({ t with out := [] }, {}) := by
    have h1 : e.evaluate = ((evalPool { t with out := [] }).1, { pool := (evalPool { t with out := [] }).2 }) := rfl
    rw [h1, evalPool_out, hp]
  rw [runEvent, hf, runTodo_settled hs hl, closeEvent_noAnswer ha]
  refine (closeEvent_quiet (e := { e with todo := todo }) rfl (by simp [e])).trans ?_
  have hdue : (({ e with todo := todo } : Event).evaluate.2.due ({ e with todo := todo } : Event).causes) = ns := by
    change (e.evaluate.2.due e.causes) = ns
    rw [hev]
    change [] ++ [] ++ [] ++ [] ++ [] ++ ns = ns
    rfl
  have hst : ({ e with todo := todo } : Event).evaluated = { t with out := [] } := congrArg Prod.fst hev
  unfold Event.offered
  rw [hdue, hst]
  rfl

section
variable {s : State} {slot : Nat} {c : SlotRec}

theorem doneLength {isWrite : Bool} {data : List Block} (h : isWrite = true ↔ c.cmd.kind = .write)
    (hd : data.length = if isWrite then 0 else c.cmd.count) : data.length = if c.cmd.kind = .read then c.cmd.count else 0 := by
  rw [hd, isWrite_eq h]
  cases c.cmd.kind <;> rfl

/-- The read of a send ends DONE: the frame is ready (R130). -/
theorem exec_sendDone (hc : tfind s.shelf.slots slot = some c) (hk : c.cmd.kind = .read) (ho : c.cmd.owner = .send)
    (hw : s.shelf.noneWait) (hpace : s.port.pace < s.port.nextSend) {d : Reading} {v : Nat} (hr : s.run.reading = some d)
    (hv : s.currentVol = some v) (hst : s.run.state ≠ .stopping) {data : List Block} (hlen : data.length = c.cmd.count) :
    exec (.shelfReply slot c.epoch c.use (c.cmd.kind == .write) (.done data 0)) s = .next (State.closed { s with
      shelf := { s.shelf with slots := tdel slot s.shelf.slots }
      run := { s.run with reading := none, frames := s.run.frames ++ [chunkDataFrame s v d.lcn data] } }) := by
  rw [exec_done hc (by rw [hk]; exact hlen)]
  refine congrArg Host.Outcome.next (runEvent_noted (ns := []) (todo := { port := true, grant := true }) (t := { s with
    shelf := { s.shelf with slots := tdel slot s.shelf.slots }
    run := { s.run with reading := none, frames := s.run.frames ++ [chunkDataFrame s v d.lcn data] } }) ?_
    (settled_slot hw (fun _ => portRests_of (.inr (.inr hpace))) nofun) rfl (by simp))
  unfold cmdEnd sendCmdEnd
  rw [ho]
  dsimp only
  rw [if_neg (by exact hst)]
  unfold sendReadDone
  rw [show (freedSlot slot (openEvent s)).st.run.reading = some d from hr,
    show (freedSlot slot (openEvent s)).st.currentVol = some v from hv]
  rfl

theorem giveUp_noDrain {e : Event} {v : Nat} (hv : e.st.currentVol = some v) (hd : (e.st.vol v).drain = none) : ∃ vs en ns on,
    giveUp e = { e with
      st := { e.st with vols := vs }, todo := { e.todo with engine := en }, notices := e.notices ++ ns, overflowNotices := on } := by
  unfold giveUp
  rw [hv]
  dsimp only
  by_cases hp : e.st.run.phase = .freeze
  · rw [if_pos hp]
    unfold withdrawRunDrain
    rw [hd]
    exact ⟨_, e.todo.engine, [], e.overflowNotices, by rw [List.append_nil]; rfl⟩
  · rw [if_neg hp]
    obtain ⟨vs, en, ns, on, h, -⟩ := mergeBack_eq v e
    exact ⟨vs, en, ns, on, h⟩

/-- On a STOPPING run the end of the send's read ends the run STOPPED (R134). -/
theorem exec_sendStopped (hc : tfind s.shelf.slots slot = some c) (hk : c.cmd.kind = .read) (ho : c.cmd.owner = .send)
    (hw : s.shelf.noneWait) {v : Nat} (hv : s.currentVol = some v) (hst : s.run.state = .stopping) (hd : (s.vol v).drain = none)
    {data : List Block} (hlen : data.length = c.cmd.count) : ∃ vs ns,
    exec (.shelfReply slot c.epoch c.use (c.cmd.kind == .write) (.done data 0)) s = .next (State.closed { s with
      vols := vs, run := s.run.endsAs .stopped, port := s.port.emptied
      shelf := Shelf.sendDropped { s.shelf with slots := tdel slot s.shelf.slots }, ctl := List.foldl offer s.ctl ns }) := by
  rw [exec_done hc (by rw [hk]; exact hlen)]
  obtain ⟨vs, en, ns, on, hg⟩ := giveUp_noDrain (e := freedSlot slot (openEvent s)) hv hd
  have hend := endRun_eq (e := freedSlot slot (openEvent s)) (vs := vs) (es := s.inflight) (n := s.nextArrival) (b := s.busy)
    (td := { engine := en, grant := true }) (ns := ns) (on := on) hg .stopped
  let t : State := { s with
    vols := vs, run := s.run.endsAs .stopped, port := s.port.emptied
    shelf := Shelf.sendDropped { s.shelf with slots := tdel slot s.shelf.slots } }
  refine ⟨vs, on ++ (ns ++ [s.runEndedNotice .stopped]), congrArg Host.Outcome.next ((runEvent_endsNoted (s := s) (t := t) (k := 10)
    (on := on) (ns := ns ++ [s.runEndedNotice .stopped]) ?_ (by omega)).trans rfl)⟩
  have hcmd : cmdEnd c.cmd (some data) false (freedSlot slot (openEvent s)) = endRun .stopped (freedSlot slot (openEvent s)) := by
    unfold cmdEnd sendCmdEnd
    rw [ho]
    exact if_pos hst
  rw [hcmd, hend]
  have hnone : t.shelf.noneWait := by
    obtain ⟨h1, h2, h3⟩ := hw
    refine ⟨?_, ?_, ?_⟩
    · change s.shelf.fgQueue.filter _ = []
      rw [h1]
      rfl
    · change s.shelf.restoreQueue.filter _ = []
      rw [h2]
      rfl
    · change s.shelf.offsiteQueue.filter _ = []
      rw [h3]
      rfl
  have hset : ({ st := { t with out := [] }, todo := { engine := en, grant := true }, overflowNotices := on
                 notices := ns ++ [s.runEndedNotice .stopped] } : Event).Settled :=
    ⟨nofun, nofun, nofun, nofun, fun h => h.elim nofun nofun, nofun, fun _ => engineRests_idle rfl, nofun,
      fun h => h.elim nofun fun h => absurd rfl h, fun _ => .inr (.inr (choose_noneWait hnone))⟩
  exact ends_settled hset

/-- The end of an abandoned copy's write returns its PCN (R116). -/
theorem completeReturn_eq (pcn : Nat) (e : Event) : completeReturn pcn e = { e with
    st := { e.st with free := e.st.free ++ [pcn], returns := e.st.returns.erase pcn, claims := e.st.claims - 1 }
    poolTouched := true, todo := { e.todo with pool := true } } := rfl

theorem runEvent_returned (hw : s.shelf.noneWait) (hj : ∀ p ∈ s.jobs, p.2.state ≠ .running ∧ p.2.state ≠ .pausedPool)
    (hlow : s.poolLow = false → s.format.low ≤ s.free.length + 1) (hclear : s.poolLow = true → s.free.length + 1 < s.format.clear)
    {pcn : Nat} {ns : List Notice} {f : Event → Event}
    (hf : f (openEvent s) = completeReturn pcn { freedSlot slot (openEvent s) with notices := ns }) :
    runEvent s f = State.closed { s with
      shelf := { s.shelf with slots := tdel slot s.shelf.slots }, free := s.free ++ [pcn], returns := s.returns.erase pcn
      claims := s.claims - 1, ctl := ns.foldl offer s.ctl } := by
  let t : State := { s with
    shelf := { s.shelf with slots := tdel slot s.shelf.slots }, free := s.free ++ [pcn], returns := s.returns.erase pcn
    claims := s.claims - 1 }
  have hpool : evalPool t = (t, []) := by
    have hF : t.freeCount = s.free.length + 1 := List.length_append
    have hL : t.poolLow = s.poolLow := rfl
    unfold evalPool
    rw [hL, hF]
    split_ifs with h1 h2 h3 h4
    · rfl
    · exact absurd h3 (by have := hclear h2; change ¬ s.format.clear ≤ _; omega)
    · rfl
    · exact absurd h4 (by have := hlow (Bool.not_eq_true _ ▸ h2); change ¬ _ < s.format.low; omega)
    · rfl
  refine runEvent_pooled (t := t) (todo := { pool := true, grant := true }) (ns := ns) ?_ ?_ rfl (by simp) hpool
  · rw [hf, completeReturn_eq]
    rfl
  · exact ⟨nofun, nofun, nofun, fun _ _ p hp => (hj p hp).2, fun _ p hp => canVisit_of_state (hj p hp).1, nofun, nofun, nofun,
      fun h => h.elim nofun fun h => absurd rfl h, fun _ => .inr (.inr (choose_noneWait hw))⟩

/-- `s` once the slot is free and the request `x` reads `y`. -/
def State.taken (s : State) (slot : Nat) (x y : Entry) : State :=
  { s with
    shelf := { s.shelf with slots := tdel slot s.shelf.slots }
    inflight := s.inflight.map fun z => if z.arrival = x.arrival then y else z }

variable {x : Entry} {lcn : Nat} {why : Purpose} {data : List Block}

/-- A command ends DONE and others of its request are left. -/
theorem exec_partial (hc : tfind s.shelf.slots slot = some c) (ho : c.cmd.owner = .request x.arrival lcn why)
    (hx : s.entryOf x.arrival = some x) (hw : s.shelf.noneWait) (hlen : data.length = if c.cmd.kind = .read then c.cmd.count else 0)
    {y : Entry} (hy : takeData { x with left := x.left - 1 } lcn why c.cmd.first data (freedSlot slot (openEvent s)) =
      (y, freedSlot slot (openEvent s))) (hl : y.left ≠ 0) (ha : y.arrival = x.arrival) :
    exec (.shelfReply slot c.epoch c.use (c.cmd.kind == .write) (.done data 0)) s = .next (State.closed (s.taken slot x y)) := by
  rw [exec_done hc hlen]
  refine congrArg Host.Outcome.next (runEvent_noted (ns := []) (todo := { grant := true }) (t := s.taken slot x y) ?_
    (settled_slot hw nofun nofun) rfl (by simp))
  unfold cmdEnd
  rw [ho]
  dsimp only
  rw [requestCmdEnd_some (by exact hx) hy]
  unfold requestOver
  rw [if_neg (by exact hl)]
  unfold setEntry
  rw [ha]
  rfl

/-- The data of a copy read in the plan. -/
def Entry.copies (x : Entry) (lcn first : Nat) (data : List Block) : List ChunkPlan :=
  x.plan.map fun p => if p.lcn = lcn then { p with reads := p.reads - 1, copied := p.copied ++ [(first, data)] } else p

theorem takeData_waits {x : Entry} {first : Nat} {e : Event}
    (h : x.failed = true ∨ ∀ p ∈ x.plan, p.lcn = lcn → 1 < p.reads) :
    takeData x lcn .copyRead first data e = ({ x with plan := x.copies lcn first data }, e) := by
  unfold takeData
  dsimp only
  change (match (x.copies lcn first data).find? (fun p => p.lcn == lcn && p.reads == 0) with | some p => _ | none => _) = _
  cases hf : (x.copies lcn first data).find? fun p => p.lcn == lcn && p.reads == 0 with
  | none => rfl
  | some p =>
    dsimp only
    rcases h with h | h
    · exact if_pos h
    · exfalso
      obtain ⟨q, hq, rfl⟩ := List.mem_map.mp (List.mem_of_find?_eq_some hf)
      have hp := List.find?_some hf
      by_cases hl : q.lcn = lcn
      · have h1 := h q hq hl
        rw [if_pos hl] at hp
        simp at hp
        omega
      · rw [if_neg hl] at hp
        simp [hl] at hp

theorem takeData_writes {x : Entry} {first : Nat} {e : Event} {p : ChunkPlan} (hf : x.failed = false)
    (hp : x.plan.find? (fun q => q.lcn == lcn) = some p) (hr : p.reads = 1) :
    takeData x lcn .copyRead first data e = ({ x with plan := x.copies lcn first data }, handOver
      { kind := .write, cls := .foreground, pcn := p.claimed.getD 0, first := 0, count := 2 ^ e.st.format.k
        data := chunkContents e.st.format.k x.req.start x.req.count x.data (p.copied ++ [(first, data)]) lcn
        owner := .request x.arrival lcn .chunkWrite } e) := by
  have hfind : (x.copies lcn first data).find? (fun q => q.lcn == lcn && q.reads == 0) =
      some { p with reads := p.reads - 1, copied := p.copied ++ [(first, data)] } := by
    unfold Entry.copies
    generalize x.plan = l at hp
    induction l with
    | nil => exact nomatch hp
    | cons q l ih =>
      rw [List.find?_cons] at hp
      rw [List.map_cons, List.find?_cons]
      by_cases hq : q.lcn = lcn
      · rw [beq_iff_eq.mpr hq] at hp
        obtain rfl : q = p := Option.some.inj hp
        rw [if_pos hq]
        simp [hq, hr]
      · rw [beq_eq_false_iff_ne.mpr hq] at hp
        rw [if_neg hq, beq_eq_false_iff_ne.mpr hq]
        exact ih hp
  unfold takeData
  dsimp only
  change (match (x.copies lcn first data).find? (fun p => p.lcn == lcn && p.reads == 0) with | some p => _ | none => _) = _
  rw [hfind]
  exact if_neg (by rw [hf]; exact nofun)

/-- The last copy read of a chunk hands over the chunk's write, which takes a slot at once (R32). -/
theorem exec_copyEnds (hc : tfind s.shelf.slots slot = some c) (ho : c.cmd.owner = .request x.arrival lcn .copyRead)
    (hx : s.entryOf x.arrival = some x) (hw : s.shelf.noneWait) (hlen : data.length = if c.cmd.kind = .read then c.cmd.count else 0)
    (hl : 1 < x.left) (hf : x.failed = false) (hup : s.shelf.up = true) {p : ChunkPlan} {n : Nat}
    (hp : x.plan.find? (fun q => q.lcn == lcn) = some p) (hr : p.reads = 1) (hn : n ≤ 63)
    (hfree : tfind (tdel slot s.shelf.slots) n = none) (hlow : ∀ i, i < n → tfind (tdel slot s.shelf.slots) i ≠ none) {d : ShelfCmd}
    (hd : d = { kind := .write, cls := .foreground, pcn := p.claimed.getD 0, first := 0, count := 2 ^ s.format.k
                data := chunkContents s.format.k x.req.start x.req.count x.data (p.copied ++ [(c.cmd.first, data)]) lcn
                owner := .request x.arrival lcn .chunkWrite }) :
    exec (.shelfReply slot c.epoch c.use (c.cmd.kind == .write) (.done data 0)) s = .next
      { State.closed { s.taken slot x { x with left := x.left - 1, plan := x.copies lcn c.cmd.first data } with
          shelf := { s.shelf with
            slots := tput n { cmd := d, epoch := s.shelf.epoch, use := stepWrap 65535 (s.shelf.useOf n), timeout := s.ctl.config.shelfTimeout }
              (tdel slot s.shelf.slots)
            uses := tset 0 n (stepWrap 65535 (s.shelf.useOf n)) s.shelf.uses
            streak := 0 } } with
        out := [s.grantFrame n d] } := by
  let t : State := s.taken slot x { x with left := x.left - 1, plan := x.copies lcn c.cmd.first data }
  rw [exec_done hc hlen]
  refine congrArg Host.Outcome.next ((runEvent_grantsOne (t := t) (d := d) (b := true) ?_ hw hup hn hfree hlow).trans ?_)
  · unfold cmdEnd
    rw [ho]
    dsimp only
    rw [requestCmdEnd_some (by exact hx) (takeData_writes (x := { x with left := x.left - 1 }) hf hp hr)]
    unfold requestOver
    rw [if_neg (by
      change ¬ x.left - 1 = 0
      omega), hd]
    rfl
  · rw [hd]
    rfl

end

section
variable {s : State} {slot epoch use : Nat} {isWrite : Bool} {c : SlotRec}

theorem reply_names (h1 : c.epoch = epoch) (h2 : c.use = use) (h3 : isWrite = true ↔ c.cmd.kind = .write) (result : ShelfResult) :
    exec (.shelfReply slot epoch use isWrite result) s =
      exec (.shelfReply slot c.epoch c.use (c.cmd.kind == .write) result) s := by
  rw [← isWrite_eq h3, h1, h2]

theorem viewStands_iff (x : Volume) (r : FrontReq) (gen : Nat) :
    viewStands x r gen = true ↔ ∀ w ∈ r.view, ∃ d ∈ tfind x.snaps w, d.state = .ready ∧ d.gen = gen := by
  unfold viewStands
  cases r.view with
  | none => simp
  | some w => cases h : tfind x.snaps w <;> simp [h]

/-- Settles O48: a shelf reply ends its command. -/
theorem shelfReplyEndsItsCommand : Obligations.ShelfReplyEndsItsCommand := by
  unfold Obligations.ShelfReplyEndsItsCommand
  intro s slot epoch use isWrite result
  refine ⟨fun h => exec_stale result fun c hc => absurd (h.symm.trans hc) nofun,
    fun c hc hne => exec_stale result fun c' hc' => by rw [← Option.some.inj (hc.symm.trans hc')]; exact hne,
    ?_, ?_, ?_, ?_⟩
  · intro c x lcn hc he hu hw hk ho hwf hx hreq hl hf hup hbusy hd h1 h2 h3 left hy after stands
    have hnames := reply_names (s := s) (slot := slot) he hu (by rw [hw, hk]; simp : isWrite = true ↔ c.cmd.kind = .write)
    refine ⟨fun data hres hlen hst => ?_, fun data hres hlen hst => ?_, fun reason hres hdrop hcl hch hpl hm => ?_⟩
    · rw [hnames, hres]
      exact exec_readDone hc hk ho hwf hx hreq hl hf hup hbusy hd ⟨h1, h2, h3⟩ hy hlen
        (if_neg fun h => hst ((viewStands_iff ..).mp h))
    · rw [hnames, hres]
      exact exec_readDone hc hk ho hwf hx hreq hl hf hup hbusy hd ⟨h1, h2, h3⟩ hy hlen (if_pos ((viewStands_iff ..).mpr hst))
    · rw [hnames, hres, exec_readError hc ho hwf hx hreq hup hbusy hd ⟨h1, h2, h3⟩ hy hdrop hcl hch hpl hm reason]
      unfold State.shelfError
      rw [hk]
      rfl
  · intro c hc he hu hw hk ho h1 h2 h3 hpace d v hr hv data hres hlen
    have hnames := reply_names (s := s) (slot := slot) he hu (by rw [hw, hk]; simp : isWrite = true ↔ c.cmd.kind = .write)
    refine ⟨fun hst => ?_, fun hst hdrain => ?_⟩
    · rw [hnames, hres]
      exact exec_sendDone hc hk ho ⟨h1, h2, h3⟩ hpace hr hv hst hlen
    · obtain ⟨vs, ns, h⟩ := exec_sendStopped hc hk ho ⟨h1, h2, h3⟩ hv hst hdrain hlen
      rw [hnames, hres, h]
      exact ⟨_, rfl, rfl, rfl, rfl, rfl, rfl, rfl, rfl, rfl, rfl, rfl⟩
  · intro c pcn hc he hu hk ho h1 h2 h3 hj hlow hclear returned
    have hnames := reply_names (s := s) (slot := slot) he hu hk
    refine ⟨fun data hres hlen => ?_, fun reason hres => ?_⟩
    · change exec _ s = _
      rw [hnames, hres, exec_done hc (doneLength hk hlen)]
      refine congrArg Host.Outcome.next (runEvent_returned (ns := []) ⟨h1, h2, h3⟩ hj hlow hclear ?_)
      unfold cmdEnd
      rw [ho]
      rfl
    · change exec _ s = _
      rw [hnames, hres, exec_error hc]
      refine congrArg Host.Outcome.next (runEvent_returned (ns := [s.shelfError c.cmd reason]) ⟨h1, h2, h3⟩ hj hlow hclear ?_)
      unfold cmdEnd
      rw [ho]
      rfl
  · intro c x lcn why hc he hu hk ho hx hl h1 h2 h3 data hres hlen blocks slots rest next plan
    have hnames := reply_names (s := s) (slot := slot) he hu hk
    have hlen' := doneLength hk hlen
    have hleft : x.left - 1 ≠ 0 := by omega
    refine ⟨fun hwhy => ?_, fun hwhy => ?_, fun hwhy hdone => ?_, ?_⟩
    · change exec _ s = _
      subst hwhy
      rw [hnames, hres]
      exact exec_partial hc ho hx ⟨h1, h2, h3⟩ hlen' rfl hleft rfl
    · change exec _ s = _
      rw [hnames, hres]
      rcases hwhy with rfl | rfl
      · exact exec_partial hc ho hx ⟨h1, h2, h3⟩ hlen' rfl hleft rfl
      · exact exec_partial hc ho hx ⟨h1, h2, h3⟩ hlen' rfl hleft rfl
    · change exec _ s = _
      subst hwhy
      rw [hnames, hres]
      exact exec_partial hc ho hx ⟨h1, h2, h3⟩ hlen' (takeData_waits (x := { x with left := x.left - 1 }) hdone) hleft rfl
    · intro hwhy hf hup hxd hs1 hs2 p n hp hr hn hfree hlow copied hq block whole use' write granted
      change exec _ s = _
      subst hwhy
      have hwhole := chunkContents_eq hxd hs1 hs2 copied
      rw [hnames, hres, exec_copyEnds hc ho hx ⟨h1, h2, h3⟩ hlen' hl hf hup hp hr hn hfree hlow (d := write) (by rw [hwhole]; rfl)]
      rfl

end

end Sys2Proof.Machine
end

section
/-! PROOFS. The LCNs that a failed WRITE logs (R37, R121): a plan that names a chunk twice. -/

namespace Sys2Proof.Machine

/-! ### A plan with one chunk twice

Of the end of a failed WRITE the statements ask that every chunk of its plan whose in-place write had taken a slot is logged, in
plan order, and nothing of the plan. Where the plan names a chunk twice the chunk is logged once: at the second naming its stamp
is the run counter already. -/

def twicePlan : ChunkPlan :=
  { lcn := 0, cls := .inPlace, old := none, claimed := none, reads := 0, copied := [], slotted := true }

def twiceEntry : Entry :=
  { arrival := 0, req := { tag := 3, kind := .write, vol := 0, view := none, start := 0, count := 1, owner := 0 }
    state := .active, gen := 0, plan := [twicePlan, twicePlan], claims := [], charges := [], left := 1, failed := false, data := [] }

def twiceSlot : SlotRec :=
  { cmd := { kind := .write, cls := .foreground, pcn := 0, first := 0, count := 1, data := [], owner := .request 0 0 .inPlace }
    epoch := 1, use := 1, timeout := 50 }

/-- A part whose one WRITE holds a slot for a chunk that its plan names twice, on an offsite volume with an empty change list. -/
def twicePart : State :=
  { State.reset with
    vols := [(0, { Volume.absent with state := .normal, size := 1, offsite := true, cap := 2 })]
    inflight := [twiceEntry]
    nextArrival := 1
    busy := [{ owner := .front 0, vol := 0, chunks := [0], change := true, proceeded := true }]
    shelf := { Shelf.atReset 1 with up := true, slots := [(0, twiceSlot)] }
    ctl := { State.reset.ctl with part := .running } }

theorem twicePart_fails (c : Instr) (hc : c = .shelfReply 0 1 1 true (.error 1) ∨ c = .shelfCommandTimeout 0) :
    ∃ t, exec c twicePart = .next t ∧ (t.vol 0).activeList = [0] := by
  rcases hc with rfl | rfl
  · exact ⟨_, rfl, rfl⟩
  · exact ⟨_, rfl, rfl⟩

theorem twicePart_quiet : twicePart.quietBut (.front 0) := by unfold State.quietBut; decide

/-- The failed WRITE logs its chunk twice in the statement, and once in the model. -/
theorem not_mediaFailed_twice {t : State} (ht : (t.vol 0).activeList = [0]) : ¬ MediaFailed twicePart t twiceEntry := by
  rintro ⟨-, -, -, -, -, -, -, ⟨hlist, -⟩, -⟩
  rw [show twiceEntry.req.vol = 0 from rfl, ht] at hlist
  exact absurd hlist (by decide)

/-- Refutes O49: the failed WRITE of a plan that names a chunk twice. -/
theorem not_writeEndsAtItsLastReply : ¬ Obligations.WriteEndsAtItsLastReply := by
  intro h
  obtain ⟨-, herror, -⟩ := h twicePart 0 0 twiceSlot twiceEntry .inPlace rfl rfl rfl rfl (by decide) rfl twicePart_quiet rfl (by decide)
  obtain ⟨t, ht, hfails, -⟩ := (herror true 1 (by decide)).2 rfl
  obtain ⟨u, hu, hlist⟩ := twicePart_fails _ (.inl rfl)
  obtain rfl := Host.Outcome.next.inj (ht.symm.trans hu)
  exact not_mediaFailed_twice hlist hfails

/-- Refutes O51: the expiry of the timer of a WRITE whose plan names a chunk twice. -/
theorem not_shelfTimersAndLink : ¬ Obligations.ShelfTimersAndLink := by
  rintro ⟨h, -⟩
  obtain ⟨-, -, -, -, hslot⟩ := h twicePart 0 rfl rfl rfl
  obtain ⟨-, hrequest, -⟩ := hslot twiceSlot rfl
  obtain ⟨hlast, -⟩ := hrequest twiceEntry 0 .inPlace rfl rfl (by decide) rfl twicePart_quiet rfl (by decide)
  obtain ⟨t, ht, hfails, -⟩ := hlast (by decide)
  obtain ⟨u, hu, hlist⟩ := twicePart_fails _ (.inr rfl)
  obtain rfl := Host.Outcome.next.inj (ht.symm.trans hu)
  exact not_mediaFailed_twice hlist hfails

end Sys2Proof.Machine
end

section
/-! PROOFS. The frames of an event in which a request is answered and another one proceeds (R21 to R23). -/

namespace Sys2Proof.Machine

/-! ### An answered request that also hands a command over

The statements ask that the event that ends the work before a request sends the frames of that end and then the frames of the
request's arrival. An entry whose one copy read is its last command is answered in the event that hands its write over; the retest
of the waiting requests comes before the grant, so the frame of the request that proceeds stands before the write. -/

def copyingPlan : ChunkPlan :=
  { lcn := 0, cls := .shared, old := none, claimed := none, reads := 1, copied := [], slotted := true }

def copyingEntry : Entry :=
  { arrival := 0, req := { tag := 3, kind := .read, vol := 0, view := none, start := 0, count := 1, owner := 0 }
    state := .active, gen := 0, plan := [copyingPlan], claims := [], charges := [], left := 1, failed := false, data := [0] }

def copyingSlot : SlotRec :=
  { cmd := { kind := .read, cls := .foreground, pcn := 0, first := 0, count := 1, data := [], owner := .request 0 0 .copyRead }
    epoch := 1, use := 1, timeout := 50 }

/-- A part whose one READ, of an unmapped chunk, has a copy read as its last command. -/
def copyingPart : State :=
  { State.reset with
    vols := [(0, { Volume.absent with state := .normal, size := 1 })]
    inflight := [copyingEntry]
    nextArrival := 1
    busy := [{ owner := .front 0, vol := 0, chunks := [0], change := true, proceeded := true }]
    shelf := { Shelf.atReset 1 with up := true, slots := [(0, copyingSlot)] }
    ctl := { State.reset.ctl with part := .running } }

def copyReadEnds : Instr := .shelfReply 0 1 1 false (.done [0] 0)

/-- The same part with a request of its chunk that waits behind the READ. -/
def copyingBefore (kind : FrontKind) (change : Bool) (data : List Block) : State :=
  { copyingPart with
    nextArrival := 2
    inflight := copyingPart.inflight ++
      [{ arrival := 1, req := { tag := 4, kind := kind, vol := 0, view := none, start := 0, count := 1, owner := 0 }
         state := .waiting, gen := 0, plan := [], claims := [], charges := [], left := 0, failed := false, data := data }]
    busy := copyingPart.busy ++ [{ owner := .front 1, vol := 0, chunks := [0], change := change, proceeded := false }] }

def copyingEnded : State := match exec copyReadEnds copyingPart with | .next u => u | _ => copyingPart

theorem exec_copyReadEnds : exec copyReadEnds copyingPart = .next copyingEnded := rfl

def handedWrite : Output := .shelf 0 1 1 .write 0 1 [0]

def readAnswer : Output := .front 0 1 .ok 3 1 [0]

theorem out_copyingEnded : copyingEnded.out = [readAnswer, handedWrite] := rfl

theorem copyingPart_quiet : copyingPart.quietBut (.front 0) := by unfold State.quietBut; decide

/-- A request that is answered at its arrival does not go together with the end of the READ. -/
theorem not_proceedsInTurn {q t t' : State} {arrive : Instr} {item : BusyItem} {ends : Entry → SlotRec → ShelfResult → Prop} {o : Output}
    (hends : ends copyingEntry copyingSlot (.done [0] 0)) (harrive : exec arrive copyingEnded = .next t) (ht : t.out = [o])
    (hq : exec copyReadEnds q = .next t') (ht' : t'.out = [readAnswer, o, handedWrite]) (ho : o ≠ handedWrite) :
    ¬ ProceedsInTurn copyingPart q arrive item ends := by
  intro h
  have hturn := h 0 0 copyingSlot copyingEntry .copyRead (.done [0] 0) copyingEnded t rfl rfl rfl hends copyingPart_quiet rfl
    (by decide) nofun exec_copyReadEnds (by rw [show copyingEnded.busy = [] from rfl]; nofun) harrive
  have hout := congrArg State.out (Host.Outcome.next.inj (hq.symm.trans hturn))
  rw [ht'] at hout
  simp only [out_copyingEnded, ht, List.cons_append, List.nil_append, List.cons.injEq] at hout
  exact ho hout.2.1

theorem copyingPart_endsRead : endsRead copyingEntry copyingSlot (.done [0] 0) := ⟨rfl, rfl, rfl, [0], rfl, rfl⟩

/-- Refutes O56: a READ that proceeds in the event that answers the request before it and hands its write over. -/
theorem not_readIsAcceptedAndServed : ¬ Obligations.ReadIsAcceptedAndServed := by
  intro h
  obtain ⟨hbehind, -⟩ := h copyingPart 4 0 128 0 1 0 (by decide) rfl rfl (by decide) (by decide) (by decide) (.inl rfl) (by decide)
    (by decide) (by decide) (by decide) (by decide) (by decide)
  obtain ⟨t, ht, hout⟩ : ∃ t, exec (.read 4 0 128 0 1 0 16) copyingEnded = .next t ∧ t.out = [.front 0 1 .ok 4 1 [0]] := ⟨_, rfl, rfl⟩
  obtain ⟨t', ht', hout'⟩ : ∃ t', exec copyReadEnds (copyingBefore .read false []) = .next t' ∧
      t'.out = [readAnswer, .front 0 1 .ok 4 1 [0], handedWrite] := ⟨_, rfl, rfl⟩
  exact not_proceedsInTurn trivial ht hout ht' hout' nofun (hbehind (by decide)).2

/-- Refutes O57: a WRITE refused NOSPACE in the event that answers the request before it and hands its write over. -/
theorem not_writeIsAcceptedRefusedOrHeld : ¬ Obligations.WriteIsAcceptedRefusedOrHeld := by
  intro h
  obtain ⟨hbehind, -⟩ := h copyingPart 4 0 0 1 0 [0] (by decide) rfl rfl (by decide) (by decide) (by decide) rfl (by decide)
    (by decide) (by decide) (by decide) (by decide)
  obtain ⟨t, ht, hout⟩ : ∃ t, exec (.write 4 0 0 1 0 (16 + 1 * 4096) [0]) copyingEnded = .next t ∧
      t.out = [.front 0 2 .noSpace 4 0 []] := ⟨_, rfl, rfl⟩
  obtain ⟨t', ht', hout'⟩ : ∃ t', exec copyReadEnds (copyingBefore .write true [0]) = .next t' ∧
      t'.out = [readAnswer, .front 0 2 .noSpace 4 0 [], handedWrite] := ⟨_, rfl, rfl⟩
  exact not_proceedsInTurn copyingPart_endsRead ht hout ht' hout' nofun (hbehind rfl (by decide)).2

/-- Refutes O58: a DISCARD that proceeds in the event that answers the request before it and hands its write over. -/
theorem not_discardUnmapsTheChunksItCovers : ¬ Obligations.DiscardUnmapsTheChunksItCovers := by
  intro h
  obtain ⟨hbehind, -⟩ := h copyingPart 4 0 0 1 0 rfl rfl (by decide) (by decide) (by decide) rfl (by decide) (by decide)
    ⟨by decide, nofun, nofun⟩ (by decide) (by decide) (by decide)
  obtain ⟨t, ht, hout⟩ : ∃ t, exec (.discard 4 0 0 1 0 16) copyingEnded = .next t ∧ t.out = [.front 0 3 .ok 4 0 []] := ⟨_, rfl, rfl⟩
  obtain ⟨t', ht', hout'⟩ : ∃ t', exec copyReadEnds (copyingBefore .discard true []) = .next t' ∧
      t'.out = [readAnswer, .front 0 3 .ok 4 0 [], handedWrite] := ⟨_, rfl, rfl⟩
  exact not_proceedsInTurn copyingPart_endsRead ht hout ht' hout' nofun (hbehind rfl (by decide)).2

end Sys2Proof.Machine
end

section
/-! PROOFS. The two shelf commands of a restore copy (R109). -/

namespace Sys2Proof.Machine

/-! ### The chunk of a copy that commits -/

/-- The chunk of a copy is mapped, what it displaces filed, the claim committed and the LCN logged. -/
def fillChunk (v lcn pcn g owner : Nat) (e : Event) : Event :=
  logLcn v lcn (commitClaims 1 (displace v lcn g ((e.st.vol v).entry lcn) (mapEntry v lcn pcn owner e)))

theorem works_fillChunk {v : Nat} (lcn pcn g owner : Nat) (e : Event) : Works v e (fillChunk v lcn pcn g owner e) :=
  (((works_mapEntry e lcn pcn owner).trans (works_displace _ _ _ _)).trans (works_commitClaims _ _)).trans (works_logLcn _ _)

/-- The charge that a displaced form carries. -/
def Form.ownedBy (f : Form) (o : Nat) : Bool :=
  match f with
  | .mapped _ _ p => p == o
  | .unmapped _ => false

section
variable {s : State} {e : Event} {v : Nat} (lcn pcn g owner : Nat)

theorem displace_frame (old : MapEntry) : ∃ vs fr as, (displace v lcn g old e).st =
      { e.st with vols := vs, free := fr, accounts := as } ∧
    (∀ o, ((displace v lcn g old e).st.acct o).charge = (e.st.acct o).charge - if old.form.ownedBy o then 1 else 0) ∧
    (∀ o, ((displace v lcn g old e).st.acct o).reserved = (e.st.acct o).reserved) ∧
    ∀ w, ((displace v lcn g old e).st.vol w).map = (e.st.vol w).map := by
  unfold displace
  cases hf : old.form with
  | unmapped c => exact ⟨_, _, _, rfl, fun _ => rfl, fun _ => rfl, fun _ => rfl⟩
  | mapped p born o =>
    dsimp only
    obtain ⟨vs, fr, h⟩ := fileDisplaced_frame v lcn p born g (uncharge o e)
    have hst : (uncharge o e).st = e.st.uncharged o := by rw [uncharge_eq]
    have hacct : ∀ k, (fileDisplaced v lcn p born g (uncharge o e)).st.acct k = (e.st.uncharged o).acct k := by
      intro k
      rw [h, hst]
      rfl
    refine ⟨vs, fr, (e.st.uncharged o).accounts, by rw [h, hst]; rfl, fun k => ?_, fun k => ?_, fun w => ?_⟩
    · rw [hacct, charge_uncharged]
      simp only [Form.ownedBy, beq_iff_eq, eq_comm (a := k)]
    · rw [hacct]
      unfold State.uncharged
      by_cases hk : k = o
      · rw [hk, State.acct_setAcct]
      · rw [State.acct_setAcct_ne _ _ _ _ hk]
    · rw [map_fileDisplaced, hst]
      rfl

/-- What the commit of a chunk does to the claims, the charges and the forms of the map. -/
theorem fillChunk_frame : ∃ vs fr as, (fillChunk v lcn pcn g owner e).st =
      { e.st with vols := vs, free := fr, accounts := as, claims := e.st.claims - 1 } ∧
    (∀ o, ((fillChunk v lcn pcn g owner e).st.acct o).charge =
      (e.st.acct o).charge - if ((e.st.vol v).entry lcn).form.ownedBy o then 1 else 0) ∧
    (∀ o, ((fillChunk v lcn pcn g owner e).st.acct o).reserved = (e.st.acct o).reserved) ∧
    ∀ l, (((fillChunk v lcn pcn g owner e).st.vol v).entry l).form =
      if l = lcn then .mapped pcn (e.st.vol v).gen owner else ((e.st.vol v).entry l).form := by
  obtain ⟨vs, fr, as, h, hcharge, hreserved, hmap⟩ :=
    displace_frame (e := mapEntry v lcn pcn owner e) (v := v) lcn g ((e.st.vol v).entry lcn)
  obtain ⟨vs', hlog⟩ := logLcn_frame v lcn (commitClaims 1 (displace v lcn g ((e.st.vol v).entry lcn) (mapEntry v lcn pcn owner e)))
  have hacct : ∀ o, (fillChunk v lcn pcn g owner e).st.acct o =
      (displace v lcn g ((e.st.vol v).entry lcn) (mapEntry v lcn pcn owner e)).st.acct o := by
    intro o
    unfold fillChunk
    rw [hlog]
    rfl
  refine ⟨vs', fr, as, ?_, fun o => by rw [hacct, hcharge]; rfl, fun o => by rw [hacct, hreserved]; rfl, fun l => ?_⟩
  · unfold fillChunk
    rw [hlog]
    have hclaims : ∀ d : Event, (commitClaims 1 d).st = { d.st with claims := d.st.claims - 1 } := fun _ => rfl
    rw [hclaims, h]
    rfl
  · unfold fillChunk
    rw [form_logLcn]
    change (((displace v lcn g ((e.st.vol v).entry lcn) (mapEntry v lcn pcn owner e)).st.vol v).entry l).form = _
    refine (congrArg (fun m => (tget MapEntry.fresh m l).form) (hmap v)).trans ?_
    have hv : (mapEntry v lcn pcn owner e).st.vol v = (e.st.vol v).setForm lcn (.mapped pcn (e.st.vol v).gen owner) := updVol_st_vol ..
    exact (congrArg (fun x : Volume => (x.entry l).form) hv).trans (form_setForm ..)

theorem files_fillChunk (hf : e.st.free = s.free) (hv : e.st.vol v = s.vol v) (hs : Table.sorted (s.vol v).snaps = true) :
    FilesTo s (fillChunk v lcn pcn g owner e) v g (((s.vol v).entry lcn).form.displaced lcn) := by
  have hmapped : FilesTo s (mapEntry v lcn pcn owner e) v g [] := (FilesTo.refl hf (by rw [hv])).maps lcn pcn owner
  have hdisplaced : FilesTo s (displace v lcn g ((e.st.vol v).entry lcn) (mapEntry v lcn pcn owner e)) v g
      (((s.vol v).entry lcn).form.displaced lcn) := by
    rw [← hv]
    unfold displace Form.displaced
    cases ((e.st.vol v).entry lcn).form with
    | unmapped c => exact hmapped
    | mapped p born o => exact (hmapped.uncharge o).snoc hs lcn p born
  exact (hdisplaced.of_eq (f := commitClaims 1 _) rfl rfl).logs lcn

theorem logs_fillChunk (hs : e.st.sched = s.sched) (hv : e.st.vol v = s.vol v) :
    LogsTo s (fillChunk v lcn pcn g owner e) v [lcn] := by
  have hmapped : LogsTo s (mapEntry v lcn pcn owner e) v [] := (LogsTo.refl hs hv).maps lcn pcn owner
  have hdisplaced : LogsTo s (displace v lcn g ((e.st.vol v).entry lcn) (mapEntry v lcn pcn owner e)) v [] := by
    unfold displace
    cases ((e.st.vol v).entry lcn).form with
    | unmapped c => exact hmapped
    | mapped p born o => exact (hmapped.uncharge o).files lcn p born g
  exact (hdisplaced.of_st (f := commitClaims 1 _) rfl rfl rfl).snoc List.not_mem_nil

end

/-! ### The event of the commit -/

section
variable {s : State} {slot j : Nat} {c : SlotRec} {x : Job} {k : Copy}

/-- The job whose copy has committed. -/
def Job.committed (x : Job) : Job := ({ x with copied := x.copied + 1, copy := none } : Job).advance

theorem committed_eq {r : Range} (hr : x.ranges[x.rangeIdx]? = some r) : x.committed =
    { x with
      copied := x.copied + 1, copy := none
      rangeIdx := if x.offset + 1 < r.count then x.rangeIdx else x.rangeIdx + 1
      offset := if x.offset + 1 < r.count then x.offset + 1 else 0 } := by
  unfold Job.committed Job.advance
  dsimp only
  rw [hr]
  dsimp only
  split_ifs <;> rfl

/-- The event of a commit before its job goes on: the chunk's work is done and the copy has left the busy set. -/
def copyLeft (s : State) (slot j : Nat) (x : Job) (k : Copy) : Event :=
  let m := fillChunk x.dstVol k.lcn k.pcn k.gen x.owner (freedSlot slot (openEvent s))
  { m with
    st := { m.st with jobs := tput j x.committed s.jobs, busy := s.busy.filter fun i => i.owner != .restore j }
    todo := { m.todo with retest := true, drains := true } }

/-- A copy that is writing, its write's slot about to be freed. -/
structure Commits (s : State) (slot j : Nat) (c : SlotRec) (x : Job) (k : Copy) : Prop where
  slot : tfind s.shelf.slots slot = some c
  owner : c.cmd.owner = .restore j
  job : tfind s.jobs j = some x
  copy : x.copy = some k
  stage : k.stage = .writing
  write : c.cmd.kind = .write
  wf : s.wf = true
  quiet : s.quietBut (.restore j)

theorem Commits.frame (s : State) (slot : Nat) (x : Job) (k : Copy) : ∃ vs fr as,
    (fillChunk x.dstVol k.lcn k.pcn k.gen x.owner (freedSlot slot (openEvent s))).st =
      { s with
        vols := vs, free := fr, accounts := as, claims := s.claims - 1, out := []
        shelf := { s.shelf with slots := tdel slot s.shelf.slots } } := by
  obtain ⟨vs, fr, as, h, -⟩ := fillChunk_frame (e := freedSlot slot (openEvent s)) (v := x.dstVol) k.lcn k.pcn k.gen x.owner
  exact ⟨vs, fr, as, h⟩

theorem commitCopy_eq (j : Nat) (x : Job) (k : Copy) (e : Event) : commitCopy j x k e =
    afterVisit j (leaveBusy (.restore j) x.dstVol ((fillChunk x.dstVol k.lcn k.pcn k.gen x.owner e).updJob j fun y =>
      ({ y with copied := y.copied + 1, copy := none } : Job).advance)) := rfl

/-- The job is advanced and its copy leaves the busy set. -/
theorem leaveBusy_committed {m : Event} (hx : tfind m.st.jobs j = some x) (hwf : Table.wf Volume.absent m.st.vols = true)
    (hd : ∀ p ∈ m.st.vols, p.2.drain = none) :
    leaveBusy (.restore j) x.dstVol (m.updJob j fun y => ({ y with copied := y.copied + 1, copy := none } : Job).advance) =
      { m with
        st := { m.st with jobs := tput j x.committed m.st.jobs, busy := m.st.busy.filter fun i => i.owner != .restore j }
        todo := { m.todo with retest := true, drains := true } } := by
  rw [updJob_some hx]
  exact (leaveBusy_noDrains (e := m.upd fun s => { s with jobs := tput j x.committed s.jobs }) hwf hd _ _).trans rfl

theorem Commits.exec (h : Commits s slot j c x k) : exec (.shelfReply slot c.epoch c.use true (.done [] 0)) s = .next
    (closeEvent (runTodo turnBound (afterVisit j (copyLeft s slot j x k)))) := by
  have hexec := Machine.exec_done (data := []) h.slot (by rw [h.write]; rfl)
  rw [show (c.cmd.kind == .write) = true by rw [h.write]; rfl] at hexec
  rw [hexec]
  refine congrArg Host.Outcome.next (congrArg (fun e => closeEvent (runTodo turnBound e)) ?_)
  unfold cmdEnd restoreCmdEnd
  rw [h.owner]
  dsimp only
  rw [show tfind (freedSlot slot (openEvent s)).st.jobs j = some x from h.job]
  dsimp only
  rw [h.copy]
  dsimp only
  rw [h.stage]
  dsimp only
  let m := fillChunk x.dstVol k.lcn k.pcn k.gen x.owner (freedSlot slot (openEvent s))
  obtain ⟨vs, fr, as, hm⟩ := Commits.frame s slot x k
  have hw : Works x.dstVol (freedSlot slot (openEvent s)) m := works_fillChunk ..
  rw [commitCopy_eq]
  have hj : m.st.jobs = s.jobs := by rw [hm]
  have hb : m.st.busy = s.busy := by rw [hm]
  have hvols : Table.wf Volume.absent m.st.vols = true := hw.vols (wf_vols (s := s) h.wf)
  have hdrains : ∀ p ∈ m.st.vols, p.2.drain = none := hw.drains (by exact h.quiet.2.1)
  have hleft := leaveBusy_committed (m := m) (j := j) (x := x) (by rw [hj]; exact h.job) hvols hdrains
  rw [hj, hb] at hleft
  exact congrArg (afterVisit j) hleft

end

end Sys2Proof.Machine
end

section
/-! PROOFS. The commit of a restore copy and the end or stop of its job (R109, R115). -/

namespace Sys2Proof.Machine

section
variable {s : State} {slot j : Nat} {c : SlotRec} {x n : Job} {k : Copy} {f : Event}

/-- The work on the chunk of a copy that commits. -/
def copyFilled (s : State) (slot : Nat) (x : Job) (k : Copy) : Event :=
  fillChunk x.dstVol k.lcn k.pcn k.gen x.owner (freedSlot slot (openEvent s))

theorem works_copyFilled (s : State) (slot : Nat) (x : Job) (k : Copy) :
    Works x.dstVol (freedSlot slot (openEvent s)) (copyFilled s slot x k) := works_fillChunk ..

/-- The rest of an event is empty, as that of the chunk work is, and it asks for no more than retests and grants. -/
theorem copyFilled_rest (s : State) (slot : Nat) (x : Job) (k : Copy) : let m := copyFilled s slot x k
    m.notices = [] ∧ m.late = [] ∧ m.done = [] ∧ m.sent = [] ∧ ∃ p, m.todo = { pool := p, grant := true } := by
  intro m
  obtain ⟨vs, as, fr, cl, ac, pt, pl, rs, on, hm⟩ := (works_copyFilled s slot x k).frame
  change m = _ at hm
  rw [hm]
  exact ⟨rfl, rfl, rfl, rfl, _, rfl⟩

/-- `f` is the event of a commit once its job, now `n`, has ended or stopped. -/
structure CopyStops (s : State) (slot j : Nat) (x : Job) (k : Copy) (n : Job) (f : Event) : Prop where
  ends : VisitEnds x (copyFilled s slot x k) f
  jobs : f.st.jobs = tput j n s.jobs
  busy : f.st.busy = s.busy.filter fun i => i.owner != .restore j
  stops : n.state ≠ .running ∧ n.state ≠ .pausedPool
  todo : ∃ p, f.todo = { retest := true, drains := true, pool := p, grant := true }
  rest : f.late = [] ∧ f.done = [] ∧ f.sent = []
  drains : ∀ p ∈ f.st.vols, p.2.drain = none

theorem CopyStops.frame (h : CopyStops s slot j x k n f) : ∃ vs fr as, f.st =
    { s with
      vols := vs, free := fr, accounts := as, claims := s.claims - 1, out := []
      shelf := { s.shelf with slots := tdel slot s.shelf.slots }, jobs := tput j n s.jobs
      busy := s.busy.filter fun i => i.owner != .restore j } := by
  obtain ⟨vs, as, jb, b, hf⟩ := h.ends.frame
  obtain ⟨vs', fr, as', hm⟩ := Commits.frame s slot x k
  have hj := h.jobs
  have hb := h.busy
  rw [hf] at hj hb
  refine ⟨vs, fr, as, hf.trans ?_⟩
  rw [show (copyFilled s slot x k).st = _ from hm, show jb = _ from hj, show b = _ from hb]

theorem CopyStops.settled (h : CopyStops s slot j x k n f) (hq : s.quietBut (.restore j)) (hsort : Table.sorted s.jobs = true) :
    f.Settled := by
  obtain ⟨hbusy, -, h1, h2, h3, hothers⟩ := hq
  obtain ⟨p, htodo⟩ := h.todo
  obtain ⟨vs, fr, as, hf⟩ := h.frame
  have hnone : ∀ p ∈ f.st.jobs, p.2.state ≠ .running ∧ p.2.state ≠ .pausedPool := by
    rw [h.jobs]
    exact forall_tput (P := fun z : Job => z.state ≠ .running ∧ z.state ≠ .pausedPool) hsort h.stops
      fun p hp hne => hothers p hp fun ho => hne (BusyOwner.restore.inj ho)
  refine ⟨fun _ => by rw [h.busy]; exact hbusy, fun _ => emptyDrain_none h.drains, ?_, fun _ _ p hp => (hnone p hp).2,
    fun _ p hp => canVisit_of_state (hnone p hp).1, ?_, ?_, ?_, ?_, fun _ => .inr (.inr ?_)⟩
  all_goals try rw [htodo]
  · nofun
  · nofun
  · nofun
  · nofun
  · exact fun h => h.elim nofun fun h => absurd rfl h
  · rw [hf]
    exact choose_noneWait ⟨h1, h2, h3⟩

/-- The state that the event leaves. -/
def CopyStops.left (f : Event) : State := closeEvent { f with todo := {} }

theorem CopyStops.exec (h : CopyStops s slot j x k n f) (hc : Commits s slot j c x k)
    (hf : afterVisit j (copyLeft s slot j x k) = f) :
    exec (.shelfReply slot c.epoch c.use true (.done [] 0)) s = .next (CopyStops.left f) := by
  obtain ⟨p, htodo⟩ := h.todo
  rw [hc.exec, hf, runTodo_settled (h.settled hc.quiet (wf_jobs hc.wf)) (by rw [htodo]; exact Nat.zero_le _)]
  unfold Event.sendAnswer
  rw [htodo]
  rfl

theorem CopyStops.out (h : CopyStops s slot j x k n f) : (CopyStops.left f).out = [] ∧ (CopyStops.left f).ctl = f.offered := by
  obtain ⟨vs, fr, as, hf⟩ := h.frame
  obtain ⟨hlate, hdone, hsent⟩ := h.rest
  have hout : f.st.out = [] := by rw [hf]
  unfold CopyStops.left
  rw [closeEvent_quiet (e := { f with todo := {} }) hdone (by intro o ho; rw [show ({ f with todo := {} } : Event).st.out = [] from hout] at ho; cases ho)]
  refine ⟨?_, ?_⟩
  · change f.sent ++ f.st.out = []
    rw [hsent, hout]
    rfl
  · change f.late.foldl offer f.offered = _
    rw [hlate]
    rfl

theorem CopyStops.ended (h : CopyStops s slot j x k n f) : Ended f (CopyStops.left f) := by
  obtain ⟨vs, fr, as, hf⟩ := h.frame
  obtain ⟨hlate, hdone, hsent⟩ := h.rest
  have hout : f.st.out = [] := by rw [hf]
  obtain ⟨h1, h2, h3, h4⟩ := ended_closeEvent (f := { f with todo := {} }) hdone
    (by intro o ho; rw [show ({ f with todo := {} } : Event).st.out = [] from hout] at ho; cases ho)
  exact ⟨h1, h2, h3, h4⟩

/-- Of each volume the end of the event leaves what the chunk work left, but for pins and the reserve flag. -/
theorem CopyStops.vol (h : CopyStops s slot j x k n f) (w : Nat) : ∃ sn b,
    (CopyStops.left f).vol w = { (copyFilled s slot x k).st.vol w with snaps := sn, reserveOver := b } ∧
    ∀ i, (tfind sn i).map Snap.retained = (tfind ((copyFilled s slot x k).st.vol w).snaps i).map Snap.retained := by
  obtain ⟨sn, h1, h2⟩ := h.ends.vol w
  obtain ⟨b, h3⟩ := evaluated_vol f w
  exact ⟨sn, b, by rw [h.ended.vol, h3, h1], h2⟩

/-- The chunk, as it stands after the event. -/
theorem CopyStops.chunk (h : CopyStops s slot j x k n f) (hc : Commits s slot j c x k) (hg : (s.vol x.dstVol).genLaw) :
    let t := CopyStops.left f
    (∀ l, ((t.vol x.dstVol).entry l).form = if l = k.lcn then .mapped k.pcn (s.vol x.dstVol).gen x.owner
      else ((s.vol x.dstVol).entry l).form) ∧
    Filed s t x.dstVol k.gen (((s.vol x.dstVol).entry k.lcn).form.displaced k.lcn) ∧ Logged s t x.dstVol [k.lcn] ∧
    (t.vol x.dstVol).gen = (s.vol x.dstVol).gen := by
  intro t
  obtain ⟨sn, b, hv, hk⟩ := h.vol x.dstVol
  have hsort : Table.sorted (s.vol x.dstVol).snaps = true := ((Volume.wf_iff _).mp (State.wf_vol hc.wf _)).2
  obtain ⟨vs, fr, as, -, -, -, hforms⟩ :=
    fillChunk_frame (e := freedSlot slot (openEvent s)) (v := x.dstVol) k.lcn k.pcn k.gen x.owner
  obtain ⟨m, sn', al, ai, ov, hown⟩ := (works_copyFilled s slot x k).own
  have hfree : t.free = (copyFilled s slot x k).st.free := by
    obtain ⟨b', vs'', as'', q, c', o', fi, ht⟩ := h.ended.frame
    obtain ⟨vs, as, jb, b, hf⟩ := h.ends.frame
    rw [show t = _ from ht, hf]
  refine ⟨fun l => ?_, ?_, ?_, ?_⟩
  · rw [hv]
    exact hforms l
  · refine (files_fillChunk (s := s) (e := freedSlot slot (openEvent s)) k.lcn k.pcn k.gen x.owner rfl rfl hsort).filed hc.wf hg
      hfree fun i => ?_
    rw [hv]
    exact hk i
  · refine (logs_fillChunk (s := s) (e := freedSlot slot (openEvent s)) k.lcn k.pcn k.gen x.owner rfl rfl).logged ⟨_, sn, b, hv⟩
      (fun l => by rw [hv]; rfl) fun hlost o ho => ?_
    change o ∈ (copyFilled s slot x k).overflowNotices at ho
    rw [← h.ends.overflow] at ho
    rw [h.out.2] at hlost ⊢
    exact offered_overflow hlost o ho
  · rw [hv, hown]
    rfl

/-- The rest of the state after the event. -/
theorem CopyStops.leaves (h : CopyStops s slot j x k n f) :
    let t := CopyStops.left f
    t.claims = s.claims - 1 ∧
    (∀ o, (t.acct o).charge = (s.acct o).charge - if ((s.vol x.dstVol).entry k.lcn).form.ownedBy o then 1 else 0) ∧
    t.busy = (s.busy.filter fun i => i.owner != .restore j) ∧
    (∀ w, w ≠ x.dstVol → w ≠ x.srcVol → t.vol w = s.vol w) ∧ t.inflight = s.inflight ∧ t.mirror = s.mirror ∧
    t.run = s.run ∧ t.returns = s.returns ∧ t.jobs = tput j n s.jobs := by
  intro t
  obtain ⟨vs, fr, as, hf⟩ := h.frame
  obtain ⟨b', vs'', as'', q, c', o', fi, ht⟩ := h.ended.frame
  obtain ⟨-, -, -, -, hcharge, -, -⟩ :=
    fillChunk_frame (e := freedSlot slot (openEvent s)) (v := x.dstVol) k.lcn k.pcn k.gen x.owner
  have hst : t = _ := ht
  rw [hf] at hst
  refine ⟨by rw [hst], fun o => ?_, by rw [hst], fun w hw hw' => ?_, by rw [hst], by rw [hst], by rw [hst], by rw [hst], by rw [hst]⟩
  · have hmoney := evaluated_acct f o
    rw [← h.ended.acct o] at hmoney
    exact hmoney.1.trans ((h.ends.charge o).trans (hcharge o))
  · have hreserves : w ∉ f.all.reserves := by
      intro hm
      have hall : f.all = f.causes := by simp [Event.all, h.rest.2.1]
      rw [hall] at hm
      change w ∈ f.reserves at hm
      rw [h.ends.reserves] at hm
      rcases (works_copyFilled s slot x k).reserves w hm with h1 | h1
      · cases h1
      · exact hw h1
    rw [h.ended.vol, evaluated_vol_ne f hreserves, h.ends.other w hw hw', (works_copyFilled s slot x k).other w hw]
    rfl

end

end Sys2Proof.Machine
end

section
/-! PROOFS. A restore copy reads, writes and commits (R109): the statement. -/

namespace Sys2Proof.Machine

section
variable {s : State} {slot j : Nat} {c : SlotRec} {x : Job} {k : Copy}

theorem copyLeft_ends : VisitEnds x (copyFilled s slot x k) (copyLeft s slot j x k) :=
  ⟨⟨_, _, _, _, rfl⟩, fun _ => ⟨_, rfl, fun _ => rfl⟩, fun _ _ _ => rfl, fun _ => rfl, rfl, rfl⟩

theorem copyLeft_job : tfind (copyLeft s slot j x k).st.jobs j = some x.committed := tfind_tput_same ..

theorem copyLeft_todo (s : State) (slot j : Nat) (x : Job) (k : Copy) : ∃ p,
    (copyLeft s slot j x k).todo = { retest := true, drains := true, pool := p, grant := true } := by
  obtain ⟨-, -, -, -, p, h⟩ := copyFilled_rest s slot x k
  refine ⟨p, ?_⟩
  change ({ (copyFilled s slot x k).todo with retest := true, drains := true } : Todo) = _
  rw [h]

theorem copyLeft_drains (h : Commits s slot j c x k) : ∀ p ∈ (copyLeft s slot j x k).st.vols, p.2.drain = none :=
  (works_copyFilled s slot x k).drains (by exact h.quiet.2.1)

/-- The job stops where it is: only its record changes further. -/
theorem copyStops_at {n : Job} (h : Commits s slot j c x k) (hn : n.state ≠ .running ∧ n.state ≠ .pausedPool) :
    CopyStops s slot j x k n { copyLeft s slot j x k with st := { (copyLeft s slot j x k).st with jobs := tput j n s.jobs } } := by
  obtain ⟨-, h2, h3, h4, -⟩ := copyFilled_rest s slot x k
  exact ⟨⟨⟨_, _, _, _, rfl⟩, fun _ => ⟨_, rfl, fun _ => rfl⟩, fun _ _ _ => rfl, fun _ => rfl, rfl, rfl⟩, rfl, rfl, hn,
    copyLeft_todo s slot j x k, ⟨h2, h3, h4⟩, copyLeft_drains h⟩

/-- The state's and the yield flag's part in what comes after the visit. -/
theorem afterVisit_copyLeft : afterVisit j (copyLeft s slot j x k) =
    if x.committed.target.isNone then endJob j .done (copyLeft s slot j x k)
    else if x.committed.suspendReq then (copyLeft s slot j x k).updJob j fun y => { y with suspendReq := false, state := .suspended }
    else if s.yielding then (copyLeft s slot j x k).updJob j fun y => { y with state := .yielded }
    else wakeJobs (copyLeft s slot j x k) := by
  have hy : (copyLeft s slot j x k).st.yielding = s.yielding := by
    obtain ⟨vs, fr, as, hm⟩ := Commits.frame s slot x k
    have hy := congrArg State.yielding hm
    exact hy
  unfold afterVisit
  rw [copyLeft_job, hy]

theorem copyLeft_updJob (g : Job → Job) : (copyLeft s slot j x k).updJob j g =
    { copyLeft s slot j x k with st := { (copyLeft s slot j x k).st with jobs := tput j (g x.committed) s.jobs } } := by
  have htwice : tput j (g x.committed) (copyLeft s slot j x k).st.jobs = tput j (g x.committed) s.jobs := tput_tput ..
  rw [updJob_some copyLeft_job, ← htwice]
  rfl

/-- The event of a commit that ends its job. -/
def copyDone (s : State) (slot j : Nat) (x : Job) (k : Copy) : Event :=
  let e := copyLeft s slot j x k
  { e with
    st := e.st.jobEnded j x.committed .done
    accts := if x.committed.remaining = 0 then e.accts else touching x.committed.owner e.accts
    notices := [s.notice .restoreEnded j 1 x.committed.visits] }

theorem endJob_copyLeft : endJob j .done (copyLeft s slot j x k) = copyDone s slot j x k := by
  obtain ⟨h1, -⟩ := copyFilled_rest s slot x k
  have hn : (copyLeft s slot j x k).notices = [] := h1
  have hnotice : (copyLeft s slot j x k).st.notice .restoreEnded j (x.committed.endedAs .done).stateValue x.committed.visits =
      s.notice .restoreEnded j 1 x.committed.visits := by
    obtain ⟨vs, fr, as, hm⟩ := Commits.frame s slot x k
    have hkept := congrArg State.sched hm
    have hsched : (copyLeft s slot j x k).st.sched = s.sched := hkept
    simp only [State.notice, State.stamp, hsched]
    rfl
  rw [endJob_eq copyLeft_job, hn, hnotice]
  rfl

theorem copyDone_stops (h : Commits s slot j c x k) (hs : x.committed.srcVol = x.srcVol) (hd : x.committed.dstVol = x.dstVol) :
    CopyStops s slot j x k (x.committed.endedAs .done) (copyDone s slot j x k) := by
  obtain ⟨-, h2, h3, h4, -⟩ := copyFilled_rest s slot x k
  obtain ⟨vs, as, hj⟩ := jobEnded_frame (copyLeft s slot j x k).st j x.committed .done
  have htwice : tput j (x.committed.endedAs .done) (copyLeft s slot j x k).st.jobs = tput j (x.committed.endedAs .done) s.jobs :=
    tput_tput ..
  rw [htwice] at hj
  refine ⟨⟨⟨vs, as, _, _, hj⟩, fun w => ?_, fun w hw hw' => ?_, fun o => charge_jobEnded .., rfl, rfl⟩, congrArg State.jobs hj,
    congrArg State.busy hj, ⟨nofun, nofun⟩, copyLeft_todo s slot j x k, ⟨h2, h3, h4⟩, ?_⟩
  · obtain ⟨sn, hv, hk⟩ := vol_unpins (copyLeft s slot j x k).st x.committed w
    refine ⟨sn, (vol_jobEnded ..).trans hv, fun i => ?_⟩
    rw [hk, Option.map_map]
    rfl
  · refine (vol_jobEnded ..).trans ?_
    rw [vol_unpins_ne _ _ (by rw [hs]; exact hw') (by rw [hd]; exact hw)]
    rfl
  · refine unpins_drains x.committed ?_
    rw [unreserved_frame]
    exact copyLeft_drains h

theorem reserved_copyDone (ho : x.committed.owner = x.owner) : ((copyDone s slot j x k).st.acct x.owner).reserved =
    (s.acct x.owner).reserved - x.committed.remaining := by
  obtain ⟨-, -, -, -, -, hreserved, -⟩ :=
    fillChunk_frame (e := freedSlot slot (openEvent s)) (v := x.dstVol) k.lcn k.pcn k.gen x.owner
  refine (congrArg Account.reserved (acct_jobEnded (copyLeft s slot j x k).st j x.committed .done x.owner)).trans ?_
  rw [← ho, acct_unreserved, ho]
  exact congrArg (· - x.committed.remaining) (hreserved x.owner)

end

/-- The copy's read ends DONE and its write takes the lowest free slot. -/
theorem exec_copyRead {s : State} {slot j n : Nat} {c : SlotRec} {x : Job} {k : Copy} {data : List Block}
    (hslot : tfind s.shelf.slots slot = some c) (howner : c.cmd.owner = .restore j) (hjob : tfind s.jobs j = some x)
    (hcopy : x.copy = some k) (hstage : k.stage = .reading) (hread : c.cmd.kind = .read) (hup : s.shelf.up = true)
    (hwait : s.shelf.noneWait) (hlen : data.length = c.cmd.count) (hn : n ≤ 63) (hfree : tfind (tdel slot s.shelf.slots) n = none)
    (hlow : ∀ i, i < n → tfind (tdel slot s.shelf.slots) i ≠ none) :
    let d := copyCmd j s.format.k .write k.pcn data
    let t : State := { s with
      jobs := tput j { x with copy := some { k with stage := .writing } } s.jobs
      shelf := { s.shelf with slots := tdel slot s.shelf.slots } }
    exec (.shelfReply slot c.epoch c.use false (.done data 0)) s = .next
      { State.closed { t with shelf := t.shelf.granted n s.ctl.config.shelfTimeout d } with out := [t.grantFrame n d] } := by
  intro d t
  have hexec := exec_done (data := data) hslot (by rw [hread]; exact hlen)
  rw [show (c.cmd.kind == .write) = false by rw [hread]; rfl] at hexec
  rw [hexec]
  refine congrArg Host.Outcome.next ((runEvent_grantsOne (t := t) (d := d) (b := true) ?_ hwait hup hn hfree hlow).trans rfl)
  unfold cmdEnd restoreCmdEnd
  rw [howner]
  dsimp only
  rw [show tfind (freedSlot slot (openEvent s)).st.jobs j = some x from hjob]
  dsimp only
  rw [hcopy]
  dsimp only
  rw [hstage]
  dsimp only
  rw [updJob_some (x := x) (by exact hjob)]
  rfl

/-- Settles O50: the read's DONE hands the write over, and the write's DONE commits the copy and ends or stops its job. -/
theorem restoreCopyReadsThenCommits : Obligations.RestoreCopyReadsThenCommits := by
  intro s slot j c x k hslot howner hjob hstate hwaiting hcopy hwf blocks slots
  refine ⟨?_, ?_⟩
  · intro hstage hread hup h1 h2 h3 n data hlen hn hfree hlow use write granted
    exact exec_copyRead hslot howner hjob hcopy hstage hread hup ⟨h1, h2, h3⟩ hlen hn hfree hlow
  · intro hstage hwrite hquiet hgen r hr v y old ownedBy place next last hstops
    have h : Commits s slot j c x k := ⟨hslot, howner, hjob, hcopy, hstage, hwrite, hwf, hquiet⟩
    have hn : x.committed = next := by
      rw [committed_eq hr]
      simp only [next, place]
      split_ifs <;> rfl
    have hlast : x.committed.target.isNone = true ↔ last := by
      rw [hn, Option.isNone_iff_eq_none, Job.target, Option.map_eq_none_iff]
    have key : ∃ (m : Job) (f : Event), afterVisit j (copyLeft s slot j x k) = f ∧ CopyStops s slot j x k m f ∧
        (last → m = { next with state := .done, remaining := 0, suspendReq := false } ∧
          (f.st.acct x.owner).reserved = (s.acct x.owner).reserved - x.remaining ∧
          f.notices = [] ++ [s.notice .restoreEnded j 1 next.visits]) ∧
        (¬ last → x.suspendReq = true → m = { next with state := .suspended, suspendReq := false }) ∧
        (¬ last → x.suspendReq = false → s.yielding = true → m = { next with state := .yielded }) := by
      have hafter := afterVisit_copyLeft (s := s) (slot := slot) (j := j) (x := x) (k := k)
      by_cases hl : last
      · rw [if_pos (hlast.mpr hl), endJob_copyLeft] at hafter
        refine ⟨_, _, hafter, copyDone_stops h (by rw [hn]) (by rw [hn]), fun _ => ⟨?_, ?_, ?_⟩, absurd hl, absurd hl⟩
        · rw [hn]
          simp only [Job.endedAs, next, hwaiting]
        · rw [reserved_copyDone (by rw [hn]), hn]
        · rw [← hn]
          rfl
      · rw [if_neg (hlast.not.mpr hl)] at hafter
        have hsus : x.committed.suspendReq = x.suspendReq := by rw [hn]
        rw [hsus] at hafter
        by_cases hs : x.suspendReq = true
        · rw [if_pos hs, copyLeft_updJob] at hafter
          exact ⟨_, _, hafter, copyStops_at h ⟨nofun, nofun⟩, fun h => absurd h hl, fun _ _ => by rw [hn],
            fun _ hno => absurd hs (by rw [hno]; exact Bool.false_ne_true)⟩
        · have hy : s.yielding = true := (hstops.resolve_left hl).resolve_left hs
          rw [if_neg hs, if_pos hy, copyLeft_updJob] at hafter
          exact ⟨_, _, hafter, copyStops_at h ⟨nofun, nofun⟩, fun h => absurd h hl, fun _ hyes => absurd hyes hs, fun _ _ _ => by rw [hn]⟩
    obtain ⟨m, f, hf, hstop, hdone, hsuspended, hyielded⟩ := key
    obtain ⟨hforms, hfiled, hlogged, hg⟩ := hstop.chunk h hgen
    obtain ⟨hclaims, hcharge, hbusy, hother, hinflight, hmirror, hrun, hreturns, hjobs⟩ := hstop.leaves
    refine ⟨CopyStops.left f, hstop.exec h hf, hforms, hfiled, hlogged, hclaims, hcharge, hbusy, hg, hother, hinflight, hmirror,
      hrun, hreturns, hstop.out.1, fun hl => ?_, fun hl hs => ?_, fun hl hs hy => ?_⟩
    · obtain ⟨hm, hreserved, hnotices⟩ := hdone hl
      have hmoney := evaluated_acct f x.owner
      rw [← hstop.ended.acct] at hmoney
      obtain ⟨d, hd⟩ := offered_last hnotices
      exact ⟨hm ▸ hjobs, hmoney.2.1.trans hreserved, d, hstop.out.2.trans hd⟩
    · exact hsuspended hl hs ▸ hjobs
    · exact hyielded hl hs hy ▸ hjobs

end Sys2Proof.Machine
end

section
/-! PROOFS. A scheduled snapshot and the rotation of its series (R95, R173). -/

namespace Sys2Proof.Machine

/-! ### One record written in an event -/

/-- The event with a new record of a volume. -/
def Event.putVol (e : Event) (v : Nat) (y : Volume) : Event := { e with st := e.st.setVol v y }

theorem updVol_putVol (e : Event) (v : Nat) (f : Volume → Volume) : e.updVol v f = e.putVol v (f (e.st.vol v)) := rfl

theorem vol_putVol (e : Event) (v : Nat) (y : Volume) : (e.putVol v y).st.vol v = y := State.vol_setVol ..

theorem putVol_updVol {e : Event} {v : Nat} {y : Volume} {f : Volume → Volume} (hy : y.state ≠ .absent)
    (hf : (f y).state ≠ .absent) : (e.putVol v y).updVol v f = e.putVol v (f y) := by
  rw [updVol_putVol, vol_putVol]
  unfold Event.putVol
  exact congrArg (fun s : State => { e with st := s }) (State.setVol_setVol _ _ hy hf)

/-! ### The rotation of a series -/

/-- The READY snapshots of a series. -/
def Volume.ofSeries (y : Volume) (q : Nat) : List (Nat × Snap) :=
  y.snaps.filter fun p => p.2.kind == .scheduled && p.2.series == some q && p.2.state == .ready

theorem filter_tput_ne {α : Type} (P : Nat × α → Bool) (k : Nat) (a : α) {t : Table α} (h : tfind t k = none) :
    ((tput k a t).filter fun p => P p && p.1 != k) = t.filter P := by
  induction t with
  | nil => simp [tput]
  | cons p t ih =>
    obtain ⟨i, b⟩ := p
    simp only [tfind] at h
    split_ifs at h with hi
    have hkeys : ∀ p ∈ t, p.1 ≠ k := fun p hp hk => by
      have hne : tfind t k ≠ none := by
        clear ih
        induction t with
        | nil => cases hp
        | cons q t ih' =>
          obtain ⟨j, c⟩ := q
          simp only [tfind] at h
          split_ifs at h with hj
          rcases List.mem_cons.mp hp with rfl | hp
          · exact absurd hk (by simpa [eq_comm] using hj)
          · simp only [tfind, if_neg hj]
            exact ih' h hp
      exact hne h
    have hstands : (t.filter fun p => P p && p.1 != k) = t.filter P :=
      List.filter_congr fun p hp => by simp [hkeys p hp]
    simp only [tput]
    split_ifs with h1
    · simp only [List.filter_cons, hstands]
      simp [show ¬ i = k from by omega]
    · simp only [List.filter_cons, ih h]
      simp [show ¬ i = k from by omega]

/-- The new snapshot is no candidate: what the series held before it is. -/
theorem rotationCandidates_eq {y z : Volume} {q slot : Nat} {d : Snap} (hz : z.snaps = tput slot d y.snaps)
    (hs : tfind y.snaps slot = none) : rotationCandidates z q slot = sortByKey (fun p => p.2.gen) (y.ofSeries q) := by
  unfold rotationCandidates Volume.ofSeries
  rw [hz]
  exact congrArg _ (filter_tput_ne (fun p => p.2.kind == .scheduled && p.2.series == some q && p.2.state == .ready) slot d hs)

theorem rotateOver_few {v keep n : Nat} (h : n ≤ keep) (l : List (Nat × Snap)) (e : Event) : rotateOver v keep l n e = (n, e) := by
  cases l with
  | nil => rfl
  | cons p l => exact if_pos h

theorem rotateOver_kept {v keep : Nat} {l : List (Nat × Snap)} (h : ∀ p ∈ l, p.2.held = true ∨ p.2.inUse > 0) (n : Nat) (e : Event) :
    rotateOver v keep l n e = (n, e) := by
  induction l with
  | nil => rfl
  | cons p l ih =>
    unfold rotateOver
    split_ifs with h1 h2
    · rfl
    · exact ih fun q hq => h q (List.mem_cons_of_mem _ hq)
    · exact absurd (h p (List.mem_cons_self ..)) h2

/-- With one snapshot too many the first candidate that is neither held nor pinned goes. -/
theorem rotateOver_one {v keep : Nat} {l : List (Nat × Snap)} {o : Nat × Snap}
    (ho : (l.find? fun p => !p.2.held && p.2.inUse == 0) = some o) (e : Event) :
    rotateOver v keep l (keep + 1) e = (keep, queueDeletion v o.1 e) := by
  induction l with
  | nil => cases ho
  | cons p l ih =>
    rw [List.find?_cons] at ho
    unfold rotateOver
    rw [if_neg (by omega)]
    by_cases hp : (!p.2.held && p.2.inUse == 0) = true
    · rw [hp] at ho
      cases ho
      have hfree : ¬ (o.2.held = true ∨ o.2.inUse > 0) := by
        simp only [Bool.and_eq_true, Bool.not_eq_true', beq_iff_eq] at hp
        rintro (h | h)
        · exact Bool.false_ne_true (hp.1.symm.trans h)
        · omega
      rw [if_neg hfree]
      exact rotateOver_few (le_refl _) _ _
    · rw [Bool.not_eq_true] at hp
      rw [hp] at ho
      have hkept : p.2.held = true ∨ p.2.inUse > 0 := by
        by_contra hno
        rw [not_or] at hno
        have h1 : p.2.held = false := by simpa using hno.1
        have h2 : p.2.inUse = 0 := by omega
        simp [h1, h2] at hp
      rw [if_pos hkept]
      exact ih ho

/-- The oldest of a series is the first in the order of the rotation. -/
theorem find_oldest {l : List (Nat × Snap)} {o : Nat × Snap} (hn : ∀ p ∈ l, ∀ q ∈ l, p.2.gen = q.2.gen → p = q) (ho : o ∈ l)
    (hh : o.2.held = false) (hu : o.2.inUse = 0)
    (hmin : ∀ p ∈ l, p.2.held = false → p.2.inUse = 0 → o.2.gen ≤ p.2.gen) :
    ((sortByKey (fun p => p.2.gen) l).find? fun p => !p.2.held && p.2.inUse == 0) = some o := by
  obtain ⟨hsorted, hperm⟩ := sortByKey_spec (fun p : Nat × Snap => p.2.gen) l
  generalize sortByKey (fun p : Nat × Snap => p.2.gen) l = m at hsorted hperm
  have hfree : (!o.2.held && o.2.inUse == 0) = true := by simp [hh, hu]
  obtain ⟨p, hp⟩ : ∃ p, (m.find? fun p => !p.2.held && p.2.inUse == 0) = some p := by
    cases hf : m.find? fun p => !p.2.held && p.2.inUse == 0 with
    | some p => exact ⟨p, rfl⟩
    | none => exact absurd hfree (List.find?_eq_none.mp hf o (hperm.mem_iff.mpr ho))
  have hpfree : p.2.held = false ∧ p.2.inUse = 0 := by simpa using List.find?_some hp
  have hpm : p ∈ l := hperm.mem_iff.mp (List.mem_of_find?_eq_some hp)
  have hle : p.2.gen ≤ o.2.gen := by
    obtain ⟨-, as, bs, rfl, has⟩ := List.find?_eq_some_iff_append.mp hp
    rcases List.mem_append.mp (hperm.mem_iff.mpr ho) with h1 | h1
    · have h2 := has o h1
      simp [hh, hu] at h2
    · rcases List.mem_cons.mp h1 with rfl | h1
      · exact le_refl _
      · exact (List.pairwise_cons.mp (List.pairwise_append.mp hsorted).2.1).1 o h1
  rw [hp, hn p hpm o ho (le_antisymm hle (hmin p hpm hpfree.1 hpfree.2))]

section
variable {v q keep slot : Nat} {y : Volume} {d : Snap} {e : Event}

theorem rotate_few (hz : (e.st.vol v).snaps = tput slot d y.snaps) (hs : tfind y.snaps slot = none)
    (h : (y.ofSeries q).length < keep) : rotate v q keep slot e = e := by
  have hlen : (rotationCandidates (e.st.vol v) q slot).length + 1 ≤ keep := by
    rw [rotationCandidates_eq hz hs, (sortByKey_spec _ _).2.length_eq]
    exact h
  unfold rotate
  dsimp only
  rw [rotateOver_few hlen]
  exact if_neg (Nat.not_lt.mpr hlen)

theorem rotate_blocked (hz : (e.st.vol v).snaps = tput slot d y.snaps) (hs : tfind y.snaps slot = none)
    (h : keep ≤ (y.ofSeries q).length) (hk : ∀ p ∈ y.ofSeries q, p.2.held = true ∨ 0 < p.2.inUse) :
    rotate v q keep slot e = e.note .rotationBlocked v q ((y.ofSeries q).length + 1 - keep) := by
  obtain ⟨-, hperm⟩ := sortByKey_spec (fun p : Nat × Snap => p.2.gen) (y.ofSeries q)
  unfold rotate
  dsimp only
  rw [rotationCandidates_eq hz hs, rotateOver_kept (fun p hp => hk p (hperm.mem_iff.mp hp)), hperm.length_eq]
  exact if_pos (by dsimp only; omega)

theorem rotate_queues (hz : (e.st.vol v).snaps = tput slot d y.snaps) (hs : tfind y.snaps slot = none)
    (h : keep = (y.ofSeries q).length) (hsort : Table.sorted y.snaps = true) (hgens : (y.snaps.map fun p => p.2.gen).Nodup)
    {o : Nat × Snap} (ho : o ∈ y.ofSeries q) (hh : o.2.held = false) (hu : o.2.inUse = 0)
    (hmin : ∀ p ∈ y.ofSeries q, p.2.held = false → p.2.inUse = 0 → o.2.gen ≤ p.2.gen) (hq : (e.st.vol v).deleteQueue ≠ []) :
    rotate v q keep slot e = e.updVol v fun x =>
      { x with snaps := tput o.1 { o.2 with state := .deletePending } x.snaps, deleteQueue := x.deleteQueue ++ [o.1] } := by
  have hmem : o ∈ y.snaps := (List.mem_filter.mp ho).1
  have hinj : ∀ a ∈ y.ofSeries q, ∀ b ∈ y.ofSeries q, a.2.gen = b.2.gen → a = b := fun a ha b hb =>
    List.inj_on_of_nodup_map hgens (List.mem_filter.mp ha).1 (List.mem_filter.mp hb).1
  have hfind : tfind y.snaps o.1 = some o.2 := tfind_of_mem hsort hmem
  have hne : o.1 ≠ slot := fun hk => by
    rw [hk, hs] at hfind
    cases hfind
  obtain ⟨-, hperm⟩ := sortByKey_spec (fun p : Nat × Snap => p.2.gen) (y.ofSeries q)
  unfold rotate
  dsimp only
  rw [rotationCandidates_eq hz hs, hperm.length_eq, ← h, rotateOver_one (find_oldest hinj ho hh hu hmin),
    if_neg (lt_irrefl _)]
  exact queueDeletion_behind (by rw [hz, tfind_tput_ne _ _ _ _ hne, hfind]) hq

end

/-! ### The create of a SNAP action (R173) -/

/-- The record of a scheduled snapshot. -/
def firedSnap (gen q label now : Nat) : Snap :=
  { kind := .scheduled, series := some q, gen := gen, label := label, created := now, held := false, state := .ready,
    retained := [], inUse := 0, freed := 0 }

theorem makeSnapshot_scheduled {v q keep label i slot : Nat} {e : Event} (hc : createCheck .scheduled (e.st.vol v) = none)
    (hs : (e.st.vol v).emptySlot = some slot) : makeSnapshot v (scheduledCreate q keep label i) e =
      rotate v q keep slot ((e.updVol v fun y => y.snapped slot (firedSnap (e.st.vol v).gen q label e.st.stamp)).note
        .snapshotTaken v slot (e.st.vol v).gen) := by
  have hslot : createSlot (e.st.vol v) .scheduled = slot := by
    unfold createSlot
    rw [if_neg nofun, hs]
    rfl
  unfold makeSnapshot
  rw [createEvent_made hc, show createSlot (e.st.vol v) (scheduledCreate q keep label i).kind = slot from hslot]
  rfl

theorem emptySlot_free {y : Volume} {slot : Nat} (h : y.emptySlot = some slot) : tfind y.snaps slot = none := by
  unfold Volume.emptySlot at h
  have h1 := List.find?_some h
  exact Option.isNone_iff_eq_none.mp h1

end Sys2Proof.Machine
end

section
/-! PROOFS. The due entry of a boundary, and the SNAP action (R172, R173). -/

namespace Sys2Proof.Machine

/-! ### A boundary with one due entry -/

/-- The boundary of the next second, in a RUNNING part in which no deadline comes, no swap applies and no job is RUNNING, has
the one due entry `x`, at the index `i` of the active bank. -/
structure State.DueAt (s : State) (i : Nat) (x : SchedEntry) : Prop where
  clockSet : s.sched.clockSet = true
  clock : s.sched.clock < 4294967295
  deadline : s.run.state = .idle ∨ s.sched.clock + 1 < s.run.deadline
  minute : (s.sched.clock + 1) % 60 = 0
  swap : (s.sched.clock + 1) % 86400 ≠ 0 ∨ s.sched.swap = false
  part : s.ctl.part = .running
  due : ((if s.sched.activeB then s.sched.bankB else s.sched.bankA).filter fun p => decide
    (p.2.used = true ∧ p.2.minute = (s.sched.clock + 1) % 86400 / 60 ∧ p.2.weekdays.testBit ((s.sched.clock + 1) / 86400 % 7) = true)) =
    [(i, x)]
  jobs : ∀ p ∈ s.jobs, p.2.state ≠ .running

/-- The event of a boundary before its entries fire. -/
def boundary (s : State) : Event := { st := { s.ticked with out := [] } }

section
variable {s : State} {i : Nat} {x : SchedEntry}

theorem State.DueAt.runs (h : s.DueAt i x) :
    exec .clockAdvance s = .next (closeEvent (runTodo turnBound (fireEntry i x (boundary s)))) := by
  refine congrArg Host.Outcome.next (congrArg (fun e => closeEvent (runTodo turnBound e)) ?_)
  refine (advanceClock_eq h.clockSet h.clock h.deadline).trans ((if_pos h.minute).trans
    ((minuteBoundary_running (e := boundary s) (by exact h.part) (by exact h.swap)).trans ?_))
  rw [filter_due]
  exact (congrArg (fun l => List.foldl _ _ l) h.due).trans rfl

/-- The entry's event finds no work beyond its own. -/
theorem State.DueAt.fires (h : s.DueAt i x) {t : State} {todo : Todo} {ns : List Notice}
    (hf : fireEntry i x (boundary s) = { st := { t with out := [] }, todo := todo, notices := ns })
    (hs : ({ st := { t with out := [] }, todo := todo, notices := ns } : Event).Settled) (ha : todo.answer = none)
    (hl : todo.drainBegin.length ≤ 900) : exec .clockAdvance s = .next (State.closed { t with ctl := ns.foldl offer t.ctl }) := by
  rw [h.runs, hf]
  exact congrArg Host.Outcome.next (runEvent_noted (s := t) (f := fun _ => _) rfl hs ha hl)

/-- A notice of the boundary carries the new time. -/
theorem State.DueAt.notice (h : s.DueAt i x) (k : NoticeKind) (a b c : Nat) :
    (boundary s).st.notice k a b c = { kind := k, time := s.sched.clock + 1, subject := a, d1 := b, d2 := c } := by
  have hstamp : (boundary s).st.stamp = s.sched.clock + 1 := if_pos h.clockSet
  unfold State.notice
  rw [hstamp]

theorem State.DueAt.ticked (h : s.DueAt i x) :
    s.ticked = { s with sched := { s.sched with clock := s.sched.clock + 1 }, firing := true } := by
  unfold State.ticked
  rw [if_neg (by rw [h.part]; nofun)]

/-- The entry's event has queued notices and nothing else. -/
theorem State.DueAt.fires_notes (h : s.DueAt i x) {ns : List Notice}
    (hf : fireEntry i x (boundary s) = { boundary s with notices := ns }) :
    exec .clockAdvance s = .next (State.closed { s.ticked with ctl := ns.foldl offer s.ctl }) :=
  h.fires (t := s.ticked) (todo := {}) hf ⟨nofun, nofun, nofun, nofun, fun h => h.elim nofun nofun, nofun, nofun, nofun,
    fun h => h.elim nofun fun h => absurd rfl h, nofun⟩ rfl (Nat.zero_le _)

/-- What an entry's event may ask for: nothing, or the jobs' turn and the volume's next drain. -/
def firedTodo (v : Nat) (td : Todo) : Prop := td = {} ∨ td = { jobs := true, drainBegin := [v] }

/-- The entry's event has written a volume's record. -/
theorem State.DueAt.fires_vol (h : s.DueAt i x) {v : Nat} {z : Volume} {ns : List Notice} {td : Todo} {d : Schedule}
    (hf : fireEntry i x (boundary s) =
      { boundary s with st := { ((boundary s).putVol v z).st with sched := d }, notices := ns, todo := td })
    (ht : firedTodo v td) (hw : td ≠ {} → z.waiting = []) :
    exec .clockAdvance s = .next (State.closed { s.ticked.setVol v z with ctl := ns.foldl offer s.ctl, sched := d }) := by
  refine h.fires (t := { s.ticked.setVol v z with sched := d }) (todo := td) hf ?_ ?_ ?_
  all_goals rcases ht with rfl | rfl
  · exact ⟨nofun, nofun, nofun, nofun, fun h => h.elim nofun nofun, nofun, nofun, nofun,
      fun h => h.elim nofun fun h => absurd rfl h, nofun⟩
  · refine ⟨nofun, nofun, nofun, nofun, fun _ p hp => canVisit_of_state (h.jobs p hp), fun w hw' _ => ?_, nofun, nofun,
      fun h => h.elim nofun fun h => absurd rfl h, nofun⟩
    obtain rfl := List.mem_singleton.mp hw'
    change ((s.ticked.setVol w z).vol w).waiting = []
    rw [State.vol_setVol]
    exact hw nofun
  · rfl
  · rfl
  · exact Nat.zero_le _
  · exact (by decide : 1 ≤ 900)

end

/-! ### A create whose event stands at a volume's record -/

/-- A volume with no changing work in hand, no drain and nothing that waits for one. -/
def State.quietVol (s : State) (v : Nat) : Prop :=
  (s.vol v).state = .normal ∧ (s.vol v).drain = none ∧ (s.vol v).waiting = [] ∧ (s.vol v).holdList = [] ∧ drainSet s v = []

section
variable {v q keep label i slot : Nat} {e : Event} {y z : Volume} {ns : List Notice}

/-- The event once the record of a volume stands at `z` and `ns` are queued. -/
def Event.written (e : Event) (v : Nat) (z : Volume) (ns : List Notice) : Event := { e.putVol v z with notices := ns }

theorem written_vol (e : Event) (v : Nat) (z : Volume) (ns : List Notice) : (e.written v z ns).st.vol v = z := vol_putVol ..

/-- The create of a scheduled snapshot, its rotation still to come. -/
theorem makeSnapshot_written {e' : Event} (hy : e'.st.vol v = y) (hs : e'.st.stamp = e.st.stamp)
    (hupd : ∀ f : Volume → Volume, (f y).state ≠ .absent → e'.updVol v f = e.putVol v (f y)) (ha : y.state ≠ .absent)
    (hc : createCheck .scheduled y = none) (hslot : y.emptySlot = some slot) :
    makeSnapshot v (scheduledCreate q keep label i) e' = rotate v q keep slot
      (e.written v (y.snapped slot (firedSnap y.gen q label e.st.stamp)) (e.notices ++ [e.st.notice .snapshotTaken v slot y.gen])) := by
  rw [makeSnapshot_scheduled (by rw [hy]; exact hc) (by rw [hy]; exact hslot), hy, hs, hupd _ (by exact ha)]
  rfl

/-- A SNAP action on a FROZEN volume, or on one with no changing work in hand: the snapshot is made in the event. -/
theorem snapAction_made (hy : e.st.vol v = y) (hc : createCheck .scheduled y = none) (hslot : y.emptySlot = some slot)
    (hstate : y.state = .frozen ∨ e.st.quietVol v) (htodo : e.todo = {})
    (hrot : ∀ dr, rotate v q keep slot (e.written v { y.snapped slot (firedSnap y.gen q label e.st.stamp) with drain := dr }
      (e.notices ++ [e.st.notice .snapshotTaken v slot y.gen])) = e.written v { z with drain := dr } ns)
    (hz : z.drain = y.drain ∧ z.holdList = y.holdList ∧ z.state = y.state) :
    ∃ td, firedTodo v td ∧ (td ≠ {} → y.waiting = []) ∧
      snapAction v (scheduledCreate q keep label i) e = { e.written v z ns with todo := td } := by
  obtain ⟨hdrain, hhold, hstands⟩ := hz
  have husable : y.usable = true := by
    rcases hstate with h | h
    · simp [Volume.usable, h]
    · simp [Volume.usable, ← hy, h.1]
  have haction : snapAction v (scheduledCreate q keep label i) e = askCreate v (scheduledCreate q keep label i) e := by
    unfold snapAction
    dsimp only
    rw [hy, if_neg (not_not.mpr husable), show createCheck (scheduledCreate q keep label i).kind y = none from hc]
  rcases hstate with hf | ⟨hn, hd, hw, hh, hm⟩
  · refine ⟨{}, .inl rfl, fun h => absurd rfl h, ?_⟩
    have ha : y.state ≠ .absent := by rw [hf]; nofun
    rw [haction, askCreate, hy, if_pos hf, makeSnapshot_written hy rfl (fun f _ => by rw [updVol_putVol, hy]) ha hc hslot]
    have hrot0 := hrot y.drain
    rw [show ({ z with drain := y.drain } : Volume) = z by rw [← hdrain]] at hrot0
    have htd : (e.written v z ns).todo = {} := htodo
    exact hrot0.trans (by rw [← htd])
  · refine ⟨{ jobs := true, drainBegin := [v] }, .inr rfl, fun _ => by rw [← hy]; exact hw, ?_⟩
    have hnormal : y.state = .normal := by rw [← hy]; exact hn
    have ha : y.state ≠ .absent := by rw [hnormal]; nofun
    have hzn : z.state ≠ .absent := by rw [hstands]; exact ha
    obtain ⟨d, hask, hwork⟩ := askDrain_holding_empty (c := scheduledCreate q keep label i) hd hw hm
    have hmake : drainAction v d .taken (e.updVol v fun x => { x with drain := some d }) =
        e.written v { z with drain := some d } ns := by
      unfold drainAction
      rw [hwork]
      dsimp only
      have hvol : (e.updVol v fun x => { x with drain := some d }).st.vol v = { y with drain := some d } := by
        rw [updVol_st_vol, hy]
      have hupd : ∀ f : Volume → Volume, (f { y with drain := some d }).state ≠ .absent →
          (e.updVol v fun x => { x with drain := some d }).updVol v f = e.putVol v (f { y with drain := some d }) := by
        intro f hf
        rw [updVol_putVol e, hy, putVol_updVol (by exact ha) hf]
      have hmade := makeSnapshot_written (q := q) (keep := keep) (label := label) (i := i) (e := e) hvol rfl hupd ha hc hslot
      exact hmade.trans (hrot (some d))
    rw [haction, askCreate, hy, if_neg (by rw [hnormal]; nofun), hask,
      finishDrain_some (d := d) (by rw [updVol_st_vol]) (by rw [hmake, written_vol]; exact hhold.trans (by rw [← hy]; exact hh))]
    dsimp only
    rw [hmake]
    have hrest : ({ z with drain := none, holdList := [] } : Volume) = z := by
      rw [← hy] at hdrain hhold
      rw [← hdrain.trans hd, ← hhold.trans hh]
    have hput : (e.written v { z with drain := some d } ns).updVol v (fun x => { x with drain := none, holdList := [] }) =
        e.written v z ns := by
      have h1 := putVol_updVol (e := e) (v := v) (y := { z with drain := some d })
        (f := fun x => { x with drain := none, holdList := [] }) (by exact hzn) (by exact hzn)
      dsimp only at h1
      rw [hrest] at h1
      exact congrArg (fun e : Event => { e with notices := ns }) h1
    rw [hput]
    have htd : (e.written v z ns).todo = {} := htodo
    rw [htd]
    rfl

/-! ### The rotations after a SNAP action -/

variable {d : Snap}

theorem rotate_written_few (hz : z.snaps = tput slot d y.snaps) (hs : tfind y.snaps slot = none) (h : (y.ofSeries q).length < keep) :
    rotate v q keep slot (e.written v z ns) = e.written v z ns :=
  rotate_few (by rw [written_vol]; exact hz) hs h

theorem rotate_written_blocked (hz : z.snaps = tput slot d y.snaps) (hs : tfind y.snaps slot = none)
    (h : keep ≤ (y.ofSeries q).length) (hk : ∀ p ∈ y.ofSeries q, p.2.held = true ∨ 0 < p.2.inUse) :
    rotate v q keep slot (e.written v z ns) =
      e.written v z (ns ++ [e.st.notice .rotationBlocked v q ((y.ofSeries q).length + 1 - keep)]) :=
  rotate_blocked (by rw [written_vol]; exact hz) hs h hk

theorem rotate_written_queues (ha : z.state ≠ .absent) (hz : z.snaps = tput slot d y.snaps) (hs : tfind y.snaps slot = none)
    (h : keep = (y.ofSeries q).length) (hsort : Table.sorted y.snaps = true) (hgens : (y.snaps.map fun p => p.2.gen).Nodup)
    {o : Nat × Snap} (ho : o ∈ y.ofSeries q) (hh : o.2.held = false) (hu : o.2.inUse = 0)
    (hmin : ∀ p ∈ y.ofSeries q, p.2.held = false → p.2.inUse = 0 → o.2.gen ≤ p.2.gen) (hq : z.deleteQueue ≠ []) :
    rotate v q keep slot (e.written v z ns) = e.written v
      { z with snaps := tput o.1 { o.2 with state := .deletePending } z.snaps, deleteQueue := z.deleteQueue ++ [o.1] } ns := by
  rw [rotate_queues (by rw [written_vol]; exact hz) hs h hsort hgens ho hh hu hmin (by rw [written_vol]; exact hq)]
  exact congrArg (fun e : Event => { e with notices := ns }) (putVol_updVol (e := e) (v := v) (y := z)
    (f := fun x => { x with snaps := tput o.1 { o.2 with state := .deletePending } x.snaps, deleteQueue := x.deleteQueue ++ [o.1] })
    ha (by exact ha))

end

end Sys2Proof.Machine
end

section
/-! PROOFS. The SNAP and FREEZE actions, case by case (R173, R174). -/

namespace Sys2Proof.Machine

/-! ### A drain that begins behind changing work -/

/-- The drain that begins with a volume's changing work in hand. -/
def State.beginning (s : State) (v : Nat) (w : DrainWork) : Drain :=
  { work := w, members := drainSet s v, timeout := s.ctl.config.drainTimeout }

section
variable {v : Nat} {e : Event}

theorem askDrain_holding_begins {c : CreateReq} (hd : (e.st.vol v).drain = none) (hw : (e.st.vol v).waiting = [])
    (hm : drainSet e.st v ≠ []) : askDrain v (.holding c) e =
      e.putVol v { e.st.vol v with drain := some (e.st.beginning v (.holding c)) } := by
  have hask : (e.st.vol v).drain = none ∧ (e.st.vol v).waiting = [] := ⟨hd, hw⟩
  simp only [askDrain, if_pos hask, beginDrain, if_neg hm]
  rfl

theorem askFreeze_begins {a : FreezeAsker} (hs : (e.st.vol v).state = .normal) (hd : (e.st.vol v).drain = none)
    (hw : (e.st.vol v).waiting = []) (hm : drainSet e.st v ≠ []) : askFreeze v a e =
      e.putVol v { e.st.vol v with state := .freezing, drain := some (e.st.beginning v (.refusing [a])) } := by
  have hask : (e.st.vol v).drain = none ∧ (e.st.vol v).waiting = [] := ⟨hd, hw⟩
  have hm' : ¬ drainSet (e.updVol v fun x => { x with state := .freezing }).st v = [] := hm
  simp only [askFreeze, hs, askDrain, if_pos hask, beginDrain, if_neg hm']
  rw [Event.updVol_updVol _ _ _ _ (by dsimp only; nofun) (by dsimp only; nofun)]
  rfl

/-- A freeze of a volume with no changing work in hand: the volume is FROZEN and the freeze is answered in the event. -/
theorem askFreeze_quiet {a : FreezeAsker} {z : Volume} {ns : List Notice} {d : Schedule} (hq : e.st.quietVol v)
    (htodo : e.todo = {})
    (hans : ∀ dr, answerFreeze v .ok a (e.putVol v { e.st.vol v with state := .frozen, drain := dr }) =
      { e with st := { (e.putVol v { z with drain := dr }).st with sched := d }, notices := ns })
    (hz : z.drain = none ∧ z.holdList = [] ∧ z.state = .frozen) :
    askFreeze v a e = { e with
      st := { (e.putVol v z).st with sched := d }, notices := ns, todo := { jobs := true, drainBegin := [v] } } := by
  obtain ⟨hn, hd, hw, hh, hm⟩ := hq
  obtain ⟨hdrain, hhold, hfrozen⟩ := hz
  obtain ⟨dr, hask, hwork⟩ := askDrain_refusing_empty (fs := [a]) hd hw hm hn
  have hfreeze : askFreeze v a e = askDrain v (.refusing [a]) e := by simp only [askFreeze, hn]
  have haction : drainAction v dr .taken (e.updVol v fun x => { x with state := .freezing, drain := some dr }) =
      { e with st := { (e.putVol v { z with drain := some dr }).st with sched := d }, notices := ns } := by
    rw [← hans]
    simp only [drainAction, hwork, List.foldl_cons, List.foldl_nil, if_true]
    rw [updVol_putVol e, putVol_updVol (by dsimp only; nofun) (by dsimp only; nofun)]
  let r : Event := { e with st := { (e.putVol v { z with drain := some dr }).st with sched := d }, notices := ns }
  have hvol : r.st.vol v = { z with drain := some dr } := vol_putVol ..
  have hhold' : ((drainAction v dr .taken (e.updVol v fun x => { x with state := .freezing, drain := some dr })).st.vol v).holdList =
      [] := by
    rw [haction]
    exact (congrArg Volume.holdList hvol).trans hhold
  rw [hfreeze, hask, finishDrain_some (d := dr) (by rw [updVol_st_vol]) hhold']
  dsimp only
  rw [haction]
  have hrest : ({ z with drain := none, holdList := [] } : Volume) = z := by rw [← hdrain, ← hhold]
  have hput : ({ e with st := { (e.putVol v { z with drain := some dr }).st with sched := d }, notices := ns } : Event).updVol v (fun x => { x with drain := none, holdList := [] }) =
      { e with st := { (e.putVol v z).st with sched := d }, notices := ns } := by
    have h1 := putVol_updVol (e := e) (v := v) (y := { z with drain := some dr })
      (f := fun x => { x with drain := none, holdList := [] }) (by dsimp only; rw [hfrozen]; nofun) (by dsimp only; rw [hfrozen]; nofun)
    dsimp only at h1
    rw [hrest] at h1
    exact congrArg (fun f : Event => { e with st := { f.st with sched := d }, notices := ns }) h1
  rw [hput, htodo]
  rfl

end

/-! ### SNAP -/

section
variable {s : State} {i slot : Nat} {x : SchedEntry} {z : Volume} {ns : List Notice}

theorem quietVol_boundary {v : Nat} (h : s.quietVol v) : (boundary s).st.quietVol v := h

/-- A SNAP action that is refused. -/
theorem State.DueAt.snap_refused (h : s.DueAt i x) (ha : x.action = 1) {code : Code}
    (hc : (s.vol x.volume).usable = false ∧ code = .badVol ∨
      (s.vol x.volume).usable = true ∧ createCheck .scheduled (s.vol x.volume) = some code) :
    exec .clockAdvance s = .next (State.closed { s.ticked with
      ctl := offer s.ctl { kind := .snapshotSkipped, time := s.sched.clock + 1, subject := x.volume, d1 := code.value, d2 := i } }) := by
  refine h.fires_notes (ns := [_]) ?_
  rw [← h.notice]
  have hvol : (boundary s).st.vol x.volume = s.vol x.volume := rfl
  simp only [fireEntry, ha]
  unfold snapAction
  dsimp only
  rw [hvol]
  rcases hc with ⟨hu, rfl⟩ | ⟨hu, hc⟩
  · rw [if_pos (by simp [hu])]
    rfl
  · rw [if_neg (by simp [hu]), show createCheck (scheduledCreate x.param x.keep x.label i).kind (s.vol x.volume) = some code from hc]
    rfl

/-- A SNAP action behind changing work in hand. -/
theorem State.DueAt.snap_drains (h : s.DueAt i x) (ha : x.action = 1) (hc : createCheck .scheduled (s.vol x.volume) = none)
    (hn : (s.vol x.volume).state = .normal) (hd : (s.vol x.volume).drain = none) (hw : (s.vol x.volume).waiting = [])
    (hm : drainSet s x.volume ≠ []) :
    exec .clockAdvance s = .next (State.closed (s.ticked.setVol x.volume { s.vol x.volume with
      drain := some (s.beginning x.volume (.holding (scheduledCreate x.param x.keep x.label i))) })) := by
  have hvol : (boundary s).st.vol x.volume = s.vol x.volume := rfl
  refine (h.fires_vol (td := {}) (ns := []) (d := s.ticked.sched) ?_ (.inl rfl) (fun h => absurd rfl h)).trans rfl
  simp only [fireEntry, ha]
  unfold snapAction
  dsimp only
  rw [hvol, if_neg (by simp [Volume.usable, hn]),
    show createCheck (scheduledCreate x.param x.keep x.label i).kind (s.vol x.volume) = none from hc]
  dsimp only
  rw [askCreate, hvol, if_neg (by rw [hn]; nofun), askDrain_holding_begins (by exact hd) (by exact hw) (by exact hm)]
  rfl

/-- A SNAP action that makes its snapshot in the event. -/
theorem State.DueAt.snap_made (h : s.DueAt i x) (ha : x.action = 1) (hc : createCheck .scheduled (s.vol x.volume) = none)
    (hslot : (s.vol x.volume).emptySlot = some slot) (hstate : (s.vol x.volume).state = .frozen ∨ s.quietVol x.volume)
    (hrot : ∀ dr, rotate x.volume x.param x.keep slot ((boundary s).written x.volume
        { (s.vol x.volume).snapped slot (firedSnap (s.vol x.volume).gen x.param x.label (s.sched.clock + 1)) with drain := dr }
        [{ kind := .snapshotTaken, time := s.sched.clock + 1, subject := x.volume, d1 := slot, d2 := (s.vol x.volume).gen }]) =
      (boundary s).written x.volume { z with drain := dr } ns)
    (hz : z.drain = (s.vol x.volume).drain ∧ z.holdList = (s.vol x.volume).holdList ∧ z.state = (s.vol x.volume).state ∧
      z.waiting = (s.vol x.volume).waiting) :
    exec .clockAdvance s = .next (State.closed { s.ticked.setVol x.volume z with ctl := ns.foldl offer s.ctl }) := by
  have hstamp : (boundary s).st.stamp = s.sched.clock + 1 := if_pos h.clockSet
  rw [← h.notice, ← hstamp] at hrot
  obtain ⟨td, htd, hwait, hsnap⟩ := snapAction_made (e := boundary s) (v := x.volume) (label := x.label) (i := i) (z := z) (ns := ns)
    rfl hc hslot (hstate.imp id quietVol_boundary) rfl hrot ⟨hz.1, hz.2.1, hz.2.2.1⟩
  refine (h.fires_vol (td := td) (ns := ns) (z := z) (d := s.ticked.sched) ?_ htd
    (fun ht => hz.2.2.2.trans (hwait ht))).trans rfl
  simp only [fireEntry, ha]
  exact hsnap

/-! ### FREEZE -/

/-- The follow-up record of a fired FREEZE. -/
def dueFollowUp (x : SchedEntry) (i n : Nat) : FollowUp :=
  { number := n, vol := x.volume, index := i, series := x.param, keep := x.keep, label := x.label }

theorem fireFreeze_bare (h : x.snapOpt = 0) (e : Event) : fireFreeze i x e = askFreeze x.volume (.schedule i none) e := if_pos h

theorem State.DueAt.freeze_skipped (h : s.DueAt i x) (ha : x.action = 2) (ho : x.snapOpt = 0)
    (hg : (s.vol x.volume).state = .absent ∨ (s.vol x.volume).state = .deleting) :
    exec .clockAdvance s = .next (State.closed { s.ticked with
      ctl := offer s.ctl { kind := .freezeSkipped, time := s.sched.clock + 1, subject := x.volume, d1 := 4, d2 := i } }) := by
  have hvol : (boundary s).st.vol x.volume = s.vol x.volume := rfl
  refine h.fires_notes (ns := [_]) ?_
  rw [← h.notice]
  simp only [fireEntry, ha]
  rw [fireFreeze_bare ho]
  rcases hg with hg | hg <;> simp only [askFreeze, hvol, hg] <;> rfl

theorem State.DueAt.freeze_frozen (h : s.DueAt i x) (ha : x.action = 2) (ho : x.snapOpt = 0)
    (hf : (s.vol x.volume).state = .frozen) : exec .clockAdvance s = .next (State.closed s.ticked) := by
  have hvol : (boundary s).st.vol x.volume = s.vol x.volume := rfl
  refine (h.fires_notes (ns := []) ?_).trans rfl
  simp only [fireEntry, ha]
  rw [fireFreeze_bare ho]
  simp only [askFreeze, hvol, hf]
  rfl

theorem State.DueAt.freeze_quiet (h : s.DueAt i x) (ha : x.action = 2) (ho : x.snapOpt = 0) (hq : s.quietVol x.volume) :
    exec .clockAdvance s = .next (State.closed (s.ticked.setVol x.volume { s.vol x.volume with state := .frozen })) := by
  refine (h.fires_vol (td := { jobs := true, drainBegin := [x.volume] }) (ns := []) (d := s.ticked.sched)
    (z := { s.vol x.volume with state := .frozen }) ?_ (.inr rfl) (fun _ => hq.2.2.1)).trans rfl
  simp only [fireEntry, ha]
  rw [fireFreeze_bare ho]
  exact askFreeze_quiet (quietVol_boundary hq) rfl (fun dr => rfl) ⟨hq.2.1, hq.2.2.2.1, rfl⟩

/-- The lowest number that no follow-up record holds. -/
theorem freeRecord_of {d : Schedule} {n : Nat} (hlt : n < 48) (hfree : ∀ f ∈ d.followUps, f.number ≠ n)
    (hlow : ∀ m, m < n → ∃ f ∈ d.followUps, f.number = m) : d.freeRecord = n := by
  have hfind : ((List.range Config.followUps).find? fun n => !d.followUps.any fun f => f.number == n) = some n := by
    rw [List.find?_range_eq_some]
    refine ⟨by simpa using hfree, List.mem_range.mpr hlt, fun m hm => ?_⟩
    obtain ⟨f, hf, rfl⟩ := hlow m hm
    simpa using ⟨f, hf, rfl⟩
  unfold Schedule.freeRecord
  rw [hfind]
  rfl

/-- The one follow-up record is taken. -/
theorem takeFollowUp_only {e : Event} {f : FollowUp} {n : Nat} (h : e.st.sched.followUps = []) (hn : f.number = n) :
    takeFollowUp (some n) (e.updSched fun d => { d with followUps := d.followUps ++ [f] }) = (some f, e) := by
  subst hn
  unfold takeFollowUp
  simp only [Event.updSched, Event.upd, h, List.nil_append, List.find?_cons, beq_self_eq_true, List.eraseP_cons, cond_true]
  refine Prod.ext rfl ?_
  obtain ⟨st, td, pt, ac, rp, rs, an, on, ns, lt, dn, sn⟩ := e
  dsimp only at h ⊢
  rw [← h]

/-- A FREEZE with its follow-up snapshot, made in the event. -/
theorem State.DueAt.freeze_snaps (h : s.DueAt i x) (ha : x.action = 2) (ho : x.snapOpt ≠ 0) (hq : s.quietVol x.volume)
    (hf : s.sched.followUps = []) (hc : createCheck .scheduled (s.vol x.volume) = none)
    (hfew : ((s.vol x.volume).ofSeries x.param).length < x.keep) (hslot : (s.vol x.volume).emptySlot = some slot) :
    exec .clockAdvance s = .next (State.closed { s.ticked.setVol x.volume { (s.vol x.volume).snapped slot
        (firedSnap (s.vol x.volume).gen x.param x.label (s.sched.clock + 1)) with state := .frozen } with
      ctl := offer s.ctl { kind := .snapshotTaken, time := s.sched.clock + 1, subject := x.volume, d1 := slot,
                           d2 := (s.vol x.volume).gen } }) := by
  have hvol : (boundary s).st.vol x.volume = s.vol x.volume := rfl
  have hnormal : (s.vol x.volume).state = .normal := hq.1
  have hstamp : (boundary s).st.stamp = s.sched.clock + 1 := if_pos h.clockSet
  let y := s.vol x.volume
  let e1 := (boundary s).updSched fun d => { d with followUps := d.followUps ++ [dueFollowUp x i 0] }
  let made : Volume := { y.snapped slot (firedSnap y.gen x.param x.label (boundary s).st.stamp) with state := .frozen }
  have hans : ∀ dr, answerFreeze x.volume .ok (.schedule i (some 0)) (e1.putVol x.volume { y with state := .frozen, drain := dr }) =
      { e1 with
        st := { (e1.putVol x.volume { made with drain := dr }).st with sched := (boundary s).st.sched }
        notices := [(boundary s).st.notice .snapshotTaken x.volume slot y.gen] } := by
    intro dr
    have htake : takeFollowUp (some 0) (e1.putVol x.volume { y with state := .frozen, drain := dr }) =
        (some (dueFollowUp x i 0), (boundary s).putVol x.volume { y with state := .frozen, drain := dr }) :=
      takeFollowUp_only (e := (boundary s).putVol x.volume { y with state := .frozen, drain := dr }) (by exact hf) rfl
    have hmade := makeSnapshot_written (e := boundary s) (e' := (boundary s).putVol x.volume { y with state := .frozen, drain := dr })
      (v := x.volume) (y := { y with state := .frozen, drain := dr }) (q := x.param) (keep := x.keep) (label := x.label) (i := i)
      (slot := slot) (vol_putVol ..) rfl (fun f hf => putVol_updVol (by dsimp only; nofun) hf) (by dsimp only; nofun) hc hslot
    unfold answerFreeze
    dsimp only
    rw [htake, if_pos rfl]
    dsimp only [dueFollowUp]
    rw [hmade, rotate_written_few (y := y) rfl (emptySlot_free hslot) hfew]
    rfl
  have hfire : fireEntry i x (boundary s) = { boundary s with
      st := { ((boundary s).putVol x.volume made).st with sched := (boundary s).st.sched }
      notices := [(boundary s).st.notice .snapshotTaken x.volume slot y.gen]
      todo := { jobs := true, drainBegin := [x.volume] } } := by
    simp only [fireEntry, ha]
    unfold fireFreeze
    have hrecord : (boundary s).st.sched.freeRecord = 0 := freeRecord_of (by omega)
      (by rw [show (boundary s).st.sched.followUps = [] from hf]; nofun) nofun
    rw [if_neg ho, if_pos (by rw [show (boundary s).st.sched.followUps = [] from hf]; decide), hrecord]
    exact askFreeze_quiet (e := e1) (quietVol_boundary hq) rfl hans ⟨hq.2.1, hq.2.2.2.1, rfl⟩
  refine (h.fires_vol hfire (.inr rfl) (fun _ => hq.2.2.1)).trans ?_
  rw [h.notice]
  simp only [made, hstamp]
  rfl

/-- A FREEZE behind changing work in hand, with its follow-up record kept. -/
theorem State.DueAt.freeze_drains (h : s.DueAt i x) (ha : x.action = 2) (ho : x.snapOpt ≠ 0)
    (hn : (s.vol x.volume).state = .normal) (hd : (s.vol x.volume).drain = none) (hw : (s.vol x.volume).waiting = [])
    (hm : drainSet s x.volume ≠ []) (hlen : s.sched.followUps.length < 48) {n : Nat} (hlt : n < 48)
    (hfree : ∀ f ∈ s.sched.followUps, f.number ≠ n) (hlow : ∀ m, m < n → ∃ f ∈ s.sched.followUps, f.number = m) :
    exec .clockAdvance s = .next (State.closed { s.ticked.setVol x.volume { s.vol x.volume with
        state := .freezing, drain := some (s.beginning x.volume (.refusing [.schedule i (some n)])) } with
      sched := { s.ticked.sched with followUps := s.sched.followUps ++ [dueFollowUp x i n] } }) := by
  refine (h.fires_vol (td := {}) (ns := []) (d := { s.ticked.sched with followUps := s.sched.followUps ++ [dueFollowUp x i n] })
    ?_ (.inl rfl) (fun h => absurd rfl h)).trans rfl
  have hrecord : (boundary s).st.sched.freeRecord = n := freeRecord_of hlt hfree hlow
  simp only [fireEntry, ha]
  unfold fireFreeze
  rw [if_neg ho, if_pos (by exact hlen), hrecord]
  dsimp only
  rw [askFreeze_begins (by exact hn) (by exact hd) (by exact hw) (by exact hm)]
  rfl

/-- A FREEZE behind changing work in hand that finds the list of follow-up records full. -/
theorem State.DueAt.freeze_full (h : s.DueAt i x) (ha : x.action = 2) (ho : x.snapOpt ≠ 0)
    (hn : (s.vol x.volume).state = .normal) (hd : (s.vol x.volume).drain = none) (hw : (s.vol x.volume).waiting = [])
    (hm : drainSet s x.volume ≠ []) (hlen : 48 ≤ s.sched.followUps.length) :
    exec .clockAdvance s = .next (State.closed { s.ticked.setVol x.volume { s.vol x.volume with
        state := .freezing, drain := some (s.beginning x.volume (.refusing [.schedule i none])) } with
      ctl := offer s.ctl { kind := .snapshotSkipped, time := s.sched.clock + 1, subject := x.volume, d1 := 3, d2 := i } }) := by
  refine (h.fires_vol (td := {}) (ns := [_]) (d := s.ticked.sched) ?_ (.inl rfl) (fun h => absurd rfl h)).trans rfl
  rw [← h.notice]
  simp only [fireEntry, ha]
  unfold fireFreeze
  rw [if_neg ho, if_neg (by exact Nat.not_lt.mpr hlen), askFreeze_begins (by exact hn) (by exact hd) (by exact hw) (by exact hm)]
  rfl

end

end Sys2Proof.Machine
end

section
/-! PROOFS. The THAW and RUN actions, and the due entries of a boundary (R172 to R175). -/

namespace Sys2Proof.Machine

section
variable {s : State} {i : Nat} {x : SchedEntry}

/-! ### THAW -/

theorem State.DueAt.thaw_skipped (h : s.DueAt i x) (ha : x.action = 3)
    (hg : (s.vol x.volume).state = .absent ∨ (s.vol x.volume).state = .deleting) :
    exec .clockAdvance s = .next (State.closed { s.ticked with
      ctl := offer s.ctl { kind := .thawSkipped, time := s.sched.clock + 1, subject := x.volume, d1 := 4, d2 := i } }) := by
  have hvol : (boundary s).st.vol x.volume = s.vol x.volume := rfl
  refine h.fires_notes (ns := [_]) ?_
  rw [← h.notice]
  simp only [fireEntry, ha]
  unfold fireThaw
  rcases hg with hg | hg <;> simp only [thawVolume, hvol, hg] <;> rfl

theorem State.DueAt.thaw_normal (h : s.DueAt i x) (ha : x.action = 3) (hn : (s.vol x.volume).state = .normal) :
    exec .clockAdvance s = .next (State.closed s.ticked) := by
  have hvol : (boundary s).st.vol x.volume = s.vol x.volume := rfl
  refine (h.fires_notes (ns := []) ?_).trans rfl
  simp only [fireEntry, ha]
  unfold fireThaw
  simp only [thawVolume, hvol, hn]
  rfl

theorem State.DueAt.thaw_frozen (h : s.DueAt i x) (ha : x.action = 3) (hf : (s.vol x.volume).state = .frozen)
    (hj : ∀ p ∈ s.jobs, p.2.state = .pausedFrozen → p.2.dstVol ≠ x.volume) :
    exec .clockAdvance s = .next (State.closed (s.ticked.setVol x.volume { s.vol x.volume with state := .normal })) := by
  have hvol : (boundary s).st.vol x.volume = s.vol x.volume := rfl
  let t : State := s.ticked.setVol x.volume { s.vol x.volume with state := .normal }
  have hmove : ∀ to_, moveJobs (fun z => z.state == .pausedFrozen && z.dstVol == x.volume) to_ { st := { t with out := [] } } =
      { st := { t with out := [] } } := by
    intro to_
    have hmap : (s.jobs.map fun p => if p.2.state == .pausedFrozen && p.2.dstVol == x.volume then (p.1, { p.2 with state := to_ }) else p) =
        s.jobs := by
      conv_rhs => rw [← List.map_id s.jobs]
      exact List.map_congr_left fun p hp => if_neg (by simpa using hj p hp)
    unfold moveJobs Event.upd
    exact congrArg (fun js => ({ st := { t with out := [], jobs := js } } : Event)) hmap
  refine (h.fires (t := t) (todo := { jobs := true }) (ns := []) ?_ ?_ rfl (Nat.zero_le _)).trans rfl
  · simp only [fireEntry, ha]
    unfold fireThaw
    simp only [thawVolume, hvol, hf]
    rw [if_pos trivial]
    unfold resumeFrozen
    exact congrArg wakeJobs (hmove _)
  · exact ⟨nofun, nofun, nofun, nofun, fun _ p hp => canVisit_of_state (h.jobs p hp), nofun, nofun, nofun,
      fun h => h.elim nofun fun h => absurd rfl h, nofun⟩

/-- An event whose reply is no OK, with no notices and nothing on the links. -/
theorem closeEvent_refusal {t : State} {a : Answer} {td : Todo} (ha : td.answer = some a) (hj : a.job = none) (hup : t.frontUp = true)
    (hx : t.ctl.executing = none) (hc : a.code ≠ .ok) :
    closeEvent ({ st := { t with out := [] }, todo := td } : Event).sendAnswer = t.answered a.number a.tag a.code a.result := by
  rw [closeEvent_answer (e := { st := { t with out := [] }, todo := td }) ha hup rfl (by simp), hj]
  dsimp only
  rw [completeReply_read _ _ _ _ _ (.inr hc) (.inr hc)]
  have hctl : ({ t.ctl with executing := none } : Control) = t.ctl := by rw [← hx]
  unfold State.answered
  rw [hctl]
  rfl

/-- A THAW of a FREEZING volume: the control request that waits for the freeze is answered ACTIVE. -/
theorem State.DueAt.thaw_freezing (h : s.DueAt i x) (ha : x.action = 3) (hs : (s.vol x.volume).state = .freezing)
    (hw : (s.vol x.volume).waiting = []) (hh : (s.vol x.volume).holdList = []) (hup : s.frontUp = true) (hqueue : s.ctl.queue = [])
    {m : List BusyOwner} {n : Nat} {q : Executing}
    (hd : (s.vol x.volume).drain = some { work := .refusing [.control], members := m, timeout := n })
    (hx : s.ctl.executing = some q) :
    exec .clockAdvance s = .next ((s.ticked.setVol x.volume { s.vol x.volume with state := .normal, drain := none }).answered
      q.number q.tag .active []) := by
  let v := x.volume
  let e := boundary s
  let z : Volume := { s.vol v with state := .normal, drain := none }
  let c : Control := { s.ctl with executing := none }
  let a : Answer := { number := q.number, tag := q.tag, code := .active, result := [], job := none }
  let f : Event :=
    { st := { s.ticked.setVol v z with ctl := c, out := [] }, todo := { jobs := true, drainBegin := [v], answer := some a } }
  have hvol : e.st.vol v = s.vol v := rfl
  have haction : drainAction v { work := .refusing [.control], members := m, timeout := n } .withdrawn e =
      reply .active [] (e.putVol v { s.vol v with state := .normal }) := rfl
  have hreply : reply .active [] (e.putVol v { s.vol v with state := .normal }) =
      { e with
        st := { (e.putVol v { s.vol v with state := .normal }).st with ctl := c }
        todo := { answer := some a } } := reply_eq (by exact hx) ..
  have hrest : ({ s.vol v with state := .normal, drain := none, holdList := [] } : Volume) = z := by simp only [z, ← hh]; rfl
  have hput : ({ e with
      st := { (e.putVol v { s.vol v with state := .normal }).st with ctl := c }
      todo := { answer := some a } } : Event).updVol v (fun x => { x with drain := none, holdList := [] }) =
      { e with st := { (e.putVol v z).st with ctl := c }, todo := { answer := some a } } := by
    have h1 := putVol_updVol (e := e) (v := v) (y := { s.vol v with state := .normal })
      (f := fun x => { x with drain := none, holdList := [] }) (by dsimp only; nofun) (by dsimp only; nofun)
    dsimp only at h1
    rw [hrest] at h1
    exact congrArg (fun f : Event => { e with st := { f.st with ctl := c }, todo := { answer := some a } }) h1
  have hfire : fireEntry i x e = f := by
    simp only [fireEntry, ha]
    unfold fireThaw
    simp only [thawVolume, show (e.st.vol x.volume).state = .freezing from hs]
    rw [if_pos trivial, finishDrain_some (v := v) (e := e) (by exact hd) (by
      rw [haction, hreply]
      exact (congrArg Volume.holdList (vol_putVol e v { s.vol v with state := .normal })).trans hh)]
    dsimp only
    rw [haction, hreply, hput]
    rfl
  have hset : f.Settled := by
    refine ⟨nofun, nofun, nofun, nofun, fun _ p hp => canVisit_of_state (h.jobs p hp), fun w hw' _ => ?_, nofun, nofun,
      fun _ _ => hqueue, nofun⟩
    obtain rfl := List.mem_singleton.mp hw'
    change ((s.ticked.setVol v z).vol v).waiting = []
    rw [State.vol_setVol]
    exact hw
  rw [h.runs, hfire, runTodo_settled hset (by exact (by decide : 1 ≤ 900))]
  exact congrArg Host.Outcome.next ((closeEvent_refusal (t := { s.ticked.setVol v z with ctl := c }) (a := a) rfl rfl hup rfl nofun).trans rfl)

/-! ### RUN -/

theorem State.DueAt.run_skipped (h : s.DueAt i x) (ha : x.action = 4) {reason v : Nat} (hc : startCheck s = some (reason, v)) :
    exec .clockAdvance s = .next (State.closed { s.ticked with
      ctl := offer s.ctl { kind := .runSkipped, time := s.sched.clock + 1, subject := i, d1 := reason, d2 := v } }) := by
  refine h.fires_notes (ns := [_]) ?_
  rw [← h.notice]
  simp only [fireEntry, ha]
  unfold fireRun
  rw [show startCheck (boundary s).st = some (reason, v) from hc]
  rfl

/-- A RUN that starts, whose first volume's slot 0 is occupied and whose frame waits for the port. -/
theorem State.DueAt.run_starts (h : s.DueAt i x) (ha : x.action = 4) (hc : startCheck s = none) {first : Nat}
    (hf : s.plan[0]? = some first) (hslot : tfind (s.vol first).snaps 0 ≠ none) (hp : s.port.pace < s.port.nextSend) :
    exec .clockAdvance s = .next (State.closed (s.ticked.started x.param x.deadline)) := by
  let e : Event := { st := { s.ticked.started x.param x.deadline with out := [] }, todo := { engine := true, port := true } }
  have hdue : e.st.freezeDue = none := by
    have hcur : e.st.currentVol = some first := hf
    unfold State.freezeDue
    rw [hcur]
    have hsome : (tfind (e.st.vol first).snaps 0).isNone = false := by
      have h1 : tfind (e.st.vol first).snaps 0 ≠ none := hslot
      cases hk : tfind (e.st.vol first).snaps 0 with
      | none => exact absurd hk h1
      | some _ => rfl
    simp [Option.filter, hsome]
  have hbegin : ∀ n, beginFreezes n e = e := by
    intro n
    cases n with
    | zero => rfl
    | succ n =>
      unfold beginFreezes
      rw [hdue]
  refine (h.fires (t := s.ticked.started x.param x.deadline) (todo := { engine := true, port := true }) (ns := []) ?_ ?_ rfl
    (Nat.zero_le _)).trans rfl
  · simp only [fireEntry, ha]
    unfold fireRun
    rw [show startCheck (boundary s).st = none from hc]
    dsimp only
    rw [startRun_eq]
    exact hbegin _
  · refine ⟨nofun, nofun, nofun, nofun, fun h => h.elim nofun nofun, nofun, fun _ => started_rests rfl (fun v hv => ?_),
      fun _ => portRests_of (.inr (.inr hp)), fun h => h.elim nofun fun h => absurd rfl h, nofun⟩
    have hcur : s.plan[0]? = some v := hv
    rw [hf] at hcur
    cases hcur
    exact hslot

end

end Sys2Proof.Machine
end

section
/-! PROOFS. The due entries of a boundary (R172 to R175): the statement. -/

namespace Sys2Proof.Machine

section
variable {s : State} {i : Nat} {x : SchedEntry}

/-- A SNAP action whose series has room makes its snapshot. -/
theorem State.DueAt.snap_few (h : s.DueAt i x) (ha : x.action = 1) {slot : Nat} (hc : createCheck .scheduled (s.vol x.volume) = none)
    (hslot : (s.vol x.volume).emptySlot = some slot) (hstate : (s.vol x.volume).state = .frozen ∨ s.quietVol x.volume)
    (hfew : ((s.vol x.volume).ofSeries x.param).length < x.keep) :
    exec .clockAdvance s = .next (State.closed { s.ticked.setVol x.volume ((s.vol x.volume).snapped slot
        (firedSnap (s.vol x.volume).gen x.param x.label (s.sched.clock + 1))) with
      ctl := offer s.ctl
        { kind := .snapshotTaken, time := s.sched.clock + 1, subject := x.volume, d1 := slot, d2 := (s.vol x.volume).gen } }) :=
  h.snap_made (ns := [_]) ha hc hslot hstate (fun _ => rotate_written_few (y := s.vol x.volume) rfl (emptySlot_free hslot) hfew)
    ⟨rfl, rfl, rfl, rfl⟩

/-- A SNAP action whose series is full of held and pinned snapshots. -/
theorem State.DueAt.snap_blocked (h : s.DueAt i x) (ha : x.action = 1) {slot : Nat}
    (hc : createCheck .scheduled (s.vol x.volume) = none) (hslot : (s.vol x.volume).emptySlot = some slot)
    (hstate : (s.vol x.volume).state = .frozen ∨ s.quietVol x.volume)
    (hfull : x.keep ≤ ((s.vol x.volume).ofSeries x.param).length)
    (hkept : ∀ p ∈ (s.vol x.volume).ofSeries x.param, p.2.held = true ∨ 0 < p.2.inUse) :
    exec .clockAdvance s = .next (State.closed { s.ticked.setVol x.volume ((s.vol x.volume).snapped slot
        (firedSnap (s.vol x.volume).gen x.param x.label (s.sched.clock + 1))) with
      ctl := offer (offer s.ctl
        { kind := .snapshotTaken, time := s.sched.clock + 1, subject := x.volume, d1 := slot, d2 := (s.vol x.volume).gen })
        { kind := .rotationBlocked, time := s.sched.clock + 1, subject := x.volume, d1 := x.param,
          d2 := ((s.vol x.volume).ofSeries x.param).length + 1 - x.keep } }) := by
  refine h.snap_made (ns := [_, _]) ha hc hslot hstate (fun dr => ?_) ⟨rfl, rfl, rfl, rfl⟩
  rw [rotate_written_blocked (y := s.vol x.volume) rfl (emptySlot_free hslot) hfull hkept, h.notice]
  rfl

/-- The volume with its new snapshot and the snapshot `o` at the tail of the deletion queue. -/
def Volume.rotated (y : Volume) (slot : Nat) (d : Snap) (o : Nat × Snap) : Volume :=
  { y.snapped slot d with
    snaps := tput o.1 { o.2 with state := .deletePending } (tput slot d y.snaps), deleteQueue := y.deleteQueue ++ [o.1] }

/-- A SNAP action whose series is full queues its oldest snapshot. -/
theorem State.DueAt.snap_queues (h : s.DueAt i x) (ha : x.action = 1) {slot : Nat}
    (hc : createCheck .scheduled (s.vol x.volume) = none) (hslot : (s.vol x.volume).emptySlot = some slot)
    (hstate : (s.vol x.volume).state = .frozen ∨ s.quietVol x.volume)
    (hfull : x.keep = ((s.vol x.volume).ofSeries x.param).length) (hq : (s.vol x.volume).deleteQueue ≠ []) (hwf : s.wf = true)
    (hgens : ((s.vol x.volume).snaps.map fun p => p.2.gen).Nodup) {o : Nat × Snap} (ho : o ∈ (s.vol x.volume).ofSeries x.param)
    (hh : o.2.held = false) (hu : o.2.inUse = 0)
    (hmin : ∀ p ∈ (s.vol x.volume).ofSeries x.param, p.2.held = false → p.2.inUse = 0 → o.2.gen ≤ p.2.gen) :
    exec .clockAdvance s = .next (State.closed { s.ticked.setVol x.volume ((s.vol x.volume).rotated slot
        (firedSnap (s.vol x.volume).gen x.param x.label (s.sched.clock + 1)) o) with
      ctl := offer s.ctl
        { kind := .snapshotTaken, time := s.sched.clock + 1, subject := x.volume, d1 := slot, d2 := (s.vol x.volume).gen } }) := by
  have hsort : Table.sorted (s.vol x.volume).snaps = true := ((Volume.wf_iff _).mp (State.wf_vol hwf _)).2
  have ha' : (s.vol x.volume).state ≠ .absent := by
    rcases hstate with h1 | h1
    · rw [h1]; nofun
    · rw [h1.1]; nofun
  let d := firedSnap (s.vol x.volume).gen x.param x.label (s.sched.clock + 1)
  refine h.snap_made (ns := [_]) (z := (s.vol x.volume).rotated slot d o) ha hc hslot hstate (fun dr => ?_) ⟨rfl, rfl, rfl, rfl⟩
  exact (rotate_written_queues (y := s.vol x.volume) (z := { (s.vol x.volume).snapped slot d with drain := dr }) ha' rfl
    (emptySlot_free hslot) hfull hsort hgens ho hh hu hmin hq).trans rfl

/-! ### The checks of RUN -/

/-- A plan that passes its own checks. -/
theorem planCheck_passes (hp : s.plan ≠ []) (ha : ∀ w ∈ s.plan, (s.vol w).usable = true ∧ (s.vol w).offsite = true) :
    planCheck s = none := by
  rw [planCheck_eq, if_neg hp, List.find?_eq_none.mpr fun w hw => by simp [(ha w hw).1]]
  dsimp only
  rw [List.find?_eq_none.mpr fun w hw => by simp [(ha w hw).2]]
  rfl

theorem startCheck_plan (hi : s.run.state = .idle) : startCheck s =
    match planCheck s with
    | some r => some r
    | none => if s.port.up = true ∧ s.port.site = some s.ctl.config.partnerSite then none else some (5, 0) :=
  if_neg (not_not.mpr hi)

theorem startCheck_unusable (hi : s.run.state = .idle) {w : Nat} (hw : (s.plan.find? fun v => !(s.vol v).usable) = some w) :
    startCheck s = some (3, w) := by
  have hp : s.plan ≠ [] := by
    rintro he
    simp [he] at hw
  rw [startCheck_plan hi, planCheck_eq, if_neg hp, hw]

theorem startCheck_unarmed (hi : s.run.state = .idle) (ha : ∀ v ∈ s.plan, (s.vol v).usable = true) {w : Nat}
    (hw : (s.plan.find? fun v => !(s.vol v).offsite) = some w) : startCheck s = some (4, w) := by
  have hp : s.plan ≠ [] := by
    rintro he
    simp [he] at hw
  rw [startCheck_plan hi, planCheck_eq, if_neg hp, List.find?_eq_none.mpr fun v hv => by simp [ha v hv], hw]
  rfl

end

/-- Settles O53: each action of the one due entry, in its cases. -/
theorem dueEntriesFire : Obligations.DueEntriesFire := by
  intro s i x now due bank v y plain note volIs fires gone quiet busy drain d made series hset hclock hdead hmin hswap hpart hdue hjobs
  have h : s.DueAt i x := ⟨hset, hclock, hdead, hmin, hswap, hpart, hdue, hjobs⟩
  have hplain : s.ticked = plain := h.ticked
  have hunusable : ∀ {z : Volume}, z.state = .absent ∨ z.state = .deleting → z.usable = false := by
    rintro z (hz | hz) <;> simp [Volume.usable, hz]
  refine ⟨fun ha => ?_, fun ha => ?_, fun ha => ?_, fun ha => ?_⟩
  · refine ⟨fun hg => ?_, fun hg code hc => ?_, fun hc hb => ?_, fun hc hst slot hslot => ?_⟩
    · exact hplain ▸ h.snap_refused ha (.inl ⟨hunusable hg, rfl⟩)
    · exact hplain ▸ h.snap_refused ha (.inr ⟨(usable_iff _).mpr ⟨fun h => hg (.inl h), fun h => hg (.inr h)⟩, hc⟩)
    · obtain ⟨hn, hd, hw, hm⟩ := hb
      exact hplain ▸ h.snap_drains ha hc hn hd hw hm
    · intro taken
      refine ⟨fun hfew => ?_, fun hfull hkept => ?_, fun hfull hq hwf hgens o ho hh hu hmin => ?_⟩
      · exact hplain ▸ h.snap_few ha hc hslot hst hfew
      · exact hplain ▸ h.snap_blocked ha hc hslot hst hfull hkept
      · exact hplain ▸ h.snap_queues ha hc hslot hst hfull hq hwf hgens ho hh hu hmin
  · refine ⟨fun hg ho => ?_, fun hf ho => ?_, fun hq ho => ?_, fun hq ho hf hc hfew slot hslot => ?_,
      fun hb ho hlen n hlt hfree hlow => ?_, fun hb ho hlen => ?_⟩
    · exact hplain ▸ h.freeze_skipped ha ho hg
    · exact hplain ▸ h.freeze_frozen ha ho hf
    · exact hplain ▸ h.freeze_quiet ha ho hq
    · exact hplain ▸ h.freeze_snaps ha ho hq hf hc hfew hslot
    · obtain ⟨hn, hd, hw, hm⟩ := hb
      exact hplain ▸ h.freeze_drains ha ho hn hd hw hm hlen hlt hfree hlow
    · obtain ⟨hn, hd, hw, hm⟩ := hb
      exact hplain ▸ h.freeze_full ha ho hn hd hw hm hlen
  · refine ⟨fun hg => ?_, fun hn => ?_, fun hf hj => ?_, fun hs hw hh hup hqueue m n q hd hx => ?_⟩
    · exact hplain ▸ h.thaw_skipped ha hg
    · exact hplain ▸ h.thaw_normal ha hn
    · exact hplain ▸ h.thaw_frozen ha hf hj
    · exact hplain ▸ h.thaw_freezing ha hs hw hh hup hqueue hd hx
  · intro skipped usable linked
    have husable : (fun w => !usable w) = fun w => !(s.vol w).usable := by
      funext w
      have h1 := usable_iff (s.vol w)
      simp only [usable]
      by_cases hu : (s.vol w).usable = true
      · simp [hu, h1.mp hu]
      · simp [hu, h1.not.mp hu]
    have hskip : ∀ {reason w : Nat}, startCheck s = some (reason, w) → skipped reason w := by
      intro reason w hc
      have hrun := h.run_skipped ha hc
      rw [hplain] at hrun
      exact hrun
    have hus : ∀ {w}, usable w = true ↔ (s.vol w).usable = true := by
      intro w
      have h1 := congrFun husable w
      simpa using h1
    refine ⟨fun hi => hskip (if_pos hi), fun hi => ⟨fun hp => hskip ?_, fun w hw => hskip ?_, fun hall w hw => hskip ?_,
      fun hp hall => ⟨fun hl => hskip ?_, fun hl first hf hslot hpace => ?_⟩⟩⟩
    · rw [startCheck_plan hi, planCheck_eq, if_pos hp]
    · exact startCheck_unusable hi (husable ▸ hw)
    · exact startCheck_unarmed hi (fun v hv => hus.mp (hall v hv)) hw
    · rw [startCheck_plan hi, planCheck_passes hp fun w hw => ⟨hus.mp (hall w hw).1, (hall w hw).2⟩]
      exact if_neg hl
    · have hc : startCheck s = none := startCheck_of hi hp (fun w hw => ⟨hus.mp (hall w hw).1, (hall w hw).2⟩) hl
      exact ⟨_, h.run_starts ha hc hf hslot hpace, rfl, rfl, rfl, rfl, rfl, rfl, rfl, rfl, rfl, rfl, rfl, rfl, rfl, rfl, rfl, rfl⟩

end Sys2Proof.Machine
end

section
/-! PROOFS. The books of the pool and of the accounts (R4, R51, R70): the figures they balance, and what has to hold of the
work in flight at every point of an event for them to balance at its end. A mode says how far an operation that is half
done leaves them out of balance. -/

namespace Sys2Proof.Machine

/-! ### Totals over a table -/

/-- The total of a figure over the records of a table. -/
def totalOf {α : Type} (f : α → Nat) (t : Table α) : Nat := (t.map fun p => f p.2).sum

section Totals

variable {α : Type} {f : α → Nat} {d v : α} {t : Table α} {i : Nat}

theorem totalOf_tput_some (hf : tfind t i = some d) (hs : Table.sorted t = true) :
    totalOf f (tput i v t) + f d = totalOf f t + f v :=
  sum_tput (fun p => f p.2) hf hs

theorem totalOf_tput_none (hf : tfind t i = none) : totalOf f (tput i v t) = totalOf f t + f v := by
  obtain ⟨a, b, rfl, hput⟩ := tput_split_of_none hf v
  simp only [totalOf, hput, List.map_append, List.map_cons, List.sum_append, List.sum_cons]
  omega

theorem totalOf_tdel_some (hf : tfind t i = some d) (hs : Table.sorted t = true) :
    totalOf f (tdel i t) + f d = totalOf f t :=
  sum_tdel (fun p => f p.2) hf hs

/-- A write moves the total by what the record gains, where the default counts for nothing. -/
theorem totalOf_tset [DecidableEq α] (hd : f d = 0) (hs : Table.sorted t = true) :
    totalOf f (tset d i v t) + f (tget d t i) = totalOf f t + f v := by
  unfold tset tget
  cases hf : tfind t i with
  | some x =>
    split_ifs with hv
    · simpa [hv, hd] using totalOf_tdel_some hf hs
    · exact totalOf_tput_some hf hs
  | none =>
    split_ifs with hv
    · simp [hv, hd, tdel_none i t hf]
    · simp [hd, totalOf_tput_none hf]

theorem totalOf_tmap [DecidableEq α] {g : α → α} (hd : f d = 0) (hg : ∀ x, f (g x) = f x) :
    totalOf f (tmap d g t) = totalOf f t := by
  induction t with
  | nil => rfl
  | cons p t ih =>
    obtain ⟨k, x⟩ := p
    rw [tmap]
    split_ifs with hx
    · rw [ih, totalOf, totalOf, List.map_cons, List.sum_cons, ← hg x, hx, hd, Nat.zero_add]
    · simp only [totalOf, List.map_cons, List.sum_cons, hg] at ih ⊢
      rw [ih]

theorem totalOf_eq_zero (h : ∀ p ∈ t, f p.2 = 0) : totalOf f t = 0 := by
  simp only [totalOf, List.sum_eq_zero_iff, List.mem_map]
  rintro _ ⟨p, hp, rfl⟩
  exact h p hp

theorem le_totalOf (hf : tfind t i = some d) : f d ≤ totalOf f t :=
  List.single_le_sum (by simp) _ (List.mem_map.mpr ⟨_, mem_of_tfind hf, rfl⟩)

end Totals

/-! ### The figures -/

/-- Whether an entry holds a PCN. -/
def Form.pcnIs (n : Nat) : Form → Nat
  | .mapped p _ _ => if p = n then 1 else 0
  | .unmapped _ => 0

/-- Whether an entry is charged to an account. -/
def Form.chargedTo (o : Nat) : Form → Nat
  | .mapped _ _ x => if x = o then 1 else 0
  | .unmapped _ => 0

/-- The total of a figure over the map entries of a volume. -/
def Volume.mapSum (g : Form → Nat) (x : Volume) : Nat := totalOf (fun m => g m.form) x.map

/-- How often a PCN stands in the retained sets of a volume. -/
def Volume.retCount (n : Nat) (x : Volume) : Nat := totalOf (fun d => (d.retained.map RetEntry.pcn).count n) x.snaps

/-- How often a PCN stands in a volume. -/
def Volume.holds (n : Nat) (x : Volume) : Nat := x.mapSum (Form.pcnIs n) + x.retCount n

/-- How many entries of a volume are charged to an account. -/
def Volume.chargedTo (o : Nat) (x : Volume) : Nat := x.mapSum (Form.chargedTo o)

/-- The volume holds no PCN. -/
def Volume.bare (x : Volume) : Prop :=
  (∀ p ∈ x.map, ∃ c, p.2.form = .unmapped c) ∧ ∀ p ∈ x.snaps, p.2.retained = []

/-- A job's claim on a PCN, and its places in the accounts. -/
def Job.holds (n : Nat) (x : Job) : Nat := if x.copy.map Copy.pcn = some n then 1 else 0

def Job.claims (x : Job) : Nat := if x.copy.isSome then 1 else 0

def Job.copiesFor (o : Nat) (x : Job) : Nat := if x.copy.isSome && x.owner == o then 1 else 0

def Job.reservesFor (o : Nat) (x : Job) : Nat := if !x.state.ended && x.owner == o then x.remaining else 0

/-- What the books read of a state. -/
structure Ledger where
  cond : FormatCond
  pool : Nat
  k : Nat
  free : List Nat
  claims : Nat
  vols : Table Volume
  inflight : List Entry
  busy : List BusyItem
  mirror : List MirrorRec
  nextArrival : Nat
  accounts : Table Account
  jobs : Table Job
  returns : List Nat
  part : PartState
  recStep : Nat
  executing : Bool

def State.ledger (s : State) : Ledger :=
  { cond := s.format.cond, pool := s.format.pool, k := s.format.k, free := s.free, claims := s.claims, vols := s.vols,
    inflight := s.inflight, busy := s.busy, mirror := s.mirror, nextArrival := s.nextArrival, accounts := s.accounts,
    jobs := s.jobs, returns := s.returns, part := s.ctl.part, recStep := s.ctl.recStep,
    executing := s.ctl.executing.isSome }

namespace Ledger

def vol (L : Ledger) (v : Nat) : Volume := tget Volume.absent L.vols v

def acct (L : Ledger) (o : Nat) : Account := tget Account.fresh L.accounts o

/-- How often a PCN stands in the places that R4 names. -/
def holds (L : Ledger) (n : Nat) : Nat :=
  L.free.count n + totalOf (Volume.holds n) L.vols + (L.mirror.map fun r => r.claims.count n).sum
    + totalOf (Job.holds n) L.jobs + L.returns.count n

/-- The number of claimed PCNs. -/
def claimed (L : Ledger) : Nat :=
  (L.mirror.map fun r => r.claims.length).sum + totalOf Job.claims L.jobs + L.returns.length

/-- The MAPPED entries of an account. -/
def mapped (L : Ledger) (o : Nat) : Nat := totalOf (Volume.chargedTo o) L.vols

/-- The net change of an account that the accepted requests hold. -/
def pledged (L : Ledger) (o : Nat) : Int := (L.mirror.map fun r => r.chargeOf o).sum

def copies (L : Ledger) (o : Nat) : Nat := totalOf (Job.copiesFor o) L.jobs

def remaining (L : Ledger) (o : Nat) : Nat := totalOf (Job.reservesFor o) L.jobs

end Ledger

/-! ### How far an operation leaves the books out of balance -/

/-- The running drain whose work is being answered (`ex`), the owner whose item has just proceeded (`act`), the request
whose plan is being committed (`fin`), whether no control request waits on a drain (`free`), and the amounts by which the
books of an operation that is half done are out of balance. -/
structure Mode where
  ex : Option Nat := none
  act : Option BusyOwner := none
  fin : Option Nat := none
  free : Bool := false
  pcn : Nat → Int := fun _ => 0
  claims : Int := 0
  charge : Nat → Int := fun _ => 0
  res : Nat → Int := fun _ => 0

/-- A chunk of a plan fits the entry it names. -/
def ChunkPlan.Fits (X : Volume) (p : ChunkPlan) : Prop :=
  match p.cls, (X.entry p.lcn).form with
  | .unmapped, .unmapped _ => p.claimed ≠ none
  | .shared, .mapped pcn born o => p.claimed ≠ none ∧ p.old = some (pcn, born, o)
  | .inPlace, .mapped .. => True
  | _, _ => False

/-- The plan of an accepted WRITE fits the map of its volume. -/
def Entry.PlanFits (k : Nat) (X : Volume) (x : Entry) : Prop :=
  (x.plan.map ChunkPlan.lcn).Nodup ∧ (∀ p ∈ x.plan, p.lcn ∈ span k x.req.start x.req.count ∧ p.Fits X) ∧
    (x.plan.filter ChunkPlan.needsPcn).filterMap ChunkPlan.claimed = x.claims ∧
    x.charges = writeCharges x.req.owner x.plan

def Entry.Fits (m : Mode) (L : Ledger) (x : Entry) : Prop :=
  x.arrival < L.nextArrival ∧ (L.vol x.req.vol).state ≠ .absent ∧
    if x.writes then
      (m.fin ≠ some x.arrival → x.PlanFits L.k (L.vol x.req.vol)) ∧
        ∃ r ∈ L.mirror, r.arrival = x.arrival ∧ r.claims = x.claims ∧ r.charges = x.charges
    else x.claims = [] ∧ x.charges = [] ∧ x.plan = [] ∧ ∀ r ∈ L.mirror, r.arrival ≠ x.arrival

def MirrorRec.Fits (L : Ledger) (r : MirrorRec) : Prop :=
  (L.vol r.vol).state ≠ .absent ∧ (r.charges.map Prod.fst).Nodup ∧
    (L.part ≠ .recovering → ∃ x ∈ L.inflight, x.writes = true ∧ x.arrival = r.arrival)

def BusyItem.Fits (m : Mode) (L : Ledger) (i : BusyItem) : Prop :=
  match i.owner with
  | .front a => ∃ x ∈ L.inflight, x.arrival = a ∧ x.state ≠ .held ∧ (m.act = some (.front a) → x.state = .waiting) ∧
      i = { busyItemOf L.k x with proceeded := x.state == .active || m.act == some (.front a) }
  | .restore j =>
    m.act = some (.restore j) ∨
      ∃ x, tfind L.jobs j = some x ∧ i.vol = x.dstVol ∧ i.change = true ∧
        if i.proceeded then x.copy.map (fun c => [c.lcn]) = some i.chunks
        else x.waiting = true ∧ x.copy = none ∧ x.target.map (fun t => [t.1]) = some i.chunks

/-- A job's record in itself. -/
structure Job.Sane (x : Job) : Prop where
  visits : x.visiting = true → x.state = .running
  waits : x.waiting = true → x.copy = none
  settled : x.state.ended = true → x.remaining = 0
  counts : x.state.ended = false → ∀ r ∈ x.ranges, 1 ≤ r.count
  place : x.state.ended = false →
    match x.ranges[x.rangeIdx]? with | some r => x.offset < r.count | none => x.offset = 0
  left : x.state.ended = false → x.remaining + x.claims = x.toVisit

/-- The drains' works that count as waiting. -/
def Ledger.asking (m : Mode) (L : Ledger) (v : Nat) : List DrainWork :=
  if m.ex = some v then (L.vol v).waiting else (L.vol v).works

/-- How many works of a volume's drains wait for a control reply. -/
def Ledger.asks (m : Mode) (L : Ledger) (v : Nat) : Nat := ((L.asking m v).map DrainWork.controlAsks).sum

/-- The books balance, but for the amounts of the mode, and the work in flight is as they need it. The law of the pool is
among the books where `a` holds, the laws of charges and reservations where `b` holds. -/
structure Good (a b : Prop) (m : Mode) (L : Ledger) : Prop where
  volsWf : Table.wf Volume.absent L.vols = true
  volWf : ∀ p ∈ L.vols, p.2.wf = true
  jobsWf : Table.sorted L.jobs = true
  bare : ∀ v, (L.vol v).state = .absent → (L.vol v).bare
  count : a → (L.claims : Int) = L.claimed + m.claims
  places : a → L.cond = .valid → ∀ n, (L.holds n : Int) + m.pcn n = if n < L.pool then 1 else 0
  charged : b → ∀ o, ((L.acct o).charge : Int) = L.mapped o + L.pledged o + L.copies o + m.charge o
  reserved : b → ∀ o, if L.part = .recovering then (L.acct o).reserved = 0
    else ((L.acct o).reserved : Int) = L.remaining o + m.res o
  arrivals : (L.inflight.map Entry.arrival).Nodup
  mirrored : (L.mirror.map MirrorRec.arrival).Nodup
  entry : ∀ x ∈ L.inflight, x.Fits m L
  record : ∀ r ∈ L.mirror, r.Fits L
  hold : ∀ v, ∀ n ∈ (L.vol v).holdList, n < L.nextArrival ∧ ∀ x ∈ L.inflight, x.arrival = n → x.state = .held
  order : L.busy.Pairwise fun i j => j.proceeded = true → i.conflicts j = false
  owners : (L.busy.map BusyItem.owner).Nodup
  item : ∀ i ∈ L.busy, i.Fits m L
  placed : ∀ x ∈ L.inflight, x.writes = true → ∃ i ∈ L.busy, i.owner = .front x.arrival
  job : ∀ p ∈ L.jobs, p.2.Sane ∧ (p.2.state.ended = false → (L.vol p.2.dstVol).state ≠ .absent)
  asked : ∀ v c j, .holding c ∈ L.asking m v → c.asker = .restore j →
    ∃ x, tfind L.jobs j = some x ∧ x.state = .starting ∧ x.dstVol = v
  one : ∀ v, L.asks m v ≤ 1
  alone : ∀ v w, L.asks m v ≠ 0 → L.asks m w ≠ 0 → v = w
  slot : m.free = true ∨ L.executing = false ∨ L.part = .recovering → ∀ v, L.asks m v = 0
  idle : L.part = .recovering → L.inflight = [] ∧ L.busy = [] ∧ (∀ p ∈ L.jobs, p.2.waiting = false) ∧
    1 ≤ L.recStep ∧ L.recStep ≤ 4 ∧ (2 ≤ L.recStep → L.mirror = []) ∧
    (3 ≤ L.recStep → L.returns = [] ∧ ∀ p ∈ L.jobs, p.2.state.ended = true)
  owed : b → L.part = .recovering → ∀ o, (L.mirror.map fun r => (- r.chargeOf o).toNat).sum ≤ L.mapped o

/-- The books of a state. -/
def Books (a b : Prop) (m : Mode) (s : State) : Prop := Good a b m s.ledger

end Sys2Proof.Machine
end

section
/-! PROOFS. The books under a change of one volume record (R4, R51): what the record holds and whom it charges may move, with
the amounts of the mode, and no plan that is still to be committed may lose its place. -/

namespace Sys2Proof.Machine

variable {a b : Prop} {m : Mode} {L : Ledger}

/-! ### The sums of one volume -/

theorem mapSum_set {g : Form → Nat} (hg : g (.unmapped 0) = 0) {x y : Volume} {l : Nat} {e : MapEntry} (hw : x.wf = true)
    (hm : y.map = tset MapEntry.fresh l e x.map) : y.mapSum g + g (x.entry l).form = x.mapSum g + g e.form := by
  have hs : Table.sorted x.map = true := by
    have := ((Volume.wf_iff x).mp hw).1
    simp only [Table.wf, Bool.and_eq_true] at this
    exact this.1
  have h := totalOf_tset (f := fun e : MapEntry => g e.form) (d := MapEntry.fresh) (i := l) (v := e) hg hs
  rw [Volume.mapSum, Volume.mapSum, hm]
  exact h

theorem Volume.snapsSorted {x : Volume} (hw : x.wf = true) : Table.sorted x.snaps = true := ((Volume.wf_iff x).mp hw).2

theorem retCount_put {x y : Volume} {i : Nat} {d d' : Snap} (hw : x.wf = true) (hf : tfind x.snaps i = some d)
    (hs : y.snaps = tput i d' x.snaps) (n : Nat) :
    y.retCount n + (d.retained.map RetEntry.pcn).count n = x.retCount n + (d'.retained.map RetEntry.pcn).count n := by
  have h := totalOf_tput_some (f := fun d : Snap => (d.retained.map RetEntry.pcn).count n) (v := d') hf
    (Volume.snapsSorted hw)
  simpa [Volume.retCount, hs] using h

theorem retCount_del {x y : Volume} {i : Nat} {d : Snap} (hw : x.wf = true) (hf : tfind x.snaps i = some d)
    (hs : y.snaps = tdel i x.snaps) (n : Nat) :
    y.retCount n + (d.retained.map RetEntry.pcn).count n = x.retCount n := by
  have h := totalOf_tdel_some (f := fun d : Snap => (d.retained.map RetEntry.pcn).count n) hf (Volume.snapsSorted hw)
  simpa [Volume.retCount, hs] using h

theorem Volume.bare.holds {x : Volume} (h : x.bare) (n : Nat) : x.holds n = 0 := by
  obtain ⟨hm, hs⟩ := h
  have h1 : x.mapSum (Form.pcnIs n) = 0 := totalOf_eq_zero fun p hp => by
    obtain ⟨c, hc⟩ := hm p hp
    simp [hc, Form.pcnIs]
  have h2 : x.retCount n = 0 := totalOf_eq_zero fun p hp => by simp [hs p hp]
  rw [Volume.holds, h1, h2]

theorem Volume.bare.chargedTo {x : Volume} (h : x.bare) (o : Nat) : x.chargedTo o = 0 := by
  rw [Volume.chargedTo, Volume.mapSum]
  refine totalOf_eq_zero fun p hp => ?_
  obtain ⟨c, hc⟩ := h.1 p hp
  rw [hc, Form.chargedTo]

theorem Volume.bare_absent : Volume.absent.bare := ⟨by simp [Volume.absent], by simp [Volume.absent]⟩

/-- The entry of an LCN of a volume that holds nothing. -/
theorem Volume.bare.entry {x : Volume} (h : x.bare) (l : Nat) : ∃ c, (x.entry l).form = .unmapped c :=
  tget_of_forall (Q := fun e : MapEntry => ∃ c, e.form = .unmapped c) (d := MapEntry.fresh) ⟨0, rfl⟩ h.1 l

/-! ### A changed volume among the volumes -/

def Ledger.setVol (L : Ledger) (v : Nat) (y : Volume) : Ledger := { L with vols := tset Volume.absent v y L.vols }

theorem Ledger.vol_setVol (L : Ledger) (v : Nat) (y : Volume) : (L.setVol v y).vol v = y := tget_tset_same ..

theorem Ledger.vol_setVol_ne (L : Ledger) {v w : Nat} (y : Volume) (h : w ≠ v) : (L.setVol v y).vol w = L.vol w :=
  tget_tset_ne _ _ _ _ _ h

theorem Good.volWf' (h : Good a b m L) (v : Nat) : (L.vol v).wf = true :=
  tget_of_forall (Q := fun x : Volume => x.wf = true) (d := Volume.absent) rfl h.volWf v

theorem Good.volsSorted (h : Good a b m L) : Table.sorted L.vols = true := by
  have := h.volsWf
  simp only [Table.wf, Bool.and_eq_true] at this
  exact this.1

theorem Good.holds_setVol (h : Good a b m L) (v : Nat) (y : Volume) (n : Nat) :
    (L.setVol v y).holds n + (L.vol v).holds n = L.holds n + y.holds n := by
  have ht := totalOf_tset (f := Volume.holds n) (d := Volume.absent) (i := v) (v := y)
    (Volume.bare_absent.holds n) h.volsSorted
  simp only [Ledger.setVol, Ledger.holds, Ledger.vol] at ht ⊢
  omega

theorem Good.mapped_setVol (h : Good a b m L) (v : Nat) (y : Volume) (o : Nat) :
    (L.setVol v y).mapped o + (L.vol v).chargedTo o = L.mapped o + y.chargedTo o :=
  totalOf_tset (f := Volume.chargedTo o) (d := Volume.absent) (i := v) (v := y) (Volume.bare_absent.chargedTo o)
    h.volsSorted

/-- What a change of a volume keeps whatever it does to the chunks. -/
structure Volume.Stands (x y : Volume) : Prop where
  wf : x.wf = true → y.wf = true
  state : x.state ≠ .absent → y.state ≠ .absent
  works : y.works.Sublist x.works
  waits : y.waiting.Sublist x.waiting

theorem sum_sublist_le {α : Type} (f : α → Nat) {l r : List α} (h : l.Sublist r) : (l.map f).sum ≤ (r.map f).sum :=
  (h.map f).sum_le_sum (by simp)

theorem Ledger.asking_setVol {v : Nat} {y : Volume} (hs : (L.vol v).Stands y) (w : Nat) :
    ((L.setVol v y).asking m w).Sublist (L.asking m w) := by
  unfold Ledger.asking
  by_cases hw : w = v
  · subst hw
    rw [Ledger.vol_setVol]
    split_ifs
    · exact hs.waits
    · exact hs.works
  · rw [Ledger.vol_setVol_ne _ _ hw]

theorem Ledger.asks_setVol {v : Nat} {y : Volume} (hs : (L.vol v).Stands y) (w : Nat) :
    (L.setVol v y).asks m w ≤ L.asks m w := sum_sublist_le _ (Ledger.asking_setVol hs w)

/-- A volume record changes, and with it perhaps who waits for its drains. -/
theorem Good.replaceVol (h : Good a b m L) {v : Nat} {y : Volume} {p c : Nat → Int} {g : Bool}
    (hwf : (L.vol v).wf = true → y.wf = true) (hst : (L.vol v).state ≠ .absent → y.state ≠ .absent)
    (hhold : ∀ n ∈ y.holdList, n < L.nextArrival ∧ ∀ x ∈ L.inflight, x.arrival = n → x.state = .held)
    (hbare : y.state = .absent → y.bare)
    (hplan : ∀ x ∈ L.inflight, x.writes = true → x.req.vol = v → m.fin ≠ some x.arrival →
      ∀ q ∈ x.plan, q.Fits (L.vol v) → q.Fits y)
    (hpcn : a → ∀ n, (y.holds n : Int) + p n = (L.vol v).holds n + m.pcn n)
    (hcharge : b → ∀ o, (y.chargedTo o : Int) + c o = (L.vol v).chargedTo o + m.charge o)
    (howed : b → L.part = .recovering → ∀ o, (L.vol v).chargedTo o ≤ y.chargedTo o)
    (hasked : ∀ w q j, .holding q ∈ (L.setVol v y).asking m w → q.asker = .restore j →
      ∃ x, tfind L.jobs j = some x ∧ x.state = .starting ∧ x.dstVol = w)
    (hone : ∀ w, (L.setVol v y).asks m w ≤ 1)
    (halone : ∀ w u, (L.setVol v y).asks m w ≠ 0 → (L.setVol v y).asks m u ≠ 0 → w = u)
    (hslot : g = true ∨ L.executing = false ∨ L.part = .recovering → ∀ w, (L.setVol v y).asks m w = 0) :
    Good a b { m with pcn := p, charge := c, free := g } (L.setVol v y) := by
  have hvol : ∀ (Q : Nat → Volume → Prop), Q v y → (∀ w, Q w (L.vol w)) → ∀ w, Q w ((L.setVol v y).vol w) := by
    intro Q hv hq w
    by_cases hw : w = v
    · subst hw
      rwa [Ledger.vol_setVol]
    · rw [Ledger.vol_setVol_ne _ _ hw]
      exact hq w
  have hstate : ∀ w, (L.vol w).state ≠ .absent → ((L.setVol v y).vol w).state ≠ .absent :=
    hvol (fun w x => (L.vol w).state ≠ .absent → x.state ≠ .absent) hst fun _ => id
  refine
    { volsWf := wf_tset v y h.volsWf
      volWf := forall_tset (Q := fun x : Volume => x.wf = true) h.volWf (hwf (h.volWf' v))
      jobsWf := h.jobsWf
      bare := hvol (fun _ x => x.state = .absent → x.bare) hbare h.bare
      count := h.count
      places := fun ha hv n => ?_
      charged := fun hb o => ?_
      reserved := h.reserved
      arrivals := h.arrivals
      mirrored := h.mirrored
      entry := fun x hx => ?_
      record := fun r hr => ?_
      hold := ?_
      order := h.order
      owners := h.owners
      item := h.item
      placed := h.placed
      job := fun q hq => ⟨(h.job q hq).1, fun ho => hstate _ ((h.job q hq).2 ho)⟩
      asked := hasked
      one := hone
      alone := halone
      slot := hslot
      idle := h.idle
      owed := fun hb hr o => ?_ }
  · have h1 := h.places ha hv n
    have h2 := h.holds_setVol v y n
    have h3 := hpcn ha n
    show ((L.setVol v y).holds n : Int) + p n = if n < L.pool then 1 else 0
    omega
  · have h1 := h.charged hb o
    have h2 := h.mapped_setVol v y o
    have h3 := hcharge hb o
    show ((L.acct o).charge : Int) = (L.setVol v y).mapped o + L.pledged o + L.copies o + c o
    omega
  · obtain ⟨h1, h2, h3⟩ := h.entry x hx
    refine ⟨h1, hstate _ h2, ?_⟩
    by_cases hw : x.writes = true
    · rw [if_pos hw] at h3 ⊢
      refine ⟨fun hf => ?_, h3.2⟩
      obtain ⟨h4, h5, h6⟩ := h3.1 hf
      refine ⟨h4, fun q hq => ⟨(h5 q hq).1, ?_⟩, h6⟩
      by_cases hv : x.req.vol = v
      · rw [hv, Ledger.vol_setVol]
        exact hplan x hx hw hv hf q hq (by rw [← hv]; exact (h5 q hq).2)
      · rw [Ledger.vol_setVol_ne _ _ hv]
        exact (h5 q hq).2
    · rwa [if_neg hw] at h3 ⊢
  · obtain ⟨h1, h2⟩ := h.record r hr
    exact ⟨hstate _ h1, h2⟩
  · exact hvol (fun _ x => ∀ n ∈ x.holdList, n < L.nextArrival ∧ ∀ x ∈ L.inflight, x.arrival = n → x.state = .held)
      hhold h.hold
  · have h1 := h.owed hb hr o
    have h2 := h.mapped_setVol v y o
    have h3 := howed hb hr o
    show (L.mirror.map fun r => (- r.chargeOf o).toNat).sum ≤ (L.setVol v y).mapped o
    omega

/-- A volume record changes, and nobody else waits for its drains. -/
theorem Good.setVol (h : Good a b m L) {v : Nat} {y : Volume} {p c : Nat → Int} (hs : (L.vol v).Stands y)
    (hhold : ∀ n ∈ y.holdList, n < L.nextArrival ∧ ∀ x ∈ L.inflight, x.arrival = n → x.state = .held)
    (hbare : y.state = .absent → y.bare)
    (hplan : ∀ x ∈ L.inflight, x.writes = true → x.req.vol = v → m.fin ≠ some x.arrival →
      ∀ q ∈ x.plan, q.Fits (L.vol v) → q.Fits y)
    (hpcn : a → ∀ n, (y.holds n : Int) + p n = (L.vol v).holds n + m.pcn n)
    (hcharge : b → ∀ o, (y.chargedTo o : Int) + c o = (L.vol v).chargedTo o + m.charge o)
    (howed : b → L.part = .recovering → ∀ o, (L.vol v).chargedTo o ≤ y.chargedTo o) :
    Good a b { m with pcn := p, charge := c } (L.setVol v y) :=
  have hasks : ∀ w, (L.setVol v y).asks m w ≤ L.asks m w := Ledger.asks_setVol hs
  h.replaceVol (g := m.free) hs.wf hs.state hhold hbare hplan hpcn hcharge howed
    (fun w c j hc => h.asked w c j ((Ledger.asking_setVol hs w).subset hc)) (fun w => (hasks w).trans (h.one w))
    (fun w u hw hu => h.alone w u (fun hc => hw (Nat.le_zero.mp ((hasks w).trans hc.le)))
      fun hc => hu (Nat.le_zero.mp ((hasks u).trans hc.le)))
    fun hf w => Nat.le_zero.mp ((hasks w).trans (h.slot hf w).le)

/-! ### A volume whose chunks stand -/

/-- A change of a volume record that leaves every chunk in its place. -/
structure Volume.Like (x y : Volume) : Prop extends Volume.Stands x y where
  hold : y.holdList ⊆ x.holdList
  form : ∀ l, (y.entry l).form = (x.entry l).form
  holds : x.wf = true → ∀ n, y.holds n = x.holds n
  charged : x.wf = true → ∀ o, y.chargedTo o = x.chargedTo o
  bare : x.bare → y.bare

theorem Good.likeVol (h : Good a b m L) {v : Nat} {y : Volume} (hl : (L.vol v).Like y) : Good a b m (L.setVol v y) := by
  refine h.setVol (p := m.pcn) (c := m.charge) hl.toStands (fun n hn => h.hold v n (hl.hold hn)) (fun hy => ?_) (fun x _ _ _ _ q _ hq => ?_) (fun _ n => ?_)
    (fun _ o => ?_) fun _ _ o => ?_
  · by_cases hx : (L.vol v).state = .absent
    · exact hl.bare (h.bare v hx)
    · exact absurd hy (hl.state hx)
  · rw [ChunkPlan.Fits] at hq ⊢
    rwa [hl.form]
  · rw [hl.holds (h.volWf' v)]
  · rw [hl.charged (h.volWf' v)]
  · rw [hl.charged (h.volWf' v)]

/-- The chunks of two records with the same map and snapshots. -/
theorem Volume.Like.of_same {x y : Volume} (hm : y.map = x.map) (hs : y.snaps = x.snaps)
    (hst : x.state ≠ .absent → y.state ≠ .absent) (hh : y.holdList ⊆ x.holdList) (hw : y.works.Sublist x.works)
    (hwait : y.waiting.Sublist x.waiting) : x.Like y where
  wf := by rw [Volume.wf_iff, Volume.wf_iff, hm, hs]; exact id
  state := hst
  hold := hh
  works := hw
  waits := hwait
  form := fun l => by rw [Volume.entry, Volume.entry, hm]
  holds := fun _ n => by rw [Volume.holds, Volume.holds, Volume.mapSum, Volume.mapSum, Volume.retCount, Volume.retCount, hm, hs]
  charged := fun _ o => by rw [Volume.chargedTo, Volume.chargedTo, Volume.mapSum, Volume.mapSum, hm]
  bare := by rw [Volume.bare, Volume.bare, hm, hs]; exact id

/-- Fields that the books do not read change. -/
theorem Volume.Like.of_plain {x y : Volume} (hm : y.map = x.map) (hs : y.snaps = x.snaps) (hst : y.state = x.state)
    (hh : y.holdList = x.holdList) (hw : y.works = x.works) (hwait : y.waiting = x.waiting) : x.Like y :=
  .of_same hm hs (by rw [hst]; exact id) (by rw [hh]; exact List.Subset.refl _) (by rw [hw])
    (by rw [hwait])

/-- A stamp is written. -/
theorem Volume.Like.of_stamp {x y : Volume} {l : Nat} {st : Option Nat}
    (hm : y.map = tset MapEntry.fresh l { x.entry l with stamp := st } x.map) (hs : y.snaps = x.snaps)
    (hst : y.state = x.state) (hh : y.holdList = x.holdList) (hw : y.works = x.works) (hwait : y.waiting = x.waiting) :
    x.Like y where
  wf := (Volume.Keeps.of_map (x := { x with gen := 0 }) (y := { y with gen := 0 }) (l := l)
    (m := { x.entry l with stamp := st }) (fun h => h.entry l) hm hs rfl).wf
  state := by rw [hst]; exact id
  hold := by rw [hh]; exact List.Subset.refl _
  works := by rw [hw]
  waits := by rw [hwait]
  form := fun k => by
    rw [Volume.entry, hm]
    by_cases hk : k = l
    · subst hk
      rw [tget_tset_same]
    · rw [tget_tset_ne _ _ _ _ _ hk]
      rfl
  holds := fun hwf n => by
    have h := mapSum_set (g := Form.pcnIs n) rfl hwf hm
    have hr : y.retCount n = x.retCount n := by rw [Volume.retCount, Volume.retCount, hs]
    rw [Volume.holds, Volume.holds, hr]
    simp only at h
    omega
  charged := fun hwf o => by
    have h := mapSum_set (g := Form.chargedTo o) rfl hwf hm
    rw [Volume.chargedTo, Volume.chargedTo]
    simp only at h
    omega
  bare := fun hb => by
    refine ⟨?_, by rw [hs]; exact hb.2⟩
    rw [hm]
    exact forall_tset (Q := fun e : MapEntry => ∃ c, e.form = .unmapped c) hb.1 (hb.entry l)

/-- The record of a snapshot is replaced, its set kept; or one with an empty set enters or leaves its slot. -/
theorem Volume.Like.of_snaps {x y : Volume} (hm : y.map = x.map) (hwf : x.wf = true → Table.sorted y.snaps = true)
    (hr : x.wf = true → ∀ n, y.retCount n = x.retCount n)
    (hb : (∀ p ∈ x.snaps, p.2.retained = []) → ∀ p ∈ y.snaps, p.2.retained = []) (hst : y.state = x.state)
    (hh : y.holdList = x.holdList) (hw : y.works = x.works) (hwait : y.waiting = x.waiting) : x.Like y where
  wf := fun h => (Volume.wf_iff y).mpr ⟨by rw [hm]; exact ((Volume.wf_iff x).mp h).1, hwf h⟩
  state := by rw [hst]; exact id
  hold := by rw [hh]; exact List.Subset.refl _
  works := by rw [hw]
  waits := by rw [hwait]
  form := fun l => by rw [Volume.entry, Volume.entry, hm]
  holds := fun h n => by rw [Volume.holds, Volume.holds, Volume.mapSum, Volume.mapSum, hr h, hm]
  charged := fun _ o => by rw [Volume.chargedTo, Volume.chargedTo, Volume.mapSum, Volume.mapSum, hm]
  bare := fun h => ⟨by rw [hm]; exact h.1, hb h.2⟩

theorem Volume.Like.of_snap {x y : Volume} {i : Nat} {d d' : Snap} (hf : tfind x.snaps i = some d)
    (hr : d'.retained = d.retained) (hm : y.map = x.map) (hs : y.snaps = tput i d' x.snaps) (hst : y.state = x.state)
    (hh : y.holdList = x.holdList) (hw : y.works = x.works) (hwait : y.waiting = x.waiting) : x.Like y := by
  refine .of_snaps hm (fun h => ?_) (fun h n => ?_) (fun hb => ?_) hst hh hw hwait
  · rw [hs]
    exact sorted_tput i d' (Volume.snapsSorted h)
  · have := retCount_put h hf hs n
    rw [hr] at this
    omega
  · intro p hp
    rw [hs] at hp
    rcases mem_tput hp with rfl | hp
    · exact hr.trans (hb (i, d) (mem_of_tfind hf))
    · exact hb p hp

theorem Volume.Like.of_create {x y : Volume} {i : Nat} {d : Snap} (hf : tfind x.snaps i = none) (hr : d.retained = [])
    (hm : y.map = x.map) (hs : y.snaps = tput i d x.snaps) (hst : y.state = x.state) (hh : y.holdList = x.holdList)
    (hw : y.works = x.works) (hwait : y.waiting = x.waiting) : x.Like y := by
  refine .of_snaps hm (fun h => ?_) (fun _ n => ?_) (fun hb => ?_) hst hh hw hwait
  · rw [hs]
    exact sorted_tput i d (Volume.snapsSorted h)
  · rw [Volume.retCount, hs, totalOf_tput_none hf, hr]
    simp [Volume.retCount]
  · intro p hp
    rw [hs] at hp
    rcases mem_tput hp with rfl | hp
    · exact hr
    · exact hb p hp

theorem Volume.Like.of_unslot {x y : Volume} {i : Nat} (hr : ∀ d, tfind x.snaps i = some d → d.retained = [])
    (hm : y.map = x.map) (hs : y.snaps = tdel i x.snaps) (hst : y.state = x.state) (hh : y.holdList = x.holdList)
    (hw : y.works = x.works) (hwait : y.waiting = x.waiting) : x.Like y := by
  refine .of_snaps hm (fun h => ?_) (fun h n => ?_) (fun hb p hp => hb p (mem_tdel (i := i) (by rw [← hs]; exact hp)))
    hst hh hw hwait
  · rw [hs]
    exact sorted_tdel i (Volume.snapsSorted h)
  · cases hf : tfind x.snaps i with
    | none => rw [Volume.retCount, hs, tdel_none i _ hf, Volume.retCount]
    | some d =>
      have := retCount_del h hf hs n
      rw [hr d hf] at this
      simpa using this

end Sys2Proof.Machine
end

section
/-! PROOFS. The books under the operations on the pool, the accounts, the map, the change lists and the snapshots (R4, R51,
R83, R88 to R91, R121). -/

namespace Sys2Proof.Machine

variable {a b : Prop} {m : Mode} {L : Ledger} {e : Event}

/-! ### The pool, the accounts and the pending returns of a ledger -/

/-- The same amounts written in another way. -/
theorem Good.adjust {m' : Mode} (h : Good a b m L) (hex : m'.ex = m.ex) (hact : m'.act = m.act) (hfin : m'.fin = m.fin)
    (hfree : m'.free = m.free) (hp : ∀ n, m'.pcn n = m.pcn n) (hk : m'.claims = m.claims)
    (hc : ∀ o, m'.charge o = m.charge o) (hr : ∀ o, m'.res o = m.res o) : Good a b m' L := by
  obtain ⟨ex, act, fin, free, pcn, claims, charge, res⟩ := m
  obtain ⟨ex', act', fin', free', pcn', claims', charge', res'⟩ := m'
  obtain rfl : pcn' = pcn := funext hp
  obtain rfl : charge' = charge := funext hc
  obtain rfl : res' = res := funext hr
  simp only at hex hact hfin hfree hk
  subst hex hact hfin hfree hk
  exact h

theorem Good.pool (h : Good a b m L) {f : List Nat} {n : Nat} {p : Nat → Int} {c : Int}
    (hp : a → ∀ n, (f.count n : Int) + p n = L.free.count n + m.pcn n) (hc : a → (n : Int) - c = L.claims - m.claims) :
    Good a b { m with pcn := p, claims := c } { L with free := f, claims := n } := by
  refine { h with count := fun ha => ?_, places := fun ha hv k => ?_ }
  · have h1 := h.count ha
    have h2 := hc ha
    show (n : Int) = L.claimed + c
    omega
  · have h1 := h.places ha hv k
    have h2 := hp ha k
    show ((f.count k + _ + _ + _ + _ : Nat) : Int) + p k = _
    unfold Ledger.holds at h1
    push_cast at h1 ⊢
    omega

theorem Good.setAccounts (h : Good a b m L) {t : Table Account} {c r : Nat → Int}
    (hc : b → ∀ o, ((tget Account.fresh t o).charge : Int) - c o = (L.acct o).charge - m.charge o)
    (hr : b → ∀ o, if L.part = .recovering then (tget Account.fresh t o).reserved = 0
      else ((tget Account.fresh t o).reserved : Int) - r o = (L.acct o).reserved - m.res o) :
    Good a b { m with charge := c, res := r } { L with accounts := t } := by
  refine { h with charged := fun hb o => ?_, reserved := fun hb o => ?_ }
  · have h1 := h.charged hb o
    have h2 := hc hb o
    show ((tget Account.fresh t o).charge : Int) = L.mapped o + L.pledged o + L.copies o + c o
    omega
  · have h1 := h.reserved hb o
    have h2 := hr hb o
    show if L.part = .recovering then (tget Account.fresh t o).reserved = 0
      else ((tget Account.fresh t o).reserved : Int) = L.remaining o + r o
    split_ifs at h1 h2 ⊢
    · exact h2
    · omega

theorem Good.setReturns (h : Good a b m L) {rs : List Nat} {p : Nat → Int} {c : Int}
    (hp : a → ∀ n, (rs.count n : Int) + p n = L.returns.count n + m.pcn n)
    (hc : a → (rs.length : Int) + c = L.returns.length + m.claims)
    (hi : L.part = .recovering → 3 ≤ L.recStep → rs = []) :
    Good a b { m with pcn := p, claims := c } { L with returns := rs } := by
  refine { h with count := fun ha => ?_, places := fun ha hv k => ?_, idle := fun hr => ?_ }
  · have h1 := h.count ha
    have h2 := hc ha
    show (L.claims : Int) = (((L.mirror.map fun r => r.claims.length).sum + totalOf Job.claims L.jobs + rs.length : Nat) :
      Int) + c
    unfold Ledger.claimed at h1
    push_cast at h1 ⊢
    omega
  · have h1 := h.places ha hv k
    have h2 := hp ha k
    show ((_ + _ + _ + _ + rs.count k : Nat) : Int) + p k = _
    unfold Ledger.holds at h1
    push_cast at h1 ⊢
    omega
  · obtain ⟨h1, h2, h3, h4, h5, h6, h7⟩ := h.idle hr
    exact ⟨h1, h2, h3, h4, h5, h6, fun h8 => ⟨hi hr h8, (h7 h8).2⟩⟩

/-! ### The pool -/

theorem Books.claimPcns (h : Books a b m e.st) (n : Nat) :
    Books a b { m with pcn := fun k => m.pcn k + (e.st.free.take n).count k, claims := m.claims + n }
      (claimPcns n e).2.st := by
  rw [(claimPcns_st n e).2]
  refine Good.pool (L := e.st.ledger) h (f := e.st.free.drop n) (n := e.st.claims + n) (fun _ k => ?_) (fun _ => ?_)
  · have : (e.st.free.take n).count k + (e.st.free.drop n).count k = e.st.free.count k := by
      rw [← List.count_append, List.take_append_drop]
    show ((e.st.free.drop n).count k : Int) + (m.pcn k + (e.st.free.take n).count k) = e.st.free.count k + m.pcn k
    omega
  · show ((e.st.claims + n : Nat) : Int) - (m.claims + n) = e.st.claims - m.claims
    push_cast
    omega

theorem Books.freePcns (h : Books a b m e.st) (ps : List Nat) :
    Books a b { m with pcn := fun k => m.pcn k - ps.count k } (freePcns ps e).st := by
  rw [freePcns_st]
  refine Good.pool (L := e.st.ledger) h (f := e.st.free ++ ps) (n := e.st.claims) (fun _ k => ?_) (fun _ => rfl)
  rw [List.count_append]
  show ((e.st.free.count k + ps.count k : Nat) : Int) + (m.pcn k - ps.count k) = e.st.free.count k + m.pcn k
  push_cast
  omega

theorem Books.commitClaims (h : Books a b m e.st) {n : Nat} (hn : a → n ≤ e.st.claims) :
    Books a b { m with claims := m.claims - n } (commitClaims n e).st := by
  refine Good.pool (L := e.st.ledger) h (f := e.st.free) (n := e.st.claims - n) (fun _ k => rfl) (fun ha => ?_)
  have := hn ha
  show ((e.st.claims - n : Nat) : Int) - (m.claims - n) = e.st.claims - m.claims
  omega

theorem Books.returnClaims (h : Books a b m e.st) {ps : List Nat} (hn : a → ps.length ≤ e.st.claims) :
    Books a b { m with pcn := fun k => m.pcn k - ps.count k, claims := m.claims - ps.length } (returnClaims ps e).st := by
  have h1 := Books.commitClaims h hn
  exact Books.freePcns (e := Machine.commitClaims ps.length e) h1 ps

/-! ### The accounts -/

/-- The net change that a list of changes holds for an account. -/
def netOf (l : List (Nat × Int)) (o : Nat) : Int := ((l.filter fun p => p.1 == o).map Prod.snd).sum

theorem MirrorRec.chargeOf_eq (r : MirrorRec) (o : Nat) : r.chargeOf o = netOf r.charges o := rfl

theorem netOf_cons (p : Nat × Int) (l : List (Nat × Int)) (o : Nat) :
    netOf (p :: l) o = (if p.1 = o then p.2 else 0) + netOf l o := by
  unfold netOf
  by_cases h : p.1 = o <;> simp [h]

theorem netOf_other {l : List (Nat × Int)} {o : Nat} (h : o ∉ l.map Prod.fst) : netOf l o = 0 := by
  have : l.filter (fun p => p.1 == o) = [] := by
    rw [List.filter_eq_nil_iff]
    intro p hp
    simp only [beq_iff_eq]
    exact fun hc => h (List.mem_map.mpr ⟨p, hp, hc⟩)
  rw [netOf, this]
  rfl

theorem addCharge_zero (x : Account) : x.addCharge 0 = x := by simp [Account.addCharge]

/-- Each account moves by its net change. -/
theorem applyCharges_acct (sign : Int) (l : List (Nat × Int)) (e : Event) (hn : (l.map Prod.fst).Nodup) (o : Nat) :
    (applyCharges sign l e).st.acct o = (e.st.acct o).addCharge (sign * netOf l o) := by
  by_cases ho : o ∈ l.map Prod.fst
  · obtain ⟨p, hp, rfl⟩ := List.mem_map.mp ho
    rw [applyCharges_named sign l e hn hp]
    congr 2
    obtain ⟨s, t, rfl⟩ := List.append_of_mem hp
    simp only [List.map_append, List.map_cons, List.nodup_append, List.nodup_cons] at hn
    have hs : p.1 ∉ s.map Prod.fst := fun hc => hn.2.2 _ hc _ (List.mem_cons_self ..) rfl
    have h1 : netOf (s ++ p :: t) p.1 = netOf s p.1 + netOf (p :: t) p.1 := by
      simp [netOf]
    rw [h1, netOf_cons, netOf_other hs, netOf_other hn.2.1.1]
    simp
  · rw [applyCharges_other sign l e o ho, netOf_other ho, mul_zero, addCharge_zero]

theorem Books.setAcct (h : Books a b m e.st) {t : Table Account} {c r : Nat → Int}
    (hc : b → ∀ o, ((tget Account.fresh t o).charge : Int) - c o = (e.st.acct o).charge - m.charge o)
    (hr : b → ∀ o, if e.st.ctl.part = .recovering then (tget Account.fresh t o).reserved = 0
      else ((tget Account.fresh t o).reserved : Int) - r o = (e.st.acct o).reserved - m.res o) :
    Books a b { m with charge := c, res := r } { e.st with accounts := t } :=
  Good.setAccounts (L := e.st.ledger) h hc hr

/-- In RECOVERING nothing is reserved. -/
theorem Books.unreserved (h : Books a b m e.st) (hb : b) (hp : e.st.ctl.part = .recovering) (o : Nat) :
    (e.st.acct o).reserved = 0 := by
  have h1 := h.reserved hb o
  rwa [if_pos (show e.st.ledger.part = .recovering from hp)] at h1

/-- Reserved counts that stand. -/
theorem Books.reservedStands (h : Books a b m e.st) (hb : b) (o : Nat) {r : Nat} (hr : r = (e.st.acct o).reserved) :
    if e.st.ctl.part = .recovering then r = 0 else (r : Int) - m.res o = (e.st.acct o).reserved - m.res o := by
  subst hr
  split_ifs with hp
  · exact h.unreserved hb hp o
  · rfl

/-- Charges move by their net changes, each account having what it loses. -/
theorem Books.applyCharges (h : Books a b m e.st) {sign : Int} {l : List (Nat × Int)} (hn : (l.map Prod.fst).Nodup)
    (hl : b → ∀ o, 0 ≤ ((e.st.acct o).charge : Int) + sign * netOf l o) :
    Books a b { m with charge := fun o => m.charge o + sign * netOf l o } (applyCharges sign l e).st := by
  have hacct : ∀ o, tget Account.fresh (Machine.applyCharges sign l e).st.accounts o =
      (e.st.acct o).addCharge (sign * netOf l o) := applyCharges_acct sign l e hn
  rw [applyCharges_frame]
  refine Books.setAcct h (r := m.res) (fun hb o => ?_) (fun hb o => h.reservedStands hb o ?_)
  · have := hl hb o
    rw [hacct, Account.addCharge]
    simp only [Int.toNat_of_nonneg this]
    omega
  · rw [hacct]
    rfl

/-- One chunk less is charged to an account that has one. -/
theorem Books.uncharge (h : Books a b m e.st) {o : Nat} (ho : b → 1 ≤ (e.st.acct o).charge) :
    Books a b { m with charge := fun q => m.charge q - if o = q then 1 else 0 } (uncharge o e).st := by
  have h1 : ∀ q, netOf [(o, -1)] q = - if o = q then 1 else 0 := fun q => by
    rw [netOf_cons]
    simp only [netOf, List.filter_nil, List.map_nil, List.sum_nil]
    split_ifs <;> rfl
  refine Good.adjust (Books.applyCharges h (sign := 1) (l := [(o, -1)]) (by simp) fun hb q => ?_) rfl rfl rfl rfl (fun _ => rfl) rfl
    (fun q => ?_) (fun _ => rfl)
  · have := ho hb
    rw [h1]
    split_ifs with hq
    · subst hq
      omega
    · omega
  · show m.charge q - _ = m.charge q + 1 * netOf [(o, -1)] q
    rw [h1]
    omega

theorem Books.touchAcct (h : Books a b m e.st) (t : Nat) : Books a b m (e.touchAcct t).st := by
  rwa [Event.touchAcct_st]

/-- An account's record changes. -/
theorem Books.updAcct (h : Books a b m e.st) {o : Nat} {f : Account → Account} {dc dr : Int}
    (hc : b → ((f (e.st.acct o)).charge : Int) = (e.st.acct o).charge + dc)
    (hr : b → if e.st.ctl.part = .recovering then (f (e.st.acct o)).reserved = 0
      else ((f (e.st.acct o)).reserved : Int) = (e.st.acct o).reserved + dr) :
    Books a b { m with charge := fun q => m.charge q + if o = q then dc else 0,
                       res := fun q => m.res q + if o = q then dr else 0 } (e.updAcct o f).st := by
  refine Books.setAcct h (t := tset Account.fresh o (f (e.st.acct o)) e.st.accounts) (fun hb q => ?_) fun hb q => ?_
  · by_cases hq : o = q
    · subst hq
      rw [tget_tset_same, hc hb, if_pos rfl]
      omega
    · rw [tget_tset_ne _ _ _ _ _ (Ne.symm hq), if_neg hq, add_zero]
      rfl
  · by_cases hq : o = q
    · subst hq
      have := hr hb
      rw [tget_tset_same, if_pos rfl]
      split_ifs at this ⊢
      · exact this
      · omega
    · rw [tget_tset_ne _ _ _ _ _ (Ne.symm hq), if_neg hq, add_zero]
      exact h.reservedStands hb q rfl

/-- An account's record changes, its charge and its reserved count standing. -/
theorem Books.updAcct_plain (h : Books a b m e.st) (o : Nat) {f : Account → Account} (hc : ∀ x, (f x).charge = x.charge)
    (hr : ∀ x, (f x).reserved = x.reserved) : Books a b m (e.updAcct o f).st := by
  refine Good.adjust (Books.updAcct h (o := o) (f := f) (dc := 0) (dr := 0) (fun _ => ?_) (fun hb => ?_)) rfl rfl rfl rfl
    (fun _ => rfl) rfl (fun q => ?_) (fun q => ?_)
  · rw [hc, add_zero]
  · have := h.reservedStands hb o (hr _)
    split_ifs at this ⊢
    · exact this
    · omega
  · simp
  · simp

/-- Reserved chunks are released by an account that has them. -/
theorem Books.releaseChunks (h : Books a b m e.st) {o n : Nat}
    (ho : b → e.st.ctl.part ≠ .recovering → n ≤ (e.st.acct o).reserved) :
    Books a b { m with res := fun q => m.res q - if o = q then (n : Int) else 0 } (releaseChunks o n e).st := by
  unfold Machine.releaseChunks
  split_ifs with hn
  · refine Good.adjust h rfl rfl rfl rfl (fun _ => rfl) rfl (fun _ => rfl) (fun q => ?_)
    simp [hn]
  · refine Books.touchAcct (e := e.updAcct o fun x => { x with reserved := x.reserved - n }) ?_ o
    refine Good.adjust (Books.updAcct h (o := o) (f := fun x => { x with reserved := x.reserved - n }) (dc := 0) (dr := -n)
      (fun _ => by simp) (fun hb => ?_)) rfl rfl rfl rfl (fun _ => rfl) rfl (fun q => ?_) (fun q => ?_)
    · split_ifs with hp
      · have h2 := h.unreserved hb hp o
        show (e.st.acct o).reserved - n = 0
        omega
      · have := ho hb hp
        show (((e.st.acct o).reserved - n : Nat) : Int) = _
        omega
    · simp
    · show m.res q - _ = m.res q + _
      split_ifs <;> omega

/-- Chunks are reserved. -/
theorem Books.reserveChunks (h : Books a b m e.st) {o n : Nat} (hp : e.st.ctl.part ≠ .recovering) :
    Books a b { m with res := fun q => m.res q + if o = q then (n : Int) else 0 } (reserveChunks o n e).st := by
  refine Books.touchAcct (e := e.updAcct o fun x => { x with reserved := x.reserved + n }) ?_ o
  refine Good.adjust (Books.updAcct h (o := o) (f := fun x => { x with reserved := x.reserved + n }) (dc := 0) (dr := n)
    (fun _ => by simp) (fun hb => ?_)) rfl rfl rfl rfl (fun _ => rfl) rfl (fun q => ?_) (fun q => rfl)
  · rw [if_neg hp]
    simp
  · simp

/-- One reserved chunk becomes charge. -/
theorem Books.transferChunk (h : Books a b m e.st) {o : Nat}
    (ho : b → e.st.ctl.part ≠ .recovering → 1 ≤ (e.st.acct o).reserved) :
    Books a b { m with charge := fun q => m.charge q + if o = q then 1 else 0,
                       res := fun q => m.res q - if o = q then 1 else 0 } (transferChunk o e).st := by
  refine Books.touchAcct (e := e.updAcct o fun x => { x with reserved := x.reserved - 1, charge := x.charge + 1 }) ?_ o
  refine Good.adjust (Books.updAcct h (o := o) (f := fun x => { x with reserved := x.reserved - 1, charge := x.charge + 1 })
    (dc := 1) (dr := -1) (fun _ => by simp) (fun hb => ?_)) rfl rfl rfl rfl (fun _ => rfl) rfl (fun q => rfl) (fun q => ?_)
  · split_ifs with hp
    · have h2 := h.unreserved hb hp o
      show (e.st.acct o).reserved - 1 = 0
      omega
    · have := ho hb hp
      show (((e.st.acct o).reserved - 1 : Nat) : Int) = _
      omega
  · show m.res q - _ = m.res q + _
    split_ifs <;> omega

end Sys2Proof.Machine
end

section
/-! PROOFS. The books under the operations on the map, the change lists and the snapshots (R15, R83, R88 to R91, R121). -/

namespace Sys2Proof.Machine

variable {a b : Prop} {m : Mode} {e : Event}

/-! ### Volume records -/

theorem Books.likeVol (h : Books a b m e.st) (v : Nat) (f : Volume → Volume) (hl : (e.st.vol v).Like (f (e.st.vol v))) :
    Books a b m (e.updVol v f).st := Good.likeVol h hl

/-- Fields of a volume that the books do not read change. -/
theorem Books.plainVol (h : Books a b m e.st) (v : Nat) (f : Volume → Volume) (hm : ∀ x, (f x).map = x.map)
    (hs : ∀ x, (f x).snaps = x.snaps) (hst : ∀ x, (f x).state = x.state) (hh : ∀ x, (f x).holdList = x.holdList)
    (hw : ∀ x, (f x).works = x.works) (hwait : ∀ x, (f x).waiting = x.waiting) : Books a b m (e.updVol v f).st :=
  h.likeVol v f (.of_plain (hm _) (hs _) (hst _) (hh _) (hw _) (hwait _))

theorem Books.volWf (h : Books a b m e.st) (v : Nat) : (e.st.vol v).wf = true := Good.volWf' h v

/-! ### The change lists -/

theorem Books.logLcn (h : Books a b m e.st) (v lcn : Nat) : Books a b m (logLcn v lcn e).st := by
  have hfull : Books a b m (e.updVol v fun y => { y with activeIncomplete := true, overflow := true }).st :=
    h.plainVol v _ (fun _ => rfl) (fun _ => rfl) (fun _ => rfl) (fun _ => rfl) (fun _ => rfl) (fun _ => rfl)
  unfold Machine.logLcn
  dsimp only
  split
  · exact h
  split
  · exact h
  split
  · exact h.likeVol v (fun y => { y.setEntry lcn { y.entry lcn with stamp := some y.runCounter } with
      activeList := y.activeList ++ [lcn] }) (.of_stamp (l := lcn) rfl rfl rfl rfl rfl rfl)
  split
  · exact hfull
  · exact hfull

theorem Books.logLcns (h : Books a b m e.st) (v : Nat) (ls : List Nat) : Books a b m (logLcns v ls e).st :=
  foldl_keeps (Q := fun e => Books a b m e.st) (fun _ l he => he.logLcn v l) ls h

/-! ### A chunk takes another form -/

/-- No plan that is still to be committed names the chunk. -/
def Untouched (m : Mode) (s : State) (v l : Nat) : Prop :=
  ∀ x ∈ s.inflight, x.writes = true → x.req.vol = v → m.fin ≠ some x.arrival → ∀ q ∈ x.plan, q.lcn ≠ l

theorem Volume.entry_setForm (x : Volume) (l : Nat) (f : Form) : ((x.setForm l f).entry l).form = f := by
  rw [Volume.entry, Volume.setForm, Volume.setEntry]
  simp

theorem Volume.entry_setForm_ne (x : Volume) {l k : Nat} (f : Form) (h : k ≠ l) : (x.setForm l f).entry k = x.entry k :=
  tget_tset_ne _ _ _ _ _ h

theorem Books.setForm (h : Books a b m e.st) {v l : Nat} {f : Volume → Form} (hu : Untouched m e.st v l)
    (hst : (e.st.vol v).state ≠ .absent ∨ ∃ c, f (e.st.vol v) = .unmapped c) (hp : e.st.ctl.part ≠ .recovering) :
    Books a b
      { m with
        pcn := fun n => m.pcn n + ((e.st.vol v).entry l).form.pcnIs n - (f (e.st.vol v)).pcnIs n
        charge := fun o => m.charge o + ((e.st.vol v).entry l).form.chargedTo o - (f (e.st.vol v)).chargedTo o }
      (e.updVol v fun x => x.setForm l (f x)).st := by
  have hw := h.volWf v
  refine Good.setVol (L := e.st.ledger) h (y := (e.st.vol v).setForm l (f (e.st.vol v))) ⟨fun _ => ?_, id, List.Sublist.refl _,
    List.Sublist.refl _⟩ (h.hold v) (fun hy => ?_) (fun x hx hxw hv hf q hq hfit => ?_) (fun _ n => ?_)
    (fun _ o => ?_) (fun _ hr => absurd hr hp)
  · exact (Volume.wf_iff _).mpr ⟨wf_tset l _ ((Volume.wf_iff _).mp hw).1, ((Volume.wf_iff _).mp hw).2⟩
  · have hx : (e.st.vol v).bare := h.bare v hy
    rcases hst with hst | ⟨c, hc⟩
    · exact absurd hy hst
    · exact ⟨forall_tset (Q := fun y : MapEntry => ∃ c, y.form = .unmapped c) hx.1 ⟨c, hc⟩, hx.2⟩
  · rw [ChunkPlan.Fits] at hfit ⊢
    rw [Volume.entry_setForm_ne _ _ (hu x hx hxw hv hf q hq)]
    exact hfit
  · have h1 := mapSum_set (g := Form.pcnIs n) rfl hw (y := (e.st.vol v).setForm l (f (e.st.vol v))) (l := l)
      (e := { (e.st.vol v).entry l with form := f (e.st.vol v) }) rfl
    show (((e.st.vol v).setForm l (f (e.st.vol v))).mapSum (Form.pcnIs n) + (e.st.vol v).retCount n : Nat) +
      (m.pcn n + ((e.st.vol v).entry l).form.pcnIs n - (f (e.st.vol v)).pcnIs n) =
      ((e.st.vol v).mapSum (Form.pcnIs n) + (e.st.vol v).retCount n : Nat) + m.pcn n
    simp only at h1
    push_cast
    omega
  · have h1 := mapSum_set (g := Form.chargedTo o) rfl hw (y := (e.st.vol v).setForm l (f (e.st.vol v))) (l := l)
      (e := { (e.st.vol v).entry l with form := f (e.st.vol v) }) rfl
    show ((((e.st.vol v).setForm l (f (e.st.vol v))).mapSum (Form.chargedTo o) : Nat) : Int) +
      (m.charge o + ((e.st.vol v).entry l).form.chargedTo o - (f (e.st.vol v)).chargedTo o) =
      ((e.st.vol v).mapSum (Form.chargedTo o) : Nat) + m.charge o
    simp only at h1
    omega

/-- A PCN is mapped into an entry. -/
theorem Books.mapEntry (h : Books a b m e.st) {v l pcn owner : Nat} (hu : Untouched m e.st v l)
    (hst : (e.st.vol v).state ≠ .absent) (hp : e.st.ctl.part ≠ .recovering) :
    Books a b
      { m with
        pcn := fun n => m.pcn n + ((e.st.vol v).entry l).form.pcnIs n - if pcn = n then 1 else 0
        charge := fun o => m.charge o + ((e.st.vol v).entry l).form.chargedTo o - if owner = o then 1 else 0 }
      (mapEntry v l pcn owner e).st := by
  refine Good.adjust (h.setForm (f := fun x => .mapped pcn x.gen owner) hu (.inl hst) hp) rfl rfl rfl rfl (fun n => ?_) rfl
    (fun o => ?_) (fun _ => rfl)
  · simp only [Form.pcnIs]
    split_ifs <;> rfl
  · simp only [Form.chargedTo]
    split_ifs <;> rfl

/-- An entry is unmapped. -/
theorem Books.unmapEntry (h : Books a b m e.st) {v l : Nat} (hu : Untouched m e.st v l) (hp : e.st.ctl.part ≠ .recovering) :
    Books a b
      { m with
        pcn := fun n => m.pcn n + ((e.st.vol v).entry l).form.pcnIs n
        charge := fun o => m.charge o + ((e.st.vol v).entry l).form.chargedTo o } (unmapEntry v l e).st :=
  Good.adjust (h.setForm (f := fun x => .unmapped x.gen) hu (.inr ⟨_, rfl⟩) hp) rfl rfl rfl rfl
    (fun n => by simp [Form.pcnIs]) rfl (fun o => by simp [Form.chargedTo]) (fun _ => rfl)

/-! ### Retained sets -/

/-- The record of a snapshot is replaced by one with another set. -/
theorem Books.setRetained (h : Books a b m e.st) {v slot : Nat} {d d' : Snap} (f : Volume → Volume)
    (hf : tfind (e.st.vol v).snaps slot = some d) (hst : (e.st.vol v).state ≠ .absent) (hm : ∀ x, (f x).map = x.map)
    (hs : ∀ x, (f x).snaps = tput slot d' x.snaps) (hstate : ∀ x, (f x).state = x.state)
    (hh : ∀ x, (f x).holdList = x.holdList) (hw : ∀ x, (f x).works = x.works) (hwait : ∀ x, (f x).waiting = x.waiting) :
    Books a b { m with pcn := fun n => m.pcn n + (d.retained.map RetEntry.pcn).count n - (d'.retained.map RetEntry.pcn).count n }
      (e.updVol v f).st := by
  have hwf := h.volWf v
  generalize hx : e.st.vol v = x at hwf hf hst
  have hy : (e.updVol v f).st = e.st.setVol v (f x) := by rw [← hx]; rfl
  rw [hy]
  refine Good.setVol (L := e.st.ledger) h (y := f x) (c := m.charge)
    ⟨fun _ => ?_, ?_, ?_, ?_⟩ (fun n hn => ?_) (fun hy => ?_) (fun y _ _ _ _ q _ hfit => ?_) (fun _ n => ?_) (fun _ o => ?_) (fun _ _ o => ?_)
  all_goals (try rw [show e.st.ledger.vol v = x from hx])
  · exact (Volume.wf_iff _).mpr ⟨by rw [hm]; exact ((Volume.wf_iff _).mp hwf).1,
      by rw [hs]; exact sorted_tput slot d' (Volume.snapsSorted hwf)⟩
  · rw [hstate]
    exact id
  · rw [hw]
  · rw [hwait]
  · rw [hh, ← hx] at hn
    exact h.hold v n hn
  · rw [hstate] at hy
    exact absurd hy hst
  · rw [show e.st.ledger.vol v = x from hx] at hfit
    rw [ChunkPlan.Fits] at hfit ⊢
    rwa [Volume.entry, hm]
  · have h1 := retCount_put hwf hf (hs x) n
    have h2 : (f x).mapSum (Form.pcnIs n) = x.mapSum (Form.pcnIs n) := by
      rw [Volume.mapSum, hm, Volume.mapSum]
    rw [Volume.holds, Volume.holds, h2]
    push_cast
    omega
  · rw [Volume.chargedTo, Volume.chargedTo, Volume.mapSum, Volume.mapSum, hm]
  · rw [Volume.chargedTo, Volume.chargedTo, Volume.mapSum, Volume.mapSum, hm]

/-- A displaced chunk finds its place. -/
theorem Books.fileDisplaced (h : Books a b m e.st) {v : Nat} (lcn pcn born g : Nat) (hst : (e.st.vol v).state ≠ .absent) :
    Books a b { m with pcn := fun n => m.pcn n - if pcn = n then 1 else 0 } (fileDisplaced v lcn pcn born g e).st := by
  have hfree : Books a b { m with pcn := fun n => m.pcn n - if pcn = n then 1 else 0 } (Machine.freePcns [pcn] e).st :=
    Good.adjust (h.freePcns [pcn]) rfl rfl rfl rfl (fun n => by simp [List.count_singleton]) rfl (fun _ => rfl) (fun _ => rfl)
  unfold Machine.fileDisplaced
  split
  · rename_i slot q hq
    obtain ⟨hmem, -, -⟩ := newestSnap_some hq
    split_ifs with hb
    · refine Good.adjust (h.setRetained (v := v) (d := q)
        (d' := { q with retained := q.retained ++ [{ lcn := lcn, pcn := pcn, born := born }] }) (fun x => x.setSnap slot
          { q with retained := q.retained ++ [{ lcn := lcn, pcn := pcn, born := born }] })
        (tfind_of_mem (Volume.snapsSorted (h.volWf v)) hmem) hst (fun _ => rfl) (fun _ => rfl) (fun _ => rfl)
        (fun _ => rfl) (fun _ => rfl) (fun _ => rfl)) rfl rfl rfl rfl (fun n => ?_) rfl (fun _ => rfl) (fun _ => rfl)
      simp only [List.map_append, List.map_cons, List.map_nil, List.count_append, List.count_singleton, beq_iff_eq]
      split_ifs <;> push_cast <;> omega
    · exact hfree
  · exact hfree

/-! ### Snapshots -/

theorem Books.setSnap (h : Books a b m e.st) {v slot : Nat} {d d' : Snap} (f : Volume → Volume)
    (hf : tfind (e.st.vol v).snaps slot = some d) (hr : d'.retained = d.retained) (hm : ∀ x, (f x).map = x.map)
    (hs : ∀ x, (f x).snaps = tput slot d' x.snaps) (hst : ∀ x, (f x).state = x.state)
    (hh : ∀ x, (f x).holdList = x.holdList) (hw : ∀ x, (f x).works = x.works) (hwait : ∀ x, (f x).waiting = x.waiting) :
    Books a b m (e.updVol v f).st :=
  h.likeVol v f (.of_snap hf hr (hm _) (hs _) (hst _) (hh _) (hw _) (hwait _))

theorem Books.pinSnap (h : Books a b m e.st) (v slot : Nat) (up : Bool) : Books a b m (pinSnap v slot up e).st := by
  unfold Machine.pinSnap
  split
  · exact h
  · rename_i s hs
    exact h.setSnap (d' := { s with inUse := if up then s.inUse + 1 else s.inUse - 1 }) _ hs rfl (fun _ => rfl) (fun _ => rfl)
      (fun _ => rfl) (fun _ => rfl) (fun _ => rfl) (fun _ => rfl)

/-- The end of a walk takes out a slot with an empty set. -/
theorem Books.endWalk (h : Books a b m e.st) (v slot : Nat)
    (hr : ∀ d, tfind (e.st.vol v).snaps slot = some d → d.retained = []) : Books a b m (endWalk v slot e).st := by
  have h1 : Books a b m (e.updVol v fun x => { x with snaps := tdel slot x.snaps, deleteQueue := x.deleteQueue.drop 1 }).st :=
    h.likeVol v _ (.of_unslot hr rfl rfl rfl rfl rfl rfl)
  unfold Machine.endWalk
  dsimp only
  split_ifs <;> exact h1

theorem Event.vol_updVol (e : Event) (v : Nat) (f : Volume → Volume) : (e.updVol v f).st.vol v = f (e.st.vol v) :=
  State.vol_setVol ..

theorem Books.startHead (h : Books a b m e.st) (v n : Nat) : Books a b m (startHead v n e).st := by
  induction n generalizing e with
  | zero => exact h
  | succ n ih =>
    unfold Machine.startHead
    split
    · exact h
    · rename_i slot rest hq
      split
      · exact h
      · rename_i d hd
        have h1 : Books a b m (e.updVol v fun x => x.setSnap slot { d with state := .deleting }).st :=
          h.setSnap (d' := { d with state := .deleting }) _ hd rfl (fun _ => rfl) (fun _ => rfl) (fun _ => rfl)
            (fun _ => rfl) (fun _ => rfl) (fun _ => rfl)
        dsimp only
        split_ifs with hc
        · refine ih (h1.endWalk v slot fun d' hd' => ?_)
          rw [Event.vol_updVol, Volume.setSnap_snaps, tfind_tput_same] at hd'
          obtain rfl : { d with state := .deleting } = d' := by simpa using hd'
          exact hc.1
        · exact h1

theorem Books.queueDeletion (h : Books a b m e.st) (v slot : Nat) : Books a b m (queueDeletion v slot e).st := by
  unfold Machine.queueDeletion
  split
  · exact h
  · rename_i d hd
    have h1 : Books a b m (e.updVol v fun x =>
        { x.setSnap slot { d with state := .deletePending } with deleteQueue := x.deleteQueue ++ [slot] }).st :=
      h.setSnap (d' := { d with state := .deletePending }) _ hd rfl (fun _ => rfl) (fun _ => rfl) (fun _ => rfl)
        (fun _ => rfl) (fun _ => rfl) (fun _ => rfl)
    dsimp only
    split_ifs
    · exact h1.startHead v _
    · exact h1

theorem Books.createEvent (h : Books a b m e.st) (v : Nat) (c : CreateReq) : Books a b m (createEvent v c e).2.st := by
  cases hc : createCheck c.kind (e.st.vol v) with
  | some code => simpa only [Machine.createEvent, hc] using h
  | none =>
    have hf := createCheck_slot hc
    simp only [Machine.createEvent, hc]
    exact h.likeVol v _ (.of_create hf rfl rfl rfl rfl rfl rfl rfl)

theorem Books.rotateOver (h : Books a b m e.st) (v keep : Nat) (l : List (Nat × Snap)) (n : Nat) :
    Books a b m (rotateOver v keep l n e).2.st := by
  induction l generalizing n e with
  | nil => exact h
  | cons p l ih =>
    unfold Machine.rotateOver
    split_ifs
    · exact h
    · exact ih h _
    · exact ih (h.queueDeletion v _) _

theorem Books.rotate (h : Books a b m e.st) (v q keep slot : Nat) : Books a b m (rotate v q keep slot e).st := by
  have h1 := h.rotateOver v keep (rotationCandidates (e.st.vol v) q slot)
    ((rotationCandidates (e.st.vol v) q slot).length + 1)
  unfold Machine.rotate
  dsimp only
  split_ifs <;> exact h1

/-- Two changes of one record are one. -/
theorem updVol_updVol (hs : Table.sorted e.st.vols = true) (v : Nat) (f g : Volume → Volume) :
    ((e.updVol v f).updVol v g).st = (e.updVol v fun x => g (f x)).st := by
  show (e.st.setVol v (f (e.st.vol v))).setVol v (g ((e.st.setVol v (f (e.st.vol v))).vol v)) =
    e.st.setVol v (g (f (e.st.vol v)))
  rw [State.vol_setVol]
  simp only [State.setVol, tset_again hs]

/-- What a merge walk does with the head of a set: its entry goes to an older set, or its PCN to the free FIFO. -/
theorem Books.mergeStep (h : Books a b m e.st) (v : Nat) : Books a b m (mergeStep v e).st := by
  unfold Machine.mergeStep
  dsimp only
  split
  · exact h
  rename_i hrun
  have hst : (e.st.vol v).state ≠ .absent := by
    intro hc
    simp [Volume.usable, hc] at hrun
  split
  · exact h
  rename_i slot t hq
  split
  · exact h
  rename_i d hd
  split
  · exact h
  rename_i r rest hr
  have hdone : ∀ e' : Event, Books a b m e'.st → (∀ d', tfind (e'.st.vol v).snaps slot = some d' → d'.retained = rest) →
      Books a b m (if rest = [] then Machine.startHead v (Config.snapSlots + 1) (Machine.endWalk v slot e') else e').st := by
    intro e' h' hs
    split_ifs with hrest
    · exact (h'.endWalk v slot fun d' hd' => (hs d' hd').trans hrest).startHead v _
    · exact h'
  have hpop : ∀ d' : Snap, d'.retained = rest → Books a b { m with pcn := fun n => m.pcn n + if r.pcn = n then 1 else 0 }
      (e.updVol v fun y => y.setSnap slot d').st := by
    intro d' hd'
    refine Good.adjust (h.setRetained (d := d) (d' := d') (fun y => y.setSnap slot d') hd hst
      (fun _ => rfl) (fun _ => rfl) (fun _ => rfl) (fun _ => rfl) (fun _ => rfl) (fun _ => rfl)) rfl rfl rfl rfl
      (fun n => ?_) rfl (fun _ => rfl) (fun _ => rfl)
    rw [hr, hd']
    simp only [List.map_cons, List.count_cons, beq_iff_eq]
    split_ifs <;> push_cast <;> omega
  have hfound : ∀ (d' d'' : Snap) (x : Volume), tfind (x.setSnap slot d').snaps slot = some d'' → d'' = d' := by
    intro d' d'' x hx
    rw [Volume.setSnap_snaps, tfind_tput_same] at hx
    exact (Option.some.inj hx).symm
  have hfree : Books a b m (Machine.freePcns [r.pcn] (e.updVol v fun y =>
      y.setSnap slot { d with retained := rest, freed := d.freed + 1 })).st := by
    refine Good.adjust ((hpop { d with retained := rest, freed := d.freed + 1 } rfl).freePcns [r.pcn]) rfl rfl rfl rfl
      (fun n => ?_) rfl (fun _ => rfl) (fun _ => rfl)
    simp [List.count_singleton]
  have hfreed : ∀ d', tfind ((Machine.freePcns [r.pcn] (e.updVol v fun y =>
      y.setSnap slot { d with retained := rest, freed := d.freed + 1 })).st.vol v).snaps slot = some d' →
      d'.retained = rest := by
    intro d' hd'
    rw [freePcns_st] at hd'
    have hd'' : tfind ((e.updVol v fun y => y.setSnap slot { d with retained := rest, freed := d.freed + 1 }).st.vol v).snaps
      slot = some d' := hd'
    rw [Event.vol_updVol] at hd''
    rw [hfound _ _ _ hd'']
  refine (fun hk => hdone _ (And.left hk) (And.right hk)) ?_
  split
  · rename_i ps p hp
    obtain ⟨hmem, hacc, -⟩ := newestSnap_some hp
    simp only [Bool.and_eq_true, decide_eq_true_eq] at hacc
    split_ifs with hb
    · have hps : tfind (e.st.vol v).snaps ps = some p := tfind_of_mem (Volume.snapsSorted (h.volWf v)) hmem
      have hne : ps ≠ slot := by
        rintro rfl
        rw [hd] at hps
        obtain rfl : d = p := by simpa using hps
        exact lt_irrefl _ hacc.2
      have h1 := hpop { d with retained := rest } rfl
      have h2 := h1.setRetained (v := v) (slot := ps) (d := p) (d' := { p with retained := p.retained ++ [r] })
        (fun y => y.setSnap ps { p with retained := p.retained ++ [r] })
        (by rw [Event.vol_updVol, Volume.setSnap_snaps, tfind_tput_ne _ _ _ _ hne]; exact hps)
        (by rw [Event.vol_updVol]; exact hst) (fun _ => rfl) (fun _ => rfl) (fun _ => rfl) (fun _ => rfl) (fun _ => rfl)
        (fun _ => rfl)
      have h3 : Books a b m (e.updVol v fun y => (y.setSnap slot { d with retained := rest }).setSnap ps
          { p with retained := p.retained ++ [r] }).st := by
        have he : ((e.updVol v fun y => y.setSnap slot { d with retained := rest }).updVol v fun y =>
            y.setSnap ps { p with retained := p.retained ++ [r] }).st =
            (e.updVol v fun y => (y.setSnap slot { d with retained := rest }).setSnap ps
              { p with retained := p.retained ++ [r] }).st := by
          exact updVol_updVol h.volsSorted v _ _
        rw [← he]
        refine Good.adjust h2 rfl rfl rfl rfl (fun n => ?_) rfl (fun _ => rfl) (fun _ => rfl)
        simp only [List.map_append, List.map_cons, List.map_nil, List.count_append, List.count_singleton, beq_iff_eq]
        split_ifs <;> push_cast <;> omega
      refine ⟨h3, fun d' hd' => ?_⟩
      rw [Event.vol_updVol, Volume.setSnap_snaps, tfind_tput_ne _ _ _ _ (Ne.symm hne)] at hd'
      rw [hfound _ _ _ hd']
    · exact ⟨hfree, hfreed⟩
  · exact ⟨hfree, hfreed⟩

end Sys2Proof.Machine
end

section
/-! PROOFS. The books under the operations on restore jobs (R100, R105, R108, R115): what a job's record holds moves with the
amounts of the mode. -/

namespace Sys2Proof.Machine

variable {a b : Prop} {m : Mode} {L : Ledger} {e : Event}

/-! ### A job's record is replaced, made or taken out -/

theorem BusyItem.Fits.of_jobs {i : BusyItem} {t : Table Job} (h : i.Fits m L)
    (ht : ∀ j x, i.owner = .restore j → tfind L.jobs j = some x → tfind t j = some x) : i.Fits m { L with jobs := t } := by
  unfold BusyItem.Fits at h ⊢
  cases ho : i.owner with
  | front n =>
    rw [ho] at h
    exact h
  | restore j =>
    rw [ho] at h
    rcases h with h | ⟨x, hx, hrest⟩
    · exact .inl h
    · exact .inr ⟨x, ht j x ho hx, hrest⟩

theorem Good.putJob (h : Good a b m L) {j : Nat} {x y : Job} (hf : tfind L.jobs j = some x) {p ch r : Nat → Int} {c : Int}
    (hsane : y.Sane) (hdst : y.state.ended = false → (L.vol y.dstVol).state ≠ .absent)
    (hitem : ∀ i ∈ L.busy, i.owner = .restore j → i.Fits m { L with jobs := tput j y L.jobs })
    (hasked : ∀ v q, .holding q ∈ L.asking m v → q.asker = .restore j → y.state = .starting ∧ y.dstVol = v)
    (hidle : L.part = .recovering → y.waiting = false ∧ (3 ≤ L.recStep → y.state.ended = true))
    (hp : a → ∀ n, p n + y.holds n = m.pcn n + x.holds n) (hc : a → c + y.claims = m.claims + x.claims)
    (hch : b → ∀ o, ch o + y.copiesFor o = m.charge o + x.copiesFor o)
    (hr : b → L.part ≠ .recovering → ∀ o, r o + y.reservesFor o = m.res o + x.reservesFor o) :
    Good a b { m with pcn := p, claims := c, charge := ch, res := r } { L with jobs := tput j y L.jobs } := by
  have htot : ∀ f : Job → Nat, totalOf f (tput j y L.jobs) + f x = totalOf f L.jobs + f y :=
    fun f => totalOf_tput_some hf h.jobsWf
  have hfind : ∀ {k z}, k ≠ j → tfind L.jobs k = some z → tfind (tput j y L.jobs) k = some z := fun hk hz => by
    rwa [tfind_tput_ne _ _ _ _ hk]
  refine { h with
    jobsWf := sorted_tput j y h.jobsWf
    count := fun ha => ?_
    places := fun ha hv n => ?_
    charged := fun hb o => ?_
    reserved := fun hb o => ?_
    item := fun i hi => ?_
    job := fun q hq => ?_
    asked := fun v q k hq hk => ?_
    idle := fun hrec => ?_ }
  · have h1 := h.count ha
    have h2 := htot Job.claims
    have h3 := hc ha
    show (L.claims : Int) = ((_ + totalOf Job.claims (tput j y L.jobs) + _ : Nat) : Int) + c
    unfold Ledger.claimed at h1
    push_cast at h1 ⊢
    omega
  · have h1 := h.places ha hv n
    have h2 := htot (Job.holds n)
    have h3 := hp ha n
    show ((_ + _ + _ + totalOf (Job.holds n) (tput j y L.jobs) + _ : Nat) : Int) + p n = _
    unfold Ledger.holds at h1
    push_cast at h1 ⊢
    omega
  · have h1 := h.charged hb o
    have h2 := htot (Job.copiesFor o)
    have h3 := hch hb o
    show ((L.acct o).charge : Int) = L.mapped o + L.pledged o + (totalOf (Job.copiesFor o) (tput j y L.jobs) : Nat) + ch o
    unfold Ledger.copies at h1
    omega
  · have h1 := h.reserved hb o
    have h2 := htot (Job.reservesFor o)
    show if L.part = .recovering then _ else ((L.acct o).reserved : Int) =
      (totalOf (Job.reservesFor o) (tput j y L.jobs) : Nat) + r o
    split_ifs at h1 ⊢ with hrec
    · exact h1
    · have h3 := hr hb hrec o
      unfold Ledger.remaining at h1
      omega
  · by_cases ho : i.owner = .restore j
    · exact hitem i hi ho
    · refine (h.item i hi).of_jobs fun k z hk hz => hfind ?_ hz
      rintro rfl
      exact ho hk
  · rcases mem_tput hq with rfl | hq
    · exact ⟨hsane, hdst⟩
    · exact h.job q hq
  · by_cases hkj : k = j
    · subst hkj
      obtain ⟨h1, h2⟩ := hasked v q hq hk
      exact ⟨y, tfind_tput_same .., h1, h2⟩
    · obtain ⟨z, hz, hrest⟩ := h.asked v q k hq hk
      exact ⟨z, hfind hkj hz, hrest⟩
  · obtain ⟨h1, h2, h3, h4, h5, h6, h7⟩ := h.idle hrec
    refine ⟨h1, h2, fun q hq => ?_, h4, h5, h6, fun h8 => ⟨(h7 h8).1, fun q hq => ?_⟩⟩
    · rcases mem_tput hq with rfl | hq
      · exact (hidle hrec).1
      · exact h3 q hq
    · rcases mem_tput hq with rfl | hq
      · exact (hidle hrec).2 h8
      · exact (h7 h8).2 q hq

theorem Good.addJob (h : Good a b m L) {j : Nat} {y : Job} (hf : tfind L.jobs j = none) {r : Nat → Int} (hsane : y.Sane)
    (hdst : (L.vol y.dstVol).state ≠ .absent) (hcopy : y.copy = none) (hrec : L.part ≠ .recovering)
    (hr : b → ∀ o, r o + y.reservesFor o = m.res o) :
    Good a b { m with res := r } { L with jobs := tput j y L.jobs } := by
  have htot : ∀ f : Job → Nat, totalOf f (tput j y L.jobs) = totalOf f L.jobs + f y := fun f => totalOf_tput_none hf
  have hfind : ∀ {k z}, tfind L.jobs k = some z → tfind (tput j y L.jobs) k = some z := fun {k z} hz => by
    have hk : k ≠ j := by
      rintro rfl
      rw [hf] at hz
      cases hz
    rwa [tfind_tput_ne _ _ _ _ hk]
  refine { h with
    jobsWf := sorted_tput j y h.jobsWf
    count := fun ha => ?_
    places := fun ha hv n => ?_
    charged := fun hb o => ?_
    reserved := fun hb o => ?_
    item := fun i hi => (h.item i hi).of_jobs fun k z _ hz => hfind hz
    job := fun q hq => ?_
    asked := fun v q k hq hk => ?_
    idle := fun hrec' => absurd hrec' hrec }
  · have h1 := h.count ha
    have h2 := htot Job.claims
    show (L.claims : Int) = ((_ + totalOf Job.claims (tput j y L.jobs) + _ : Nat) : Int) + m.claims
    unfold Ledger.claimed at h1
    rw [h2, Job.claims, hcopy]
    exact h1
  · have h1 := h.places ha hv n
    show ((_ + _ + _ + totalOf (Job.holds n) (tput j y L.jobs) + _ : Nat) : Int) + m.pcn n = _
    rw [htot, Job.holds, hcopy]
    exact h1
  · have h1 := h.charged hb o
    show ((L.acct o).charge : Int) = L.mapped o + L.pledged o + (totalOf (Job.copiesFor o) (tput j y L.jobs) : Nat) + m.charge o
    rw [htot, Job.copiesFor, hcopy]
    exact h1
  · have h1 := h.reserved hb o
    have h2 := htot (Job.reservesFor o)
    have h3 := hr hb o
    show if L.part = .recovering then _ else ((L.acct o).reserved : Int) =
      (totalOf (Job.reservesFor o) (tput j y L.jobs) : Nat) + r o
    rw [if_neg hrec] at h1 ⊢
    unfold Ledger.remaining at h1
    omega
  · rcases mem_tput hq with rfl | hq
    · exact ⟨hsane, fun _ => hdst⟩
    · exact h.job q hq
  · obtain ⟨z, hz, hrest⟩ := h.asked v q k hq hk
    exact ⟨z, hfind hz, hrest⟩

/-- A job that holds nothing is taken out. -/
theorem Good.dropJob (h : Good a b m L) {j : Nat} {x : Job} (hf : tfind L.jobs j = some x) {r : Nat → Int}
    (hv : x.visiting = false) (hact : m.act ≠ some (.restore j))
    (hasked : ∀ v q, .holding q ∈ L.asking m v → q.asker ≠ .restore j)
    (hr : b → L.part ≠ .recovering → ∀ o, r o = m.res o + x.reservesFor o) :
    Good a b { m with res := r } { L with jobs := tdel j L.jobs } := by
  have htot : ∀ f : Job → Nat, totalOf f (tdel j L.jobs) + f x = totalOf f L.jobs :=
    fun f => totalOf_tdel_some hf h.jobsWf
  have hfind : ∀ {k z}, k ≠ j → tfind L.jobs k = some z → tfind (tdel j L.jobs) k = some z := fun hk hz => by
    rwa [tfind_tdel_ne _ _ _ hk]
  simp only [Job.visiting, Bool.or_eq_false_iff, Option.isSome_eq_false_iff, Option.isNone_iff_eq_none] at hv
  obtain ⟨hw, hcopy⟩ := hv
  refine { h with
    jobsWf := sorted_tdel j h.jobsWf
    count := fun ha => ?_
    places := fun ha hv n => ?_
    charged := fun hb o => ?_
    reserved := fun hb o => ?_
    item := fun i hi => (h.item i hi).of_jobs fun k z hk hz => hfind ?_ hz
    job := fun q hq => h.job q (mem_tdel hq)
    asked := fun v q k hq hk => ?_
    idle := fun hrec => ?_ }
  · have h1 := h.count ha
    have h2 := htot Job.claims
    rw [show x.claims = 0 by rw [Job.claims, hcopy]; rfl] at h2
    show (L.claims : Int) = ((_ + totalOf Job.claims (tdel j L.jobs) + _ : Nat) : Int) + m.claims
    unfold Ledger.claimed at h1
    rw [← h2] at h1
    exact h1
  · have h1 := h.places ha hv n
    have h2 := htot (Job.holds n)
    rw [show x.holds n = 0 by rw [Job.holds, hcopy]; rfl] at h2
    show ((_ + _ + _ + totalOf (Job.holds n) (tdel j L.jobs) + _ : Nat) : Int) + m.pcn n = _
    unfold Ledger.holds at h1
    rw [← h2] at h1
    exact h1
  · have h1 := h.charged hb o
    have h2 := htot (Job.copiesFor o)
    rw [show x.copiesFor o = 0 by rw [Job.copiesFor, hcopy]; rfl] at h2
    show ((L.acct o).charge : Int) = L.mapped o + L.pledged o + (totalOf (Job.copiesFor o) (tdel j L.jobs) : Nat) + m.charge o
    unfold Ledger.copies at h1
    rw [← h2] at h1
    exact h1
  · have h1 := h.reserved hb o
    have h2 := htot (Job.reservesFor o)
    show if L.part = .recovering then _ else ((L.acct o).reserved : Int) =
      (totalOf (Job.reservesFor o) (tdel j L.jobs) : Nat) + r o
    split_ifs at h1 ⊢ with hrec
    · exact h1
    · have h3 := hr hb hrec o
      unfold Ledger.remaining at h1
      omega
  · rintro rfl
    have hi' := h.item i hi
    unfold BusyItem.Fits at hi'
    rw [hk] at hi'
    rcases hi' with hi' | ⟨y, hy, -, -, hrest⟩
    · exact hact hi'
    · obtain rfl : x = y := by rw [hf] at hy; simpa using hy
      split_ifs at hrest
      · simp [hcopy] at hrest
      · simp [hw] at hrest
  · obtain ⟨z, hz, hrest⟩ := h.asked v q k hq hk
    refine ⟨z, hfind ?_ hz, hrest⟩
    rintro rfl
    exact hasked v q hq hk
  · obtain ⟨h1, h2, h3, h4, h5, h6, h7⟩ := h.idle hrec
    exact ⟨h1, h2, fun q hq => h3 q (mem_tdel hq), h4, h5, h6, fun h8 => ⟨(h7 h8).1, fun q hq => (h7 h8).2 q (mem_tdel hq)⟩⟩

/-! ### A job goes into another state -/

/-- A change of a job's record that leaves its place, its copy and its reservation. -/
structure Job.Like (x y : Job) : Prop where
  copy : y.copy = x.copy
  waiting : y.waiting = x.waiting
  dst : y.dstVol = x.dstVol
  owner : y.owner = x.owner
  remaining : y.remaining = x.remaining
  ranges : y.ranges = x.ranges
  idx : y.rangeIdx = x.rangeIdx
  offset : y.offset = x.offset
  ended : y.state.ended = x.state.ended
  runs : x.visiting = true → x.state = .running → y.state = .running

namespace Job.Like

variable {x y : Job}

theorem visiting (h : x.Like y) : y.visiting = x.visiting := by rw [Job.visiting, Job.visiting, h.copy, h.waiting]

theorem claims (h : x.Like y) : y.claims = x.claims := by rw [Job.claims, Job.claims, h.copy]

theorem holds (h : x.Like y) (n : Nat) : y.holds n = x.holds n := by rw [Job.holds, Job.holds, h.copy]

theorem copiesFor (h : x.Like y) (o : Nat) : y.copiesFor o = x.copiesFor o := by
  rw [Job.copiesFor, Job.copiesFor, h.copy, h.owner]

theorem reservesFor (h : x.Like y) (o : Nat) : y.reservesFor o = x.reservesFor o := by
  rw [Job.reservesFor, Job.reservesFor, h.ended, h.owner, h.remaining]

theorem target (h : x.Like y) : y.target = x.target := by
  rw [Job.target, Job.target, h.ranges, h.idx, h.offset]

theorem toVisit (h : x.Like y) : y.toVisit = x.toVisit := by
  rw [Job.toVisit, Job.toVisit, h.ranges, h.idx, h.offset]

theorem sane (h : x.Like y) (hx : x.Sane) : y.Sane where
  visits := fun hv => by
    rw [h.visiting] at hv
    exact h.runs hv (hx.visits hv)
  waits := fun hw => by
    rw [h.waiting] at hw
    rw [h.copy]
    exact hx.waits hw
  settled := fun he => by
    rw [h.ended] at he
    rw [h.remaining]
    exact hx.settled he
  counts := fun he => by
    rw [h.ended] at he
    rw [h.ranges]
    exact hx.counts he
  place := fun he => by
    rw [h.ended] at he
    rw [h.ranges, h.idx, h.offset]
    exact hx.place he
  left := fun he => by
    rw [h.ended] at he
    rw [h.remaining, h.claims, h.toVisit]
    exact hx.left he

end Job.Like

theorem Good.likeJob (h : Good a b m L) {j : Nat} {x y : Job} (hf : tfind L.jobs j = some x) (hl : x.Like y)
    (hs : x.state ≠ .starting ∨ y.state = .starting) : Good a b m { L with jobs := tput j y L.jobs } := by
  obtain ⟨hx, hdst⟩ := h.job _ (mem_of_tfind hf)
  refine h.putJob (p := m.pcn) (c := m.claims) (ch := m.charge) (r := m.res) hf (hl.sane hx) (fun he => ?_)
    (fun i hi ho => ?_) (fun v q hq hk => ?_) (fun hrec => ?_) (fun _ n => by rw [hl.holds]) (fun _ => by rw [hl.claims])
    (fun _ o => by rw [hl.copiesFor]) (fun _ _ o => by rw [hl.reservesFor])
  · rw [hl.ended] at he
    rw [hl.dst]
    exact hdst he
  · have hi' := h.item i hi
    unfold BusyItem.Fits at hi' ⊢
    rw [ho] at hi' ⊢
    rcases hi' with hi' | ⟨z, hz, hrest⟩
    · exact .inl hi'
    · obtain rfl : x = z := by rw [hf] at hz; simpa using hz
      refine .inr ⟨y, tfind_tput_same .., ?_⟩
      rw [hl.dst, hl.copy, hl.waiting, hl.target]
      exact hrest
  · obtain ⟨z, hz, hst, hv⟩ := h.asked v q j hq hk
    obtain rfl : x = z := by rw [hf] at hz; simpa using hz
    refine ⟨hs.resolve_left (not_not.mpr hst), ?_⟩
    rw [hl.dst, hv]
  · obtain ⟨-, -, h3, -, -, -, h7⟩ := h.idle hrec
    refine ⟨?_, fun h8 => ?_⟩
    · rw [hl.waiting]
      exact h3 _ (mem_of_tfind hf)
    · rw [hl.ended]
      exact (h7 h8).2 _ (mem_of_tfind hf)

/-- A job's record changes, its place, copy and reservation standing. -/
theorem Books.likeJob (h : Books a b m e.st) (j : Nat) (f : Job → Job)
    (hl : ∀ x, tfind e.st.jobs j = some x → x.Like (f x) ∧ (x.state ≠ .starting ∨ (f x).state = .starting)) :
    Books a b m (e.updJob j f).st := by
  unfold Event.updJob
  split
  · exact h
  · rename_i x hx
    exact Good.likeJob (L := e.st.ledger) h hx (hl x hx).1 (hl x hx).2

theorem tfind_map {α : Type} (f : α → α) (t : Table α) (j : Nat) :
    tfind (t.map fun x => (x.1, f x.2)) j = (tfind t j).map f := by
  induction t with
  | nil => rfl
  | cons p t ih =>
    obtain ⟨k, x⟩ := p
    simp only [List.map_cons, tfind]
    split_ifs
    · rfl
    · exact ih

theorem totalOf_map {α : Type} {f : α → Nat} {g : α → α} {t : Table α} (hg : ∀ p ∈ t, f (g p.2) = f p.2) :
    totalOf f (t.map fun x => (x.1, g x.2)) = totalOf f t := by
  unfold totalOf
  rw [List.map_map]
  exact congrArg List.sum (List.map_congr_left fun p hp => hg p hp)

/-- The state of several jobs changes. -/
theorem Good.likeJobs (h : Good a b m L) {f : Job → Job}
    (hl : ∀ p ∈ L.jobs, p.2.Like (f p.2) ∧ (p.2.state ≠ .starting ∨ (f p.2).state = .starting)) :
    Good a b m { L with jobs := L.jobs.map fun x => (x.1, f x.2) } := by
  have hmem : ∀ {Q : Job → Prop}, (∀ p ∈ L.jobs, Q (f p.2)) → ∀ p ∈ L.jobs.map fun x => (x.1, f x.2), Q p.2 := by
    intro Q hQ p hp
    obtain ⟨q, hq, rfl⟩ := List.mem_map.mp hp
    exact hQ q hq
  refine { h with
    jobsWf := by
      show Table.sorted (L.jobs.map _) = true
      rw [sorted_map_snd]
      exact h.jobsWf
    count := fun ha => ?_
    places := fun ha hv n => ?_
    charged := fun hb o => ?_
    reserved := fun hb o => ?_
    item := fun i hi => ?_
    job := hmem (Q := fun x => x.Sane ∧ (x.state.ended = false → (L.vol x.dstVol).state ≠ .absent)) fun p hp => ?_
    asked := fun v q k hq hk => ?_
    idle := fun hrec => ?_ }
  · have h1 := h.count ha
    show (L.claims : Int) = ((_ + totalOf Job.claims (L.jobs.map _) + _ : Nat) : Int) + m.claims
    rw [totalOf_map fun p hp => (hl p hp).1.claims]
    exact h1
  · have h1 := h.places ha hv n
    show ((_ + _ + _ + totalOf (Job.holds n) (L.jobs.map _) + _ : Nat) : Int) + m.pcn n = _
    rw [totalOf_map fun p hp => (hl p hp).1.holds n]
    exact h1
  · have h1 := h.charged hb o
    show ((L.acct o).charge : Int) = L.mapped o + L.pledged o + (totalOf (Job.copiesFor o) (L.jobs.map _) : Nat) + m.charge o
    rw [totalOf_map fun p hp => (hl p hp).1.copiesFor o]
    exact h1
  · have h1 := h.reserved hb o
    show if L.part = .recovering then _ else ((L.acct o).reserved : Int) =
      (totalOf (Job.reservesFor o) (L.jobs.map _) : Nat) + m.res o
    rw [totalOf_map fun p hp => (hl p hp).1.reservesFor o]
    exact h1
  · have hi' := h.item i hi
    unfold BusyItem.Fits at hi' ⊢
    cases ho : i.owner with
    | front n =>
      rw [ho] at hi'
      exact hi'
    | restore j =>
      rw [ho] at hi'
      rcases hi' with hi' | ⟨z, hz, hrest⟩
      · exact .inl hi'
      · have hlz := (hl _ (mem_of_tfind hz)).1
        refine .inr ⟨f z, ?_, ?_⟩
        · show tfind (L.jobs.map _) j = _
          rw [tfind_map, hz]
          rfl
        · rw [hlz.dst, hlz.copy, hlz.waiting, hlz.target]
          exact hrest
  · obtain ⟨h1, h2⟩ := h.job p hp
    refine ⟨(hl p hp).1.sane h1, fun he => ?_⟩
    rw [(hl p hp).1.ended] at he
    rw [(hl p hp).1.dst]
    exact h2 he
  · obtain ⟨z, hz, hst, hv⟩ := h.asked v q k hq hk
    have hlz := hl _ (mem_of_tfind hz)
    refine ⟨f z, ?_, hlz.2.resolve_left (not_not.mpr hst), ?_⟩
    · show tfind (L.jobs.map _) k = _
      rw [tfind_map, hz]
      rfl
    · rw [hlz.1.dst, hv]
  · obtain ⟨h1, h2, h3, h4, h5, h6, h7⟩ := h.idle hrec
    refine ⟨h1, h2, hmem (Q := fun x => x.waiting = false) fun p hp => ?_, h4, h5, h6, fun h8 =>
      ⟨(h7 h8).1, hmem (Q := fun x => x.state.ended = true) fun p hp => ?_⟩⟩
    · rw [(hl p hp).1.waiting]
      exact h3 p hp
    · rw [(hl p hp).1.ended]
      exact (h7 h8).2 p hp

theorem Books.moveJobs (h : Books a b m e.st) {p : Job → Bool} {j : JobState} (hj : j.ended = false)
    (hp : ∀ x : Job, p x = true → x.state.ended = false ∧ x.state ≠ .running ∧ x.state ≠ .starting) :
    Books a b m (moveJobs p j e).st := by
  have hm : (Machine.moveJobs p j e).st = { e.st with jobs := e.st.jobs.map fun x =>
      (x.1, if p x.2 then { x.2 with state := j } else x.2) } := by
    rw [← moveJobs_jobs]
    rfl
  rw [hm]
  refine Good.likeJobs (L := e.st.ledger) h (f := fun x => if p x then { x with state := j } else x) fun q _ => ?_
  split_ifs with hq
  · obtain ⟨h1, h2, h3⟩ := hp q.2 hq
    exact ⟨⟨rfl, rfl, rfl, rfl, rfl, rfl, rfl, rfl, hj.trans h1.symm, fun _ hr => absurd hr h2⟩, .inl h3⟩
  · exact ⟨⟨rfl, rfl, rfl, rfl, rfl, rfl, rfl, rfl, rfl, fun _ => id⟩, ne_or_eq _ _⟩

/-! ### The visit position -/

theorem Job.toVisit_advance {x : Job} (hx : x.Sane) (ht : x.target ≠ none) (hend : x.state.ended = false) :
    x.advance.toVisit + 1 = x.toVisit ∧ (∀ r ∈ x.advance.ranges, 1 ≤ r.count) ∧
      match x.advance.ranges[x.advance.rangeIdx]? with | some r => x.advance.offset < r.count | none => x.advance.offset = 0 := by
  have hplace := hx.place hend
  unfold Job.target at ht
  cases hr : x.ranges[x.rangeIdx]? with
  | none =>
    rw [hr] at ht
    exact absurd rfl ht
  | some r =>
    rw [hr] at hplace
    dsimp only at hplace
    have hlt : x.rangeIdx < x.ranges.length := (List.getElem?_eq_some_iff.mp hr).1
    have hget : x.ranges[x.rangeIdx] = r := (List.getElem?_eq_some_iff.mp hr).2
    have hdrop : x.ranges.drop x.rangeIdx = r :: x.ranges.drop (x.rangeIdx + 1) := by
      rw [List.drop_eq_getElem_cons hlt, hget]
    have hadv : x.advance = if x.offset + 1 < r.count then { x with offset := x.offset + 1 }
        else { x with rangeIdx := x.rangeIdx + 1, offset := 0 } := by
      rw [Job.advance, hr]
    rw [hadv]
    split_ifs with hin
    · refine ⟨?_, hx.counts hend, ?_⟩
      · simp only [Job.toVisit, hdrop, List.map_cons, List.sum_cons]
        omega
      · dsimp only
        rw [hr]
        exact hin
    · refine ⟨?_, hx.counts hend, ?_⟩
      · simp only [Job.toVisit, hdrop, List.map_cons, List.sum_cons]
        omega
      · dsimp only
        split
        · rename_i q hq
          exact hx.counts hend q (List.mem_of_getElem? hq)
        · rfl

end Sys2Proof.Machine
end

section
/-! PROOFS. The books under the operations on the in-flight table, its mirror and the busy set (R20 to R23, R27, R30, R40). -/

namespace Sys2Proof.Machine

variable {a b : Prop} {m : Mode} {L : Ledger}

/-! ### Lists with distinct keys -/

theorem eq_of_key {α β : Type} {key : α → β} {l : List α} (hn : (l.map key).Nodup) {x y : α} (hx : x ∈ l) (hy : y ∈ l)
    (h : key x = key y) : x = y := List.inj_on_of_nodup_map hn hx hy h

/-- A total over a list with distinct keys, without one member. -/
theorem sum_without {α β M : Type} [DecidableEq β] [AddCommMonoid M] {key : α → β} {l : List α} (hn : (l.map key).Nodup)
    {x : α} (hx : x ∈ l) (f : α → M) : ((l.filter fun y => key y != key x).map f).sum + f x = (l.map f).sum := by
  induction l with
  | nil => cases hx
  | cons y l ih =>
    rw [List.map_cons, List.nodup_cons] at hn
    rcases List.mem_cons.mp hx with rfl | hx
    · have : l.filter (fun y => key y != key x) = l := by
        rw [List.filter_eq_self]
        intro z hz
        simp only [bne_iff_ne]
        exact fun hc => hn.1 (hc ▸ List.mem_map_of_mem hz)
      rw [List.filter_cons_of_neg (by simp), this, List.map_cons, List.sum_cons, add_comm]
    · have hne : key y ≠ key x := fun hc => hn.1 (hc ▸ List.mem_map_of_mem hx)
      rw [List.filter_cons_of_pos (by simpa using hne), List.map_cons, List.sum_cons, add_assoc, ih hn.2 hx,
        List.map_cons, List.sum_cons]

theorem filter_all {α β : Type} [DecidableEq β] {key : α → β} {l : List α} {k : β} (h : ∀ y ∈ l, key y ≠ k) :
    (l.filter fun y => key y != k) = l := by
  rw [List.filter_eq_self]
  intro y hy
  simpa using h y hy

/-! ### Entries -/

theorem Good.running (h : Good a b m L) {x : Entry} (hx : x ∈ L.inflight) : L.part ≠ .recovering := by
  intro hc
  rw [(h.idle hc).1] at hx
  cases hx

/-- A change of an entry that leaves its request, its state and what its plan claims. -/
structure Entry.Like (x y : Entry) : Prop where
  arrival : y.arrival = x.arrival
  req : y.req = x.req
  state : y.state = x.state
  claims : y.claims = x.claims
  charges : y.charges = x.charges
  plan : ∀ k X, x.PlanFits k X → y.PlanFits k X
  bare : x.plan = [] → y.plan = []

theorem Entry.Like.refl (x : Entry) : x.Like x := ⟨rfl, rfl, rfl, rfl, rfl, fun _ _ => id, id⟩

theorem Entry.Like.writes {x y : Entry} (h : x.Like y) : y.writes = x.writes := by
  rw [Entry.writes, Entry.writes, h.state, h.req]

theorem busyItemOf_congr {k : Nat} {x y : Entry} (ha : y.arrival = x.arrival) (hr : y.req = x.req) :
    busyItemOf k y = busyItemOf k x := by
  rw [busyItemOf, busyItemOf, ha, hr]

theorem Good.mapEntries (h : Good a b m L) {g : Entry → Entry} (hl : ∀ x ∈ L.inflight, x.Like (g x)) :
    Good a b m { L with inflight := L.inflight.map g } := by
  have hmem : ∀ {y}, y ∈ L.inflight.map g → ∃ x ∈ L.inflight, g x = y ∧ x.Like y := by
    intro y hy
    obtain ⟨x, hx, rfl⟩ := List.mem_map.mp hy
    exact ⟨x, hx, rfl, hl x hx⟩
  refine { h with
    arrivals := ?_
    entry := fun y hy => ?_
    record := fun r hr => ?_
    hold := fun v n hn => ?_
    item := fun i hi => ?_
    placed := fun y hy hw => ?_
    idle := fun hr => ?_ }
  · show ((L.inflight.map g).map Entry.arrival).Nodup
    have hkeys : (L.inflight.map g).map Entry.arrival = L.inflight.map Entry.arrival := by
      rw [List.map_map]
      exact List.map_congr_left fun x hx => (hl x hx).arrival
    rw [hkeys]
    exact h.arrivals
  · obtain ⟨x, hx, -, hxy⟩ := hmem hy
    have hfit := h.entry x hx
    rw [Entry.Fits] at hfit ⊢
    rw [hxy.arrival, hxy.req, hxy.writes, hxy.claims, hxy.charges]
    refine ⟨hfit.1, hfit.2.1, ?_⟩
    have h3 := hfit.2.2
    split_ifs at h3 ⊢
    · exact ⟨fun hf => hxy.plan _ _ (h3.1 hf), h3.2⟩
    · exact ⟨h3.1, h3.2.1, hxy.bare h3.2.2.1, h3.2.2.2⟩
  · obtain ⟨h1, h2, h3⟩ := h.record r hr
    refine ⟨h1, h2, fun hp => ?_⟩
    obtain ⟨x, hx, hw, ha⟩ := h3 hp
    exact ⟨g x, List.mem_map_of_mem hx, (hl x hx).writes.trans hw, (hl x hx).arrival.trans ha⟩
  · obtain ⟨h1, h2⟩ := h.hold v n hn
    refine ⟨h1, fun y hy ha => ?_⟩
    obtain ⟨x, hx, -, hxy⟩ := hmem hy
    rw [hxy.state]
    exact h2 x hx (hxy.arrival ▸ ha)
  · have hi' := h.item i hi
    unfold BusyItem.Fits at hi' ⊢
    cases ho : i.owner with
    | restore j =>
      rw [ho] at hi'
      exact hi'
    | front n =>
      rw [ho] at hi'
      obtain ⟨x, hx, ha, hs, hact, hi''⟩ := hi'
      have hxy := hl x hx
      refine ⟨g x, List.mem_map_of_mem hx, hxy.arrival.trans ha, ?_, fun hc => hxy.state.trans (hact hc), ?_⟩
      · rw [hxy.state]
        exact hs
      · rw [busyItemOf_congr hxy.arrival hxy.req, hxy.state]
        exact hi''
  · obtain ⟨x, hx, -, hxy⟩ := hmem hy
    obtain ⟨i, hi, ho⟩ := h.placed x hx (hxy.writes ▸ hw)
    exact ⟨i, hi, by rw [ho, hxy.arrival]⟩
  · obtain ⟨h1, hrest⟩ := h.idle hr
    refine ⟨?_, hrest⟩
    show L.inflight.map g = []
    rw [h1]
    rfl

/-- A request leaves the in-flight table, its mirror and the busy set (R34, R37). -/
theorem Good.finish (h : Good a b m L) {x : Entry} (hx : x ∈ L.inflight)
    (hact : m.act = none ∨ m.act = some (.front x.arrival)) (hfin : m.fin = none ∨ m.fin = some x.arrival) :
    Good a b
      { m with
        act := none, fin := none, pcn := fun n => m.pcn n + x.claims.count n, claims := m.claims + x.claims.length,
        charge := fun o => m.charge o + netOf x.charges o }
      { L with
        inflight := L.inflight.filter fun y => y.arrival != x.arrival
        busy := L.busy.filter fun i => i.owner != .front x.arrival
        mirror := L.mirror.filter fun r => r.arrival != x.arrival } := by
  have hrun := h.running hx
  obtain ⟨-, -, hfit⟩ := h.entry x hx
  have hsum : ∀ {M : Type} [AddCommMonoid M] (f : MirrorRec → M) (c : M),
      (∀ r : MirrorRec, r.claims = x.claims → r.charges = x.charges → f r = c) → (x.claims = [] → x.charges = [] → c = 0) →
      ((L.mirror.filter fun r => r.arrival != x.arrival).map f).sum + c = (L.mirror.map f).sum := by
    intro M _ f c hf hc
    by_cases hw : x.writes = true
    · rw [if_pos hw] at hfit
      obtain ⟨-, r, hr, ha, hcl, hch⟩ := hfit
      rw [← hf r hcl hch, ← ha]
      exact sum_without h.mirrored hr f
    · rw [if_neg hw] at hfit
      obtain ⟨h1, h2, -, h3⟩ := hfit
      rw [filter_all h3, hc h1 h2, add_zero]
  have hact' : ∀ n, n ≠ x.arrival → m.act ≠ some (.front n) := by
    rintro n hn hc
    rcases hact with hact | hact
    · rw [hact] at hc
      cases hc
    · rw [hact] at hc
      exact hn (by simpa using hc.symm)
  have hfin' : ∀ n, n ≠ x.arrival → m.fin ≠ some n := by
    rintro n hn hc
    rcases hfin with hfin | hfin
    · rw [hfin] at hc
      cases hc
    · rw [hfin] at hc
      exact hn (by simpa using hc.symm)
  refine { h with
    count := fun ha => ?_
    places := fun ha hv n => ?_
    charged := fun hb o => ?_
    arrivals := h.arrivals.sublist (List.filter_sublist.map _)
    mirrored := h.mirrored.sublist (List.filter_sublist.map _)
    entry := fun y hy => ?_
    record := fun r hr => ?_
    hold := fun v n hn => ⟨(h.hold v n hn).1, fun y hy => (h.hold v n hn).2 y (List.mem_of_mem_filter hy)⟩
    order := h.order.sublist List.filter_sublist
    owners := h.owners.sublist (List.filter_sublist.map _)
    item := fun i hi => ?_
    placed := fun y hy hw => ?_
    idle := fun hr => absurd hr hrun
    owed := fun _ hr => absurd hr hrun }
  · have h1 := h.count ha
    have h2 := hsum (fun r => r.claims.length) x.claims.length (fun r hr _ => by rw [hr]) (fun hc _ => by rw [hc]; rfl)
    show (L.claims : Int) = (((L.mirror.filter _).map fun r => r.claims.length).sum + _ + _ : Nat) + (m.claims + _)
    unfold Ledger.claimed at h1
    simp only [Nat.cast_add] at h1 ⊢
    omega
  · have h1 := h.places ha hv n
    have h2 := hsum (fun r => r.claims.count n) (x.claims.count n) (fun r hr _ => by rw [hr]) (fun hc _ => by rw [hc]; rfl)
    show ((_ + _ + ((L.mirror.filter _).map fun r => r.claims.count n).sum + _ + _ : Nat) : Int) + (m.pcn n + _) = _
    unfold Ledger.holds at h1
    simp only [Nat.cast_add] at h1 ⊢
    omega
  · have h1 := h.charged hb o
    have h2 := hsum (fun r => r.chargeOf o) (netOf x.charges o) (fun r _ hr => by rw [MirrorRec.chargeOf_eq, hr])
      (fun _ hc => by rw [hc]; rfl)
    show ((L.acct o).charge : Int) = L.mapped o + ((L.mirror.filter _).map fun r => r.chargeOf o).sum + L.copies o +
      (m.charge o + _)
    unfold Ledger.pledged at h1
    omega
  · obtain ⟨hy, hne⟩ := List.mem_filter.mp hy
    have hne' : y.arrival ≠ x.arrival := by simpa using hne
    obtain ⟨h1, h2, h3⟩ := h.entry y hy
    refine ⟨h1, h2, ?_⟩
    split_ifs at h3 ⊢
    · refine ⟨fun _ => h3.1 (hfin' _ hne'), ?_⟩
      obtain ⟨r, hr, ha, hrest⟩ := h3.2
      exact ⟨r, List.mem_filter.mpr ⟨hr, by rw [ha]; exact hne⟩, ha, hrest⟩
    · exact ⟨h3.1, h3.2.1, h3.2.2.1, fun r hr => h3.2.2.2 r (List.mem_of_mem_filter hr)⟩
  · obtain ⟨hr, hne⟩ := List.mem_filter.mp hr
    obtain ⟨h1, h2, h3⟩ := h.record r hr
    refine ⟨h1, h2, fun hp => ?_⟩
    obtain ⟨y, hy, hw, ha⟩ := h3 hp
    exact ⟨y, List.mem_filter.mpr ⟨hy, by rw [ha]; exact hne⟩, hw, ha⟩
  · obtain ⟨hi, hne⟩ := List.mem_filter.mp hi
    have hi' := h.item i hi
    unfold BusyItem.Fits at hi' ⊢
    cases ho : i.owner with
    | restore j =>
      rw [ho] at hi'
      rcases hi' with hi' | hi'
      · rcases hact with hact | hact <;> rw [hact] at hi' <;> cases hi'
      · exact .inr hi'
    | front n =>
      rw [ho] at hi' hne
      have hne' : n ≠ x.arrival := by simpa using hne
      obtain ⟨y, hy, ha, hs, -, hi''⟩ := hi'
      refine ⟨y, List.mem_filter.mpr ⟨hy, by simpa [ha] using hne'⟩, ha, hs, by simp, ?_⟩
      rw [hi'']
      have : (m.act == some (.front n)) = false := by simpa using hact' n hne'
      simp [this]
  · obtain ⟨hy, hne⟩ := List.mem_filter.mp hy
    obtain ⟨i, hi, ho⟩ := h.placed y hy hw
    refine ⟨i, List.mem_filter.mpr ⟨hi, ?_⟩, ho⟩
    rw [ho]
    simpa using hne

/-- The entry whose item has proceeded takes its place as accepted. -/
theorem swapEntry {g : Entry → Entry} {x y : Entry} (hx : x ∈ L.inflight)
    (hg : g = fun z => if z.arrival = y.arrival then y else z) (ha : y.arrival = x.arrival) :
    (∀ z ∈ L.inflight.map g, z = y ∨ z ∈ L.inflight ∧ z.arrival ≠ x.arrival) ∧ y ∈ L.inflight.map g ∧
      (∀ z ∈ L.inflight, z.arrival ≠ x.arrival → z ∈ L.inflight.map g) ∧
      (L.inflight.map g).map Entry.arrival = L.inflight.map Entry.arrival := by
  subst hg
  refine ⟨fun z hz => ?_, List.mem_map.mpr ⟨x, hx, by rw [if_pos ha.symm]⟩, fun z hz hne => ?_, ?_⟩
  · obtain ⟨w, hw, rfl⟩ := List.mem_map.mp hz
    split_ifs with hc
    · exact .inl rfl
    · exact .inr ⟨hw, ha ▸ hc⟩
  · exact List.mem_map.mpr ⟨z, hz, by rw [if_neg (ha ▸ hne)]⟩
  · rw [List.map_map]
    refine List.map_congr_left fun z _ => ?_
    simp only [Function.comp_apply]
    split_ifs with hc
    · exact hc.symm
    · rfl

/-- A WRITE is accepted: its mirror record and its entry hold its claims and charges (R30). -/
theorem Good.activate (h : Good a b m L) {x y : Entry} {r : MirrorRec} (hx : x ∈ L.inflight)
    (hact : m.act = some (.front x.arrival)) (hst : x.state = .waiting) (hitem : ∃ i ∈ L.busy, i.owner = .front x.arrival) (ha : y.arrival = x.arrival) (hreq : y.req = x.req)
    (hy : y.state = .active) (hkind : y.req.kind = .write) (hplan : y.PlanFits L.k (L.vol x.req.vol))
    (hra : r.arrival = x.arrival) (hrv : r.vol = x.req.vol) (hrc : r.claims = y.claims) (hrch : r.charges = y.charges)
    (hkeys : (r.charges.map Prod.fst).Nodup) :
    Good a b
      { m with
        act := none, pcn := fun n => m.pcn n - y.claims.count n, claims := m.claims - y.claims.length,
        charge := fun o => m.charge o - netOf y.charges o }
      { L with
        inflight := L.inflight.map fun z => if z.arrival = y.arrival then y else z
        mirror := insertByKey MirrorRec.arrival r L.mirror } := by
  have hrun := h.running hx
  obtain ⟨hnext, hvol, hfit⟩ := h.entry x hx
  have hxw : ¬ x.writes = true := by simp [Entry.writes, hst]
  have hyw : y.writes = true := by simp [Entry.writes, hy, hkind]
  rw [if_neg hxw] at hfit
  obtain ⟨-, -, -, hnone⟩ := hfit
  obtain ⟨hof, hyin, hto, hkeep⟩ := swapEntry hx (g := fun z => if z.arrival = y.arrival then y else z) rfl ha
  have hperm : (insertByKey MirrorRec.arrival r L.mirror).Perm (r :: L.mirror) := insertByKey_perm _ _ _
  have hmem : ∀ q, q ∈ insertByKey MirrorRec.arrival r L.mirror ↔ q = r ∨ q ∈ L.mirror := fun q => by
    rw [hperm.mem_iff, List.mem_cons]
  have hsum : ∀ {M : Type} [AddCommMonoid M] (f : MirrorRec → M),
      ((insertByKey MirrorRec.arrival r L.mirror).map f).sum = f r + (L.mirror.map f).sum := by
    intro M _ f
    rw [(hperm.map f).sum_eq, List.map_cons, List.sum_cons]
  refine { h with
    count := fun ha => ?_
    places := fun ha hv n => ?_
    charged := fun hb o => ?_
    arrivals := by
      show ((L.inflight.map _).map Entry.arrival).Nodup
      rw [hkeep]
      exact h.arrivals
    mirrored := ?_
    entry := fun z hz => ?_
    record := fun q hq => ?_
    hold := fun v n hn => ⟨(h.hold v n hn).1, fun z hz hza => ?_⟩
    item := fun i hi => ?_
    placed := fun z hz hw => ?_
    idle := fun hr => absurd hr hrun
    owed := fun _ hr => absurd hr hrun }
  · have h1 := h.count ha
    show (L.claims : Int) = (((insertByKey MirrorRec.arrival r L.mirror).map fun r => r.claims.length).sum + _ + _ : Nat) +
      (m.claims - _)
    rw [hsum, hrc]
    unfold Ledger.claimed at h1
    push_cast at h1 ⊢
    omega
  · have h1 := h.places ha hv n
    show ((_ + _ + ((insertByKey MirrorRec.arrival r L.mirror).map fun r => r.claims.count n).sum + _ + _ : Nat) : Int) +
      (m.pcn n - _) = _
    rw [hsum, hrc]
    unfold Ledger.holds at h1
    push_cast at h1 ⊢
    omega
  · have h1 := h.charged hb o
    show ((L.acct o).charge : Int) = L.mapped o + ((insertByKey MirrorRec.arrival r L.mirror).map fun r => r.chargeOf o).sum +
      L.copies o + (m.charge o - _)
    rw [hsum, MirrorRec.chargeOf_eq r, hrch]
    unfold Ledger.pledged at h1
    omega
  · show ((insertByKey MirrorRec.arrival r L.mirror).map MirrorRec.arrival).Nodup
    rw [(hperm.map _).nodup_iff, List.map_cons, List.nodup_cons]
    refine ⟨fun hc => ?_, h.mirrored⟩
    obtain ⟨q, hq, hqa⟩ := List.mem_map.mp hc
    exact hnone q hq (hqa.trans hra)
  · rcases hof z hz with rfl | ⟨hz, hne⟩
    · refine ⟨ha ▸ hnext, hreq ▸ hvol, ?_⟩
      rw [if_pos hyw]
      refine ⟨fun _ => by rw [hreq]; exact hplan, r, (hmem r).mpr (.inl rfl), hra.trans ha.symm, hrc, hrch⟩
    · obtain ⟨h1, h2, h3⟩ := h.entry z hz
      refine ⟨h1, h2, ?_⟩
      split_ifs at h3 ⊢
      · obtain ⟨h4, q, hq, hrest⟩ := h3
        exact ⟨h4, q, (hmem q).mpr (.inr hq), hrest⟩
      · obtain ⟨h4, h5, h6, h7⟩ := h3
        refine ⟨h4, h5, h6, fun q hq => ?_⟩
        rcases (hmem q).mp hq with rfl | hq
        · rw [hra]
          exact hne.symm
        · exact h7 q hq
  · rcases (hmem q).mp hq with rfl | hq
    · exact ⟨hrv ▸ hvol, hkeys, fun _ => ⟨y, hyin, hyw, ha.trans hra.symm⟩⟩
    · obtain ⟨h1, h2, h3⟩ := h.record q hq
      refine ⟨h1, h2, fun hp => ?_⟩
      obtain ⟨z, hz, hw, hza⟩ := h3 hp
      refine ⟨z, hto z hz fun hc => hxw ?_, hw, hza⟩
      rw [← eq_of_key h.arrivals hz hx hc]
      exact hw
  · rcases hof z hz with rfl | ⟨hz, -⟩
    · have := (h.hold v n hn).2 x hx (ha ▸ hza)
      rw [hst] at this
      cases this
    · exact (h.hold v n hn).2 z hz hza
  · have hi' := h.item i hi
    unfold BusyItem.Fits at hi' ⊢
    cases ho : i.owner with
    | restore j =>
      rw [ho] at hi'
      rcases hi' with hi' | hi'
      · rw [hact] at hi'
        cases hi'
      · exact .inr hi'
    | front n =>
      rw [ho] at hi'
      obtain ⟨z, hz, hza, hs, -, hi''⟩ := hi'
      by_cases hzx : z.arrival = x.arrival
      · obtain rfl : z = x := eq_of_key h.arrivals hz hx hzx
        refine ⟨y, hyin, ha.trans hza, by simp [hy], by simp, ?_⟩
        rw [busyItemOf_congr ha hreq, hi'', hact, ← hza, hy]
        simp
      · refine ⟨z, hto z hz hzx, hza, hs, by simp, ?_⟩
        rw [hi'', hact]
        have : (some (BusyOwner.front x.arrival) == some (.front n)) = false := by
          simpa [← hza] using fun hc => hzx hc.symm
        simp [this]
  · rcases hof z hz with rfl | ⟨hz, -⟩
    · rw [ha]
      exact hitem
    · exact h.placed z hz hw

/-- A READ is accepted (R31). -/
theorem Good.activateRead (h : Good a b m L) {x y : Entry} (hx : x ∈ L.inflight)
    (hact : m.act = some (.front x.arrival)) (hst : x.state = .waiting) (ha : y.arrival = x.arrival) (hreq : y.req = x.req)
    (hy : y.state = .active) (hkind : y.req.kind ≠ .write) (hc : y.claims = x.claims) (hch : y.charges = x.charges)
    (hplan : y.plan = x.plan) :
    Good a b { m with act := none } { L with inflight := L.inflight.map fun z => if z.arrival = y.arrival then y else z } := by
  have hrun := h.running hx
  obtain ⟨hnext, hvol, hfit⟩ := h.entry x hx
  have hxw : ¬ x.writes = true := by simp [Entry.writes, hst]
  have hyw : ¬ y.writes = true := by simp [Entry.writes, hkind]
  rw [if_neg hxw] at hfit
  obtain ⟨hof, hyin, hto, hkeep⟩ := swapEntry hx (g := fun z => if z.arrival = y.arrival then y else z) rfl ha
  refine { h with
    arrivals := by
      show ((L.inflight.map _).map Entry.arrival).Nodup
      rw [hkeep]
      exact h.arrivals
    entry := fun z hz => ?_
    record := fun q hq => ?_
    hold := fun v n hn => ⟨(h.hold v n hn).1, fun z hz hza => ?_⟩
    item := fun i hi => ?_
    placed := fun z hz hw => ?_
    idle := fun hr => absurd hr hrun
    owed := fun _ hr => absurd hr hrun }
  · rcases hof z hz with rfl | ⟨hz, hne⟩
    · refine ⟨ha ▸ hnext, hreq ▸ hvol, ?_⟩
      rw [if_neg hyw, hc, hch, hplan, ha]
      exact hfit
    · exact h.entry z hz
  · obtain ⟨h1, h2, h3⟩ := h.record q hq
    refine ⟨h1, h2, fun hp => ?_⟩
    obtain ⟨z, hz, hw, hza⟩ := h3 hp
    refine ⟨z, hto z hz fun hc => hxw ?_, hw, hza⟩
    rw [← eq_of_key h.arrivals hz hx hc]
    exact hw
  · rcases hof z hz with rfl | ⟨hz, -⟩
    · have := (h.hold v n hn).2 x hx (ha ▸ hza)
      rw [hst] at this
      cases this
    · exact (h.hold v n hn).2 z hz hza
  · have hi' := h.item i hi
    unfold BusyItem.Fits at hi' ⊢
    cases ho : i.owner with
    | restore j =>
      rw [ho] at hi'
      rcases hi' with hi' | hi'
      · rw [hact] at hi'
        cases hi'
      · exact .inr hi'
    | front n =>
      rw [ho] at hi'
      obtain ⟨z, hz, hza, hs, -, hi''⟩ := hi'
      by_cases hzx : z.arrival = x.arrival
      · obtain rfl : z = x := eq_of_key h.arrivals hz hx hzx
        refine ⟨y, hyin, ha.trans hza, by simp [hy], by simp, ?_⟩
        rw [busyItemOf_congr ha hreq, hi'', hact, ← hza, hy]
        simp
      · refine ⟨z, hto z hz hzx, hza, hs, by simp, ?_⟩
        rw [hi'', hact]
        have : (some (BusyOwner.front x.arrival) == some (.front n)) = false := by
          simpa [← hza] using fun hc => hzx hc.symm
        simp [this]
  · rcases hof z hz with rfl | ⟨hz, -⟩
    · exact absurd hw hyw
    · exact h.placed z hz hw

end Sys2Proof.Machine
end

section
/-! PROOFS. The books as work enters the in-flight table and the busy set, proceeds and leaves (R20, R22, R23, R27), and what an
item that has proceeded may rely on: no plan that is still to be committed names a chunk of it, and no account is charged less
than what it is to release. -/

namespace Sys2Proof.Machine

variable {a b : Prop} {m : Mode} {L : Ledger}

/-! ### Requests enter -/

theorem BusyItem.Fits.of_inflight {i : BusyItem} {l : List Entry} (h : i.Fits m L) (hl : ∀ x ∈ L.inflight, x ∈ l) (n : Nat) :
    i.Fits m { L with inflight := l, nextArrival := n } := by
  unfold BusyItem.Fits at h ⊢
  cases ho : i.owner with
  | restore j =>
    rw [ho] at h
    exact h
  | front k =>
    rw [ho] at h
    obtain ⟨x, hx, hrest⟩ := h
    exact ⟨x, hl x hx, hrest⟩

/-- A request takes an entry, not yet in the busy set. -/
theorem Good.admitEntry (h : Good a b m L) {x : Entry} (ha : x.arrival = L.nextArrival) (hst : x.state ≠ .active)
    (hvol : (L.vol x.req.vol).state ≠ .absent) (hc : x.claims = []) (hch : x.charges = []) (hp : x.plan = [])
    (hrun : L.part ≠ .recovering) :
    Good a b m { L with inflight := L.inflight ++ [x], nextArrival := L.nextArrival + 1 } := by
  have hxw : ¬ x.writes = true := by simp [Entry.writes, hst]
  have hmem : ∀ {y}, y ∈ L.inflight ++ [x] → y ∈ L.inflight ∨ y = x := by simp
  have hrec : ∀ r ∈ L.mirror, r.arrival < L.nextArrival := fun r hr => by
    obtain ⟨-, -, h3⟩ := h.record r hr
    obtain ⟨y, hy, -, hya⟩ := h3 hrun
    exact hya ▸ (h.entry y hy).1
  refine { h with
    arrivals := ?_
    entry := fun y hy => ?_
    record := fun r hr => ?_
    hold := fun v n hn => ⟨Nat.lt_succ_of_lt (h.hold v n hn).1, fun y hy hya => ?_⟩
    item := fun i hi => (h.item i hi).of_inflight (fun y hy => List.mem_append_left _ hy) _
    placed := fun y hy hw => ?_
    idle := fun hr => absurd hr hrun }
  · show ((L.inflight ++ [x]).map Entry.arrival).Nodup
    rw [List.map_append, List.nodup_append]
    refine ⟨h.arrivals, List.nodup_singleton _, fun n hn k hk => ?_⟩
    obtain ⟨y, hy, rfl⟩ := List.mem_map.mp hn
    obtain rfl : k = x.arrival := by simpa using hk
    have := (h.entry y hy).1
    omega
  · rcases hmem hy with hy | rfl
    · obtain ⟨h1, hrest⟩ := h.entry y hy
      exact ⟨Nat.lt_succ_of_lt h1, hrest⟩
    · refine ⟨by rw [ha]; exact Nat.lt_succ_self _, hvol, ?_⟩
      rw [if_neg hxw]
      exact ⟨hc, hch, hp, fun r hr hra => by have := hrec r hr; omega⟩
  · obtain ⟨h1, h2, h3⟩ := h.record r hr
    refine ⟨h1, h2, fun hp => ?_⟩
    obtain ⟨y, hy, hrest⟩ := h3 hp
    exact ⟨y, List.mem_append_left _ hy, hrest⟩
  · rcases hmem hy with hy | rfl
    · exact (h.hold v n hn).2 y hy hya
    · have := (h.hold v n hn).1
      omega
  · rcases hmem hy with hy | rfl
    · exact h.placed y hy hw
    · exact absurd hw hxw

/-- A held entry joins the hold list of its volume. -/
theorem Good.holdEntry (h : Good a b m L) {v n : Nat} (hn : n < L.nextArrival)
    (hheld : ∀ x ∈ L.inflight, x.arrival = n → x.state = .held) :
    Good a b m (L.setVol v { L.vol v with holdList := (L.vol v).holdList ++ [n] }) := by
  refine h.setVol (p := m.pcn) (c := m.charge) ⟨id, id, List.Sublist.refl _, List.Sublist.refl _⟩ (fun k hk => ?_)
    (fun hy => h.bare v hy) (fun _ _ _ _ _ _ _ hfit => hfit) (fun _ _ => rfl) (fun _ _ => rfl) (fun _ _ _ => le_rfl)
  rcases List.mem_append.mp hk with hk | hk
  · exact h.hold v k hk
  · rw [List.mem_singleton.mp hk]
    exact ⟨hn, hheld⟩

/-- An item enters the busy set behind the others (R22). -/
theorem Good.enterBusy (h : Good a b m L) {i : BusyItem} (hp : i.proceeded = false)
    (hnew : ∀ k ∈ L.busy, k.owner ≠ i.owner) (hfit : i.Fits m L) (hrun : L.part ≠ .recovering) :
    Good a b m { L with busy := L.busy ++ [i] } := by
  refine { h with
    order := ?_
    owners := ?_
    item := fun k hk => ?_
    placed := fun x hx hw => ?_
    idle := fun hr => absurd hr hrun }
  · show (L.busy ++ [i]).Pairwise _
    rw [List.pairwise_append]
    refine ⟨h.order, List.pairwise_singleton _ _, fun k _ j hj => ?_⟩
    rw [List.mem_singleton.mp hj, hp]
    exact fun hc => absurd hc (by simp)
  · show ((L.busy ++ [i]).map BusyItem.owner).Nodup
    rw [List.map_append, List.nodup_append]
    refine ⟨h.owners, List.nodup_singleton _, fun o ho k hk => ?_⟩
    obtain ⟨j, hj, rfl⟩ := List.mem_map.mp ho
    obtain rfl : k = i.owner := by simpa using hk
    exact hnew j hj
  · rcases List.mem_append.mp hk with hk | hk
    · exact h.item k hk
    · rw [List.mem_singleton.mp hk]
      exact hfit
  · obtain ⟨k, hk, ho⟩ := h.placed x hx hw
    exact ⟨k, List.mem_append_left _ hk, ho⟩

/-- The item of a front request names an entry that is not HELD. -/
theorem Good.itemEntry (h : Good a b m L) {i : BusyItem} (hi : i ∈ L.busy) {n : Nat} (ho : i.owner = .front n) :
    ∃ x ∈ L.inflight, x.arrival = n ∧ x.state ≠ .held ∧ (m.act = some (.front n) → x.state = .waiting) ∧
      i = { busyItemOf L.k x with proceeded := x.state == .active || m.act == some (.front n) } := by
  have hi' := h.item i hi
  unfold BusyItem.Fits at hi'
  rwa [ho] at hi'

/-- A request that arrives waits in the busy set. -/
theorem Good.admitWaiting (h : Good a b m L) {x : Entry} (ha : x.arrival = L.nextArrival) (hst : x.state = .waiting)
    (hvol : (L.vol x.req.vol).state ≠ .absent) (hc : x.claims = []) (hch : x.charges = []) (hp : x.plan = [])
    (hrun : L.part ≠ .recovering) (hact : m.act = none) :
    Good a b m { L with inflight := L.inflight ++ [x], nextArrival := L.nextArrival + 1,
                        busy := L.busy ++ [busyItemOf L.k x] } := by
  have hin := h.admitEntry ha (by simp [hst]) hvol hc hch hp hrun
  refine hin.enterBusy rfl (fun k hk ho => ?_) ?_ hrun
  · obtain ⟨y, hy, hya, -⟩ := h.itemEntry hk (n := x.arrival) ho
    have := (h.entry y hy).1
    omega
  · refine ⟨x, List.mem_append_right _ (List.mem_singleton_self x), rfl, by simp [hst], by simp [hact], ?_⟩
    simp [hst, hact, busyItemOf]

/-- A held request is released: it waits at the end of the busy set under a new arrival number (R27). -/
theorem Good.release (h : Good a b m L) {x y : Entry} (hx : x ∈ L.inflight) (hst : x.state = .held)
    (hy : y = { x with arrival := L.nextArrival, state := .waiting }) (hact : m.act = none) :
    Good a b m
      { L with inflight := L.inflight.map fun z => if z.arrival = x.arrival then y else z
               nextArrival := L.nextArrival + 1, busy := L.busy ++ [busyItemOf L.k y] } := by
  have hrun := h.running hx
  have hxw : ¬ x.writes = true := by simp [Entry.writes, hst]
  have hyw : ¬ y.writes = true := by simp [hy, Entry.writes]
  have hlt : ∀ z ∈ L.inflight, z.arrival < L.nextArrival := fun z hz => (h.entry z hz).1
  have hya : y.arrival = L.nextArrival := by rw [hy]
  obtain ⟨-, hvol, hfit⟩ := h.entry x hx
  rw [if_neg hxw] at hfit
  have hof : ∀ z ∈ L.inflight.map (fun z => if z.arrival = x.arrival then y else z),
      z = y ∨ z ∈ L.inflight ∧ z.arrival ≠ x.arrival := by
    intro z hz
    obtain ⟨w, hw, rfl⟩ := List.mem_map.mp hz
    split_ifs with hc
    · exact .inl rfl
    · exact .inr ⟨hw, hc⟩
  have hto : ∀ z ∈ L.inflight, z.arrival ≠ x.arrival → z ∈ L.inflight.map fun z => if z.arrival = x.arrival then y else z :=
    fun z hz hne => List.mem_map.mpr ⟨z, hz, by rw [if_neg hne]⟩
  have hyin : y ∈ L.inflight.map fun z => if z.arrival = x.arrival then y else z :=
    List.mem_map.mpr ⟨x, hx, by rw [if_pos rfl]⟩
  have hrec : ∀ r ∈ L.mirror, r.arrival < L.nextArrival := fun r hr => by
    obtain ⟨-, -, h3⟩ := h.record r hr
    obtain ⟨z, hz, -, hza⟩ := h3 hrun
    exact hza ▸ hlt z hz
  have hin : Good a b m { L with inflight := L.inflight.map (fun z => if z.arrival = x.arrival then y else z),
                                 nextArrival := L.nextArrival + 1 } := by
    refine { h with
      arrivals := ?_
      entry := fun z hz => ?_
      record := fun r hr => ?_
      hold := fun v n hn => ⟨Nat.lt_succ_of_lt (h.hold v n hn).1, fun z hz hza => ?_⟩
      item := fun i hi => ?_
      placed := fun z hz hw => ?_
      idle := fun hr => absurd hr hrun }
    · show ((L.inflight.map _).map Entry.arrival).Nodup
      rw [List.map_map]
      refine List.Nodup.map_on (fun z hz w hw he => ?_) (List.Nodup.of_map _ h.arrivals)
      simp only [Function.comp_apply] at he
      have hz' := hlt z hz
      have hw' := hlt w hw
      split_ifs at he with h1 h2 h2
      · exact eq_of_key h.arrivals hz hw (h1.trans h2.symm)
      · omega
      · omega
      · exact eq_of_key h.arrivals hz hw he
    · rcases hof z hz with rfl | ⟨hz, -⟩
      · refine ⟨by rw [hya]; exact Nat.lt_succ_self _, by rw [hy]; exact hvol, ?_⟩
        rw [if_neg hyw]
        refine ⟨by rw [hy]; exact hfit.1, by rw [hy]; exact hfit.2.1, by rw [hy]; exact hfit.2.2.1, fun r hr hra => ?_⟩
        have := hrec r hr
        omega
      · obtain ⟨h1, hrest⟩ := h.entry z hz
        exact ⟨Nat.lt_succ_of_lt h1, hrest⟩
    · obtain ⟨h1, h2, h3⟩ := h.record r hr
      refine ⟨h1, h2, fun hp => ?_⟩
      obtain ⟨z, hz, hw, hza⟩ := h3 hp
      refine ⟨z, hto z hz fun hc => hxw ?_, hw, hza⟩
      rw [← eq_of_key h.arrivals hz hx hc]
      exact hw
    · rcases hof z hz with rfl | ⟨hz, -⟩
      · have := (h.hold v n hn).1
        omega
      · exact (h.hold v n hn).2 z hz hza
    · have hi' := h.item i hi
      unfold BusyItem.Fits at hi' ⊢
      cases ho : i.owner with
      | restore j =>
        rw [ho] at hi'
        exact hi'
      | front n =>
        rw [ho] at hi'
        obtain ⟨z, hz, hza, hs, hrest⟩ := hi'
        refine ⟨z, hto z hz fun hc => hs ?_, hza, hs, hrest⟩
        rw [eq_of_key h.arrivals hz hx hc]
        exact hst
    · rcases hof z hz with rfl | ⟨hz, -⟩
      · exact absurd hw hyw
      · exact h.placed z hz hw
  refine hin.enterBusy rfl (fun k hk ho => ?_) ?_ hrun
  · obtain ⟨z, hz, hza, -⟩ := h.itemEntry hk (n := y.arrival) ho
    have := hlt z hz
    omega
  · refine ⟨y, hyin, rfl, by simp [hy], by simp [hact], ?_⟩
    simp [hy, hact, busyItemOf]

/-! ### Items proceed and leave -/

/-- The test of the busy set names an item that waits, with no conflict before it. -/
theorem firstProceed_some {earlier l : List BusyItem} {i : BusyItem} (h : firstProceed earlier l = some i) :
    ∃ s t, l = s ++ i :: t ∧ i.proceeded = false ∧ ∀ k ∈ earlier ++ s, k.conflicts i = false := by
  induction l generalizing earlier with
  | nil => simp [firstProceed] at h
  | cons k l ih =>
    rw [firstProceed] at h
    split_ifs at h with hk
    · obtain rfl : k = i := by simpa using h
      simp only [Bool.and_eq_true, Bool.not_eq_true', List.any_eq_false, Bool.not_eq_true] at hk
      exact ⟨[], l, rfl, hk.1, by simpa using hk.2⟩
    · obtain ⟨s, t, rfl, h1, h2⟩ := ih h
      exact ⟨k :: s, t, rfl, h1, by simpa using h2⟩

theorem BusyItem.conflicts_comm (i j : BusyItem) : i.conflicts j = j.conflicts i := by
  have h : ∀ s t : List Nat, (s.any fun c => t.contains c) = (t.any fun c => s.contains c) := by
    intro s t
    rw [Bool.eq_iff_iff]
    simp only [List.any_eq_true, List.contains_iff_mem]
    exact ⟨fun ⟨c, h1, h2⟩ => ⟨c, h2, h1⟩, fun ⟨c, h1, h2⟩ => ⟨c, h2, h1⟩⟩
  rw [BusyItem.conflicts, BusyItem.conflicts, h i.chunks, Bool.beq_comm, Bool.or_comm]

/-- An item proceeds (R23). -/
theorem Good.proceed (h : Good a b m L) {s t : List BusyItem} {i : BusyItem} (hl : L.busy = s ++ i :: t)
    (hp : i.proceeded = false) (hs : ∀ k ∈ s, k.conflicts i = false) (hact : m.act = none) :
    Good a b { m with act := some i.owner }
      { L with busy := L.busy.map fun k => if k.owner = i.owner then { k with proceeded := true } else k } := by
  have hi : i ∈ L.busy := by rw [hl]; simp
  have hrun : L.part ≠ .recovering := fun hc => by
    rw [(h.idle hc).2.1] at hi
    cases hi
  have hmap : (L.busy.map fun k => if k.owner = i.owner then { k with proceeded := true } else k) =
      s ++ { i with proceeded := true } :: t := by
    have hn := h.owners
    rw [hl] at hn
    simp only [List.map_append, List.map_cons, List.nodup_append, List.nodup_cons] at hn
    have h1 : ∀ k ∈ s, k.owner ≠ i.owner := fun k hk => hn.2.2 _ (List.mem_map_of_mem hk) _ (List.mem_cons_self ..)
    have h2 : ∀ k ∈ t, k.owner ≠ i.owner := fun k hk hc => hn.2.1.1 (hc ▸ List.mem_map_of_mem hk)
    rw [hl, List.map_append, List.map_cons, if_pos rfl]
    congr 1
    · exact (List.map_congr_left fun k hk => if_neg (h1 k hk)).trans (List.map_id' s)
    · congr 1
      exact (List.map_congr_left fun k hk => if_neg (h2 k hk)).trans (List.map_id' t)
  have howner : (L.busy.map fun k => if k.owner = i.owner then { k with proceeded := true } else k).map BusyItem.owner =
      L.busy.map BusyItem.owner := by
    rw [hmap, hl]
    simp
  refine { h with
    order := ?_
    owners := by
      show ((L.busy.map _).map BusyItem.owner).Nodup
      rw [howner]
      exact h.owners
    item := fun k hk => ?_
    placed := fun x hx hw => ?_
    entry := h.entry
    idle := fun hr => absurd hr hrun }
  · have ho := h.order
    show (L.busy.map _).Pairwise _
    rw [hmap]
    rw [hl, List.pairwise_append, List.pairwise_cons] at ho
    rw [List.pairwise_append, List.pairwise_cons]
    obtain ⟨h1, ⟨h2, h3⟩, h4⟩ := ho
    refine ⟨h1, ⟨fun k hk hkp => h2 k hk hkp, h3⟩, fun k hk j hj hjp => ?_⟩
    rcases List.mem_cons.mp hj with rfl | hj
    · exact hs k hk
    · exact h4 k hk j (List.mem_cons_of_mem _ hj) hjp
  · obtain ⟨k, hkin, rfl⟩ := List.mem_map.mp hk
    have hk' := h.item k hkin
    unfold BusyItem.Fits at hk' ⊢
    by_cases hki : k.owner = i.owner
    · obtain rfl : k = i := eq_of_key h.owners hkin hi hki
      rw [if_pos rfl]
      cases ho : k.owner with
      | restore j => exact .inl rfl
      | front n =>
        rw [ho] at hk'
        obtain ⟨x, hx, ha, hst, -, hk''⟩ := hk'
        rw [hact] at hk''
        have hwait : x.state = .waiting := by
          rw [hk''] at hp
          cases hx : x.state
          · exact absurd hx hst
          · rfl
          · simp [hx] at hp
        refine ⟨x, hx, ha, hst, fun _ => hwait, ?_⟩
        rw [hk'']
        simp [hwait, busyItemOf, ha]
    · rw [if_neg hki]
      cases ho : k.owner with
      | restore j =>
        rw [ho] at hk'
        rcases hk' with hk' | hk'
        · rw [hact] at hk'
          cases hk'
        · exact .inr hk'
      | front n =>
        rw [ho] at hk'
        obtain ⟨x, hx, ha, hst, -, hk''⟩ := hk'
        have hne : i.owner ≠ .front n := fun hc => hki (ho.trans hc.symm)
        refine ⟨x, hx, ha, hst, fun hc => absurd (by simpa using hc) hne, ?_⟩
        rw [hk'', hact]
        have : (some i.owner == some (BusyOwner.front n)) = false := by simpa using hne
        simp [this]
  · obtain ⟨k, hk, hko⟩ := h.placed x hx hw
    refine ⟨_, List.mem_map_of_mem hk, ?_⟩
    split_ifs <;> exact hko

/-- What a job's item says of the job is left open. -/
theorem Good.openRestore (h : Good a b m L) (j : Nat) (hact : m.act = none) :
    Good a b { m with act := some (.restore j) } L := by
  refine { h with item := fun k hk => ?_, entry := h.entry }
  have hk' := h.item k hk
  unfold BusyItem.Fits at hk' ⊢
  cases ho : k.owner with
  | restore i =>
    rw [ho] at hk'
    rcases hk' with hk' | hk'
    · rw [hact] at hk'
      cases hk'
    · exact .inr hk'
  | front n =>
    rw [ho] at hk'
    obtain ⟨x, hx, ha, hst, -, hk''⟩ := hk'
    refine ⟨x, hx, ha, hst, by simp, ?_⟩
    rw [hk'', hact]
    simp

/-- The item of a job leaves the busy set. -/
theorem Good.leaveRestore (h : Good a b m L) {j : Nat} (hact : m.act = none ∨ m.act = some (.restore j)) :
    Good a b { m with act := none } { L with busy := L.busy.filter fun i => i.owner != .restore j } := by
  refine { h with
    order := h.order.sublist List.filter_sublist
    owners := h.owners.sublist (List.filter_sublist.map _)
    item := fun k hk => ?_
    placed := fun x hx hw => ?_
    entry := h.entry
    idle := fun hr => ?_ }
  · obtain ⟨hk, hne⟩ := List.mem_filter.mp hk
    have hk' := h.item k hk
    unfold BusyItem.Fits at hk' ⊢
    cases ho : k.owner with
    | restore i =>
      rw [ho] at hk' hne
      rcases hk' with hk' | hk'
      · rcases hact with hact | hact
        · rw [hact] at hk'
          cases hk'
        · rw [hact] at hk'
          obtain rfl : j = i := by simpa using hk'
          simp at hne
      · exact .inr hk'
    | front n =>
      rw [ho] at hk'
      obtain ⟨x, hx, ha, hst, -, hk''⟩ := hk'
      refine ⟨x, hx, ha, hst, by simp, ?_⟩
      rw [hk'']
      rcases hact with hact | hact <;> simp [hact]
  · obtain ⟨k, hk, ho⟩ := h.placed x hx hw
    exact ⟨k, List.mem_filter.mpr ⟨hk, by simp [ho]⟩, ho⟩
  · obtain ⟨h1, h2, hrest⟩ := h.idle hr
    refine ⟨h1, ?_, hrest⟩
    show L.busy.filter _ = []
    rw [h2]
    rfl

/-! ### Items that have proceeded -/

/-- The item of an accepted WRITE. -/
theorem Good.itemOfWrite (h : Good a b m L) {x : Entry} (hx : x ∈ L.inflight) (hw : x.writes = true) :
    ∃ i ∈ L.busy, i.owner = .front x.arrival ∧ i.vol = x.req.vol ∧ i.chunks = span L.k x.req.start x.req.count ∧
      i.change = true ∧ i.proceeded = true := by
  obtain ⟨i, hi, ho⟩ := h.placed x hx hw
  obtain ⟨y, hy, hya, -, -, hi'⟩ := h.itemEntry hi ho
  obtain rfl : y = x := eq_of_key h.arrivals hy hx hya
  simp only [Entry.writes, Bool.and_eq_true, beq_iff_eq] at hw
  refine ⟨i, hi, ho, ?_⟩
  rw [hi']
  simp [busyItemOf, busyChunks, hw.1, hw.2]

/-- Two items that have proceeded do not conflict. -/
theorem Good.apart (h : Good a b m L) {i j : BusyItem} (hi : i ∈ L.busy) (hj : j ∈ L.busy) (hne : i ≠ j)
    (hip : i.proceeded = true) (hjp : j.proceeded = true) : i.conflicts j = false := by
  have hs : L.busy.Pairwise fun i j => i.proceeded = true → j.proceeded = true → i.conflicts j = false :=
    h.order.imp (by intro i j hij _ hj; exact hij hj)
  have : Std.Symm fun i j : BusyItem => i.proceeded = true → j.proceeded = true → i.conflicts j = false :=
    ⟨fun x y hxy hy hx => by rw [BusyItem.conflicts_comm]; exact hxy hx hy⟩
  exact hs.forall hi hj hne hip hjp

theorem not_conflicts {i j : BusyItem} (h : i.conflicts j = false) (hv : i.vol = j.vol) (hc : i.change = true) {l : Nat}
    (hi : l ∈ i.chunks) : l ∉ j.chunks := by
  intro hj
  have : i.conflicts j = true := by
    simp only [BusyItem.conflicts, hv, hc, Bool.true_or, Bool.and_true, beq_self_eq_true, Bool.true_and, List.any_eq_true,
      List.contains_iff_mem]
    exact ⟨l, hi, hj⟩
  rw [h] at this
  cases this

/-- The chunks of an item that has proceeded, or may, stand in no other request's plan. -/
theorem Good.untouched (h : Good a b m L) {i : BusyItem} (hi : i ∈ L.busy) (hc : i.change = true)
    (hap : ∀ j ∈ L.busy, j ≠ i → j.proceeded = true → i.conflicts j = false) {l : Nat} (hl : l ∈ i.chunks) {x : Entry}
    (hx : x ∈ L.inflight) (hw : x.writes = true) (hv : x.req.vol = i.vol) (hne : i.owner ≠ .front x.arrival)
    (hf : m.fin ≠ some x.arrival) : ∀ q ∈ x.plan, q.lcn ≠ l := by
  obtain ⟨-, -, hfit⟩ := h.entry x hx
  rw [if_pos hw] at hfit
  obtain ⟨j, hj, hjo, hjv, hjc, -, hjp⟩ := h.itemOfWrite hx hw
  have hji : j ≠ i := by
    rintro rfl
    exact hne hjo
  have hno := not_conflicts (hap j hj hji hjp) (hv.symm.trans hjv.symm) hc hl
  rw [hjc] at hno
  rintro q hq rfl
  exact hno ((hfit.1 hf).2.1 q hq).1

end Sys2Proof.Machine
end

section
/-! PROOFS. The charges of a chunk plan (R43, R51), the plan that an accepted WRITE has (R30, R50), and the bound that keeps every
charge at what accepted requests are to release (R51). -/

namespace Sys2Proof.Machine

variable {a b : Prop} {m : Mode} {L : Ledger}

/-! ### Net changes -/

/-- The account names of a list of changes rise strictly. -/
def Rising (l : List (Nat × Int)) : Prop := (l.map Prod.fst).Pairwise (· < ·)

theorem Rising.nodup {l : List (Nat × Int)} (h : Rising l) : (l.map Prod.fst).Nodup := h.imp (fun h => Nat.ne_of_lt h)

theorem mem_addCharge {x n : Nat} {d : Int} {l : List (Nat × Int)} (h : n ∈ (addCharge x d l).map Prod.fst) :
    n = x ∨ n ∈ l.map Prod.fst := by
  induction l with
  | nil => simpa [addCharge] using h
  | cons p l ih =>
    obtain ⟨y, c⟩ := p
    rw [addCharge] at h
    split_ifs at h with h1 h2
    · simpa using h
    · exact .inr (by simpa using h)
    · simp only [List.map_cons, List.mem_cons] at h ⊢
      rcases h with h | h
      · exact .inr (.inl h)
      · exact (ih h).imp id .inr

theorem Rising.addCharge {l : List (Nat × Int)} (h : Rising l) (x : Nat) (d : Int) : Rising (addCharge x d l) := by
  induction l with
  | nil => exact List.pairwise_singleton _ _
  | cons p l ih =>
    obtain ⟨y, c⟩ := p
    have hc := List.pairwise_cons.mp h
    rw [Machine.addCharge]
    split_ifs with h1 h2
    · refine List.pairwise_cons.mpr ⟨fun n hn => ?_, h⟩
      rcases List.mem_cons.mp hn with rfl | hn
      · exact h1
      · exact h1.trans (hc.1 n hn)
    · exact h
    · refine List.pairwise_cons.mpr ⟨fun n hn => ?_, ih hc.2⟩
      rcases mem_addCharge hn with rfl | hn
      · show y < n
        omega
      · exact hc.1 n hn

theorem netOf_addCharge (x o : Nat) (d : Int) (l : List (Nat × Int)) :
    netOf (addCharge x d l) o = netOf l o + if x = o then d else 0 := by
  induction l with
  | nil =>
    rw [addCharge, netOf_cons]
    exact Int.add_comm _ _
  | cons p l ih =>
    obtain ⟨y, c⟩ := p
    rw [addCharge]
    split_ifs <;> simp only [netOf_cons, ih] <;> split_ifs <;> omega

/-- What a chunk of a WRITE's plan moves the charge of an account by (R51). -/
def ChunkPlan.netFor (owner o : Nat) (p : ChunkPlan) : Int :=
  match p.cls, p.old with
  | .unmapped, _ => if owner = o then 1 else 0
  | .shared, some (_, _, x) => (if owner = o then 1 else 0) - if x = o then 1 else 0
  | .shared, none => if owner = o then 1 else 0
  | .inPlace, _ => 0

theorem writeCharges_spec (owner : Nat) (plan : List ChunkPlan) : Rising (writeCharges owner plan) ∧
    ∀ o, netOf (writeCharges owner plan) o = (plan.map (ChunkPlan.netFor owner o)).sum := by
  have h : ∀ acc : List (Nat × Int), Rising acc →
      Rising (plan.foldl (fun acc p =>
        match p.cls, p.old with
        | .unmapped, _ => addCharge owner 1 acc
        | .shared, some (_, _, x) => addCharge x (-1) (addCharge owner 1 acc)
        | .shared, none => addCharge owner 1 acc
        | .inPlace, _ => acc) acc) ∧
      ∀ o, netOf (plan.foldl (fun acc p =>
        match p.cls, p.old with
        | .unmapped, _ => addCharge owner 1 acc
        | .shared, some (_, _, x) => addCharge x (-1) (addCharge owner 1 acc)
        | .shared, none => addCharge owner 1 acc
        | .inPlace, _ => acc) acc) o = netOf acc o + (plan.map (ChunkPlan.netFor owner o)).sum := by
    induction plan with
    | nil => exact fun acc hr => ⟨hr, fun o => by simp⟩
    | cons p plan ih =>
      intro acc hr
      rw [List.foldl_cons]
      simp only [List.map_cons, List.sum_cons]
      cases hc : p.cls with
      | unmapped =>
        obtain ⟨h1, h2⟩ := ih _ (hr.addCharge owner 1)
        refine ⟨h1, fun o => (h2 o).trans ?_⟩
        rw [netOf_addCharge, ChunkPlan.netFor, hc]
        simp only
        omega
      | shared =>
        cases ho : p.old with
        | none =>
          obtain ⟨h1, h2⟩ := ih _ (hr.addCharge owner 1)
          refine ⟨h1, fun o => (h2 o).trans ?_⟩
          rw [netOf_addCharge, ChunkPlan.netFor, hc, ho]
          simp only
          omega
        | some q =>
          obtain ⟨pc, bn, x⟩ := q
          obtain ⟨h1, h2⟩ := ih _ ((hr.addCharge owner 1).addCharge x (-1))
          refine ⟨h1, fun o => (h2 o).trans ?_⟩
          rw [netOf_addCharge, netOf_addCharge, ChunkPlan.netFor, hc, ho]
          simp only
          split_ifs <;> omega
      | inPlace =>
        obtain ⟨h1, h2⟩ := ih _ hr
        refine ⟨h1, fun o => (h2 o).trans ?_⟩
        rw [ChunkPlan.netFor, hc]
        simp only
        omega
  obtain ⟨h1, h2⟩ := h [] List.Pairwise.nil
  exact ⟨h1, fun o => (h2 o).trans (zero_add _)⟩

theorem discardCharges_spec (v : Volume) (cs : List Nat) : Rising (discardCharges v cs) ∧
    ∀ o, netOf (discardCharges v cs) o = - ((cs.map fun c => (v.entry c).form.chargedTo o).sum : Nat) := by
  have h : ∀ acc : List (Nat × Int), Rising acc →
      Rising (cs.foldl (fun acc c =>
        match (v.entry c).form with
        | .mapped _ _ x => addCharge x (-1) acc
        | .unmapped _ => acc) acc) ∧
      ∀ o, netOf (cs.foldl (fun acc c =>
        match (v.entry c).form with
        | .mapped _ _ x => addCharge x (-1) acc
        | .unmapped _ => acc) acc) o = netOf acc o - ((cs.map fun c => (v.entry c).form.chargedTo o).sum : Nat) := by
    induction cs with
    | nil => exact fun acc hr => ⟨hr, fun o => by simp⟩
    | cons c cs ih =>
      intro acc hr
      rw [List.foldl_cons]
      simp only [List.map_cons, List.sum_cons]
      cases hc : (v.entry c).form with
      | mapped pc bn x =>
        obtain ⟨h1, h2⟩ := ih _ (hr.addCharge x (-1))
        refine ⟨h1, fun o => (h2 o).trans ?_⟩
        rw [netOf_addCharge, Form.chargedTo]
        split_ifs <;> omega
      | unmapped n =>
        obtain ⟨h1, h2⟩ := ih _ hr
        refine ⟨h1, fun o => (h2 o).trans ?_⟩
        rw [Form.chargedTo, zero_add]
  obtain ⟨h1, h2⟩ := h [] List.Pairwise.nil
  exact ⟨h1, fun o => (h2 o).trans (zero_sub _)⟩

/-! ### The plan of an accepted WRITE -/

theorem assignClaims_spec {plan : List ChunkPlan} {cs : List Nat} (h : (plan.filter ChunkPlan.needsPcn).length = cs.length) :
    (assignClaims plan cs).map ChunkPlan.lcn = plan.map ChunkPlan.lcn ∧
      ((assignClaims plan cs).filter ChunkPlan.needsPcn).filterMap ChunkPlan.claimed = cs ∧
      ∀ p ∈ assignClaims plan cs, (p ∈ plan ∧ p.needsPcn = false) ∨
        ∃ q ∈ plan, ∃ c, p = { q with claimed := some c } := by
  induction plan generalizing cs with
  | nil =>
    rw [List.filter_nil, List.length_nil, eq_comm, List.length_eq_zero_iff] at h
    subst h
    simp [assignClaims]
  | cons p plan ih =>
    cases hn : p.needsPcn with
    | true =>
      rw [List.filter_cons_of_pos hn] at h
      cases cs with
      | nil => simp at h
      | cons c cs =>
        obtain ⟨h1, h2, h3⟩ := ih (cs := cs) (by simpa using h)
        have hA : assignClaims (p :: plan) (c :: cs) = { p with claimed := some c } :: assignClaims plan cs := by
          simp [assignClaims, hn]
        rw [hA]
        refine ⟨by simp [h1], ?_, fun q hq => ?_⟩
        · have hn' : ({ p with claimed := some c } : ChunkPlan).needsPcn = true := hn
          rw [List.filter_cons_of_pos hn', List.filterMap_cons, h2]
        · rcases List.mem_cons.mp hq with rfl | hq
          · exact .inr ⟨p, List.mem_cons_self .., c, rfl⟩
          · rcases h3 q hq with ⟨h4, h5⟩ | ⟨r, hr, hrest⟩
            · exact .inl ⟨List.mem_cons_of_mem _ h4, h5⟩
            · exact .inr ⟨r, List.mem_cons_of_mem _ hr, hrest⟩
    | false =>
      rw [List.filter_cons_of_neg (by simp [hn])] at h
      obtain ⟨h1, h2, h3⟩ := ih h
      have hA : assignClaims (p :: plan) cs = p :: assignClaims plan cs := by
        cases cs <;> simp [assignClaims, hn]
      rw [hA]
      refine ⟨by simp [h1], ?_, fun q hq => ?_⟩
      · rw [List.filter_cons_of_neg (by simp [hn]), h2]
      · rcases List.mem_cons.mp hq with rfl | hq
        · exact .inl ⟨List.mem_cons_self .., hn⟩
        · rcases h3 q hq with ⟨h4, h5⟩ | ⟨r, hr, hrest⟩
          · exact .inl ⟨List.mem_cons_of_mem _ h4, h5⟩
          · exact .inr ⟨r, List.mem_cons_of_mem _ hr, hrest⟩

/-- A chunk classified against the map fits it, once it has its PCN. -/
theorem planChunk_fits (X : Volume) (g c : Nat) (p : ChunkPlan) (hl : p.lcn = (planChunk X g c).lcn)
    (hc : p.cls = (planChunk X g c).cls) (ho : p.old = (planChunk X g c).old)
    (hn : p.needsPcn = false ∨ p.claimed ≠ none) : p.Fits X := by
  unfold ChunkPlan.Fits
  rw [hc, hl, ho]
  rw [ChunkPlan.needsPcn, hc] at hn
  simp only [planChunk, classify] at hn ⊢
  cases hf : (X.entry c).form with
  | unmapped n =>
    rw [hf] at hn
    simpa using hn
  | mapped pc bn o =>
    rw [hf] at hn
    simp only at hn ⊢
    split_ifs at hn ⊢
    · trivial
    · exact ⟨by simpa using hn, rfl⟩

theorem planned_fits {X : Volume} {k g : Nat} {x y : Entry} {cs : List Nat} {f : ChunkPlan → Nat}
    (hcs : totalNew ((span k x.req.start x.req.count).map (planChunk X g)) = cs.length) (hreq : y.req = x.req)
    (hp : y.plan = (assignClaims ((span k x.req.start x.req.count).map (planChunk X g)) cs).map fun p => { p with reads := f p })
    (hc : y.claims = cs) (hch : y.charges = writeCharges x.req.owner y.plan) : y.PlanFits k X := by
  obtain ⟨h1, h2, h3⟩ := assignClaims_spec hcs
  have hlcn : y.plan.map ChunkPlan.lcn = span k x.req.start x.req.count := by
    rw [hp, List.map_map]
    refine Eq.trans ?_ (h1.trans ?_)
    · exact List.map_congr_left fun _ _ => rfl
    · rw [List.map_map]
      exact List.map_id' _
  refine ⟨?_, fun p hpm => ⟨?_, ?_⟩, ?_, by rw [hch, hreq]⟩
  · rw [hlcn]
    exact List.nodup_range' ..
  · rw [hreq, ← hlcn]
    exact List.mem_map_of_mem hpm
  · rw [hp] at hpm
    obtain ⟨q, hq, rfl⟩ := List.mem_map.mp hpm
    rcases h3 q hq with ⟨h4, h5⟩ | ⟨r, hr, c, rfl⟩
    · obtain ⟨l, -, rfl⟩ := List.mem_map.mp h4
      exact planChunk_fits X g l _ rfl rfl rfl (.inl h5)
    · obtain ⟨l, -, rfl⟩ := List.mem_map.mp hr
      exact planChunk_fits X g l _ rfl rfl rfl (.inr (by simp))
  · rw [hp, List.filter_map, List.filterMap_map]
    exact h2.trans hc.symm

end Sys2Proof.Machine
end

section
/-! PROOFS. The bound of the charges (R51): the entries that accepted requests are to release, and any that no request is to
release, are distinct MAPPED entries of their account. -/

namespace Sys2Proof.Machine

variable {a b : Prop} {m : Mode} {L : Ledger}

/-! ### The MAPPED entries of an account, by volume and LCN -/

def Ledger.places (L : Ledger) (o : Nat) : List (Nat × Nat) :=
  L.vols.flatMap fun p => (p.2.map.filter fun q => q.2.form.chargedTo o == 1).map fun q => (p.1, q.1)

theorem Form.chargedTo_le (o : Nat) (f : Form) : f.chargedTo o = 0 ∨ f.chargedTo o = 1 := by
  cases f with
  | mapped p bn x =>
    rw [Form.chargedTo]
    split_ifs
    · exact .inr rfl
    · exact .inl rfl
  | unmapped c => exact .inl rfl

theorem length_places (L : Ledger) (o : Nat) : (L.places o).length = L.mapped o := by
  unfold Ledger.places Ledger.mapped totalOf
  rw [List.length_flatMap]
  refine congrArg List.sum (List.map_congr_left fun p _ => ?_)
  rw [List.length_map, Volume.chargedTo, Volume.mapSum, totalOf]
  induction p.2.map with
  | nil => rfl
  | cons q t ih =>
    rw [List.map_cons, List.sum_cons, ← ih]
    rcases Form.chargedTo_le o q.2.form with hq | hq
    · rw [List.filter_cons_of_neg (by simp [hq]), hq, Nat.zero_add]
    · rw [List.filter_cons_of_pos (by simp [hq]), hq, List.length_cons, Nat.add_comm]

theorem mem_places {o v l : Nat} (h : ((L.vol v).entry l).form.chargedTo o = 1) : (v, l) ∈ L.places o := by
  have hmem : ∀ {α : Type} {d : α} {t : Table α} {i : Nat} {x : α}, tget d t i = x → x ≠ d → (i, x) ∈ t := by
    intro α d t i x hx hne
    unfold tget at hx
    cases hf : tfind t i with
    | none =>
      rw [hf] at hx
      exact absurd hx.symm hne
    | some y =>
      rw [hf] at hx
      obtain rfl : y = x := hx
      exact mem_of_tfind hf
  have hentry : (l, (L.vol v).entry l) ∈ (L.vol v).map := hmem rfl fun hc => by
    rw [hc] at h
    simp [MapEntry.fresh, Form.chargedTo] at h
  have hvol : (v, L.vol v) ∈ L.vols := hmem rfl fun hc => by
    rw [hc] at hentry
    simp [Volume.absent] at hentry
  exact List.mem_flatMap.mpr ⟨_, hvol, List.mem_map.mpr ⟨_, List.mem_filter.mpr ⟨hentry, by simpa using h⟩, rfl⟩⟩

/-! ### What a WRITE is to release -/

/-- The chunk displaces an entry of an account. -/
def ChunkPlan.releasesFor (o : Nat) (p : ChunkPlan) : Bool := p.cls == .shared && (p.old.map fun q => q.2.2) == some o

/-- The entries of an account whose old PCN a WRITE displaces. -/
def Entry.releases (o : Nat) (x : Entry) : List (Nat × Nat) :=
  (x.plan.filter (ChunkPlan.releasesFor o)).map fun p => (x.req.vol, p.lcn)

theorem netFor_ge (owner o : Nat) (p : ChunkPlan) :
    - (if p.releasesFor o = true then 1 else 0 : Int) ≤ p.netFor owner o := by
  unfold ChunkPlan.netFor ChunkPlan.releasesFor
  cases hc : p.cls with
  | unmapped =>
    simp only
    split_ifs <;> simp_all
  | inPlace =>
    simp
  | shared =>
    cases ho : p.old with
    | none =>
      simp only
      split_ifs <;> simp_all
    | some q =>
      obtain ⟨pc, bn, x⟩ := q
      by_cases hx : x = o
      · simp [hx]
        split_ifs <;> omega
      · simp [hx]
        split_ifs <;> omega

theorem releases_ge {k o : Nat} {X : Volume} {x : Entry} (h : x.PlanFits k X) :
    - netOf x.charges o ≤ (x.releases o).length := by
  obtain ⟨-, -, -, hch⟩ := h
  rw [hch, (writeCharges_spec _ _).2, Entry.releases, List.length_map]
  induction x.plan with
  | nil => simp
  | cons p t ih =>
    have hp := netFor_ge x.req.owner o p
    rw [List.map_cons, List.sum_cons]
    by_cases hq : p.releasesFor o = true
    · rw [if_pos hq] at hp
      rw [List.filter_cons_of_pos hq, List.length_cons]
      push_cast
      omega
    · rw [if_neg hq] at hp
      rw [List.filter_cons_of_neg hq]
      omega

theorem releases_nodup {k o : Nat} {X : Volume} {x : Entry} (h : x.PlanFits k X) : (x.releases o).Nodup := by
  have hn : ((x.plan.filter (ChunkPlan.releasesFor o)).map ChunkPlan.lcn).Nodup :=
    h.1.sublist (List.filter_sublist.map _)
  have := hn.map (f := fun l => (x.req.vol, l)) fun _ _ hl => (Prod.mk.inj hl).2
  rwa [List.map_map] at this

theorem mem_releases {k o v l : Nat} {X : Volume} {x : Entry} (h : x.PlanFits k X) (hv : (v, l) ∈ x.releases o) :
    v = x.req.vol ∧ l ∈ span k x.req.start x.req.count ∧ (∃ p ∈ x.plan, p.lcn = l) ∧ (X.entry l).form.chargedTo o = 1 := by
  obtain ⟨p, hp, he⟩ := List.mem_map.mp hv
  obtain ⟨rfl, rfl⟩ := Prod.mk.inj he
  obtain ⟨hp, hcond⟩ := List.mem_filter.mp hp
  simp only [ChunkPlan.releasesFor, Bool.and_eq_true, beq_iff_eq] at hcond
  obtain ⟨hspan, hfit⟩ := h.2.1 p hp
  refine ⟨rfl, hspan, ⟨p, hp, rfl⟩, ?_⟩
  unfold ChunkPlan.Fits at hfit
  rw [hcond.1] at hfit
  cases hf : (X.entry p.lcn).form with
  | unmapped c =>
    rw [hf] at hfit
    exact hfit.elim
  | mapped pc bn w =>
    rw [hf] at hfit
    have ho := hcond.2
    rw [hfit.2] at ho
    simpa [Form.chargedTo] using ho

/-! ### The bound -/

/-- The entries that the request of a mirror record is to release. -/
def Ledger.released (L : Ledger) (o : Nat) (r : MirrorRec) : List (Nat × Nat) :=
  match L.inflight.find? fun x => x.writes && x.arrival == r.arrival with
  | some x => x.releases o
  | none => []

theorem Good.released (h : Good a b m L) (hrun : L.part ≠ .recovering) (o : Nat) {r : MirrorRec} (hr : r ∈ L.mirror) :
    ∃ x ∈ L.inflight, x.writes = true ∧ x.arrival = r.arrival ∧ r.charges = x.charges ∧ L.released o r = x.releases o := by
  obtain ⟨x, hx, hw, ha⟩ := (h.record r hr).2.2 hrun
  cases hf : L.inflight.find? fun x => x.writes && x.arrival == r.arrival with
  | none =>
    have := List.find?_eq_none.mp hf x hx
    simp [hw, ha] at this
  | some y =>
    have hy := List.mem_of_find?_eq_some hf
    have hyp := List.find?_some hf
    simp only [Bool.and_eq_true, beq_iff_eq] at hyp
    refine ⟨y, hy, hyp.1, hyp.2, ?_, by rw [Ledger.released, hf]⟩
    obtain ⟨-, -, hfit⟩ := h.entry y hy
    rw [if_pos hyp.1] at hfit
    obtain ⟨-, q, hq, hqa, -, hqc⟩ := hfit
    obtain rfl : q = r := eq_of_key h.mirrored hq hr (hqa.trans hyp.2)
    exact hqc

/-- Accepted requests release no more entries of an account than it has, and none of those that they do not name. -/
theorem Good.releases_le (h : Good a b m L) (hfin : m.fin = none) (hrun : L.part ≠ .recovering) (o : Nat)
    {K : List (Nat × Nat)} (hK : K.Nodup)
    (hfree : ∀ k ∈ K, ∀ x ∈ L.inflight, x.writes = true → x.req.vol = k.1 → ∀ q ∈ x.plan, q.lcn ≠ k.2)
    (hown : ∀ k ∈ K, ((L.vol k.1).entry k.2).form.chargedTo o = 1) :
    (L.mirror.map fun r => (- r.chargeOf o).toNat).sum + K.length ≤ L.mapped o := by
  have hplan : ∀ x ∈ L.inflight, x.writes = true → x.PlanFits L.k (L.vol x.req.vol) := fun x hx hw => by
    obtain ⟨-, -, hfit⟩ := h.entry x hx
    rw [if_pos hw] at hfit
    exact hfit.1 (by rw [hfin]; simp)
  have hle : (L.mirror.map fun r => (- r.chargeOf o).toNat).sum ≤ (L.mirror.flatMap (L.released o)).length := by
    rw [List.length_flatMap]
    refine List.sum_le_sum fun r hr => ?_
    obtain ⟨x, hx, hw, -, hch, hrel⟩ := h.released hrun o hr
    have := releases_ge (o := o) (hplan x hx hw)
    rw [hrel, MirrorRec.chargeOf_eq, hch]
    omega
  have hmem : ∀ k ∈ L.mirror.flatMap (L.released o), ∃ x ∈ L.inflight, x.writes = true ∧ k ∈ x.releases o := by
    intro k hk
    obtain ⟨r, hr, hk⟩ := List.mem_flatMap.mp hk
    obtain ⟨x, hx, hw, -, -, hrel⟩ := h.released hrun o hr
    exact ⟨x, hx, hw, hrel ▸ hk⟩
  have hnodup : (L.mirror.flatMap (L.released o)).Nodup := by
    rw [List.nodup_flatMap]
    refine ⟨fun r hr => ?_, ?_⟩
    · obtain ⟨x, hx, hw, -, -, hrel⟩ := h.released hrun o hr
      rw [hrel]
      exact releases_nodup (hplan x hx hw)
    · refine (List.pairwise_map.mp h.mirrored).imp_of_mem fun {r q} hr hq hne => ?_
      rw [Function.onFun, List.disjoint_iff_ne]
      rintro ⟨v, l⟩ hk1 k hk2 rfl
      obtain ⟨x, hx, hxw, hxa, -, hxr⟩ := h.released hrun o hr
      obtain ⟨y, hy, hyw, hya, -, hyr⟩ := h.released hrun o hq
      obtain ⟨rfl, hxl, -⟩ := mem_releases (hplan x hx hxw) (hxr ▸ hk1)
      obtain ⟨hv, hyl, -⟩ := mem_releases (hplan y hy hyw) (hyr ▸ hk2)
      obtain ⟨i, hi, hio, hiv, hic, hich, hip⟩ := h.itemOfWrite hx hxw
      obtain ⟨j, hj, hjo, hjv, hjc, -, hjp⟩ := h.itemOfWrite hy hyw
      have hij : i ≠ j := by
        rintro rfl
        rw [hio] at hjo
        exact hne (by rw [← hxa, ← hya]; simpa using hjo)
      refine not_conflicts (h.apart hi hj hij hip hjp) (hiv.trans (hv.trans hjv.symm)) hich ?_ (hjc ▸ hyl)
      rwa [hic]
  have hall : (L.mirror.flatMap (L.released o) ++ K).Nodup := by
    rw [List.nodup_append']
    refine ⟨hnodup, hK, fun k hk1 hk2 => ?_⟩
    obtain ⟨x, hx, hw, hk⟩ := hmem k hk1
    obtain ⟨v, l⟩ := k
    obtain ⟨rfl, -, ⟨p, hp, rfl⟩, -⟩ := mem_releases (hplan x hx hw) hk
    exact hfree _ hk2 x hx hw rfl p hp rfl
  have hsub : L.mirror.flatMap (L.released o) ++ K ⊆ L.places o := by
    intro k hk
    obtain ⟨v, l⟩ := k
    refine mem_places ?_
    rcases List.mem_append.mp hk with hk | hk
    · obtain ⟨x, hx, hw, hk⟩ := hmem _ hk
      obtain ⟨rfl, -, -, ho⟩ := mem_releases (hplan x hx hw) hk
      exact ho
    · exact hown _ hk
  have hlen := (List.subperm_of_subset hall hsub).length_le
  rw [List.length_append, length_places] at hlen
  omega

/-- What accepted requests hold of an account, with its entries, is no debt. -/
theorem pledged_ge (L : Ledger) (o : Nat) :
    - (((L.mirror.map fun r => (- r.chargeOf o).toNat).sum : Nat) : Int) ≤ L.pledged o := by
  unfold Ledger.pledged
  induction L.mirror with
  | nil => simp
  | cons r t ih =>
    simp only [List.map_cons, List.sum_cons, Nat.cast_add]
    omega

/-- The same, without the record of one request. -/
theorem pledged_without {r : MirrorRec} (hr : r ∈ L.mirror) (o : Nat) :
    r.chargeOf o - (((L.mirror.map fun r => (- r.chargeOf o).toNat).sum : Nat) : Int) ≤ L.pledged o := by
  obtain ⟨s, t, hs⟩ := List.append_of_mem hr
  have h1 := pledged_ge { L with mirror := s } o
  have h2 := pledged_ge { L with mirror := t } o
  unfold Ledger.pledged at h1 h2 ⊢
  rw [hs]
  simp only [List.map_append, List.map_cons, List.sum_append, List.sum_cons, Nat.cast_add] at h1 h2 ⊢
  omega

end Sys2Proof.Machine
end

section
/-! PROOFS. The books under the acceptance, the commit and the end of front requests (R20 to R37, R45). -/

namespace Sys2Proof.Machine

variable {a b : Prop} {m : Mode} {e : Event}

/-! ### Frames and shelf queues -/

theorem Books.emit (h : Books a b m e.st) (o : Output) : Books a b m (emit o e).st := h

theorem Books.emitFront (h : Books a b m e.st) (o : Output) : Books a b m (emitFront o e).st := by
  unfold Machine.emitFront
  split_ifs <;> exact h

theorem Books.handOver (h : Books a b m e.st) (c : ShelfCmd) : Books a b m (handOver c e).st := h

theorem Books.handOvers (h : Books a b m e.st) (cs : List ShelfCmd) :
    Books a b m (cs.foldl (fun e c => Machine.handOver c e) e).st :=
  foldl_keeps (Q := fun e => Books a b m e.st) (fun _ c he => he.handOver c) cs h

theorem Books.withdrawCmds (h : Books a b m e.st) (own : CmdOwner → Bool) : Books a b m (withdrawCmds own e).st := h

theorem Books.reownSlots (h : Books a b m e.st) (own : CmdOwner → Bool) (new : CmdOwner) :
    Books a b m (reownSlots own new e).st := h

/-! ### What the operations on chunks leave -/

/-- The in-flight table, the busy set, the jobs and the control unit stand. -/
structure SameWork (s t : State) : Prop where
  inflight : t.inflight = s.inflight
  busy : t.busy = s.busy
  jobs : t.jobs = s.jobs
  ctl : t.ctl = s.ctl
  format : t.format = s.format

namespace SameWork

theorem rfl' {s : State} : SameWork s s := ⟨rfl, rfl, rfl, rfl, rfl⟩

theorem trans {s t u : State} (h : SameWork s t) (k : SameWork t u) : SameWork s u :=
  ⟨k.inflight.trans h.inflight, k.busy.trans h.busy, k.jobs.trans h.jobs, k.ctl.trans h.ctl, k.format.trans h.format⟩

theorem mapEntry (v l pcn owner : Nat) : SameWork e.st (mapEntry v l pcn owner e).st := ⟨rfl, rfl, rfl, rfl, rfl⟩

theorem unmapEntry (v l : Nat) : SameWork e.st (unmapEntry v l e).st := ⟨rfl, rfl, rfl, rfl, rfl⟩

theorem freePcns (ps : List Nat) : SameWork e.st (freePcns ps e).st := by
  rw [freePcns_st]
  exact ⟨rfl, rfl, rfl, rfl, rfl⟩

theorem fileDisplaced (v l pcn born g : Nat) : SameWork e.st (fileDisplaced v l pcn born g e).st := by
  obtain ⟨vs, fr, h⟩ := fileDisplaced_frame v l pcn born g e
  rw [h]
  exact ⟨rfl, rfl, rfl, rfl, rfl⟩

theorem logLcn (v l : Nat) : SameWork e.st (logLcn v l e).st := by
  obtain ⟨vs, h⟩ := logLcn_frame v l e
  rw [h]
  exact ⟨rfl, rfl, rfl, rfl, rfl⟩

theorem applyCharges (sign : Int) (l : List (Nat × Int)) : SameWork e.st (applyCharges sign l e).st := by
  rw [applyCharges_frame]
  exact ⟨rfl, rfl, rfl, rfl, rfl⟩

end SameWork

theorem entry_mapEntry_ne (v pcn owner : Nat) {l k : Nat} (h : k ≠ l) :
    (((mapEntry v l pcn owner e).st.vol v).entry k).form = ((e.st.vol v).entry k).form := by
  unfold mapEntry
  rw [Event.vol_updVol, Volume.entry_setForm_ne _ _ h]

theorem entry_unmapEntry_ne (v : Nat) {l k : Nat} (h : k ≠ l) :
    (((unmapEntry v l e).st.vol v).entry k).form = ((e.st.vol v).entry k).form := by
  unfold unmapEntry
  rw [Event.vol_updVol, Volume.entry_setForm_ne _ _ h]

theorem entry_fileDisplaced (v l pcn born g k : Nat) :
    ((fileDisplaced v l pcn born g e).st.vol v).entry k = (e.st.vol v).entry k := by
  rw [Volume.entry, Volume.entry, map_fileDisplaced]

theorem entry_freePcns (v k : Nat) (ps : List Nat) : ((freePcns ps e).st.vol v).entry k = (e.st.vol v).entry k := by
  rw [freePcns_st]
  rfl

theorem Untouched.of_same {s t : State} (hw : SameWork s t) {v l : Nat} (h : Untouched m s v l) : Untouched m t v l := by
  unfold Untouched
  rw [hw.inflight]
  exact h

/-- The volume of a request in flight stands. -/
theorem Books.stands (h : Books a b m e.st) {x : Entry} (hx : x ∈ e.st.inflight) : (e.st.vol x.req.vol).state ≠ .absent :=
  (h.entry x hx).2.1

/-! ### The end of a request -/

/-- A request's reply and its place in the drains are nothing to the books. -/
theorem Books.finished {x : Entry} (code : Code) (blocks : Nat) (data : List Block)
    (h : Good a b m { e.st.ledger with
      inflight := e.st.inflight.filter fun y => y.arrival != x.arrival
      busy := e.st.busy.filter fun i => i.owner != .front x.arrival }) :
    Books a b m (finishEntry x code blocks data e).st := by
  have h1 : Books a b m (((Machine.emitFront (.front x.req.vol x.req.kind.value code x.req.tag blocks data) e).upd fun s =>
      { s with inflight := s.inflight.filter fun y => y.arrival != x.arrival }).upd fun s =>
      { s with busy := s.busy.filter fun i => i.owner != .front x.arrival }).st := by
    unfold Machine.emitFront
    split_ifs <;> exact h
  refine h1.plainVol x.req.vol (fun y => { y with drain := y.drain.map fun d =>
    { d with members := d.members.filter fun o => o != .front x.arrival } }) (fun _ => rfl) (fun _ => rfl) (fun _ => rfl)
    (fun _ => rfl) (fun y => works_of_drain ?_ rfl) (fun _ => rfl)
  cases y.drain <;> rfl

/-- A request ends with its mirror record. -/
theorem Books.finishEntry (h : Books a b m e.st) {x : Entry} (hx : x ∈ e.st.inflight)
    (hact : m.act = none ∨ m.act = some (.front x.arrival)) (hfin : m.fin = none ∨ m.fin = some x.arrival) (code : Code)
    (blocks : Nat) (data : List Block) :
    Books a b
      { m with
        act := none, fin := none, pcn := fun n => m.pcn n + x.claims.count n, claims := m.claims + x.claims.length,
        charge := fun o => m.charge o + netOf x.charges o }
      (finishEntry x code blocks data (eraseMirror x.arrival e)).st :=
  Books.finished (e := eraseMirror x.arrival e) code blocks data (Good.finish h hx hact hfin)

/-- A request that claims nothing ends. -/
theorem Books.finishPlain (h : Books a b m e.st) {x : Entry} (hx : x ∈ e.st.inflight) (hw : ¬ x.writes = true)
    (hact : m.act = none ∨ m.act = some (.front x.arrival)) (hfin : m.fin = none ∨ m.fin = some x.arrival) (code : Code)
    (blocks : Nat) (data : List Block) :
    Books a b { m with act := none, fin := none } (Machine.finishEntry x code blocks data e).st := by
  obtain ⟨-, -, hfit⟩ := h.entry x hx
  rw [if_neg hw] at hfit
  obtain ⟨hc, hch, -, hmirror⟩ := hfit
  refine Books.finished code blocks data ?_
  have h1 := Good.finish h hx hact hfin
  have hall : (e.st.mirror.filter fun r => r.arrival != x.arrival) = e.st.mirror := filter_all hmirror
  rw [hc, hch, show e.st.ledger.mirror = e.st.mirror from rfl, hall] at h1
  refine Good.adjust h1 rfl rfl rfl rfl (fun n => ?_) ?_ (fun o => ?_) fun _ => rfl
  · simp
  · simp
  · simp [netOf]

end Sys2Proof.Machine
end

section
/-! PROOFS. The books as a request's item has proceeded: its chunks are its own, so what it does to them moves no other
request's plan, and the accounts it takes from have what it takes (R30, R34, R35, R37, R51). -/

namespace Sys2Proof.Machine

variable {a b : Prop} {m : Mode} {e : Event}

/-! ### The chunks of an item that has proceeded -/

/-- No other request's plan names a chunk of a request that has proceeded. -/
theorem Books.ownChunks (h : Books a b m e.st) {x : Entry} (hx : x ∈ e.st.inflight)
    (hitem : ∃ i ∈ e.st.busy, i.owner = .front x.arrival) (hp : x.state = .active ∨ m.act = some (.front x.arrival))
    (hkind : x.req.kind ≠ .read) (hfin : m.fin = none ∨ m.fin = some x.arrival) {l : Nat}
    (hl : l ∈ busyChunks e.st.format.k x.req) {y : Entry} (hy : y ∈ e.st.inflight) (hyw : y.writes = true)
    (hv : y.req.vol = x.req.vol) (hne : y.arrival ≠ x.arrival) : ∀ q ∈ y.plan, q.lcn ≠ l := by
  obtain ⟨i, hi, ho⟩ := hitem
  obtain ⟨z, hz, hza, -, -, hi'⟩ := h.itemEntry hi ho
  obtain rfl : z = x := eq_of_key h.arrivals hz hx hza
  have hip : i.proceeded = true := by
    rw [hi']
    rcases hp with hp | hp <;> simp [hp]
  have hic : i.change = true := by
    rw [hi']
    simp [busyItemOf, hkind]
  refine Good.untouched (L := e.st.ledger) h hi hic (fun j hj hji hjp => Good.apart h hi hj (Ne.symm hji) hip hjp) ?_ hy hyw ?_ ?_ ?_
  · rw [hi']
    exact hl
  · rw [hi']
    exact hv
  · rw [ho]
    simpa using Ne.symm hne
  · rcases hfin with hfin | hfin
    · rw [hfin]
      simp
    · rw [hfin]
      simpa using Ne.symm hne

/-- A request that has proceeded, and whose own plan is not to be committed or is being committed, may change its
chunks. -/
theorem Books.untouched (h : Books a b m e.st) {x : Entry} (hx : x ∈ e.st.inflight)
    (hitem : ∃ i ∈ e.st.busy, i.owner = .front x.arrival) (hp : x.state = .active ∨ m.act = some (.front x.arrival))
    (hkind : x.req.kind ≠ .read) (hfin : m.fin = none ∧ ¬ x.writes = true ∨ m.fin = some x.arrival) {l : Nat}
    (hl : l ∈ busyChunks e.st.format.k x.req) : Untouched m e.st x.req.vol l := by
  intro y hy hyw hv hf
  have hne : y.arrival ≠ x.arrival := by
    intro hc
    obtain rfl : y = x := eq_of_key h.arrivals hy hx hc
    rcases hfin with hfin | hfin
    · exact hfin.2 hyw
    · exact hf hfin
  exact h.ownChunks hx hitem hp hkind (hfin.imp And.left id) hl hy hyw hv hne

/-! ### The commit of a WRITE (R34) -/

/-- A chunk commits: its claimed PCN takes the entry, and an S chunk's old PCN is filed. -/
theorem Books.commitChunk (h : Books a b m e.st) {v owner g : Nat} {p : ChunkPlan} (hu : Untouched m e.st v p.lcn)
    (hst : (e.st.vol v).state ≠ .absent) (hp : e.st.ctl.part ≠ .recovering) (hfit : p.Fits (e.st.vol v)) :
    Books a b
        { m with
          pcn := fun n => m.pcn n - if p.needsPcn = true ∧ p.claimed = some n then 1 else 0
          charge := fun o => m.charge o - p.netFor owner o } (commitChunk v owner g p e).st ∧
      SameWork e.st (commitChunk v owner g p e).st ∧
      ∀ l, l ≠ p.lcn → (((commitChunk v owner g p e).st.vol v).entry l).form = ((e.st.vol v).entry l).form := by
  unfold ChunkPlan.Fits at hfit
  have hmap : ∀ pcn, ∀ l, l ≠ p.lcn →
      (((Machine.mapEntry v p.lcn pcn owner e).st.vol v).entry l).form = ((e.st.vol v).entry l).form :=
    fun pcn l hl => entry_mapEntry_ne v pcn owner hl
  have hstand : ∀ pcn, ((Machine.mapEntry v p.lcn pcn owner e).st.vol v).state ≠ .absent := fun pcn => by
    unfold Machine.mapEntry
    rw [Event.vol_updVol]
    exact hst
  cases hc : p.cls with
  | inPlace =>
    have he : Machine.commitChunk v owner g p e = e := by
      rw [Machine.commitChunk, hc]
    rw [he]
    refine ⟨Good.adjust h rfl rfl rfl rfl (fun n => ?_) rfl (fun o => ?_) (fun _ => rfl), SameWork.rfl', fun _ _ => rfl⟩
    · simp [ChunkPlan.needsPcn, hc]
    · simp [ChunkPlan.netFor, hc]
  | unmapped =>
    rw [hc] at hfit
    cases hf : ((e.st.vol v).entry p.lcn).form with
    | mapped pc bn o =>
      rw [hf] at hfit
      exact hfit.elim
    | unmapped n =>
      rw [hf] at hfit
      obtain ⟨pcn, hpcn⟩ := Option.ne_none_iff_exists'.mp hfit
      have he : Machine.commitChunk v owner g p e = Machine.mapEntry v p.lcn pcn owner e := by
        rw [Machine.commitChunk, hc, hpcn]
      rw [he]
      refine ⟨Good.adjust (h.mapEntry (pcn := pcn) (owner := owner) hu hst hp) rfl rfl rfl rfl (fun n => ?_) rfl
        (fun o => ?_) (fun _ => rfl), SameWork.mapEntry .., hmap pcn⟩
      · simp [ChunkPlan.needsPcn, hc, hpcn, hf, Form.pcnIs]
      · simp [ChunkPlan.netFor, hc, hf, Form.chargedTo]
  | shared =>
    rw [hc] at hfit
    cases hf : ((e.st.vol v).entry p.lcn).form with
    | unmapped n =>
      rw [hf] at hfit
      exact hfit.elim
    | mapped pc bn o =>
      rw [hf] at hfit
      obtain ⟨hcl, hold⟩ := hfit
      obtain ⟨pcn, hpcn⟩ := Option.ne_none_iff_exists'.mp hcl
      have he : Machine.commitChunk v owner g p e =
          Machine.fileDisplaced v p.lcn pc bn g (Machine.mapEntry v p.lcn pcn owner e) := by
        rw [Machine.commitChunk, hc, hpcn, hold]
      rw [he]
      refine ⟨Good.adjust ((h.mapEntry (pcn := pcn) (owner := owner) hu hst hp).fileDisplaced p.lcn pc bn g (hstand pcn))
        rfl rfl rfl rfl (fun n => ?_) rfl (fun q => ?_) (fun _ => rfl),
        (SameWork.mapEntry ..).trans (SameWork.fileDisplaced ..), fun l hl => ?_⟩
      · simp only [ChunkPlan.needsPcn, hc, hpcn, hf, Form.pcnIs, Option.some.injEq]
        split_ifs <;> simp_all
      · simp only [ChunkPlan.netFor, hc, hold, hf, Form.chargedTo]
        split_ifs <;> push_cast <;> omega
      · rw [entry_fileDisplaced]
        exact hmap pcn l hl

/-- The chunks of a plan commit one after another. -/
theorem Books.commitChunks {x : Entry} {owner g : Nat} (plan : List ChunkPlan) (hn : (plan.map ChunkPlan.lcn).Nodup)
    (h : Books a b m e.st) (hx : x ∈ e.st.inflight) (hu : ∀ p ∈ plan, Untouched m e.st x.req.vol p.lcn)
    (hfit : ∀ p ∈ plan, p.Fits (e.st.vol x.req.vol)) :
    Books a b
        { m with
          pcn := fun n => m.pcn n - ((plan.filter ChunkPlan.needsPcn).filterMap ChunkPlan.claimed).count n
          charge := fun o => m.charge o - (plan.map (ChunkPlan.netFor owner o)).sum }
        (plan.foldl (fun e p => Machine.commitChunk x.req.vol owner g p e) e).st ∧
      SameWork e.st (plan.foldl (fun e p => Machine.commitChunk x.req.vol owner g p e) e).st := by
  induction plan generalizing m e with
  | nil => exact ⟨Good.adjust h rfl rfl rfl rfl (fun _ => by simp) rfl (fun _ => by simp) (fun _ => rfl), SameWork.rfl'⟩
  | cons p plan ih =>
    obtain ⟨hnot, hn⟩ := List.nodup_cons.mp hn
    obtain ⟨h1, hs, hother⟩ := h.commitChunk (owner := owner) (g := g) (hu p (List.mem_cons_self ..)) (h.stands hx)
      (Good.running h hx) (hfit p (List.mem_cons_self ..))
    obtain ⟨h2, hs'⟩ := ih hn h1 (hs.inflight ▸ hx)
      (fun q hq => (hu q (List.mem_cons_of_mem _ hq)).of_same hs) fun q hq => by
        have hq' := hfit q (List.mem_cons_of_mem _ hq)
        unfold ChunkPlan.Fits at hq' ⊢
        rwa [hother q.lcn fun hc => hnot (hc ▸ List.mem_map_of_mem hq)]
    refine ⟨Good.adjust h2 rfl rfl rfl rfl (fun n => ?_) rfl (fun o => ?_) (fun _ => rfl), hs.trans hs'⟩
    · cases hc : p.claimed with
      | none =>
        cases hp : p.needsPcn <;> simp [hc, hp]
      | some k =>
        cases hp : p.needsPcn
        · simp [hp]
        · simp only [List.filter_cons_of_pos hp, List.filterMap_cons, hc, List.count_cons, beq_iff_eq, Option.some.injEq,
            true_and]
          split_ifs <;> push_cast <;> omega
    · simp only [List.map_cons, List.sum_cons]
      omega

/-- The plan of a WRITE is about to be committed. -/
theorem Good.openPlan {L : Ledger} (h : Good a b m L) {n : Nat} (hfin : m.fin = none) :
    Good a b { m with fin := some n } L := by
  refine { h with entry := fun x hx => ?_, item := h.item }
  obtain ⟨h1, h2, h3⟩ := h.entry x hx
  refine ⟨h1, h2, ?_⟩
  split_ifs at h3 ⊢
  · exact ⟨fun _ => h3.1 (by rw [hfin]; simp), h3.2⟩
  · exact h3

theorem mem_busyChunks_write {k : Nat} {r : FrontReq} (hk : r.kind = .write) {l : Nat} (h : l ∈ span k r.start r.count) :
    l ∈ busyChunks k r := by
  rw [busyChunks, hk]
  exact h

/-- The claims of a request are among those counted. -/
theorem Books.claims_le (h : Books a b m e.st) {x : Entry} (hx : x ∈ e.st.inflight) (hm : m.claims = 0) (ha : a) :
    x.claims.length ≤ e.st.claims := by
  obtain ⟨-, -, hfit⟩ := h.entry x hx
  split_ifs at hfit
  · obtain ⟨-, r, hr, -, hrc, -⟩ := hfit
    have h1 : x.claims.length ≤ (e.st.mirror.map fun r => r.claims.length).sum := by
      rw [← hrc]
      exact List.single_le_sum (by simp) _ (List.mem_map.mpr ⟨r, hr, rfl⟩)
    have h2 : (e.st.claims : Int) = ((e.st.mirror.map fun r => r.claims.length).sum + totalOf Job.claims e.st.jobs +
      e.st.returns.length : Nat) + m.claims := h.count ha
    omega
  · rw [hfit.1]
    exact Nat.zero_le _

theorem Books.mem_inflight_logLcns {x : Entry} (hx : x ∈ e.st.inflight) (v : Nat) (ls : List Nat) :
    x ∈ (Machine.logLcns v ls e).st.inflight := by
  obtain ⟨vs, on, h, -⟩ := logLcns_frame v ls e
  rw [h]
  exact hx

/-- A WRITE commits. -/
theorem Books.commitWrite (h : Books a b {} e.st) {x : Entry} (hx : x ∈ e.st.inflight) (hw : x.writes = true) :
    Books a b {} (commitWrite x e).st := by
  obtain ⟨-, -, hfit⟩ := h.entry x hx
  rw [if_pos hw] at hfit
  obtain ⟨hn, hchunks, hclaims, hcharges⟩ := hfit.1 (by simp)
  have hst : x.state = .active ∧ x.req.kind = .write := by simpa [Entry.writes] using hw
  obtain ⟨i, hi, ho, -⟩ := Good.itemOfWrite h hx hw
  have h1 : Books a b { fin := some x.arrival } e.st := Good.openPlan h rfl
  obtain ⟨h2, hs⟩ := Books.commitChunks (owner := x.req.owner) (g := x.gen) x.plan hn h1 hx
    (fun p hp => h1.untouched hx ⟨i, hi, ho⟩ (.inl hst.1) (by simp [hst.2]) (.inr rfl)
      (mem_busyChunks_write hst.2 (hchunks p hp).1)) fun p hp => (hchunks p hp).2
  have hx2 := hs.inflight ▸ hx
  have h3 := (h2.commitClaims (fun ha => h2.claims_le hx2 rfl ha)).logLcns x.req.vol (x.plan.map ChunkPlan.lcn)
  refine Good.adjust (h3.finishEntry (Books.mem_inflight_logLcns (e := Machine.commitClaims _ _) hx2 _ _) (.inl rfl)
    (.inr rfl) .ok 0 []) rfl rfl rfl rfl (fun n => ?_) ?_ (fun o => ?_) (fun _ => rfl)
  · simp only [hclaims]
    omega
  · show (0 : Int) = 0 - x.claims.length + x.claims.length
    omega
  · simp only [hcharges, (writeCharges_spec _ _).2]
    omega

/-! ### What a request takes from its accounts -/

/-- The accounts have what the requests in flight, and entries that none of them names, are to release. -/
theorem Books.charge_ge (h : Books a b m e.st) (hb : b) (hrun : e.st.ctl.part ≠ .recovering) (hfin : m.fin = none)
    {o : Nat} (hm : m.charge o = 0) {K : List (Nat × Nat)} (hK : K.Nodup)
    (hfree : ∀ k ∈ K, ∀ x ∈ e.st.inflight, x.writes = true → x.req.vol = k.1 → ∀ q ∈ x.plan, q.lcn ≠ k.2)
    (hown : ∀ k ∈ K, ((e.st.vol k.1).entry k.2).form.chargedTo o = 1) :
    (K.length : Int) ≤ (e.st.acct o).charge := by
  have h1 := Good.releases_le h hfin hrun o hK hfree hown
  have h2 := pledged_ge e.st.ledger o
  have h3 : ((e.st.acct o).charge : Int) = (e.st.ledger.mapped o : Nat) + e.st.ledger.pledged o + (e.st.ledger.copies o : Nat) +
    m.charge o := h.charged hb o
  omega

/-- The charges of an accepted WRITE are there to be reversed (R54). -/
theorem Books.pledge_le (h : Books a b m e.st) (hb : b) (hfin : m.fin = none) {x : Entry} (hx : x ∈ e.st.inflight) {o : Nat}
    (hm : m.charge o = 0) : netOf x.charges o ≤ (e.st.acct o).charge := by
  have hrun := Good.running h hx
  have h1 := Good.releases_le h hfin hrun o List.nodup_nil (by simp) (by simp)
  have h3 : ((e.st.acct o).charge : Int) = (e.st.ledger.mapped o : Nat) + e.st.ledger.pledged o + (e.st.ledger.copies o : Nat) +
    m.charge o := h.charged hb o
  obtain ⟨-, -, hfit⟩ := h.entry x hx
  split_ifs at hfit
  · obtain ⟨-, r, hr, -, -, hrc⟩ := hfit
    have h2 := pledged_without hr o
    rw [MirrorRec.chargeOf_eq, hrc] at h2
    simp only [List.length_nil] at h1
    omega
  · rw [hfit.2.1]
    simp [netOf]

theorem Books.keys_nodup (h : Books a b m e.st) {x : Entry} (hx : x ∈ e.st.inflight) : (x.charges.map Prod.fst).Nodup := by
  obtain ⟨-, -, hfit⟩ := h.entry x hx
  split_ifs at hfit
  · obtain ⟨-, r, hr, -, -, hrc⟩ := hfit
    rw [← hrc]
    exact (h.record r hr).2.1
  · rw [hfit.2.1]
    exact List.nodup_nil

/-- A request fails: its claims go back and its charges are reversed (R37, R54). -/
theorem Books.requestFail (h : Books a b {} e.st) {x : Entry} (hx : x ∈ e.st.inflight) :
    Books a b {} (requestFail x e).st := by
  have h1 := h.returnClaims (ps := x.claims) fun ha => h.claims_le hx rfl ha
  have hst := returnClaims_st x.claims e
  have hx1 : x ∈ (Machine.returnClaims x.claims e).st.inflight := by
    rw [hst]
    exact hx
  have h2 := h1.applyCharges (sign := -1) (l := x.charges) (h.keys_nodup hx) fun hb o => by
    have := h.pledge_le hb rfl hx (o := o) rfl
    rw [hst]
    show 0 ≤ ((e.st.acct o).charge : Int) + -1 * netOf x.charges o
    omega
  have hx2 : x ∈ (Machine.applyCharges (-1) x.charges (Machine.returnClaims x.claims e)).st.inflight := by
    rw [(SameWork.applyCharges ..).inflight]
    exact hx1
  have h3 := h2.logLcns x.req.vol ((x.plan.filter fun p => p.cls == .inPlace && p.slotted).map ChunkPlan.lcn)
  refine Good.adjust (h3.finishEntry (Books.mem_inflight_logLcns hx2 _ _) (.inl rfl) (.inl rfl) .media 0 []) rfl rfl rfl rfl
    (fun n => ?_) ?_ (fun o => ?_) (fun _ => rfl)
  · show (0 : Int) = 0 - x.claims.count n + x.claims.count n
    omega
  · show (0 : Int) = 0 - x.claims.length + x.claims.length
    omega
  · show (0 : Int) = 0 + -1 * netOf x.charges o + netOf x.charges o
    omega

end Sys2Proof.Machine
end

section
/-! PROOFS. The books as a request is accepted or refused (R30, R31, R33, R35, R45). -/

namespace Sys2Proof.Machine

variable {a b : Prop} {m : Mode} {e : Event}

/-! ### A WRITE is accepted (R30) -/



theorem poolTest_le {s : State} {n : Nat} (h : poolTest s n = true) : n ≤ s.free.length := by
  simp only [poolTest, Bool.or_eq_true, beq_iff_eq, decide_eq_true_eq] at h
  rcases h with rfl | h
  · exact Nat.zero_le _
  · exact (Nat.le_add_left _ _).trans h

/-- A WRITE that waits claims nothing yet. -/
theorem not_writes_of_waiting {x : Entry} (h : x.state = .waiting) : ¬ x.writes = true := by
  simp [Entry.writes, h]

/-- The mode of an item that has proceeded and is not yet accepted. -/
abbrev Mode.proceeding (n : Nat) : Mode := { act := some (.front n) }

/-- A WRITE takes its plan: its claims and charges, its mirror record and its entry. -/
theorem Books.takePlan {x y : Entry} {r : MirrorRec} {n : Nat} (h : Books a b (.proceeding x.arrival) e.st)
    (hx : x ∈ e.st.inflight) (hst : x.state = .waiting) (hitem : ∃ i ∈ e.st.busy, i.owner = .front x.arrival)
    (hn : n ≤ e.st.free.length) (ha : y.arrival = x.arrival) (hreq : y.req = x.req) (hy : y.state = .active)
    (hkind : y.req.kind = .write) (hclaims : y.claims = (Machine.claimPcns n e).1)
    (hfits : y.PlanFits e.st.format.k (e.st.vol x.req.vol)) (hra : r.arrival = x.arrival) (hrv : r.vol = x.req.vol)
    (hrc : r.claims = y.claims) (hrch : r.charges = y.charges) :
    Books a b {} (setEntry y (addMirror r (Machine.applyCharges 1 y.charges (Machine.claimPcns n e).2))).st := by
  obtain ⟨hc1, hc2⟩ := claimPcns_st n e
  have hlen : y.claims.length = n := by
    rw [hclaims, hc1, List.length_take, Nat.min_eq_left hn]
  have hxw := not_writes_of_waiting hst
  have hkeys : (y.charges.map Prod.fst).Nodup := by
    rw [hfits.2.2.2]
    exact (writeCharges_spec _ _).1.nodup
  have h1 := h.claimPcns n
  have h2 := h1.applyCharges (sign := 1) hkeys fun hb o => by
    have hK := h.charge_ge hb (Good.running h hx) rfl (o := o) rfl (releases_nodup (o := o) hfits)
      (fun q hq z hz hzw hzv p hp => by
        obtain ⟨v, l⟩ := q
        obtain ⟨hv, hl, -⟩ := mem_releases hfits hq
        rw [hreq] at hv hl hkind
        refine h.ownChunks hx hitem (.inr rfl) (by simp [hkind]) (.inl rfl) (mem_busyChunks_write hkind hl) hz hzw
          (hzv.trans hv) (fun hc => ?_) p hp
        rw [eq_of_key h.arrivals hz hx hc] at hzw
        exact hxw hzw)
      (fun q hq => by
        obtain ⟨v, l⟩ := q
        obtain ⟨rfl, -, -, ho⟩ := mem_releases hfits hq
        rw [hreq]
        exact ho)
    have hge := releases_ge (o := o) hfits
    rw [hc2]
    show 0 ≤ ((e.st.acct o).charge : Int) + 1 * netOf y.charges o
    omega
  have hsame : SameWork e.st (Machine.applyCharges 1 y.charges (Machine.claimPcns n e).2).st := by
    refine SameWork.trans ?_ (SameWork.applyCharges ..)
    rw [hc2]
    exact ⟨rfl, rfl, rfl, rfl, rfl⟩
  have hvol : (Machine.applyCharges 1 y.charges (Machine.claimPcns n e).2).st.vol x.req.vol = e.st.vol x.req.vol := by
    rw [applyCharges_frame, hc2]
    rfl
  have hx2 := hsame.inflight ▸ hx
  have hitem2 := hsame.busy ▸ hitem
  refine Good.adjust (Good.activate (r := r) h2 hx2 rfl hst hitem2 ha hreq hy hkind ?_ hra hrv
    hrc hrch (hrch ▸ hkeys)) rfl rfl rfl rfl (fun q => ?_) ?_ (fun o => ?_) (fun _ => rfl)
  · show y.PlanFits (Machine.applyCharges 1 y.charges (Machine.claimPcns n e).2).st.format.k
      ((Machine.applyCharges 1 y.charges (Machine.claimPcns n e).2).st.vol x.req.vol)
    rw [hsame.format, hvol]
    exact hfits
  · show (0 : Int) = 0 + ((e.st.free.take n).count q : Nat) - (y.claims.count q : Nat)
    rw [hclaims, hc1]
    omega
  · show (0 : Int) = 0 + (n : Nat) - (y.claims.length : Nat)
    omega
  · show (0 : Int) = 0 + 1 * netOf y.charges o - netOf y.charges o
    omega

theorem Books.acceptWrite {x : Entry} (h : Books a b (.proceeding x.arrival) e.st) (hx : x ∈ e.st.inflight)
    (hst : x.state = .waiting) (hitem : ∃ i ∈ e.st.busy, i.owner = .front x.arrival) (hkind : x.req.kind = .write) :
    Books a b {} (acceptWrite x e).st := by
  have hrefuse : ∀ e' : Event, e'.st = e.st → ∀ code, Books a b {} (Machine.finishEntry x code 0 [] e').st :=
    fun e' he code => Books.finishPlain (m := .proceeding x.arrival) (by rw [he]; exact h) (by rw [he]; exact hx)
      (not_writes_of_waiting hst) (.inr rfl) (.inl rfl) code 0 []
  unfold Machine.acceptWrite
  dsimp only
  split
  · exact hrefuse e rfl .quota
  · exact hrefuse (e.touchReport x.req.owner) rfl .quota
  split_ifs with hpool
  swap
  · exact hrefuse e rfl .noSpace
  replace hpool := poolTest_le hpool
  refine Books.handOvers ?_ _
  refine Books.takePlan h hx hst hitem hpool ?_ ?_ ?_ ?_ ?_ ?_ ?_ ?_ ?_ ?_
  case refine_6 =>
    refine planned_fits (x := x) (g := (e.st.vol x.req.vol).sharingGen) (f := copyReads e.st.format.k x)
      (cs := (Machine.claimPcns (totalNew ((span e.st.format.k x.req.start x.req.count).map
        (planChunk (e.st.vol x.req.vol) (e.st.vol x.req.vol).sharingGen))) e).1) ?_ ?_ ?_ ?_ ?_
    · rw [(claimPcns_st _ e).1, List.length_take, Nat.min_eq_left hpool]
    all_goals rfl
  case refine_4 => exact hkind
  all_goals rfl

/-! ### A DISCARD is accepted and committed (R35, R45) -/

/-- A chunk is discarded. -/
theorem Books.discardChunk (h : Books a b m e.st) {v g c : Nat} (hu : Untouched m e.st v c)
    (hst : (e.st.vol v).state ≠ .absent) (hp : e.st.ctl.part ≠ .recovering) :
    Books a b { m with charge := fun o => m.charge o + ((e.st.vol v).entry c).form.chargedTo o } (discardChunk v g c e).st ∧
      SameWork e.st (discardChunk v g c e).st ∧
      ∀ l, l ≠ c → (((discardChunk v g c e).st.vol v).entry l).form = ((e.st.vol v).entry l).form := by
  unfold Machine.discardChunk
  cases hf : ((e.st.vol v).entry c).form with
  | unmapped n =>
    exact ⟨Good.adjust h rfl rfl rfl rfl (fun _ => rfl) rfl (fun o => by simp [Form.chargedTo]) (fun _ => rfl),
      SameWork.rfl', fun _ _ => rfl⟩
  | mapped pcn born o =>
    have hgo : ∀ e' : Event, Books a b { m with pcn := fun n => m.pcn n - if pcn = n then 1 else 0 } e'.st →
        SameWork e.st e'.st → (∀ l, (e'.st.vol v).entry l = (e.st.vol v).entry l) →
        Books a b { m with charge := fun q => m.charge q + (Form.mapped pcn born o).chargedTo q }
            (Machine.logLcn v c (Machine.unmapEntry v c e')).st ∧
          SameWork e.st (Machine.logLcn v c (Machine.unmapEntry v c e')).st ∧
          ∀ l, l ≠ c → (((Machine.logLcn v c (Machine.unmapEntry v c e')).st.vol v).entry l).form =
            ((e.st.vol v).entry l).form := by
      intro e' h' hs' hent
      refine ⟨Good.adjust ((h'.unmapEntry (hu.of_same hs') (by rw [hs'.ctl]; exact hp)).logLcn v c) rfl rfl rfl rfl
        (fun n => ?_) rfl (fun q => ?_) (fun _ => rfl), hs'.trans ((SameWork.unmapEntry ..).trans (SameWork.logLcn ..)),
        fun l hl => ?_⟩
      · simp only [hent, hf, Form.pcnIs]
        split_ifs <;> simp
      · simp only [hent, hf]
      · rw [form_logLcn, entry_unmapEntry_ne v hl, hent]
    dsimp only
    split_ifs with hg
    · refine hgo _ ?_ (SameWork.freePcns ..) fun l => entry_freePcns v l [pcn]
      exact Good.adjust (h.freePcns [pcn]) rfl rfl rfl rfl (fun n => by simp [List.count_singleton]) rfl (fun _ => rfl)
        (fun _ => rfl)
    · exact hgo _ (h.fileDisplaced c pcn born g hst) (SameWork.fileDisplaced ..) fun l => entry_fileDisplaced ..

/-- The chunks of a DISCARD go one after another. -/
theorem Books.discardChunks {x : Entry} {g : Nat} (cs : List Nat) (hn : cs.Nodup) (h : Books a b m e.st)
    (hx : x ∈ e.st.inflight) (hu : ∀ c ∈ cs, Untouched m e.st x.req.vol c) :
    Books a b
        { m with charge := fun o => m.charge o + ((cs.map fun c => ((e.st.vol x.req.vol).entry c).form.chargedTo o).sum : Nat) }
        (cs.foldl (fun e c => Machine.discardChunk x.req.vol g c e) e).st ∧
      SameWork e.st (cs.foldl (fun e c => Machine.discardChunk x.req.vol g c e) e).st := by
  induction cs generalizing m e with
  | nil => exact ⟨Good.adjust h rfl rfl rfl rfl (fun _ => rfl) rfl (fun _ => by simp) (fun _ => rfl), SameWork.rfl'⟩
  | cons c cs ih =>
    obtain ⟨hnot, hn⟩ := List.nodup_cons.mp hn
    obtain ⟨h1, hs, hother⟩ := h.discardChunk (g := g) (hu c (List.mem_cons_self ..)) (h.stands hx) (Good.running h hx)
    obtain ⟨h2, hs'⟩ := ih hn h1 (hs.inflight ▸ hx) fun q hq => (hu q (List.mem_cons_of_mem _ hq)).of_same hs
    refine ⟨Good.adjust h2 rfl rfl rfl rfl (fun _ => rfl) rfl (fun o => ?_) (fun _ => rfl), hs.trans hs'⟩
    have hmap : (cs.map fun c' => (((Machine.discardChunk x.req.vol g c e).st.vol x.req.vol).entry c').form.chargedTo o) =
        cs.map fun c' => ((e.st.vol x.req.vol).entry c').form.chargedTo o :=
      List.map_congr_left fun q hq => by rw [hother q fun hc => hnot (hc ▸ hq)]
    simp only [hmap, List.map_cons, List.sum_cons]
    push_cast
    omega

theorem fullChunks_nodup (k start count : Nat) : (fullChunks k start count).Nodup :=
  (List.nodup_range' ..).filter _

theorem Books.acceptDiscard {x : Entry} (h : Books a b (.proceeding x.arrival) e.st) (hx : x ∈ e.st.inflight)
    (hst : x.state = .waiting) (hitem : ∃ i ∈ e.st.busy, i.owner = .front x.arrival) (hkind : x.req.kind = .discard) :
    Books a b {} (acceptDiscard x e).st := by
  have hw := not_writes_of_waiting hst
  set X := e.st.vol x.req.vol with hX
  set cs := fullChunks e.st.format.k x.req.start x.req.count with hcs
  have hown : ∀ c ∈ cs, Untouched (.proceeding x.arrival) e.st x.req.vol c := fun c hc =>
    h.untouched hx hitem (.inr rfl) (by simp [hkind]) (.inl ⟨rfl, hw⟩) (by rw [busyChunks, hkind]; exact hc)
  obtain ⟨hrise, hnet⟩ := discardCharges_spec X cs
  have h1 := h.applyCharges (sign := 1) (l := discardCharges X cs) hrise.nodup fun hb o => by
    set K := (cs.filter fun c => (X.entry c).form.chargedTo o == 1).map fun c => (x.req.vol, c) with hK
    have hKn : K.Nodup := ((fullChunks_nodup ..).filter _).map fun _ _ hl => (Prod.mk.inj hl).2
    have hge := h.charge_ge hb (Good.running h hx) rfl (o := o) rfl hKn
      (fun q hq z hz hzw hzv p hp => by
        obtain ⟨c, hc, rfl⟩ := List.mem_map.mp hq
        exact hown c (List.mem_of_mem_filter hc) z hz hzw hzv (by simp) p hp)
      (fun q hq => by
        obtain ⟨c, hc, rfl⟩ := List.mem_map.mp hq
        simpa using (List.mem_filter.mp hc).2)
    have hlen : K.length = (cs.map fun c => (X.entry c).form.chargedTo o).sum := by
      rw [hK, List.length_map]
      clear hK hKn hge hnet hrise hown hcs
      induction cs with
      | nil => rfl
      | cons c cs ih =>
        rw [List.map_cons, List.sum_cons, ← ih]
        rcases Form.chargedTo_le o (X.entry c).form with hc | hc
        · rw [List.filter_cons_of_neg (by simp [hc]), hc, Nat.zero_add]
        · rw [List.filter_cons_of_pos (by simp [hc]), hc, List.length_cons, Nat.add_comm]
    have := hnet o
    omega
  have hs := SameWork.applyCharges (e := e) 1 (discardCharges X cs)
  have hvol : (Machine.applyCharges 1 (discardCharges X cs) e).st.vol x.req.vol = X := by
    rw [applyCharges_frame]
    rfl
  have hx1 := hs.inflight ▸ hx
  obtain ⟨h2, hs2⟩ := Books.discardChunks (x := x) (g := X.sharingGen) cs (fullChunks_nodup ..) h1 hx1
    fun c hc => (hown c hc).of_same hs
  refine Good.adjust (h2.finishPlain (hs2.inflight ▸ hx1) hw (.inr rfl) (.inl rfl) .ok 0 []) rfl rfl rfl rfl (fun _ => rfl) rfl
    (fun o => ?_) (fun _ => rfl)
  have := hnet o
  simp only [hvol]
  omega

/-! ### A READ is accepted (R31, R33, R36) -/

theorem Books.completeRead (h : Books a b m e.st) {x : Entry} (hx : x ∈ e.st.inflight) (hw : ¬ x.writes = true)
    (hact : m.act = none ∨ m.act = some (.front x.arrival)) (hfin : m.fin = none) :
    Books a b { m with act := none, fin := none } (completeRead x e).st := by
  unfold Machine.completeRead
  split_ifs
  · exact h.finishPlain hx hw hact (.inl hfin) ..
  · exact h.finishPlain hx hw hact (.inl hfin) ..

theorem Books.acceptRead {x : Entry} (h : Books a b (.proceeding x.arrival) e.st) (hx : x ∈ e.st.inflight)
    (hst : x.state = .waiting) (hkind : x.req.kind = .read) : Books a b {} (acceptRead x e).st := by
  unfold Machine.acceptRead
  dsimp only
  split_ifs with h1 h2
  · exact Books.finishPlain h hx (not_writes_of_waiting hst) (.inr rfl) (.inl rfl) ..
  all_goals
    set y : Entry := { x with
      state := .active, gen := ((x.req.view.bind fun slot => tfind (e.st.vol x.req.vol).snaps slot).map Snap.gen).getD 0
      left := _, data := _ } with hy
    have h3 : Books a b {} (setEntry y e).st :=
      Good.activateRead h hx rfl hst rfl rfl rfl (by simp [hy, hkind]) rfl rfl rfl
  · refine Books.completeRead h3 (x := y) ?_ (by simp [hy, Entry.writes, hkind]) (.inl rfl) rfl
    exact List.mem_map.mpr ⟨x, hx, by rw [if_pos rfl]⟩
  · exact Books.handOvers h3 _

/-! ### A request whose turn has come (R23) -/

theorem entryOf_some {s : State} {n : Nat} {x : Entry} (h : s.entryOf n = some x) : x ∈ s.inflight ∧ x.arrival = n :=
  ⟨List.mem_of_find?_eq_some h, by simpa using List.find?_some h⟩

theorem entryOf_none {s : State} {n : Nat} (h : s.entryOf n = none) : ∀ x ∈ s.inflight, x.arrival ≠ n := by
  intro x hx hc
  simpa [hc] using List.find?_eq_none.mp h x hx

theorem Books.acceptFront {n : Nat} (h : Books a b (.proceeding n) e.st) (hitem : ∃ i ∈ e.st.busy, i.owner = .front n) :
    Books a b {} (acceptFront n e).st := by
  obtain ⟨i, hi, ho⟩ := hitem
  obtain ⟨z, hz, hza, -, hwait, -⟩ := Good.itemEntry (L := e.st.ledger) h hi ho
  unfold Machine.acceptFront
  cases hf : e.st.entryOf n with
  | none => exact absurd hza (entryOf_none hf z hz)
  | some x =>
    obtain ⟨hx, rfl⟩ := entryOf_some hf
    obtain rfl : z = x := eq_of_key h.arrivals hz hx hza
    dsimp only
    split
    · exact Books.acceptWrite h hx (hwait rfl) ⟨i, hi, ho⟩ ‹_›
    · exact Books.acceptDiscard h hx (hwait rfl) ⟨i, hi, ho⟩ ‹_›
    · exact Books.acceptRead h hx (hwait rfl) ‹_›

end Sys2Proof.Machine
end

section
/-! PROOFS. The books under the shelf commands of front requests, the arrival of requests, the release of held ones and the test
of the busy set (R20 to R23, R27, R32, R36, R37). -/

namespace Sys2Proof.Machine

variable {a b : Prop} {m : Mode} {e : Event}

/-! ### A request's record moves on -/

theorem Books.setEntry (h : Books a b m e.st) {x y : Entry} (hx : x ∈ e.st.inflight) (hl : x.Like y) :
    Books a b m (setEntry y e).st := by
  refine Good.mapEntries (L := e.st.ledger) h (g := fun z => if z.arrival = y.arrival then y else z) fun z hz => ?_
  split_ifs with hc
  · obtain rfl : z = x := eq_of_key h.arrivals hz hx (hc.trans hl.arrival)
    exact hl
  · exact Entry.Like.refl z

theorem mem_setEntry {x y : Entry} (hx : x ∈ e.st.inflight) (ha : y.arrival = x.arrival) :
    y ∈ (Machine.setEntry y e).st.inflight := List.mem_map.mpr ⟨x, hx, by rw [if_pos ha.symm]⟩

/-- A plan of which only the data read and the marks of its commands change. -/
theorem Entry.Like.of_plan {x y : Entry} {f : ChunkPlan → ChunkPlan} (ha : y.arrival = x.arrival) (hr : y.req = x.req)
    (hs : y.state = x.state) (hc : y.claims = x.claims) (hch : y.charges = x.charges) (hp : y.plan = x.plan.map f)
    (hl : ∀ p, (f p).lcn = p.lcn) (hcls : ∀ p, (f p).cls = p.cls) (ho : ∀ p, (f p).old = p.old)
    (hcl : ∀ p, (f p).claimed = p.claimed) : x.Like y where
  arrival := ha
  req := hr
  state := hs
  claims := hc
  charges := hch
  bare := fun h => by rw [hp, h, List.map_nil]
  plan := fun k X h => by
    obtain ⟨h1, h2, h3, h4⟩ := h
    have hneeds : ∀ p, (f p).needsPcn = p.needsPcn := fun p => by rw [ChunkPlan.needsPcn, ChunkPlan.needsPcn, hcls]
    refine ⟨?_, fun q hq => ?_, ?_, ?_⟩
    · rw [hp, List.map_map]
      have : ChunkPlan.lcn ∘ f = ChunkPlan.lcn := funext hl
      rwa [this]
    · rw [hp] at hq
      obtain ⟨p, hpm, rfl⟩ := List.mem_map.mp hq
      obtain ⟨h5, h6⟩ := h2 p hpm
      rw [hl, hr]
      refine ⟨h5, ?_⟩
      unfold ChunkPlan.Fits at h6 ⊢
      rwa [hl, hcls, ho, hcl]
    · rw [hp, hc, ← h3, List.filter_map, List.filterMap_map]
      have e1 : ChunkPlan.needsPcn ∘ f = ChunkPlan.needsPcn := funext hneeds
      have e2 : ChunkPlan.claimed ∘ f = ChunkPlan.claimed := funext hcl
      rw [e1, e2]
    · rw [hch, h4, hr, hp, writeCharges, writeCharges, List.foldl_map]
      simp only [hcls, ho]

theorem takeData_like (x : Entry) (lcn : Nat) (why : Purpose) (first : Nat) (data : List Block) :
    x.Like (takeData x lcn why first data e).1 := by
  have hplan : x.Like { x with plan := x.plan.map fun p =>
      if p.lcn = lcn then { p with reads := p.reads - 1, copied := p.copied ++ [(first, data)] } else p } := by
    refine .of_plan (f := fun p => if p.lcn = lcn then { p with reads := p.reads - 1, copied := p.copied ++ [(first, data)] }
      else p) rfl rfl rfl rfl rfl rfl ?_ ?_ ?_ ?_ <;>
    · intro p
      split_ifs <;> rfl
  unfold takeData
  dsimp only
  split
  · exact ⟨rfl, rfl, rfl, rfl, rfl, fun _ _ => id, id⟩
  · split
    · split_ifs <;> exact hplan
    · exact hplan
  · exact Entry.Like.refl x
  · exact Entry.Like.refl x

theorem takeData_st (x : Entry) (lcn : Nat) (why : Purpose) (first : Nat) (data : List Block) :
    ∃ p, (takeData x lcn why first data e).2.st = { e.st with shelf := p } := by
  unfold takeData
  dsimp only
  split
  · exact ⟨_, rfl⟩
  · split
    · split_ifs <;> exact ⟨_, rfl⟩
    · exact ⟨_, rfl⟩
  · exact ⟨_, rfl⟩
  · exact ⟨_, rfl⟩

/-- A WRITE commits, or a request that claims nothing ends. -/
theorem Books.commitAny (h : Books a b {} e.st) {x : Entry} (hx : x ∈ e.st.inflight) :
    Books a b {} (Machine.commitWrite x e).st := by
  by_cases hw : x.writes = true
  · exact h.commitWrite hx hw
  · obtain ⟨-, -, hfit⟩ := h.entry x hx
    rw [if_neg hw] at hfit
    obtain ⟨hc, hch, hp, -⟩ := hfit
    unfold Machine.commitWrite
    rw [hc, hp]
    refine Good.adjust (Books.finishEntry (e := Machine.commitClaims 0 e) h hx (.inl rfl) (.inl rfl) .ok 0 []) rfl rfl rfl rfl
      (fun n => ?_) ?_ (fun o => ?_) (fun _ => rfl)
    · simp [hc]
    · simp [hc]
    · simp [hch, netOf]

/-- A request with no command left ends. -/
theorem Books.requestOver (h : Books a b {} e.st) {x : Entry} (hx : x ∈ e.st.inflight) :
    Books a b {} (requestOver x e).st := by
  unfold Machine.requestOver
  split_ifs
  · exact h.requestFail hx
  · split
    · exact h.completeRead hx (by simp [Entry.writes, *]) (.inl rfl) rfl
    · exact h.commitAny hx
    · exact h.finishPlain hx (by simp [Entry.writes, *]) (.inl rfl) (.inl rfl) ..
  · exact h

theorem Books.requestCmdEnd (h : Books a b {} e.st) (n lcn : Nat) (why : Purpose) (first : Nat)
    (data : Option (List Block)) : Books a b {} (requestCmdEnd n lcn why first data e).st := by
  unfold Machine.requestCmdEnd
  split
  · exact h
  · rename_i x hf
    obtain ⟨hx, -⟩ := entryOf_some hf
    have hleft : ∀ f l, x.Like { x with failed := f, left := l } := fun _ _ => ⟨rfl, rfl, rfl, rfl, rfl, fun _ _ => id, id⟩
    dsimp only
    split
    · rename_i d
      have hl := takeData_like (e := e) { x with left := x.left - 1 } lcn why first d
      obtain ⟨p, hp⟩ := takeData_st (e := e) { x with left := x.left - 1 } lcn why first d
      have hlike : x.Like (Machine.takeData { x with left := x.left - 1 } lcn why first d e).1 :=
        ⟨hl.arrival, hl.req, hl.state, hl.claims, hl.charges, hl.plan, hl.bare⟩
      have h1 : Books a b {} (Machine.takeData { x with left := x.left - 1 } lcn why first d e).2.st := by
        rw [hp]
        exact h
      have hx1 : x ∈ (Machine.takeData { x with left := x.left - 1 } lcn why first d e).2.st.inflight := by
        rw [hp]
        exact hx
      exact (h1.setEntry hx1 hlike).requestOver (mem_setEntry hx1 hlike.arrival)
    · exact Books.requestOver (e := (Machine.markFailed { x with left := x.left - 1 } e).2)
        (Books.setEntry (e := Machine.withdrawCmds (ofRequest x.arrival) e) h hx (hleft _ _)) (mem_setEntry hx rfl)

/-! ### Requests enter and proceed -/

/-- The entry that a request takes when it arrives. -/
def newEntry (n : Nat) (r : FrontReq) (data : List Block) (st : EntryState) : Entry :=
  { arrival := n, req := r, state := st, gen := 0, plan := [], claims := [], charges := [], left := 0, failed := false
    data := data }

theorem Books.admitRequest (h : Books a b {} e.st) {r : FrontReq} (data : List Block)
    (hst : (e.st.vol r.vol).state ≠ .absent) (hrun : e.st.ctl.part ≠ .recovering) :
    Books a b {} (admitRequest r data e).st := by
  cases hheld : r.kind != .read && (e.st.vol r.vol).drain.isSome with
  | true =>
    have h1 := Good.admitEntry (L := e.st.ledger) h (x := newEntry e.st.nextArrival r data .held) rfl (by simp [newEntry]) hst
      rfl rfl rfl hrun
    have h2 := Good.holdEntry h1 (v := r.vol) (Nat.lt_succ_self e.st.nextArrival) fun x hx hxa => by
      rcases List.mem_append.mp hx with hx | hx
      · have hlt : x.arrival < e.st.nextArrival := (h.entry x hx).1
        omega
      · rw [List.mem_singleton.mp hx]
        rfl
    simp only [Machine.admitRequest, hheld, if_true]
    exact h2
  | false =>
    have h1 := Good.admitWaiting (L := e.st.ledger) h (x := newEntry e.st.nextArrival r data .waiting) rfl rfl hst rfl rfl rfl
      hrun rfl
    simp only [Machine.admitRequest, hheld]
    exact h1

theorem admission_none {s : State} {kind : FrontKind} {vol view start count len : Nat}
    (h : admission s kind vol view start count len = none) :
    (s.vol vol).state ≠ .absent ∧ s.ctl.part ≠ .recovering := by
  unfold admission at h
  dsimp only at h
  split_ifs at h with h1 h2 h3 h4
  all_goals
    refine ⟨fun hc => ?_, fun hc => ?_⟩
    · simp [Volume.usable, hc] at h4
    · simp [hc] at h2

theorem Books.frontArrive (h : Books a b {} e.st) (kind : FrontKind) (tag vol view start count owner len : Nat)
    (data : List Block) : Books a b {} (frontArrive kind tag vol view start count owner len data e).st := by
  unfold Machine.frontArrive
  split
  · exact h
  · split
    · exact Books.emitFront h _
    · rename_i hadm
      obtain ⟨h1, h2⟩ := admission_none hadm
      exact h.admitRequest data h1 h2

theorem Books.releaseHeld (h : Books a b m e.st) {n : Nat} (hact : m.act = none)
    (hheld : ∀ x ∈ e.st.inflight, x.arrival = n → x.state = .held) : Books a b m (releaseHeld n e).st := by
  unfold Machine.releaseHeld
  split
  · exact h
  · rename_i x hf
    obtain ⟨hx, rfl⟩ := entryOf_some hf
    exact Good.release (L := e.st.ledger) h hx (hheld x hx rfl) rfl hact

end Sys2Proof.Machine
end

section
/-! PROOFS. The books under the end of restore jobs and the pauses of their visits (R111 to R117). -/

namespace Sys2Proof.Machine

variable {a b : Prop} {m : Mode} {e : Event} {j : Nat} {x : Job}

/-! ### The jobs under other operations -/

namespace SameWork

theorem commitClaims (n : Nat) : SameWork e.st (commitClaims n e).st := ⟨rfl, rfl, rfl, rfl, rfl⟩

theorem returnClaims (ps : List Nat) : SameWork e.st (returnClaims ps e).st := by
  rw [returnClaims_st]
  exact ⟨rfl, rfl, rfl, rfl, rfl⟩

theorem claimPcns (n : Nat) : SameWork e.st (claimPcns n e).2.st := by
  rw [(claimPcns_st n e).2]
  exact ⟨rfl, rfl, rfl, rfl, rfl⟩

theorem releaseChunks (o n : Nat) : SameWork e.st (releaseChunks o n e).st := by
  unfold Machine.releaseChunks
  split_ifs
  · exact rfl'
  · rw [Event.touchAcct_st]
    exact ⟨rfl, rfl, rfl, rfl, rfl⟩

theorem transferChunk (o : Nat) : SameWork e.st (transferChunk o e).st := by
  unfold Machine.transferChunk
  rw [Event.touchAcct_st]
  exact ⟨rfl, rfl, rfl, rfl, rfl⟩

theorem pinSnap (v slot : Nat) (up : Bool) : SameWork e.st (pinSnap v slot up e).st := by
  unfold Machine.pinSnap
  split <;> exact ⟨rfl, rfl, rfl, rfl, rfl⟩

end SameWork

theorem leaveBusy_jobs (o : BusyOwner) (v : Nat) : (leaveBusy o v e).st.jobs = e.st.jobs := rfl

theorem leaveBusy_part (o : BusyOwner) (v : Nat) : (leaveBusy o v e).st.ctl = e.st.ctl := rfl

theorem leaveBusy_free (o : BusyOwner) (v : Nat) : ∀ i ∈ (leaveBusy o v e).st.busy, i.owner ≠ o := by
  intro i hi
  simpa using (List.mem_filter.mp hi).2

/-! ### A job's record -/

theorem Books.updJob (h : Books a b m e.st) (hf : tfind e.st.jobs j = some x) {f : Job → Job} {p ch r : Nat → Int} {c : Int}
    (hsane : (f x).Sane) (hdst : (f x).state.ended = false → (e.st.vol (f x).dstVol).state ≠ .absent)
    (hitem : m.act = some (.restore j) ∨ ∀ i ∈ e.st.busy, i.owner ≠ .restore j)
    (hasked : ∀ v q, .holding q ∈ e.st.ledger.asking m v → q.asker = .restore j →
      (f x).state = .starting ∧ (f x).dstVol = v)
    (hidle : e.st.ctl.part = .recovering → (f x).waiting = false ∧ (f x).state.ended = true)
    (hp : a → ∀ n, p n + (f x).holds n = m.pcn n + x.holds n) (hc : a → c + (f x).claims = m.claims + x.claims)
    (hch : b → ∀ o, ch o + (f x).copiesFor o = m.charge o + x.copiesFor o)
    (hr : b → e.st.ctl.part ≠ .recovering → ∀ o, r o + (f x).reservesFor o = m.res o + x.reservesFor o) :
    Books a b { m with pcn := p, claims := c, charge := ch, res := r } (e.updJob j f).st := by
  unfold Event.updJob
  rw [hf]
  refine Good.putJob (L := e.st.ledger) h hf hsane hdst (fun i hi ho => ?_) hasked
    (fun hrec => ⟨(hidle hrec).1, fun _ => (hidle hrec).2⟩) hp hc hch hr
  unfold BusyItem.Fits
  rw [ho]
  rcases hitem with hitem | hitem
  · exact .inl hitem
  · exact absurd ho (hitem i hi)

theorem updJob_find (hf : tfind e.st.jobs j = some x) (f : Job → Job) : tfind (e.updJob j f).st.jobs j = some (f x) := by
  unfold Event.updJob
  rw [hf]
  exact tfind_tput_same ..

theorem updJob_other (f : Job → Job) : (e.updJob j f).st.busy = e.st.busy ∧ (e.updJob j f).st.ctl = e.st.ctl ∧
    (e.updJob j f).st.inflight = e.st.inflight ∧ (e.updJob j f).st.vols = e.st.vols ∧
    (e.updJob j f).st.format = e.st.format := by
  unfold Event.updJob
  split <;> exact ⟨rfl, rfl, rfl, rfl, rfl⟩

theorem Books.job (h : Books a b m e.st) (hf : tfind e.st.jobs j = some x) : x.Sane := (Good.job h _ (mem_of_tfind hf)).1

theorem Books.jobStands (h : Books a b m e.st) (hf : tfind e.st.jobs j = some x) (he : x.state.ended = false) :
    (e.st.vol x.dstVol).state ≠ .absent := (Good.job h _ (mem_of_tfind hf)).2 he

/-- No create of a job that is not STARTING waits. -/
theorem Books.not_asked (h : Books a b m e.st) (hf : tfind e.st.jobs j = some x) (hs : x.state ≠ .starting) :
    ∀ v q, .holding q ∈ e.st.ledger.asking m v → q.asker ≠ .restore j := by
  intro v q hq hc
  obtain ⟨y, hy, hst, -⟩ := h.asked v q j hq hc
  obtain rfl : x = y := Option.some.inj (hf.symm.trans hy)
  exact hs hst

/-- With the control unit's slot free of drains, no job's create waits. -/
theorem Books.free_not_asked (h : Books a b m e.st) (hm : m.free = true) :
    ∀ v q, .holding q ∈ e.st.ledger.asking m v → q.asker ≠ .restore j := by
  intro v q hq hc
  have h0 := h.slot (.inl hm) v
  unfold Ledger.asks at h0
  rw [List.sum_eq_zero_iff] at h0
  have := h0 _ (List.mem_map_of_mem hq)
  simp [DrainWork.controlAsks, hc] at this

/-- The item of a job is the mark of its visit. -/
theorem Books.itemVisits (h : Books a b m e.st) (hact : m.act = none) (hf : tfind e.st.jobs j = some x) {i : BusyItem}
    (hi : i ∈ e.st.busy) (ho : i.owner = .restore j) : x.visiting = true := by
  have hi' := h.item i hi
  unfold BusyItem.Fits at hi'
  rw [ho] at hi'
  rcases hi' with hi' | ⟨y, hy, -, -, hrest⟩
  · rw [hact] at hi'
    cases hi'
  · obtain rfl : x = y := Option.some.inj (hf.symm.trans hy)
    unfold Job.visiting
    split_ifs at hrest
    · cases hc : x.copy with
      | none => simp [hc] at hrest
      | some c => simp
    · simp [hrest.1]

/-- The remaining reservation of a job is reserved for its owner. -/
theorem Books.remaining_le (h : Books a b m e.st) (hb : b) (hf : tfind e.st.jobs j = some x)
    (hp : e.st.ctl.part ≠ .recovering) (hm : m.res x.owner = 0) : x.remaining ≤ (e.st.acct x.owner).reserved := by
  have h1 := h.reserved hb x.owner
  rw [if_neg (show e.st.ledger.part ≠ .recovering from hp), hm, add_zero] at h1
  have h2 : x.reservesFor x.owner ≤ e.st.ledger.remaining x.owner := le_totalOf hf
  have h1' : ((e.st.acct x.owner).reserved : Int) = (e.st.ledger.remaining x.owner : Nat) := h1
  cases he : x.state.ended with
  | true =>
    rw [(h.job hf).settled he]
    exact Nat.zero_le _
  | false =>
    simp only [Job.reservesFor, he, Bool.not_false, Bool.true_and, beq_self_eq_true, if_true] at h2
    omega

/-- The item of a job leaves the busy set. -/
theorem Books.leaveRestore (h : Books a b m e.st) (v : Nat) (hact : m.act = none ∨ m.act = some (.restore j)) :
    Books a b { m with act := none } (leaveBusy (.restore j) v e).st := by
  have h1 : Books a b { m with act := none } (e.upd fun s => { s with busy := s.busy.filter fun i => i.owner != .restore j }).st :=
    Good.leaveRestore (L := e.st.ledger) h hact
  refine h1.plainVol v (fun y => { y with drain := y.drain.map fun d =>
    { d with members := d.members.filter fun o => o != .restore j } }) (fun _ => rfl) (fun _ => rfl) (fun _ => rfl)
    (fun _ => rfl) (fun y => works_of_drain ?_ rfl) (fun _ => rfl)
  cases y.drain <;> rfl

/-! ### The end of a job (R115 to R117) -/

theorem Job.sane_endedAs {s : JobState} (hs : s.ended = true) : (x.endedAs s).Sane where
  visits := by simp [Job.endedAs, Job.visiting]
  waits := by simp [Job.endedAs]
  settled := fun _ => rfl
  counts := fun he => absurd (hs.symm.trans he) (by simp)
  place := fun he => absurd (hs.symm.trans he) (by simp)
  left := fun he => absurd (hs.symm.trans he) (by simp)

theorem Job.reservesFor_endedAs {s : JobState} (hs : s.ended = true) (o : Nat) : (x.endedAs s).reservesFor o = 0 := by
  have : (x.endedAs s).state.ended = true := hs
  simp [Job.reservesFor, this]

theorem Job.reservesFor_of_sane (hx : x.Sane) (o : Nat) : x.reservesFor o = if x.owner = o then x.remaining else 0 := by
  unfold Job.reservesFor
  cases hend : x.state.ended with
  | true => simp [hx.settled hend]
  | false => simp

/-- The end of a job is its reservation's release and a change of its record, with pins that come off. -/
theorem endJob_steps (hf : tfind e.st.jobs j = some x) (s : JobState) :
    ∃ e' : Event, (endJob j s e).st = (e'.updJob j fun _ => x.endedAs s).st ∧
      (∀ {a b : Prop} {m : Mode}, Books a b m (releaseChunks x.owner x.remaining e).st → Books a b m e'.st) ∧
      SameWork e.st e'.st := by
  have hpins : SameWork e.st (pinSnap x.srcVol x.srcSlot false (releaseChunks x.owner x.remaining e)).st :=
    (SameWork.releaseChunks ..).trans (SameWork.pinSnap ..)
  unfold endJob
  rw [hf]
  dsimp only
  refine ⟨_, rfl, fun h => ?_, ?_⟩
  · split
    · exact (h.pinSnap ..).pinSnap ..
    · exact h.pinSnap ..
  · split
    · exact hpins.trans (SameWork.pinSnap ..)
    · exact hpins

/-- No create of a job waits that is not STARTING, or that a control request ends. -/
theorem Books.not_asks (h : Books a b m e.st) (hf : tfind e.st.jobs j = some x) (hs : x.state ≠ .starting ∨ m.free = true) :
    ∀ v q, .holding q ∈ e.st.ledger.asking m v → q.asker ≠ .restore j :=
  hs.elim (h.not_asked hf) h.free_not_asked

/-- A job ends: its reservation and what its copy has claimed go with it. -/
theorem Books.endJob (h : Books a b m e.st) (hf : tfind e.st.jobs j = some x) {s : JobState} (hs : s.ended = true)
    (hbusy : ∀ i ∈ e.st.busy, i.owner ≠ .restore j) (hask : x.state ≠ .starting ∨ m.free = true)
    (hm : b → m.res x.owner = 0) :
    Books a b
      { m with
        pcn := fun n => m.pcn n + x.holds n, claims := m.claims + x.claims, charge := fun o => m.charge o + x.copiesFor o }
      (endJob j s e).st := by
  obtain ⟨e', he, hkeep, hsame⟩ := endJob_steps hf s
  rw [he]
  have h1 := hkeep (h.releaseChunks (o := x.owner) (n := x.remaining) fun hb hp => h.remaining_le hb hf hp (hm hb))
  have hf' : tfind e'.st.jobs j = some x := by
    rw [hsame.jobs]
    exact hf
  refine Good.adjust (h1.updJob (f := fun _ => x.endedAs s) (p := fun n => m.pcn n + x.holds n) (c := m.claims + x.claims)
    (ch := fun o => m.charge o + x.copiesFor o) (r := m.res) hf' (Job.sane_endedAs hs) (fun hc => ?_) (.inr ?_)
    (fun v q hq hc => absurd hc (h1.not_asks hf' hask v q hq)) (fun _ => ⟨rfl, hs⟩) (fun _ n => ?_) (fun _ => ?_) (fun _ o => ?_)
    (fun _ _ o => ?_)) rfl rfl rfl rfl (fun _ => rfl) rfl (fun _ => rfl) (fun _ => rfl)
  · have : s.ended = false := hc
    rw [hs] at this
    cases this
  · rw [hsame.busy]
    exact hbusy
  · simp [Job.endedAs, Job.holds]
  · simp [Job.endedAs, Job.claims]
  · simp [Job.endedAs, Job.copiesFor]
  · rw [Job.reservesFor_endedAs hs, Job.reservesFor_of_sane (h.job hf)]
    dsimp only
    split_ifs <;> omega

/-- A PCN waits for the end of an abandoned write (R116). -/
theorem Books.addReturn (h : Books a b m e.st) (n : Nat) (hrun : e.st.ctl.part ≠ .recovering) :
    Books a b { m with pcn := fun k => m.pcn k - if n = k then 1 else 0, claims := m.claims - 1 }
      (e.upd fun s => { s with returns := s.returns ++ [n] }).st := by
  refine Good.setReturns (L := e.st.ledger) h (rs := e.st.returns ++ [n]) (fun _ k => ?_) (fun _ => ?_)
    fun hr => absurd hr hrun
  · rw [List.count_append, List.count_singleton]
    show ((e.st.returns.count k + _ : Nat) : Int) + _ = e.st.returns.count k + m.pcn k
    simp only [beq_iff_eq]
    split_ifs <;> push_cast <;> omega
  · rw [List.length_append, List.length_singleton]
    show ((e.st.returns.length + 1 : Nat) : Int) + _ = e.st.returns.length + m.claims
    omega

theorem Books.returnOne (h : Books a b m e.st) (n : Nat) (hc : a → 1 ≤ e.st.claims) :
    Books a b { m with pcn := fun k => m.pcn k - if n = k then 1 else 0, claims := m.claims - 1 }
      (Machine.returnClaims [n] e).st :=
  Good.adjust (h.returnClaims (ps := [n]) hc) rfl rfl rfl rfl
    (fun k => by simp [List.count_singleton]) rfl (fun _ => rfl) (fun _ => rfl)

/-- A copy is abandoned: its charge and its claimed PCN are given up (R116, R117). -/
theorem Books.abandonCopy (h : Books a b m e.st) (hf : tfind e.st.jobs j = some x) {c : Copy} (hc : x.copy = some c)
    (hact : m.act = none) (hfin : m.fin = none) (hrun : e.st.ctl.part ≠ .recovering) (hmc : m.claims = 0)
    (hmch : m.charge x.owner = 0) :
    Books a b
      { m with
        pcn := fun n => m.pcn n - x.holds n, claims := m.claims - x.claims, charge := fun o => m.charge o - x.copiesFor o }
      (abandonCopy j x c e).st := by
  have hholds : ∀ n, x.holds n = if c.pcn = n then 1 else 0 := fun n => by simp [Job.holds, hc]
  have hcl : x.claims = 1 := by simp [Job.claims, hc]
  have hcf : ∀ o, x.copiesFor o = if x.owner = o then 1 else 0 := fun o => by simp [Job.copiesFor, hc]
  have h1 : Books a b m (Machine.leaveBusy (.restore j) x.dstVol e).st :=
    Good.adjust (h.leaveRestore x.dstVol (.inl hact)) rfl hact rfl rfl (fun _ => rfl) rfl (fun _ => rfl) (fun _ => rfl)
  have hcharge : b → 1 ≤ (e.st.acct x.owner).charge := fun hb => by
    have h2 := Good.releases_le h hfin hrun x.owner List.nodup_nil (by simp) (by simp)
    have h3 := pledged_ge e.st.ledger x.owner
    have h4 : ((e.st.acct x.owner).charge : Int) = (e.st.ledger.mapped x.owner : Nat) + e.st.ledger.pledged x.owner +
      (e.st.ledger.copies x.owner : Nat) + m.charge x.owner := h.charged hb x.owner
    have h5 : x.copiesFor x.owner ≤ e.st.ledger.copies x.owner := le_totalOf hf
    rw [hcf, if_pos rfl] at h5
    simp only [List.length_nil] at h2
    omega
  have hclaims : a → 1 ≤ e.st.claims := fun ha => by
    have h2 : (e.st.claims : Int) = ((e.st.mirror.map fun r => r.claims.length).sum + totalOf Job.claims e.st.jobs +
      e.st.returns.length : Nat) + m.claims := h.count ha
    have h3 : x.claims ≤ totalOf Job.claims e.st.jobs := le_totalOf hf
    omega
  have h2 := h1.uncharge (o := x.owner) hcharge
  have hs := SameWork.applyCharges (e := Machine.leaveBusy (.restore j) x.dstVol e) 1 [(x.owner, -1)]
  have hclaims2 : (Machine.uncharge x.owner (Machine.leaveBusy (.restore j) x.dstVol e)).st.claims = e.st.claims := by
    unfold Machine.uncharge
    rw [applyCharges_frame]
    rfl
  unfold Machine.abandonCopy
  dsimp only
  split_ifs
  · refine Good.adjust (Books.addReturn (e := Machine.withdrawCmds (ofJob j)
      (Machine.uncharge x.owner (Machine.leaveBusy (.restore j) x.dstVol e))) h2 c.pcn ?_) rfl rfl rfl rfl (fun n => ?_) ?_
      (fun o => ?_) (fun _ => rfl)
    · show (Machine.uncharge x.owner (Machine.leaveBusy (.restore j) x.dstVol e)).st.ctl.part ≠ _
      unfold Machine.uncharge
      rw [hs.ctl]
      exact hrun
    · simp [hholds]
    · simp [hcl]
    · simp [hcf]
  · refine Good.adjust (Books.returnOne (e := Machine.reownSlots (ofJob j) .dropped (Machine.withdrawCmds (ofJob j)
      (Machine.uncharge x.owner (Machine.leaveBusy (.restore j) x.dstVol e)))) h2 c.pcn fun ha => ?_) rfl rfl rfl rfl
      (fun n => ?_) ?_ (fun o => ?_) (fun _ => rfl)
    · show 1 ≤ (Machine.uncharge x.owner (Machine.leaveBusy (.restore j) x.dstVol e)).st.claims
      rw [hclaims2]
      exact hclaims ha
    · simp [hholds]
    · simp [hcl]
    · simp [hcf]

/-- What an abandoned copy leaves of the jobs. -/
theorem abandonCopy_jobs (c : Copy) : (abandonCopy j x c e).st.jobs = e.st.jobs ∧
    (∀ i ∈ (abandonCopy j x c e).st.busy, i.owner ≠ .restore j) ∧ (abandonCopy j x c e).st.ctl = e.st.ctl := by
  have hs : SameWork (Machine.leaveBusy (.restore j) x.dstVol e).st
      (Machine.uncharge x.owner (Machine.leaveBusy (.restore j) x.dstVol e)).st := SameWork.applyCharges ..
  unfold abandonCopy
  dsimp only
  generalize Machine.uncharge x.owner (Machine.leaveBusy (.restore j) x.dstVol e) = u at hs ⊢
  have hfree : ∀ i ∈ u.st.busy, i.owner ≠ .restore j := fun i hi =>
    leaveBusy_free (e := e) (.restore j) x.dstVol i (hs.busy ▸ hi)
  split_ifs
  · exact ⟨hs.jobs, hfree, hs.ctl⟩
  · have hs' := SameWork.returnClaims (e := Machine.reownSlots (ofJob j) .dropped (Machine.withdrawCmds (ofJob j) u)) [c.pcn]
    exact ⟨hs'.jobs.trans hs.jobs, fun i hi => hfree i (hs'.busy ▸ hi), hs'.ctl.trans hs.ctl⟩

/-- Books that balance, with no operation half done but for the control request that executes. -/
abbrev Mode.calm (f : Bool) : Mode := { free := f }

/-- A job is aborted (R116). -/
theorem Books.abortJob {f : Bool} (h : Books a b (.calm f) e.st) (hf : tfind e.st.jobs j = some x)
    (hrun : e.st.ctl.part ≠ .recovering) (hask : x.state ≠ .starting ∨ f = true) :
    Books a b (.calm f) (abortJob j e).st := by
  have hsane := h.job hf
  unfold Machine.abortJob
  rw [hf]
  dsimp only
  cases hc : x.copy with
  | some c =>
    have hw : x.waiting = false := by
      cases hw : x.waiting with
      | false => rfl
      | true =>
        rw [hsane.waits hw] at hc
        cases hc
    simp only [hw, Bool.false_eq_true, if_false]
    have h1 := h.abandonCopy hf hc rfl rfl hrun rfl rfl
    obtain ⟨hj, hb, -⟩ := abandonCopy_jobs (e := e) (j := j) (x := x) c
    refine Good.adjust (h1.endJob (x := x) (by rw [hj]; exact hf) (s := .aborted) rfl hb hask (fun _ => rfl)) rfl rfl rfl rfl
      (fun n => ?_) ?_ (fun o => ?_) (fun _ => rfl)
    · show (0 : Int) = 0 - x.holds n + x.holds n
      omega
    · show (0 : Int) = 0 - x.claims + x.claims
      omega
    · show (0 : Int) = 0 - x.copiesFor o + x.copiesFor o
      omega
  | none =>
    have hzero : x.claims = 0 ∧ (∀ n, x.holds n = 0) ∧ ∀ o, x.copiesFor o = 0 := by
      simp [Job.claims, Job.holds, Job.copiesFor, hc]
    have hend : ∀ e' : Event, Books a b (.calm f) e'.st → e'.st.jobs = e.st.jobs →
        (∀ i ∈ e'.st.busy, i.owner ≠ .restore j) → Books a b (.calm f) (Machine.endJob j .aborted e').st := by
      intro e' h' hj hb
      refine Good.adjust (h'.endJob (x := x) (by rw [hj]; exact hf) (s := .aborted) rfl hb hask (fun _ => rfl)) rfl rfl rfl rfl
        (fun n => ?_) ?_ (fun o => ?_) (fun _ => rfl)
      · simp [hzero]
      · simp [hzero]
      · simp [hzero]
    dsimp only
    split_ifs with hw
    · exact hend _ (h.leaveRestore x.dstVol (.inl rfl)) rfl fun i hi => leaveBusy_free _ _ i hi
    · refine hend e h rfl fun i hi ho => ?_
      have := h.itemVisits rfl hf hi ho
      simp [Job.visiting, hw, hc] at this

/-- A command of a copy ends in error (R117). -/
theorem Books.failJob (h : Books a b {} e.st) (pcn : Nat) (hrun : e.st.ctl.part ≠ .recovering) :
    Books a b {} (failJob j pcn e).st := by
  unfold Machine.failJob
  split
  · exact h
  · rename_i x hf
    split
    · exact h
    · rename_i c hc
      have hstate : x.state = .running := (h.job hf).visits (by simp [Job.visiting, hc])
      have h1 := h.abandonCopy hf hc rfl rfl hrun rfl rfl
      obtain ⟨hj, hb, hctl⟩ := abandonCopy_jobs (e := e) (j := j) (x := x) c
      have hf1 : tfind (Machine.abandonCopy j x c e).st.jobs j = some x := by
        rw [hj]
        exact hf
      have h2 := h1.likeJob j (fun y => { y with failedPcn := some pcn }) fun y _ =>
        ⟨⟨rfl, rfl, rfl, rfl, rfl, rfl, rfl, rfl, rfl, fun _ => id⟩, ne_or_eq _ _⟩
      have hf2 := updJob_find hf1 fun y => { y with failedPcn := some pcn }
      refine Good.adjust (h2.endJob hf2 (s := .failedShelf) rfl ?_ (.inl ?_) (fun _ => rfl)) rfl rfl rfl rfl
        (fun n => ?_) ?_ (fun o => ?_) (fun _ => rfl)
      · rw [(updJob_other _).1]
        exact hb
      · simp [hstate]
      · show (0 : Int) = 0 - x.holds n + x.holds n
        omega
      · show (0 : Int) = 0 - x.claims + x.claims
        omega
      · show (0 : Int) = 0 - x.copiesFor o + x.copiesFor o
        omega

/-- The write of an abandoned copy has ended (R116). -/
theorem Books.completeReturn (h : Books a b m e.st) {n : Nat} (hn : n ∈ e.st.returns) (hm : m.claims = 0) :
    Books a b m (completeReturn n e).st := by
  have hclaims : a → 1 ≤ e.st.claims := fun ha => by
    have h2 : (e.st.claims : Int) = ((e.st.mirror.map fun r => r.claims.length).sum + totalOf Job.claims e.st.jobs +
      e.st.returns.length : Nat) + m.claims := h.count ha
    have := List.length_pos_of_mem hn
    omega
  have h1 : Books a b { m with pcn := fun k => m.pcn k + if n = k then 1 else 0, claims := m.claims + 1 }
      (e.upd fun s => { s with returns := s.returns.erase n }).st := by
    refine Good.setReturns (L := e.st.ledger) h (rs := e.st.returns.erase n) (fun _ k => ?_) (fun _ => ?_) fun hr hs => ?_
    · rw [List.count_erase]
      show ((e.st.returns.count k - _ : Nat) : Int) + _ = e.st.returns.count k + m.pcn k
      have := List.count_pos_iff.mpr hn
      simp only [beq_iff_eq]
      split_ifs with hnk
      · subst hnk
        omega
      · omega
    · rw [List.length_erase_of_mem hn]
      have := List.length_pos_of_mem hn
      show ((e.st.returns.length - 1 : Nat) : Int) + _ = e.st.returns.length + m.claims
      omega
    · obtain ⟨-, -, -, -, -, -, h7⟩ := h.idle hr
      rw [show e.st.ledger.returns = e.st.returns from rfl] at h7
      rw [(h7 hs).1] at hn
      cases hn
  refine Good.adjust (Books.returnOne (e := e.upd fun s => { s with returns := s.returns.erase n }) h1 n hclaims) rfl rfl rfl rfl
    (fun k => ?_) ?_ (fun _ => rfl) (fun _ => rfl)
  · dsimp only
    omega
  · show m.claims = m.claims + 1 - 1
    omega

end Sys2Proof.Machine
end

section
/-! PROOFS. The books under the visits of restore jobs (R105 to R109) and their pauses (R111 to R114). -/

namespace Sys2Proof.Machine

variable {a b : Prop} {m : Mode} {e : Event} {j : Nat} {x : Job} {f : Bool}

/-! ### A visit that waits is withdrawn -/

/-- The mode while a job's record and its item are changed one after the other. -/
abbrev Mode.visiting (f : Bool) (j : Nat) : Mode := { free := f, act := some (.restore j) }

theorem Books.openRestore (h : Books a b (.calm f) e.st) (j : Nat) : Books a b (.visiting f j) e.st :=
  Good.openRestore (L := e.st.ledger) h j rfl

theorem Books.closeRestore (h : Books a b (.visiting f j) e.st)
    (hfit : ∀ i ∈ e.st.busy, i.owner = .restore j → i.Fits (.calm f) e.st.ledger) : Books a b (.calm f) e.st := by
  refine { h with item := fun i hi => ?_, entry := h.entry }
  have hi' := h.item i hi
  by_cases ho : i.owner = .restore j
  · exact hfit i hi ho
  unfold BusyItem.Fits at hi' ⊢
  cases hio : i.owner with
  | front n =>
    rw [hio] at hi'
    obtain ⟨y, hy, ha, hs, -, hi''⟩ := hi'
    refine ⟨y, hy, ha, hs, by simp, ?_⟩
    rw [hi'']
    simp
  | restore k =>
    rw [hio] at hi'
    rcases hi' with hi' | hi'
    · rw [hio] at ho
      exact absurd (Option.some.inj hi').symm ho
    · exact .inr hi'

theorem Books.running_of_waiting (h : Books a b m e.st) (hf : tfind e.st.jobs j = some x) (hw : x.waiting = true) :
    e.st.ctl.part ≠ .recovering := by
  intro hc
  obtain ⟨-, -, h3, -⟩ := h.idle hc
  have := h3 _ (mem_of_tfind hf)
  rw [hw] at this
  cases this

theorem Job.Sane.stopped (hx : x.Sane) (hc : x.copy = none) : { x with waiting := false }.Sane where
  visits := by simp [Job.visiting, hc]
  waits := by simp
  settled := hx.settled
  counts := hx.counts
  place := hx.place
  left := hx.left

theorem Books.withdrawVisit (h : Books a b (.calm f) e.st) (j : Nat) : Books a b (.calm f) (withdrawVisit j e).st := by
  unfold Machine.withdrawVisit
  split
  · exact h
  · rename_i x hf
    split_ifs with hw
    · have hsane := h.job hf
      have hc := hsane.waits hw
      have hst : x.state = .running := hsane.visits (by simp [Job.visiting, hw])
      have hrun := h.running_of_waiting hf hw
      have h1 := (h.openRestore j).updJob (f := fun y => { y with waiting := false }) (p := fun _ => 0) (c := 0)
        (ch := fun _ => 0) (r := fun _ => 0) hf (hsane.stopped hc) (fun he => h.jobStands (x := x) hf he) (.inl rfl)
        (fun v q hq hk => absurd hk ((h.openRestore j).not_asked hf (by simp [hst]) v q hq)) (fun hr => absurd hr hrun)
        (fun _ _ => rfl) (fun _ => rfl) (fun _ _ => rfl) (fun _ _ _ => rfl)
      exact h1.leaveRestore x.dstVol (.inr rfl)
    · exact h

theorem withdrawVisit_find (hf : tfind e.st.jobs j = some x) :
    tfind (withdrawVisit j e).st.jobs j = some { x with waiting := false } := by
  unfold withdrawVisit
  rw [hf]
  dsimp only
  split_ifs with hw
  · exact updJob_find hf fun y => { y with waiting := false }
  · rw [hf]
    have : x.waiting = false := by simpa using hw
    obtain ⟨⟩ := x
    simp only at this
    rw [this]

theorem updJob_tfind (f : Job → Job) (k : Nat) :
    tfind (e.updJob j f).st.jobs k = if k = j then (tfind e.st.jobs j).map f else tfind e.st.jobs k := by
  unfold Event.updJob
  by_cases hk : k = j
  · subst hk
    rw [if_pos rfl]
    split
    · rename_i hn
      rw [hn]
      rfl
    · rename_i y hy
      rw [hy]
      exact tfind_tput_same ..
  · rw [if_neg hk]
    split
    · rfl
    · exact tfind_tput_ne _ _ _ _ hk

theorem withdrawVisit_none (hf : tfind e.st.jobs j = none) : withdrawVisit j e = e := by
  unfold withdrawVisit
  rw [hf]

theorem withdrawVisit_other {k : Nat} (hk : k ≠ j) : tfind (withdrawVisit j e).st.jobs k = tfind e.st.jobs k := by
  unfold withdrawVisit
  split
  · rfl
  · split_ifs
    · exact (updJob_tfind _ k).trans (if_neg hk)
    · rfl

/-- A job without a copy may be stopped. -/
def Job.stoppable (x : Job) : Prop := x.state.ended = false ∧ x.state ≠ .starting ∧ x.copy = none

/-- A job whose visit is withdrawn goes into another state. -/
theorem Books.stopJob (h : Books a b (.calm f) e.st) (hs : ∀ x, tfind e.st.jobs j = some x → x.stoppable) {s : JobState}
    (hend : s.ended = false) : Books a b (.calm f) ((Machine.withdrawVisit j e).updJob j fun y => { y with state := s }).st := by
  refine (h.withdrawVisit j).likeJob j _ fun y hy => ?_
  cases hf : tfind e.st.jobs j with
  | none =>
    rw [withdrawVisit_none hf, hf] at hy
    cases hy
  | some x =>
    obtain ⟨h1, h2, h3⟩ := hs x hf
    rw [withdrawVisit_find hf] at hy
    obtain rfl : { x with waiting := false } = y := Option.some.inj hy
    refine ⟨⟨rfl, rfl, rfl, rfl, rfl, rfl, rfl, rfl, hend.trans h1.symm, fun hv => ?_⟩, .inl h2⟩
    simp [Job.visiting, h3] at hv

theorem Books.yieldJobs (h : Books a b (.calm f) e.st) : Books a b (.calm f) (yieldJobs e).st := by
  have hgo : ∀ (l : List Nat) (e : Event), Books a b (.calm f) e.st →
      (∀ j ∈ l, ∀ x, tfind e.st.jobs j = some x → x.stoppable) →
      Books a b (.calm f) (l.foldl (fun e j => (Machine.withdrawVisit j e).updJob j fun y => { y with state := .yielded }) e).st := by
    intro l
    induction l with
    | nil => exact fun e h _ => h
    | cons j l ih =>
      intro e h hl
      refine ih _ (h.stopJob (hl j (List.mem_cons_self ..)) rfl) fun k hk x hx => ?_
      replace hx := (updJob_tfind _ k).symm.trans hx
      split_ifs at hx with hkj
      · obtain ⟨y, hy, rfl⟩ := Option.map_eq_some_iff.mp hx
        cases hf : tfind e.st.jobs j with
        | none =>
          rw [withdrawVisit_none hf, hf] at hy
          cases hy
        | some z =>
          obtain ⟨-, -, h3⟩ := hl j (List.mem_cons_self ..) z hf
          rw [withdrawVisit_find hf] at hy
          obtain rfl := Option.some.inj hy
          exact ⟨rfl, by simp, h3⟩
      · rw [withdrawVisit_other hkj] at hx
        exact hl k (List.mem_cons_of_mem _ hk) x hx
  refine hgo _ e h fun j hj x hx => ?_
  obtain ⟨p, hp, rfl⟩ := List.mem_map.mp hj
  obtain ⟨hp, hc⟩ := List.mem_filter.mp hp
  simp only [Bool.and_eq_true, beq_iff_eq, Option.isNone_iff_eq_none] at hc
  have := tfind_of_mem h.jobsWf (show (p.1, p.2) ∈ e.st.ledger.jobs from hp)
  obtain rfl : p.2 = x := Option.some.inj (this.symm.trans hx)
  exact ⟨by rw [hc.1]; rfl, by simp [hc.1], hc.2⟩

theorem Books.testYield (h : Books a b (.calm f) e.st) : Books a b (.calm f) (testYield e).st := by
  have h1 : Books a b (.calm f) (e.upd fun s => { s with yielding := yieldAfter e.st }).st := h
  unfold Machine.testYield
  dsimp only
  split_ifs
  · exact h
  · exact h1.yieldJobs
  · refine Books.moveJobs (p := fun x => x.state == .yielded) (j := .running) h1 rfl fun x hx => ?_
    have : x.state = .yielded := by simpa using hx
    simp [this, JobState.ended]

theorem runState_ended (s : State) : (runState s).ended = false := by
  unfold runState
  split_ifs <;> rfl

theorem Books.resumePool (h : Books a b m e.st) : Books a b m (resumePool e).st := by
  unfold Machine.resumePool
  split_ifs
  · refine Books.moveJobs (p := fun x => x.state == .pausedPool) h (runState_ended e.st) fun x hx => ?_
    have : x.state = .pausedPool := by simpa using hx
    simp [this, JobState.ended]
  · exact h

theorem Books.resumeFrozen (h : Books a b m e.st) (v : Nat) : Books a b m (resumeFrozen v e).st := by
  refine Books.moveJobs (p := fun x => x.state == .pausedFrozen && x.dstVol == v) h (runState_ended e.st) fun x hx => ?_
  have : x.state = .pausedFrozen := by
    simp only [Bool.and_eq_true, beq_iff_eq] at hx
    exact hx.1
  simp [this, JobState.ended]

/-- A job that is not STARTING, has not ended and makes no visit goes into another state. -/
theorem Books.setState (h : Books a b m e.st) (hf : tfind e.st.jobs j = some x) {s : JobState} (hv : x.visiting = false)
    (hend : x.state.ended = false) (hstart : x.state ≠ .starting) (hs : s.ended = false) {f : Job → Job}
    (hy : ∀ y, ∃ r, f y = { y with state := s, suspendReq := r }) :
    Books a b m (e.updJob j f).st := by
  refine h.likeJob j _ fun y hy' => ?_
  obtain rfl : x = y := Option.some.inj (hf.symm.trans hy')
  obtain ⟨r, hr⟩ := hy x
  rw [hr]
  refine ⟨⟨rfl, rfl, rfl, rfl, rfl, rfl, rfl, rfl, hs.trans hend.symm, fun hv' => ?_⟩, .inl hstart⟩
  rw [hv] at hv'
  cases hv'

theorem Books.suspendReq (h : Books a b m e.st) (j : Nat) (r : Bool) :
    Books a b m (e.updJob j fun y => { y with suspendReq := r }).st :=
  h.likeJob j _ fun _ _ => ⟨⟨rfl, rfl, rfl, rfl, rfl, rfl, rfl, rfl, rfl, fun _ => id⟩, ne_or_eq _ _⟩

/-- A job that does not run makes no visit. -/
theorem Books.not_visiting (h : Books a b m e.st) (hf : tfind e.st.jobs j = some x) (hs : x.state ≠ .running) :
    x.visiting = false := by
  cases hv : x.visiting with
  | false => rfl
  | true => exact absurd ((h.job hf).visits hv) hs

theorem Books.suspendJob (h : Books a b (.calm f) e.st) (hf : tfind e.st.jobs j = some x) :
    Books a b (.calm f) (suspendJob j x e).st := by
  have hmove : x.state ≠ .running → x.state.ended = false → x.state ≠ .starting →
      Books a b (.calm f) (e.updJob j fun y => { y with state := .suspended }).st := fun hr he hs =>
    h.setState hf (h.not_visiting hf hr) he hs rfl fun y => ⟨y.suspendReq, rfl⟩
  unfold Machine.suspendJob
  split
  · rename_i hst
    split_ifs with hc
    · exact h.suspendReq j true
    · refine h.stopJob (fun y hy => ?_) rfl
      obtain rfl : x = y := Option.some.inj (hf.symm.trans hy)
      exact ⟨by rw [hst]; rfl, by simp [hst], by simpa using hc⟩
  all_goals first
    | exact h
    | (rename_i hst
       exact hmove (by simp [hst]) (by rw [hst]; rfl) (by simp [hst]))

theorem Books.resumeJob (h : Books a b (.calm f) e.st) (hf : tfind e.st.jobs j = some x) :
    Books a b (.calm f) (resumeJob j x e).st := by
  unfold Machine.resumeJob
  split
  · exact h.suspendReq j false
  · rename_i hst
    exact h.setState hf (h.not_visiting hf (by simp [hst])) (by rw [hst]; rfl) (by simp [hst]) (runState_ended _)
      fun y => ⟨y.suspendReq, rfl⟩
  · exact h

/-! ### A visit begins (R105) -/

theorem canVisit_iff {s : State} (h : canVisit s x = true) :
    x.state = .running ∧ s.ctl.part = .running ∧ x.visiting = false ∧ x.target.isSome = true := by
  simp only [canVisit, Bool.and_eq_true, beq_iff_eq, Bool.not_eq_true'] at h
  obtain ⟨⟨⟨⟨⟨h1, h2⟩, -⟩, h3⟩, h4⟩, -⟩ := h
  exact ⟨h1, h2, h3, h4⟩

theorem Books.beginVisit (h : Books a b (.calm f) e.st) (hf : tfind e.st.jobs j = some x) (hc : canVisit e.st x = true) :
    Books a b (.calm f) (beginVisit j x e).st := by
  obtain ⟨hst, hpart, hv, -⟩ := canVisit_iff hc
  have hv' : x.waiting = false ∧ x.copy = none := by simpa [Job.visiting] using hv
  have hrun : e.st.ctl.part ≠ .recovering := by simp [hpart]
  have hsane := h.job hf
  have hnone : ∀ i ∈ e.st.busy, i.owner ≠ .restore j := fun i hi ho => by
    have := h.itemVisits rfl hf hi ho
    rw [hv] at this
    cases this
  unfold Machine.beginVisit
  split
  · exact h
  · rename_i dst src ht
    split_ifs
    · exact h.setState hf hv (by rw [hst]; rfl) (by simp [hst]) rfl fun y => ⟨y.suspendReq, rfl⟩
    · have h1 := h.updJob (f := fun y => { y with waiting := true }) (p := fun _ => 0) (c := 0) (ch := fun _ => 0)
        (r := fun _ => 0) hf ⟨fun _ => hst, fun _ => hv'.2, hsane.settled, hsane.counts, hsane.place, hsane.left⟩
        (fun he => h.jobStands (x := x) hf he) (.inr hnone) (fun v q hq hk => absurd hk (h.not_asked hf (by simp [hst]) v q hq))
        (fun hr => absurd hr hrun) (fun _ _ => rfl) (fun _ => rfl) (fun _ _ => rfl) (fun _ _ _ => rfl)
      obtain ⟨hb, hctl, -⟩ := updJob_other (e := e) (j := j) fun y => { y with waiting := true }
      refine Good.enterBusy (L := (e.updJob j fun y => { y with waiting := true }).st.ledger) h1 rfl ?_ ?_ ?_
      · intro k hk
        exact hnone k (hb ▸ hk)
      · exact .inr ⟨_, updJob_find hf _, rfl, rfl, rfl, hv'.2, by
          show (x.target.map fun t => [t.1]) = some [dst]
          rw [ht]
          rfl⟩
      · show (e.updJob j _).st.ctl.part ≠ _
        rw [hctl]
        exact hrun

end Sys2Proof.Machine
end

section
/-! PROOFS. The books as a visit is decided, its copy begins and commits (R106 to R109), and as an item proceeds (R23). -/

namespace Sys2Proof.Machine

variable {a b : Prop} {m : Mode} {e : Event} {j : Nat} {x : Job}

/-! ### What a visit leaves of a job -/

/-- The position after an advance depends on the ranges and the position before it. -/
theorem Job.advance_congr {x y : Job} (hr : y.ranges = x.ranges) (hi : y.rangeIdx = x.rangeIdx) (ho : y.offset = x.offset) :
    y.advance = { y with rangeIdx := x.advance.rangeIdx, offset := x.advance.offset } := by
  obtain ⟨⟩ := y
  simp only at hr hi ho
  subst hr hi ho
  unfold Job.advance
  dsimp only
  cases x.ranges[x.rangeIdx]? with
  | none => rfl
  | some r =>
    dsimp only
    split_ifs <;> rfl

theorem Job.advance_ranges (x : Job) : x.advance.ranges = x.ranges := by
  rw [Job.advance_congr (x := x) (y := x) rfl rfl rfl]

/-- A job without a copy holds nothing but its reservation. -/
theorem Job.bare_of_copy (hc : x.copy = none) :
    x.claims = 0 ∧ (∀ n, x.holds n = 0) ∧ ∀ o, x.copiesFor o = 0 := by
  simp [Job.claims, Job.holds, Job.copiesFor, hc]

/-- The record of a job after a visit: its position one on, its copy over. -/
structure Job.Passed (x y : Job) : Prop where
  dst : y.dstVol = x.dstVol
  owner : y.owner = x.owner
  state : y.state = x.state
  waiting : y.waiting = false
  copy : y.copy = none
  ranges : y.ranges = x.ranges
  idx : y.rangeIdx = x.advance.rangeIdx
  offset : y.offset = x.advance.offset

theorem Job.Passed.sane {y : Job} (h : x.Passed y) (hx : x.Sane) (ht : x.target ≠ none) (hend : x.state.ended = false)
    (hr : y.remaining + 1 = x.remaining + x.claims) : y.Sane := by
  obtain ⟨h1, h2, h3⟩ := Job.toVisit_advance hx ht hend
  rw [Job.advance_ranges] at h2 h3
  have hto : y.toVisit = x.advance.toVisit := by
    rw [Job.toVisit, Job.toVisit, h.ranges, h.idx, h.offset, Job.advance_ranges]
  have hleft := hx.left hend
  refine ⟨fun hv => ?_, fun _ => h.copy, fun he => ?_, fun _ => by rw [h.ranges]; exact h2,
    fun _ => by rw [h.ranges, h.idx, h.offset]; exact h3,
    fun _ => ?_⟩
  · simp [Job.visiting, h.waiting, h.copy] at hv
  · rw [h.state, hend] at he
    cases he
  · rw [(Job.bare_of_copy h.copy).1, hto]
    omega

/-- A visit is over: the job ends, stops or goes on. -/
theorem Books.afterVisit (h : Books a b {} e.st) (hf : tfind e.st.jobs j = some x) (hst : x.state = .running)
    (hv : x.visiting = false) (hnone : ∀ i ∈ e.st.busy, i.owner ≠ .restore j) : Books a b {} (afterVisit j e).st := by
  have hmove : ∀ (s : JobState) (r : Job → Bool), s.ended = false →
      Books a b {} (e.updJob j fun y => { y with suspendReq := r y, state := s }).st := fun s r hs =>
    h.setState hf hv (by rw [hst]; rfl) (by simp [hst]) hs fun y => ⟨r y, rfl⟩
  have hc : x.copy = none := by
    have : x.waiting = false ∧ x.copy = none := by simpa [Job.visiting] using hv
    exact this.2
  obtain ⟨h1, h2, h3⟩ := Job.bare_of_copy hc
  unfold Machine.afterVisit
  rw [hf]
  dsimp only
  split_ifs
  · refine Good.adjust (h.endJob hf (s := .done) rfl hnone (.inl (by simp [hst])) (fun _ => rfl)) rfl rfl rfl rfl
      (fun n => ?_) ?_ (fun o => ?_) (fun _ => rfl)
    · simp [h2]
    · simp [h1]
    · simp [h3]
  · exact hmove .suspended (fun _ => false) rfl
  · exact hmove .yielded (fun y => y.suspendReq) rfl
  · exact h

/-- A visit without a copy counts one chunk. -/
def Counts (g : Job → Job) : Prop := ∀ y, ∃ c s u, g y = { y with cleared := c, skipped := s, unchanged := u }

theorem Books.reserved_pos (h : Books a b m e.st) (hb : b) (hf : tfind e.st.jobs j = some x) (hr : 1 ≤ x.remaining)
    (hp : e.st.ctl.part ≠ .recovering) (hm : m.res x.owner = 0) : 1 ≤ (e.st.acct x.owner).reserved :=
  hr.trans (h.remaining_le hb hf hp hm)

/-- A visit that writes no chunk is over (R107). -/
theorem Books.closeVisit (h : Books a b (.visiting false j) e.st) (hf : tfind e.st.jobs j = some x)
    (hst : x.state = .running) (hc : x.copy = none) (ht : x.target ≠ none) (hrun : e.st.ctl.part ≠ .recovering)
    {g : Job → Job} (hg : Counts g) : Books a b {} (closeVisit j x g e).st := by
  have hsane := h.job hf
  have hend : x.state.ended = false := by rw [hst]; rfl
  have hcl := (Job.bare_of_copy hc).1
  have hleft := hsane.left hend
  have hadv := (Job.toVisit_advance hsane ht (by rw [hst]; rfl)).1
  have hrem : 1 ≤ x.remaining := by omega
  have h1 := h.releaseChunks (o := x.owner) (n := 1) fun hb hp => h.reserved_pos hb hf hrem hp rfl
  have hs := SameWork.releaseChunks (e := e) x.owner 1
  have hf1 : tfind (Machine.releaseChunks x.owner 1 e).st.jobs j = some x := by
    rw [hs.jobs]
    exact hf
  obtain ⟨c, s, u, hgy⟩ := hg { x with waiting := false, remaining := x.remaining - 1 }
  have hadv' : (g { x with waiting := false, remaining := x.remaining - 1 }).advance = _ :=
    Job.advance_congr (x := x) (by rw [hgy]) (by rw [hgy]) (by rw [hgy])
  have hpass : x.Passed ((g { x with waiting := false, remaining := x.remaining - 1 }).advance) := by
    rw [hadv', hgy]
    exact ⟨rfl, rfl, rfl, rfl, hc, rfl, rfl, rfl⟩
  have hrem' : ((g { x with waiting := false, remaining := x.remaining - 1 }).advance).remaining = x.remaining - 1 := by
    rw [hadv', hgy]
  have hsane' : ((g { x with waiting := false, remaining := x.remaining - 1 }).advance).Sane :=
    hpass.sane hsane ht hend (by rw [hrem', hcl]; omega)
  obtain ⟨hb1, hb2, hb3⟩ := Job.bare_of_copy hpass.copy
  obtain ⟨-, hx2, hx3⟩ := Job.bare_of_copy hc
  have h2 := h1.updJob (f := fun y => (g { y with waiting := false, remaining := y.remaining - 1 }).advance)
    (p := fun _ => 0) (c := 0) (ch := fun _ => 0) (r := fun _ => 0) hf1 hsane'
    (fun he => by rw [hpass.dst]; exact h1.jobStands hf1 hend) (.inl rfl)
    (fun v q hq hk => absurd hk (h1.not_asked hf1 (by simp [hst]) v q hq)) (fun hr => absurd hr (by rw [hs.ctl]; exact hrun))
    (fun _ n => by rw [hb2, hx2]) (fun _ => by rw [hb1, hcl]) (fun _ o => by rw [hb3, hx3])
    (fun _ _ o => by
      rw [Job.reservesFor_of_sane hsane', Job.reservesFor_of_sane hsane, hpass.owner, hrem']
      dsimp only
      split_ifs <;> omega)
  have hf2 := updJob_find hf1 fun y => (g { y with waiting := false, remaining := y.remaining - 1 }).advance
  have h3 := h2.leaveRestore x.dstVol (.inr rfl)
  exact Books.afterVisit (e := Machine.leaveBusy (.restore j) x.dstVol _) h3 hf2 (hpass.state.trans hst)
    (by simp [Job.visiting, hpass.waiting, hpass.copy]) fun i hi => leaveBusy_free _ _ i hi

/-! ### Chunks a visit changes -/

theorem Books.charge_pos (h : Books a b m e.st) (hb : b) (hrun : e.st.ctl.part ≠ .recovering) (hfin : m.fin = none) {o : Nat}
    (hm : 1 ≤ (e.st.ledger.copies o : Int) + m.charge o) : 1 ≤ (e.st.acct o).charge := by
  have h1 := Good.releases_le h hfin hrun o List.nodup_nil (by simp) (by simp)
  have h2 := pledged_ge e.st.ledger o
  have h3 : ((e.st.acct o).charge : Int) = (e.st.ledger.mapped o : Nat) + e.st.ledger.pledged o + (e.st.ledger.copies o : Nat) +
    m.charge o := h.charged hb o
  simp only [List.length_nil] at h1
  omega

/-- A displaced chunk's charge falls, and it finds its place (R107, R109). -/
theorem Books.displace (h : Books a b m e.st) {v l g : Nat} {old : MapEntry} (hst : (e.st.vol v).state ≠ .absent)
    (hc : b → ∀ o, old.form.chargedTo o = 1 → 1 ≤ (e.st.acct o).charge) :
    Books a b
      { m with
        pcn := fun n => m.pcn n - old.form.pcnIs n
        charge := fun o => m.charge o - old.form.chargedTo o } (displace v l g old e).st := by
  unfold Machine.displace
  cases hf : old.form with
  | unmapped n =>
    exact Good.adjust h rfl rfl rfl rfl (fun _ => by simp [Form.pcnIs]) rfl (fun _ => by simp [Form.chargedTo])
      fun _ => rfl
  | mapped pcn born o =>
    rw [hf] at hc
    have h1 := h.uncharge (o := o) fun hb => hc hb o (by simp [Form.chargedTo])
    have hstand : ((Machine.uncharge o e).st.vol v).state ≠ .absent := by
      unfold Machine.uncharge
      rw [applyCharges_frame]
      exact hst
    refine Good.adjust (h1.fileDisplaced l pcn born g hstand) rfl rfl rfl rfl (fun n => ?_) rfl (fun q => ?_) (fun _ => rfl)
    · simp only [Form.pcnIs]
      split_ifs <;> rfl
    · simp only [Form.chargedTo]
      split_ifs <;> rfl

theorem SameWork.displace (v l g : Nat) (old : MapEntry) : SameWork e.st (displace v l g old e).st := by
  unfold Machine.displace
  split
  · exact (SameWork.applyCharges ..).trans (SameWork.fileDisplaced ..)
  · exact SameWork.rfl'

/-- A CLEARED visit unmaps its chunk (R107). -/
theorem Books.clearChunk (h : Books a b m e.st) {v l : Nat} (hu : Untouched m e.st v l) (hst : (e.st.vol v).state ≠ .absent)
    (hrun : e.st.ctl.part ≠ .recovering) (hfin : m.fin = none) (hm : ∀ o, m.charge o = 0) :
    Books a b m (clearChunk v l e).st := by
  have h1 := h.unmapEntry hu hrun
  have hstand : ((Machine.unmapEntry v l e).st.vol v).state ≠ .absent := by
    unfold Machine.unmapEntry
    rw [Event.vol_updVol]
    exact hst
  have h2 := h1.displace (l := l) (g := (e.st.vol v).sharingGen) (old := (e.st.vol v).entry l) hstand fun hb o ho =>
    h1.charge_pos hb hrun hfin (by
      show (1 : Int) ≤ _ + (m.charge o + ((e.st.vol v).entry l).form.chargedTo o)
      rw [hm, ho]
      omega)
  refine Good.adjust (h2.logLcn v l) rfl rfl rfl rfl (fun n => ?_) rfl (fun o => ?_) (fun _ => rfl)
  · dsimp only
    omega
  · dsimp only
    omega

theorem SameWork.clearChunk (v l : Nat) : SameWork e.st (clearChunk v l e).st :=
  (SameWork.unmapEntry ..).trans ((SameWork.displace ..).trans (SameWork.logLcn ..))

/-! ### A copy begins and commits (R108, R109) -/

theorem restorePoolCheck_pos {s : State} {o : Bool} (h : restorePoolCheck s o = true) : s.free ≠ [] := by
  unfold restorePoolCheck at h
  intro hc
  split_ifs at h <;> simp [State.freeCount, hc] at h

theorem Books.acceptCopy (h : Books a b (.visiting false j) e.st) (hf : tfind e.st.jobs j = some x)
    (hst : x.state = .running) (hc : x.copy = none) {dst src pcn : Nat} (ht : x.target = some (dst, src))
    (hrun : e.st.ctl.part ≠ .recovering)
    (hitem : ∀ i ∈ e.st.busy, i.owner = .restore j → i.vol = x.dstVol ∧ i.change = true ∧ i.proceeded = true ∧ i.chunks = [dst]) :
    Books a b {} (acceptCopy j x dst pcn e).st := by
  have hsane := h.job hf
  have hend : x.state.ended = false := by rw [hst]; rfl
  obtain ⟨hb1, hb2, hb3⟩ := Job.bare_of_copy hc
  have hleft := hsane.left hend
  have hadv := (Job.toVisit_advance hsane (by simp [ht]) hend).1
  have hrem : 1 ≤ x.remaining := by omega
  unfold Machine.acceptCopy
  split
  · have h1 := h.updJob (f := fun y => { y with waiting := false, state := .pausedPool })
      (p := fun _ => 0) (c := 0) (ch := fun _ => 0) (r := fun _ => 0) hf
      ⟨fun hv => by simp [Job.visiting, hc] at hv, fun hw => by simp at hw, fun he => by simp [JobState.ended] at he,
        fun _ => hsane.counts hend, fun _ => hsane.place hend, fun _ => hleft⟩
      (fun _ => h.jobStands (x := x) hf hend) (.inl rfl)
      (fun v q hq hk => absurd hk (h.not_asked hf (by simp [hst]) v q hq))
      (fun hr => absurd hr hrun) (fun _ _ => rfl) (fun _ => rfl) (fun _ _ => rfl) (fun _ _ o => by
        simp [Job.reservesFor, hst, JobState.ended])
    exact h1.leaveRestore x.dstVol (.inr rfl)
  · rename_i hpool
    have hfree := restorePoolCheck_pos (not_not.mp hpool)
    obtain ⟨q, fr, hq⟩ := List.exists_cons_of_ne_nil hfree
    have hc1 : (Machine.claimPcns 1 e).1 = [q] := by
      rw [(claimPcns_st 1 e).1, hq]
      rfl
    have h1 := h.claimPcns 1
    have hs1 := SameWork.claimPcns (e := e) 1
    have hrun1 : (Machine.claimPcns 1 e).2.st.ctl.part ≠ .recovering := by
      rw [hs1.ctl]
      exact hrun
    have hf1 : tfind (Machine.claimPcns 1 e).2.st.jobs j = some x := by
      rw [hs1.jobs]
      exact hf
    have h2 := h1.transferChunk (o := x.owner) fun hb _ => h1.reserved_pos hb hf1 hrem hrun1 rfl
    have hs2 := hs1.trans (SameWork.transferChunk (e := (Machine.claimPcns 1 e).2) x.owner)
    have hf2 : tfind (Machine.transferChunk x.owner (Machine.claimPcns 1 e).2).st.jobs j = some x := by
      rw [hs2.jobs]
      exact hf
    dsimp only
    rw [hc1, List.headD_cons]
    have h3 := h2.updJob (f := fun y => { y with
        waiting := false, remaining := y.remaining - 1
        copy := some { lcn := dst, srcPcn := pcn, pcn := q, gen := (e.st.vol x.dstVol).sharingGen, stage := .reading } })
      (p := fun _ => 0) (c := 0) (ch := fun _ => 0) (r := fun _ => 0) hf2
      ⟨fun _ => hst, fun hw => by simp at hw, fun he => absurd (show x.state.ended = true from he) (by simp [hend]),
        hsane.counts, hsane.place, fun _ => (show x.remaining - 1 + 1 = x.toVisit by omega)⟩
      (fun _ => h2.jobStands (x := x) hf2 hend) (.inl rfl)
      (fun v q hq hk => absurd hk (h2.not_asked hf2 (by simp [hst]) v q hq))
      (fun hr => absurd hr (by rw [hs2.ctl]; exact hrun)) (fun _ n => ?_) (fun _ => ?_) (fun _ o => ?_) (fun _ _ o => ?_)
    · refine Books.handOver ?_ _
      refine Books.closeRestore (f := false) h3 fun i hi ho => ?_
      obtain ⟨hbusy, -⟩ := updJob_other (e := Machine.transferChunk x.owner (Machine.claimPcns 1 e).2) (j := j) fun y => { y with
        waiting := false, remaining := y.remaining - 1
        copy := some { lcn := dst, srcPcn := pcn, pcn := q, gen := (e.st.vol x.dstVol).sharingGen, stage := .reading } }
      rw [hbusy, hs2.busy] at hi
      obtain ⟨h5, h6, h7, h8⟩ := hitem i hi ho
      unfold BusyItem.Fits
      rw [ho]
      refine .inr ⟨_, updJob_find hf2 _, h5, h6, ?_⟩
      rw [if_pos h7, h8]
      rfl
    · rw [hb2, hq]
      simp only [Job.holds, Option.map_some, Option.some.injEq, List.take_succ_cons, List.take_zero, List.count_singleton,
        beq_iff_eq]
      split_ifs <;> rfl
    · rw [hb1]
      rfl
    · rw [hb3]
      simp only [Job.copiesFor, Option.isSome_some, Bool.true_and, beq_iff_eq]
      split_ifs <;> rfl
    · simp only [Job.reservesFor, hend, Bool.not_false, Bool.true_and, beq_iff_eq]
      split_ifs <;> omega

/-- A visit is decided (R106): its item has proceeded, and is the only one of its chunk that has. -/
theorem Books.decideVisit (h : Books a b (.visiting false j) e.st) (hf : tfind e.st.jobs j = some x)
    (hst : x.state = .running) (hc : x.copy = none) (hrun : e.st.ctl.part ≠ .recovering) {i : BusyItem} (hi : i ∈ e.st.busy)
    (ho : i.owner = .restore j) (hv : i.vol = x.dstVol) (hch : i.change = true) (hp : i.proceeded = true)
    (ht : x.target.map (fun t => [t.1]) = some i.chunks) : Books a b {} (decideVisit j e).st := by
  unfold Machine.decideVisit
  rw [hf]
  dsimp only
  cases htar : x.target with
  | none => simp [htar] at ht
  | some q =>
    obtain ⟨dst, src⟩ := q
    have hchunks : i.chunks = [dst] := by simpa [htar] using ht.symm
    have hend : x.state.ended = false := by rw [hst]; rfl
    have hu : Untouched (.visiting false j) e.st x.dstVol dst := fun y hy hyw hyv hyf =>
      Good.untouched (L := e.st.ledger) h hi hch (fun k hk hki hkp => Good.apart h hi hk (Ne.symm hki) hp hkp)
        (by rw [hchunks]; exact List.mem_singleton_self dst) hy hyw (hyv.trans hv.symm) (by rw [ho]; simp) hyf
    have hclose : ∀ e' : Event, Books a b (.visiting false j) e'.st → SameWork e.st e'.st → ∀ g, Counts g →
        Books a b {} (Machine.closeVisit j x g e').st := fun e' h' hs g hg =>
      h'.closeVisit (by rw [hs.jobs]; exact hf) hst hc (by simp [htar]) (by rw [hs.ctl]; exact hrun) hg
    dsimp only
    split
    · exact hclose e h SameWork.rfl' _ fun y => ⟨_, _, _, rfl⟩
    · exact hclose e h SameWork.rfl' _ fun y => ⟨_, _, _, rfl⟩
    · exact hclose _ (h.clearChunk hu (h.jobStands hf hend) hrun rfl fun _ => rfl) (SameWork.clearChunk ..) _
        fun y => ⟨_, _, _, rfl⟩
    · refine h.acceptCopy hf hst hc htar hrun fun k hk hko => ?_
      obtain rfl : k = i := eq_of_key h.owners hk hi (hko.trans ho.symm)
      exact ⟨hv, hch, hp, hchunks⟩

/-- The write of a copy has ended: the copy commits (R109). -/
theorem Books.commitCopy (h : Books a b {} e.st) (hf : tfind e.st.jobs j = some x) {c : Copy} (hc : x.copy = some c)
    (hitem : ∃ i ∈ e.st.busy, i.owner = .restore j) (ht : x.target.map Prod.fst = some c.lcn)
    (hrun : e.st.ctl.part ≠ .recovering) : Books a b {} (commitCopy j x c e).st := by
  have hsane := h.job hf
  have hst : x.state = .running := hsane.visits (by simp [Job.visiting, hc])
  have hend : x.state.ended = false := by rw [hst]; rfl
  have hw : x.waiting = false := by
    cases hw : x.waiting with
    | false => rfl
    | true =>
      rw [hsane.waits hw] at hc
      cases hc
  have hstand := h.jobStands hf hend
  obtain ⟨i, hi, ho⟩ := hitem
  obtain ⟨hv, hch, hp, hchunks⟩ : i.vol = x.dstVol ∧ i.change = true ∧ i.proceeded = true ∧ i.chunks = [c.lcn] := by
    have hi' := Good.item (L := e.st.ledger) h i hi
    unfold BusyItem.Fits at hi'
    rw [ho] at hi'
    rcases hi' with hi' | ⟨y, hy, h1, h2, h3⟩
    · cases hi'
    · obtain rfl : x = y := Option.some.inj (hf.symm.trans hy)
      split_ifs at h3 with hp
      · exact ⟨h1, h2, hp, by simpa [hc] using h3.symm⟩
      · rw [hw] at h3
        exact absurd h3.1 (by simp)
  have hu : Untouched {} e.st x.dstVol c.lcn := fun y hy hyw hyv hyf =>
    Good.untouched (L := e.st.ledger) h hi hch (fun k hk hki hkp => Good.apart h hi hk (Ne.symm hki) hp hkp)
      (by rw [hchunks]; exact List.mem_singleton_self _) hy hyw (hyv.trans hv.symm) (by rw [ho]; simp) hyf
  obtain ⟨old, hold⟩ : ∃ old, old = (e.st.vol x.dstVol).entry c.lcn := ⟨_, rfl⟩
  have h1 := (h.openRestore (f := false) j).mapEntry (pcn := c.pcn) (owner := x.owner) hu hstand hrun
  have hs1 := SameWork.mapEntry (e := e) x.dstVol c.lcn c.pcn x.owner
  have hcl : x.claims = 1 := by simp [Job.claims, hc]
  have hcf : ∀ o, x.copiesFor o = if x.owner = o then 1 else 0 := fun o => by simp [Job.copiesFor, hc]
  have hho : ∀ n, x.holds n = if c.pcn = n then 1 else 0 := fun n => by simp [Job.holds, hc]
  have h2 := h1.displace (l := c.lcn) (g := c.gen) (old := old) (v := x.dstVol)
    (by unfold Machine.mapEntry; rw [Event.vol_updVol]; exact hstand) fun hb o hoc =>
      h1.charge_pos hb hrun rfl (by
        have h5 : x.copiesFor o ≤ (Machine.mapEntry x.dstVol c.lcn c.pcn x.owner e).st.ledger.copies o := le_totalOf hf
        rw [hcf] at h5
        show (1 : Int) ≤ _ + (0 + (((e.st.vol x.dstVol).entry c.lcn).form.chargedTo o : Nat) - _)
        rw [← hold, hoc]
        split_ifs at h5 ⊢ <;> omega)
  have hs2 := hs1.trans (SameWork.displace (e := Machine.mapEntry x.dstVol c.lcn c.pcn x.owner e) x.dstVol c.lcn c.gen old)
  have hf2 : tfind (Machine.displace x.dstVol c.lcn c.gen old (Machine.mapEntry x.dstVol c.lcn c.pcn x.owner e)).st.jobs j =
      some x := by
    rw [hs2.jobs]
    exact hf
  have h3 := h2.commitClaims (n := 1) fun ha => by
    have h5 := h2.count ha
    have h6 : x.claims ≤ totalOf Job.claims
      (Machine.displace x.dstVol c.lcn c.gen old (Machine.mapEntry x.dstVol c.lcn c.pcn x.owner e)).st.jobs := le_totalOf hf2
    have h7 : ((Machine.displace x.dstVol c.lcn c.gen old (Machine.mapEntry x.dstVol c.lcn c.pcn x.owner e)).st.claims : Int) =
      (_ + totalOf Job.claims (Machine.displace x.dstVol c.lcn c.gen old
        (Machine.mapEntry x.dstVol c.lcn c.pcn x.owner e)).st.jobs + _ : Nat) + 0 := h5
    omega
  have h4 := h3.logLcn x.dstVol c.lcn
  have hs4 := hs2.trans ((SameWork.commitClaims (e := Machine.displace x.dstVol c.lcn c.gen old
    (Machine.mapEntry x.dstVol c.lcn c.pcn x.owner e)) 1).trans (SameWork.logLcn x.dstVol c.lcn))
  have hfold : (Machine.commitCopy j x c e).st = (Machine.afterVisit j (Machine.leaveBusy (.restore j) x.dstVol
      ((Machine.logLcn x.dstVol c.lcn (Machine.commitClaims 1 (Machine.displace x.dstVol c.lcn c.gen old
        (Machine.mapEntry x.dstVol c.lcn c.pcn x.owner e)))).updJob j
        fun y => ({ y with copied := y.copied + 1, copy := none }).advance))).st := by
    rw [hold]
    rfl
  rw [hfold]
  clear hfold
  generalize Machine.logLcn x.dstVol c.lcn (Machine.commitClaims 1 (Machine.displace x.dstVol c.lcn c.gen old
        (Machine.mapEntry x.dstVol c.lcn c.pcn x.owner e))) = u at h4 hs4 ⊢
  have hf4 : tfind u.st.jobs j = some x := by
    rw [hs4.jobs]
    exact hf
  have hadv : ({ x with copied := x.copied + 1, copy := none } : Job).advance = _ :=
    Job.advance_congr (x := x) rfl rfl rfl
  have hpass : x.Passed ({ x with copied := x.copied + 1, copy := none } : Job).advance := by
    rw [hadv]
    exact ⟨rfl, rfl, rfl, hw, rfl, rfl, rfl, rfl⟩
  have hrem : ({ x with copied := x.copied + 1, copy := none } : Job).advance.remaining = x.remaining := by rw [hadv]
  have hne : x.target ≠ none := fun hcon => by simp [hcon] at ht
  have hsane' := hpass.sane hsane hne hend (by rw [hrem, hcl])
  obtain ⟨hb1, hb2, hb3⟩ := Job.bare_of_copy hpass.copy
  have h5 := h4.updJob (f := fun y => ({ y with copied := y.copied + 1, copy := none } : Job).advance)
    (p := fun _ => 0) (c := 0) (ch := fun _ => 0) (r := fun _ => 0) hf4 hsane'
    (fun he => by rw [hpass.dst]; exact h4.jobStands hf4 hend) (.inl rfl)
    (fun v q hq hk => absurd hk (h4.not_asked hf4 (by simp [hst]) v q hq))
    (fun hr => absurd hr (by rw [hs4.ctl]; exact hrun)) (fun _ n => ?_) (fun _ => ?_) (fun _ o => ?_) (fun _ _ o => ?_)
  · have h6 := h5.leaveRestore x.dstVol (.inr rfl)
    exact Books.afterVisit (e := Machine.leaveBusy (.restore j) x.dstVol _) h6 (updJob_find hf4 _) (hpass.state.trans hst)
      (by simp [Job.visiting, hpass.waiting, hpass.copy]) fun i hi => leaveBusy_free _ _ i hi
  · rw [hb2, hho, hold]
    dsimp only
    split_ifs <;> omega
  · rw [hb1, hcl]
    rfl
  · rw [hb3, hcf, hold]
    dsimp only
    split_ifs <;> omega
  · rw [Job.reservesFor_of_sane hsane', Job.reservesFor_of_sane hsane, hpass.owner, hrem]

/-- A copy's read is over, and its write begins. -/
theorem Books.setStage (h : Books a b {} e.st) (hf : tfind e.st.jobs j = some x) {c : Copy} (hc : x.copy = some c)
    (hrun : e.st.ctl.part ≠ .recovering) :
    Books a b {} (e.updJob j fun y => { y with copy := some { c with stage := .writing } }).st := by
  have hsane := h.job hf
  have hst : x.state = .running := hsane.visits (by simp [Job.visiting, hc])
  have hend : x.state.ended = false := by rw [hst]; rfl
  have hcl : ({ x with copy := some { c with stage := .writing } } : Job).claims = x.claims := by simp [Job.claims, hc]
  have h1 := (h.openRestore (f := false) j).updJob (f := fun y => { y with copy := some { c with stage := .writing } })
    (p := fun _ => 0) (c := 0) (ch := fun _ => 0) (r := fun _ => 0) hf
    ⟨fun _ => hst, fun hw => absurd (hc.symm.trans (hsane.waits hw)) (by simp), hsane.settled, hsane.counts, hsane.place,
      fun he => hcl ▸ hsane.left he⟩
    (fun _ => h.jobStands (x := x) hf hend) (.inl rfl)
    (fun v q hq hk => absurd hk ((h.openRestore j).not_asked hf (by simp [hst]) v q hq)) (fun hr => absurd hr hrun)
    (fun _ n => by simp [Job.holds, hc]) (fun _ => by rw [hcl]) (fun _ o => by simp [Job.copiesFor, hc]) (fun _ _ _ => rfl)
  refine Books.closeRestore (f := false) h1 fun i hi ho => ?_
  rw [(updJob_other _).1] at hi
  have hi' := Good.item (L := e.st.ledger) h i hi
  unfold BusyItem.Fits at hi' ⊢
  rw [ho] at hi' ⊢
  rcases hi' with hi' | ⟨y, hy, h2, h3, h4⟩
  · cases hi'
  · obtain rfl : x = y := Option.some.inj (hf.symm.trans hy)
    refine .inr ⟨_, updJob_find hf _, h2, h3, ?_⟩
    split_ifs at h4 ⊢
    · rw [hc] at h4
      exact h4
    · rw [hc] at h4
      cases h4.2.1

/-- A shelf command of a copy has ended (R109, R117). -/
theorem Books.restoreCmdEnd (h : Books a b {} e.st) (j : Nat) (cmd : ShelfCmd) (data : Option (List Block))
    (hrun : e.st.ctl.part ≠ .recovering)
    (hvisit : ∀ x c, tfind e.st.jobs j = some x → x.copy = some c →
      (∃ i ∈ e.st.busy, i.owner = .restore j) ∧ x.target.map Prod.fst = some c.lcn) :
    Books a b {} (restoreCmdEnd j cmd data e).st := by
  unfold Machine.restoreCmdEnd
  split
  · exact h.failJob _ hrun
  split
  · exact h
  rename_i x hf
  split
  · exact h
  rename_i c hc
  obtain ⟨hitem, ht⟩ := hvisit x c hf hc
  split
  · exact Books.handOver (h.setStage hf hc hrun) _
  · exact h.commitCopy hf hc hitem ht hrun

/-- An item proceeds (R23). -/
theorem Books.proceed (h : Books a b {} e.st) {i : BusyItem} (hi : firstProceed [] e.st.busy = some i) :
    Books a b {} (proceed i e).st := by
  obtain ⟨s, t, hl, hp, hs⟩ := firstProceed_some hi
  rw [List.nil_append] at hs
  have hmem : i ∈ e.st.busy := by rw [hl]; simp
  have hrun : e.st.ctl.part ≠ .recovering := fun hc => by
    have := (h.idle hc).2.1
    rw [show e.st.ledger.busy = e.st.busy from rfl] at this
    rw [this] at hmem
    cases hmem
  have h1 : Books a b { act := some i.owner } (markProceeded i.owner e).st :=
    Good.proceed (L := e.st.ledger) h hl hp hs rfl
  have hmem1 : { i with proceeded := true } ∈ (markProceeded i.owner e).st.busy :=
    List.mem_map.mpr ⟨i, hmem, by rw [if_pos rfl]⟩
  have hfit := Good.item (L := e.st.ledger) h i hmem
  unfold Machine.proceed
  dsimp only
  cases ho : i.owner with
  | front n =>
    rw [ho] at h1 hmem1
    exact Books.acceptFront h1 ⟨_, hmem1, rfl⟩
  | restore j =>
    rw [ho] at h1 hmem1
    unfold BusyItem.Fits at hfit
    rw [ho] at hfit
    rcases hfit with hfit | ⟨x, hx, hv, hch, hrest⟩
    · cases hfit
    rw [if_neg (by simp [hp])] at hrest
    obtain ⟨hw, hc, ht⟩ := hrest
    have hst : x.state = .running := (h.job hx).visits (by simp [Job.visiting, hw])
    exact Books.decideVisit (e := markProceeded (.restore j) e) h1 hx hst hc hrun hmem1 rfl hv hch rfl ht

end Sys2Proof.Machine
end

section
/-! PROOFS. The books as control requests, creates and freezes are answered (R77 to R80, R104, R127, R173, R174, R183). -/

namespace Sys2Proof.Machine

variable {a b : Prop} {m : Mode} {e : Event} {f : Bool}

/-! ### Replies -/

/-- The executing slot becomes free, with no drain that it waits for. -/
theorem Good.vacate {L : Ledger} (h : Good a b m L) (hm : m.free = true) : Good a b m { L with executing := false } :=
  { h with slot := fun _ => h.slot (.inl hm) }

theorem Books.answerWith (h : Books a b m e.st) (hm : m.free = true) (code : Code) (result : List Nat) (job : Option Nat) :
    Books a b m (answerWith code result job e).st := by
  unfold Machine.answerWith
  split
  · exact h
  · exact Good.vacate (L := e.st.ledger) h hm

theorem Books.reply (h : Books a b m e.st) (hm : m.free = true) (code : Code) (result : List Nat) :
    Books a b m (reply code result e).st := h.answerWith hm code result none

/-! ### The answer to a create -/

/-- Who waits for a create can be answered. -/
def CreateReq.Answerable (c : CreateReq) (m : Mode) (s : State) : Prop :=
  match c.asker with
  | .control => m.free = true
  | .restore j => m.free = true ∧ s.ctl.part ≠ .recovering ∧ ∀ x, tfind s.jobs j = some x → x.state = .starting
  | .schedule .. => True
  | .run => True

theorem SameWork.createEvent (v : Nat) (c : CreateReq) : SameWork e.st (createEvent v c e).2.st := by
  unfold Machine.createEvent
  dsimp only
  split <;> exact ⟨rfl, rfl, rfl, rfl, rfl⟩

theorem CreateReq.Answerable.of_same {c : CreateReq} {s t : State} (hs : SameWork s t) (h : c.Answerable m s) :
    c.Answerable m t := by
  unfold CreateReq.Answerable at h ⊢
  split at h
  · exact h
  · rw [hs.ctl, hs.jobs]
    exact h
  · trivial
  · trivial

theorem Books.answerRestore (h : Books a b m e.st) {j : Nat} (hm : m.free = true) (hact : m.act = none)
    (hrun : e.st.ctl.part ≠ .recovering) (hres : ∀ o, m.res o = 0)
    (hst : ∀ x, tfind e.st.jobs j = some x → x.state = .starting) (ans : CreateAnswer) :
    Books a b m (answerRestore j ans e).st := by
  unfold Machine.answerRestore
  split
  · exact h
  · rename_i x hf
    have hx := hst x hf
    have hsane := h.job hf
    have hv : x.visiting = false := h.not_visiting hf (by simp [hx])
    have hend : x.state.ended = false := by rw [hx]; rfl
    have hnone : ∀ i ∈ e.st.busy, i.owner ≠ .restore j := fun i hi ho => by
      have := h.itemVisits hact hf hi ho
      rw [hv] at this
      cases this
    dsimp only
    split
    · rename_i slot gen
      have h1 := h.pinSnap x.dstVol slot true
      have hs1 := SameWork.pinSnap (e := e) x.dstVol slot true
      have hf1 : tfind (Machine.pinSnap x.dstVol slot true e).st.jobs j = some x := by
        rw [hs1.jobs]
        exact hf
      refine Books.reply (e := wakeJobs ((Machine.pinSnap x.dstVol slot true e).updJob j fun y =>
        { y with pre := some (slot, gen), state := runState (Machine.pinSnap x.dstVol slot true e).st })) ?_ hm _ _
      refine h1.updJob (p := m.pcn) (c := m.claims) (ch := m.charge) (r := m.res) hf1
        ⟨fun hv' => absurd (show x.visiting = true from hv') (by simp [hv]), hsane.waits, fun hr => ?_,
          fun _ => hsane.counts hend, fun _ => hsane.place hend, fun _ => hsane.left hend⟩
        (fun _ => h1.jobStands (x := x) hf1 hend) (.inr (by rw [hs1.busy]; exact hnone))
        (fun v q hq hk => absurd hk (h1.free_not_asked hm v q hq)) (fun hr => absurd hr (by rw [hs1.ctl]; exact hrun))
        (fun _ _ => rfl) (fun _ => rfl) (fun _ _ => rfl) (fun _ _ o => ?_)
      · have := runState_ended (Machine.pinSnap x.dstVol slot true e).st
        rw [show (_ : JobState) = runState (Machine.pinSnap x.dstVol slot true e).st from rfl, this] at hr
        cases hr
      · simp [Job.reservesFor, hend, runState_ended]
    · have h1 := h.releaseChunks (o := x.owner) (n := x.remaining) fun hb hp => h.remaining_le hb hf hp (hres _)
      have h2 := h1.pinSnap x.srcVol x.srcSlot false
      have hs2 := (SameWork.releaseChunks (e := e) x.owner x.remaining).trans
        (SameWork.pinSnap (e := Machine.releaseChunks x.owner x.remaining e) x.srcVol x.srcSlot false)
      have hf2 : tfind (Machine.pinSnap x.srcVol x.srcSlot false (Machine.releaseChunks x.owner x.remaining e)).st.jobs j =
          some x := by
        rw [hs2.jobs]
        exact hf
      refine Books.reply (e := (Machine.pinSnap x.srcVol x.srcSlot false (Machine.releaseChunks x.owner x.remaining e)).upd
        fun s => { s with jobs := tdel j s.jobs }) ?_ hm _ _
      refine Good.adjust (Good.dropJob h2 (r := m.res) hf2 hv (by simp [hact]) (h2.free_not_asked hm) fun _ _ o => ?_)
        rfl rfl rfl rfl (fun _ => rfl) rfl (fun _ => rfl) (fun _ => rfl)
      rw [Job.reservesFor_of_sane hsane]
      dsimp only
      split_ifs <;> omega

theorem Books.volumeFreeze (h : Books a b m e.st) (v gen : Nat) : Books a b m (volumeFreeze v gen e).st := by
  have h1 := h.plainVol v (fun y => { y with
      runCounter := stepWrap Config.maxRunCounter (e.st.vol v).runCounter, runList := y.activeList
      runIncomplete := y.activeIncomplete, activeList := [], activeIncomplete := false
      fullScan := y.fullScan || stepWrap Config.maxRunCounter (e.st.vol v).runCounter == 0 }) (fun _ => rfl) (fun _ => rfl)
    (fun _ => rfl) (fun _ => rfl) (fun _ => rfl) (fun _ => rfl)
  exact h1

theorem Books.nextVolume (h : Books a b m e.st) : Books a b m (nextVolume e).st := by
  unfold Machine.nextVolume
  dsimp only
  split_ifs <;> exact h

theorem Books.answerRun (h : Books a b m e.st) (v : Nat) (ans : CreateAnswer) : Books a b m (answerRun v ans e).st := by
  unfold Machine.answerRun
  split
  · exact h.volumeFreeze v _
  · exact h
  · exact Books.nextVolume (e := (e.note .runVolumeSkipped v Code.genLimit.value 0).updRun fun r =>
      { r with skippedVols := r.skippedVols + 1, passSkipped := r.passSkipped + 1 }) h
  · exact h

theorem Books.answerCreate (h : Books a b m e.st) (v : Nat) {c : CreateReq} (ans : CreateAnswer) (hact : m.act = none)
    (hres : ∀ o, m.res o = 0) (hc : c.Answerable m e.st) : Books a b m (answerCreate v c ans e).st := by
  unfold CreateReq.Answerable at hc
  unfold Machine.answerCreate
  cases ha : c.asker with
  | control =>
    rw [ha] at hc
    dsimp only
    split
    · exact h.reply hc _ _
    · exact h.reply hc _ _
  | schedule i k =>
    dsimp only
    split
    · exact Books.rotate (e := e.note _ _ _ _) h v _ _ _
    · exact h
  | restore j =>
    rw [ha] at hc
    exact h.answerRestore hc.1 hact hc.2.1 hres hc.2.2 ans
  | run => exact h.answerRun v ans

theorem Books.makeSnapshot (h : Books a b m e.st) (v : Nat) {c : CreateReq} (hact : m.act = none)
    (hres : ∀ o, m.res o = 0) (hc : c.Answerable m e.st) : Books a b m (makeSnapshot v c e).st :=
  (h.createEvent v c).answerCreate v _ hact hres (hc.of_same (SameWork.createEvent v c))

theorem Books.takeFollowUp (h : Books a b m e.st) (r : Option Nat) : Books a b m (takeFollowUp r e).2.st := by
  cases r with
  | none => exact h
  | some n => exact h

/-! ### The answer to a freeze -/

theorem Books.answerFreeze (h : Books a b m e.st) (v : Nat) (code : Code) {q : FreezeAsker} (hact : m.act = none)
    (hres : ∀ o, m.res o = 0) (hq : q = .control → m.free = true) : Books a b m (answerFreeze v code q e).st := by
  unfold Machine.answerFreeze
  split
  · exact h.reply (hq rfl) _ _
  · rename_i index record
    have h1 := h.takeFollowUp record
    dsimp only
    split_ifs
    · split
      · exact h1.makeSnapshot v hact hres trivial
      · exact h1
    · exact h1

theorem Books.answerFreezes (v : Nat) (code : Code) (fs : List FreezeAsker) (h : Books a b m e.st) (hact : m.act = none)
    (hres : ∀ o, m.res o = 0) (hq : .control ∈ fs → m.free = true) :
    Books a b m (fs.foldl (fun e q => Machine.answerFreeze v code q e) e).st := by
  induction fs generalizing e with
  | nil => exact h
  | cons q fs ih =>
    refine ih (h.answerFreeze v code hact hres fun hc => hq (by rw [hc]; exact List.mem_cons_self ..)) fun hc =>
      hq (List.mem_cons_of_mem _ hc)

/-! ### The drain whose work is answered -/

/-- What the books need of whoever waits for a drain. -/
theorem Good.openDrain {L : Ledger} (h : Good a b (.calm f) L) (v : Nat) {d : Drain} (hd : (L.vol v).drain = some d) :
    Good a b { free := f || d.work.controlAsks != 0, ex := some v } L := by
  have hworks : (L.vol v).works = d.work :: (L.vol v).waiting := by
    rw [Volume.works, hd]
    rfl
  have hask : ∀ w, (L.asking { free := f || d.work.controlAsks != 0, ex := some v } w).Sublist (L.asking (.calm f) w) := by
    intro w
    unfold Ledger.asking
    by_cases hw : v = w
    · subst hw
      rw [if_pos rfl, if_neg (by simp), hworks]
      exact List.sublist_cons_self ..
    · rw [if_neg (by simpa using hw), if_neg (by simp)]
  have hle : ∀ w, L.asks { free := f || d.work.controlAsks != 0, ex := some v } w ≤ L.asks (.calm f) w :=
    fun w => sum_sublist_le _ (hask w)
  have hv : L.asks { free := f || d.work.controlAsks != 0, ex := some v } v + d.work.controlAsks = L.asks (.calm f) v := by
    unfold Ledger.asks Ledger.asking
    rw [if_pos rfl, if_neg (by simp), hworks, List.map_cons, List.sum_cons]
    omega
  refine { h with
    entry := h.entry
    item := h.item
    asked := fun w c j hc => h.asked w c j ((hask w).subset hc)
    one := fun w => (hle w).trans (h.one w)
    alone := fun w u hw hu => h.alone w u (fun hc => hw (Nat.le_zero.mp ((hle w).trans hc.le)))
      (fun hc => hu (Nat.le_zero.mp ((hle u).trans hc.le)))
    slot := fun hfree w => ?_ }
  have hzero : f = true ∨ L.executing = false ∨ L.part = .recovering → L.asks (.calm f) w = 0 := fun hc => h.slot hc w
  by_cases hc : d.work.controlAsks = 0
  · refine Nat.le_zero.mp ((hle w).trans (hzero ?_).le)
    simpa [hc] using hfree
  · have hne : L.asks (.calm f) v ≠ 0 := by omega
    by_cases hw : w = v
    · subst hw
      have := h.one w
      omega
    · by_contra hcon
      exact hw (h.alone w v (fun hc => hcon (Nat.le_zero.mp ((hle w).trans hc.le))) hne)

/-- A drain's work is answered once; its volume then has no drain. -/
theorem Good.closeDrain {L : Ledger} {v : Nat} (h : Good a b { free := f, ex := some v } L) (hd : (L.vol v).drain = none) :
    Good a b (.calm f) L := by
  have hask : ∀ w, L.asking (.calm f) w = L.asking { free := f, ex := some v } w := by
    intro w
    unfold Ledger.asking
    by_cases hw : v = w
    · subst hw
      rw [if_pos rfl, if_neg (by simp), Volume.works, hd]
      rfl
    · rw [if_neg (by simp), if_neg (by simpa using hw)]
  have hle : ∀ w, L.asks (.calm f) w = L.asks { free := f, ex := some v } w := fun w => by
    unfold Ledger.asks
    rw [hask]
  refine { h with
    entry := h.entry
    item := h.item
    asked := fun w c j hc => h.asked w c j (hask w ▸ hc)
    one := fun w => (hle w).trans_le (h.one w)
    alone := fun w u hw hu => h.alone w u (hle w ▸ hw) (hle u ▸ hu)
    slot := fun hfree w => (hle w).trans (h.slot hfree w) }

/-- Less is known. -/
theorem Good.loosen {L : Ledger} {g : Bool} (h : Good a b (.calm f) L) (hg : g = true → f = true) : Good a b (.calm g) L := by
  refine { h with
    entry := h.entry
    item := h.item
    asked := h.asked
    one := h.one
    alone := h.alone
    slot := fun hfree w => h.slot ?_ w }
  rcases hfree with hfree | hfree
  · exact .inl (hg hfree)
  · exact .inr hfree

end Sys2Proof.Machine
end

section
/-! PROOFS. The books as drains begin, wait and end (R12, R13, R25 to R29), and the creates, freezes and thaws that use them. -/

namespace Sys2Proof.Machine

variable {a b : Prop} {m : Mode} {e : Event} {f : Bool} {v : Nat}

/-! ### A drain ends (R27 to R29) -/

/-- The mode while the work of a running drain is answered. -/
abbrev Mode.answering (f : Bool) (v : Nat) : Mode := { free := f, ex := some v }

theorem DrainWork.controlAsks_holding {c : CreateReq} : (DrainWork.holding c).controlAsks =
    match c.asker with
    | .control => 1
    | .restore _ => 1
    | .schedule .. => 0
    | .run => 0 := rfl

/-- A change of a volume's state, not to ABSENT. -/
theorem Books.setVolState (h : Books a b m e.st) (v : Nat) {s : VolState} (hs : s ≠ .absent) :
    Books a b m (e.updVol v fun x => { x with state := s }).st :=
  h.likeVol v _ (.of_same rfl rfl (fun _ => hs) (List.Subset.refl _) (List.Sublist.refl _) (List.Sublist.refl _))

/-- The work of a volume's running drain can be answered. -/
theorem Books.answerable (h : Books a b (.calm f) e.st) {c : CreateReq} (hc : .holding c ∈ (e.st.vol v).works)
    (hm : m.free = (f || (DrainWork.holding c).controlAsks != 0)) : c.Answerable m e.st := by
  have hin : .holding c ∈ e.st.ledger.asking (.calm f) v := by
    unfold Ledger.asking
    rw [if_neg (by simp)]
    exact hc
  rw [DrainWork.controlAsks_holding] at hm
  unfold CreateReq.Answerable
  cases ha : c.asker with
  | control =>
    rw [ha] at hm
    simpa using hm
  | schedule => trivial
  | run => trivial
  | restore j =>
    rw [ha] at hm
    refine ⟨by simpa using hm, fun hrec => ?_, fun x hx => ?_⟩
    · have h0 := h.slot (.inr (.inr hrec)) v
      unfold Ledger.asks at h0
      rw [List.sum_eq_zero_iff] at h0
      have := h0 _ (List.mem_map_of_mem hin)
      simp [DrainWork.controlAsks, ha] at this
    · obtain ⟨y, hy, hst, -⟩ := h.asked v c j hin ha
      obtain rfl : x = y := Option.some.inj (hx.symm.trans hy)
      exact hst

theorem Books.drainAction (h : Books a b (.calm f) e.st) {d : Drain} (hd : (e.st.vol v).drain = some d) (how : DrainEnd) :
    Books a b (.answering (f || d.work.controlAsks != 0) v) (drainAction v d how e).st := by
  have h1 : Books a b (.answering (f || d.work.controlAsks != 0) v) e.st := Good.openDrain (L := e.st.ledger) h v hd
  have hin : d.work ∈ (e.st.vol v).works := by
    rw [Volume.works, hd]
    exact List.mem_cons_self ..
  unfold Machine.drainAction
  cases hw : d.work with
  | holding c =>
    rw [hw] at h1 hin
    have hans : c.Answerable (.answering (f || (DrainWork.holding c).controlAsks != 0) v) e.st := h.answerable hin rfl
    cases how with
    | taken => exact h1.makeSnapshot v rfl (fun _ => rfl) hans
    | timeout => exact h1.answerCreate v _ rfl (fun _ => rfl) hans
    | withdrawn => exact h1
  | refusing fs =>
    rw [hw] at h1
    have hs : (if how = .taken then VolState.frozen else .normal) ≠ .absent := by
      split_ifs <;> simp
    refine Books.answerFreezes v _ fs (h1.setVolState v hs) rfl (fun _ => rfl) fun hc => ?_
    have : fs.count .control ≠ 0 := fun h0 => List.count_eq_zero.mp h0 hc
    simp [DrainWork.controlAsks, this]

/-- The requests of a hold list are released one after another. -/
theorem Books.releaseAll (l : List Nat) (h : Books a b m e.st) (hact : m.act = none)
    (hl : ∀ n ∈ l, n < e.st.nextArrival ∧ ∀ x ∈ e.st.inflight, x.arrival = n → x.state = .held) :
    Books a b m (l.foldl (fun e n => Machine.releaseHeld n e) e).st ∧
      ∀ w, (l.foldl (fun e n => Machine.releaseHeld n e) e).st.vol w = e.st.vol w := by
  induction l generalizing e with
  | nil => exact ⟨h, fun _ => rfl⟩
  | cons n l ih =>
    have hone := hl n (List.mem_cons_self ..)
    have hstep : (∀ k ∈ l, k < (Machine.releaseHeld n e).st.nextArrival ∧
        ∀ x ∈ (Machine.releaseHeld n e).st.inflight, x.arrival = k → x.state = .held) ∧
        ∀ w, (Machine.releaseHeld n e).st.vol w = e.st.vol w := by
      unfold Machine.releaseHeld
      split
      · exact ⟨fun k hk => hl k (List.mem_cons_of_mem _ hk), fun _ => rfl⟩
      · rename_i x hx
        refine ⟨fun k hk => ?_, fun _ => rfl⟩
        obtain ⟨hlt, hheld⟩ := hl k (List.mem_cons_of_mem _ hk)
        refine ⟨Nat.lt_succ_of_lt hlt, fun y hy hya => ?_⟩
        obtain ⟨z, hz, rfl⟩ := List.mem_map.mp hy
        split_ifs at hya ⊢ with hzn
        · have : e.st.nextArrival = k := hya
          omega
        · exact hheld z hz hya
    obtain ⟨h1, h2⟩ := ih (h.releaseHeld hact hone.2) hstep.1
    exact ⟨h1, fun w => (h2 w).trans (hstep.2 w)⟩

theorem Books.finishDrain (h : Books a b (.calm f) e.st) (v : Nat) (how : DrainEnd) :
    Books a b (.calm f) (finishDrain v how e).st := by
  unfold Machine.finishDrain
  split
  · exact h
  · rename_i d hd
    have h1 := h.drainAction hd how
    have h2 : Books a b (.answering (f || d.work.controlAsks != 0) v)
        ((Machine.drainAction v d how e).updVol v fun x => { x with drain := none, holdList := [] }).st :=
      h1.likeVol v _ (.of_same rfl rfl id (by simp) (List.sublist_append_right ..) (List.Sublist.refl _))
    obtain ⟨h3, hvol⟩ := Books.releaseAll ((Machine.drainAction v d how e).st.vol v).holdList h2 rfl fun n hn =>
      Good.hold (L := (Machine.drainAction v d how e).st.ledger) h1 v n hn
    refine Good.loosen (Good.closeDrain (v := v) h3 ?_) fun hf => by simp [hf]
    show (State.vol _ v).drain = none
    rw [hvol, Event.vol_updVol]

/-! ### A drain is asked for (R25, R26) -/

/-- A work may be taken among the drains' works: whoever waits for it may wait. -/
structure DrainWork.Ready (w : DrainWork) (f : Bool) (v : Nat) (s : State) : Prop where
  slot : w.controlAsks = 0 ∨
    f = true ∧ w.controlAsks = 1 ∧ s.ctl.executing.isSome = true ∧ s.ctl.part ≠ .recovering
  job : ∀ c j, w = .holding c → c.asker = .restore j → ∃ x, tfind s.jobs j = some x ∧ x.state = .starting ∧ x.dstVol = v

theorem Ledger.asking_calm (L : Ledger) (f : Bool) (w : Nat) : L.asking (.calm f) w = (L.vol w).works := by
  unfold Ledger.asking
  rw [if_neg (by simp)]

theorem Ledger.asks_calm (L : Ledger) (f : Bool) (w : Nat) :
    L.asks (.calm f) w = ((L.vol w).works.map DrainWork.controlAsks).sum := by
  rw [Ledger.asks, Ledger.asking_calm]

/-- A volume's drains take up a work. -/
theorem Good.addWork {L : Ledger} (h : Good a b (.calm f) L) {v n : Nat} {y : Volume} (hm : y.map = (L.vol v).map)
    (hs : y.snaps = (L.vol v).snaps) (hst : (L.vol v).state ≠ .absent → y.state ≠ .absent)
    (hh : y.holdList = (L.vol v).holdList)
    (hsum : (y.works.map DrainWork.controlAsks).sum = ((L.vol v).works.map DrainWork.controlAsks).sum + n)
    (hn : n = 0 ∨ f = true ∧ n = 1 ∧ L.executing = true ∧ L.part ≠ .recovering)
    (hask : ∀ c j, .holding c ∈ y.works → c.asker = .restore j → .holding c ∈ (L.vol v).works ∨
      ∃ x, tfind L.jobs j = some x ∧ x.state = .starting ∧ x.dstVol = v) :
    Good a b {} (L.setVol v y) := by
  have hasks : ∀ w, (L.setVol v y).asks (.calm f) w = L.asks (.calm f) w + if w = v then n else 0 := by
    intro w
    rw [Ledger.asks_calm, Ledger.asks_calm]
    split_ifs with hw
    · subst hw
      rw [Ledger.vol_setVol, hsum]
    · rw [Ledger.vol_setVol_ne _ _ hw, add_zero]
  have hzero : n ≠ 0 → ∀ w, L.asks (.calm f) w = 0 := fun h0 w =>
    h.slot (.inl (hn.resolve_left h0).1) w
  have hholds : ∀ k, y.holds k = (L.vol v).holds k := fun k => by
    rw [Volume.holds, Volume.holds, Volume.mapSum, Volume.mapSum, Volume.retCount, Volume.retCount, hm, hs]
  have hcharged : ∀ o, y.chargedTo o = (L.vol v).chargedTo o := fun o => by
    rw [Volume.chargedTo, Volume.chargedTo, Volume.mapSum, Volume.mapSum, hm]
  refine h.replaceVol (p := fun _ => 0) (c := fun _ => 0) (g := false) (fun hw => ?_) hst (fun k hk => h.hold v k (hh ▸ hk))
    (fun hy => ?_) (fun x _ _ _ _ q _ hfit => ?_) (fun _ k => by rw [hholds]) (fun _ o => by rw [hcharged])
    (fun _ _ o => (hcharged o).ge) (fun w q j hq hj => ?_) (fun w => ?_) (fun w u hw hu => ?_) (fun hfree w => ?_)
  · rw [Volume.wf_iff, hm, hs]
    exact (Volume.wf_iff _).mp hw
  · by_cases hx : (L.vol v).state = .absent
    · obtain ⟨h1, h2⟩ := h.bare v hx
      exact ⟨by rw [hm]; exact h1, by rw [hs]; exact h2⟩
    · exact absurd hy (hst hx)
  · unfold ChunkPlan.Fits Volume.entry at hfit ⊢
    rwa [hm]
  · rw [Ledger.asking_calm] at hq
    by_cases hw : w = v
    · subst hw
      rw [Ledger.vol_setVol] at hq
      rcases hask q j hq hj with hold | hjob
      · exact h.asked w q j (by rw [Ledger.asking_calm]; exact hold) hj
      · exact hjob
    · rw [Ledger.vol_setVol_ne _ _ hw] at hq
      exact h.asked w q j (by rw [Ledger.asking_calm]; exact hq) hj
  · rw [hasks]
    have h1 := h.one w
    split_ifs
    · rcases hn with hn | ⟨hf, hn, -⟩
      · omega
      · have := h.slot (.inl hf) w
        omega
    · omega
  · rw [hasks] at hw hu
    by_cases h0 : n = 0
    · refine h.alone w u ?_ ?_
      · split_ifs at hw <;> omega
      · split_ifs at hu <;> omega
    · have hzw := hzero h0 w
      have hzu := hzero h0 u
      split_ifs at hw hu with hwv huv
      · exact hwv.trans huv.symm
      all_goals omega
  · rw [hasks]
    rcases hfree with hc | hfree
    · cases hc
    have h0 : n = 0 := by
      rcases hn with hn | ⟨-, -, hex, hp⟩
      · exact hn
      · rcases hfree with hfree | hfree
        · rw [hfree] at hex
          cases hex
        · exact absurd hfree hp
    rw [h.slot (.inr hfree) w, h0]
    split_ifs <;> rfl

theorem Books.strict (h : Books a b (.calm f) e.st) : Books a b {} e.st := Good.loosen h (by simp)

/-- A drain begins on a volume that has none. -/
theorem Books.startDrain (h : Books a b (.calm f) e.st) {w : DrainWork} (hw : w.Ready f v e.st)
    (hd : (e.st.vol v).drain = none) {d : Drain} (hdw : d.work = w) (y : Volume → Volume)
    (hy : ∀ x, y x = { x with drain := some d }) : Books a b {} (e.updVol v y).st := by
  refine Good.addWork (L := e.st.ledger) h (n := w.controlAsks) (y := y (e.st.vol v)) ?_ ?_ ?_ ?_ ?_ hw.slot ?_
  all_goals rw [hy]
  · rfl
  · rfl
  · exact id
  · rfl
  · show ((Volume.works { e.st.vol v with drain := some d }).map _).sum = ((e.st.vol v).works.map _).sum + _
    simp only [Volume.works, hd, hdw, Option.map_some, Option.map_none, Option.toList_some, Option.toList_none,
      List.map_append, List.map_cons, List.map_nil, List.sum_append, List.sum_cons, List.sum_nil]
    omega
  · intro c j hc hj
    simp only [Volume.works, hdw, Option.map_some, Option.toList_some, List.mem_append, List.mem_singleton] at hc
    rcases hc with hc | hc
    · exact .inr (hw.job c j hc.symm hj)
    · refine .inl ?_
      show .holding c ∈ (e.st.vol v).works
      rw [Volume.works, hd]
      exact List.mem_append_right _ hc

/-- A drain stands on its volume, and with no member it is over at once. -/
theorem Books.placeDrain (h : Books a b (.calm f) e.st) {d : Drain} (hw : d.work.Ready f v e.st)
    (hd : (e.st.vol v).drain = none) : Books a b {} (if d.members = [] then
      Machine.finishDrain v .taken (e.updVol v fun x => { x with drain := some d })
      else e.updVol v fun x => { x with drain := some d }).st := by
  have h1 := h.startDrain hw hd rfl (fun x => { x with drain := some d }) fun _ => rfl
  split_ifs
  · exact h1.finishDrain v .taken
  · exact h1

theorem Books.beginDrain (h : Books a b (.calm f) e.st) {w : DrainWork} (hw : w.Ready f v e.st)
    (hd : (e.st.vol v).drain = none) : Books a b {} (beginDrain v w e).st := by
  unfold Machine.beginDrain
  dsimp only
  split
  · exact h.placeDrain (d := ⟨_, _, _⟩) hw hd
  · by_cases hfrozen : (e.st.vol v).state = .frozen
    · rw [if_pos hfrozen]
      refine Books.strict (f := f) (Books.answerFreezes v .ok _ h rfl (fun _ => rfl) fun hc => ?_)
      rcases hw.slot with h0 | h0
      · exact absurd (List.count_eq_zero.mp h0) (by simpa using hc)
      · exact h0.1
    · rw [if_neg hfrozen]
      have h1 := h.setVolState (s := .freezing) v (by simp)
      exact h1.placeDrain (d := ⟨_, _, _⟩) (e := e.updVol v fun x => { x with state := .freezing }) ⟨hw.slot, hw.job⟩
        (by rw [Event.vol_updVol]; exact hd)


/-- A drain is asked for. -/
theorem Books.askDrain (h : Books a b (.calm f) e.st) {w : DrainWork} (hw : w.Ready f v e.st) :
    Books a b {} (askDrain v w e).st := by
  unfold Machine.askDrain
  dsimp only
  split_ifs with hc
  · exact h.beginDrain hw hc.1
  · refine Good.addWork (L := e.st.ledger) h (n := w.controlAsks)
      (y := { e.st.vol v with waiting := (e.st.vol v).waiting ++ [w] }) rfl rfl id rfl ?_ hw.slot fun c j hc' hj => ?_
    · show ((Volume.works { e.st.vol v with waiting := (e.st.vol v).waiting ++ [w] }).map _).sum =
        ((e.st.vol v).works.map _).sum + _
      simp only [Volume.works, List.map_append, List.map_cons, List.map_nil, List.sum_append, List.sum_cons, List.sum_nil]
      omega
    · simp only [Volume.works, List.mem_append, List.mem_singleton] at hc'
      rcases hc' with hc' | hc' | hc'
      · exact .inl (List.mem_append_left _ hc')
      · exact .inl (List.mem_append_right _ hc')
      · exact .inr (hw.job c j hc'.symm hj)

/-- The next waiting drain begins. -/
theorem Books.beginNext (h : Books a b {} e.st) (hd : (e.st.vol v).drain = none) : Books a b {} (beginNext v e).st := by
  unfold Machine.beginNext
  split
  · exact h
  · rename_i w t hwt
    have hworks : (e.st.vol v).works = w :: t := by
      rw [Volume.works, hd, hwt]
      rfl
    have hasks : e.st.ledger.asks (.calm false) v = w.controlAsks + (t.map DrainWork.controlAsks).sum := by
      rw [Ledger.asks_calm]
      show ((e.st.vol v).works.map _).sum = _
      rw [hworks, List.map_cons, List.sum_cons]
    have h1 : Books a b {} (e.updVol v fun x => { x with waiting := t }).st := by
      refine h.likeVol v (fun x => { x with waiting := t }) (.of_same rfl rfl id (List.Subset.refl _) ?_ ?_)
      · rw [hworks, Volume.works, hd]
        exact List.sublist_cons_self ..
      · rw [hwt]
        exact List.sublist_cons_self ..
    have hd1 : ((e.updVol v fun x => { x with waiting := t }).st.vol v).drain = none := by
      rw [Event.vol_updVol]
      exact hd
    have hjob : ∀ c j, w = .holding c → c.asker = .restore j →
        ∃ x, tfind e.st.jobs j = some x ∧ x.state = .starting ∧ x.dstVol = v := fun c j hc hj =>
      h.asked v c j (by rw [Ledger.asking_calm]; show _ ∈ (e.st.vol v).works; rw [hworks, hc]; exact List.mem_cons_self ..) hj
    by_cases h0 : w.controlAsks = 0
    · exact h1.beginDrain (f := false) ⟨.inl h0, hjob⟩ hd1
    · have hone := h.one v
      rw [hasks] at hone
      have hex : e.st.ledger.executing = true ∧ e.st.ledger.part ≠ .recovering := by
        refine ⟨?_, fun hc => ?_⟩
        · by_contra hc
          have := h.slot (.inr (.inl (by simpa using hc))) v
          rw [hasks] at this
          omega
        · have := h.slot (.inr (.inr hc)) v
          rw [hasks] at this
          omega
      have h2 : Books a b (.calm true) (e.updVol v fun x => { x with waiting := t }).st := by
        refine { h1 with entry := h1.entry, item := h1.item, asked := h1.asked, one := h1.one, alone := h1.alone
                         slot := fun _ u => ?_ }
        rw [Ledger.asks_calm]
        show ((State.vol _ u).works.map _).sum = 0
        by_cases hu : u = v
        · subst hu
          rw [Event.vol_updVol, Volume.works, hd]
          show (t.map _).sum = 0
          omega
        · have h3 : ((e.updVol v fun x => { x with waiting := t }).st.vol u) = e.st.vol u := State.vol_setVol_ne _ _ _ _ hu
          rw [h3]
          by_contra hc
          refine hu (h.alone u v ?_ ?_)
          · rw [Ledger.asks_calm]
            exact hc
          · rw [hasks]
            omega
      exact h2.beginDrain (f := true) ⟨.inr ⟨rfl, by omega, hex.1, hex.2⟩, hjob⟩ hd1

end Sys2Proof.Machine
end

section
/-! PROOFS. The books over creates, freezes and thaws (R12, R13, R77, R173), the offsite engine and its port, and the end of a
run (R127 to R138). -/

namespace Sys2Proof.Machine

variable {a b : Prop} {m : Mode} {e : Event} {f : Bool} {v : Nat}

/-- The books read the ledger only. -/
theorem Books.of_ledger {s t : State} (h : Books a b m s) (ht : t.ledger = s.ledger) : Books a b m t := by
  unfold Books
  rwa [ht]

/-! ### Creates, freezes and thaws -/

theorem DrainWork.Ready.answerable {c : CreateReq} {s : State} (h : (DrainWork.holding c).Ready f v s) :
    c.Answerable (.calm f) s := by
  obtain ⟨hslot, hjob⟩ := h
  rw [DrainWork.controlAsks_holding] at hslot
  unfold CreateReq.Answerable
  cases ha : c.asker with
  | control =>
    rw [ha] at hslot
    exact (hslot.resolve_left one_ne_zero).1
  | schedule => trivial
  | run => trivial
  | restore j =>
    rw [ha] at hslot
    obtain ⟨hf, -, -, hrun⟩ := hslot.resolve_left one_ne_zero
    refine ⟨hf, hrun, fun x hx => ?_⟩
    obtain ⟨y, hy, hst, -⟩ := hjob c j rfl ha
    obtain rfl : x = y := Option.some.inj (hx.symm.trans hy)
    exact hst

theorem Books.askCreate (h : Books a b (.calm f) e.st) {c : CreateReq} (hc : (DrainWork.holding c).Ready f v e.st) :
    Books a b {} (askCreate v c e).st := by
  unfold Machine.askCreate
  split_ifs
  · exact (h.makeSnapshot v rfl (fun _ => rfl) hc.answerable).strict
  · exact h.askDrain hc

/-- Who asks for a freeze may wait for it. -/
def FreezeAsker.Ready (q : FreezeAsker) (f : Bool) (s : State) : Prop :=
  q = .control → f = true ∧ s.ctl.executing.isSome = true ∧ s.ctl.part ≠ .recovering

theorem FreezeAsker.Ready.slot {q : FreezeAsker} {s : State} (hq : q.Ready f s) {n : Nat} (hn : n = [q].count .control) :
    n = 0 ∨ f = true ∧ n = 1 ∧ s.ctl.executing.isSome = true ∧ s.ctl.part ≠ .recovering := by
  by_cases hc : q = .control
  · obtain ⟨h1, h2, h3⟩ := hq hc
    exact .inr ⟨h1, by rw [hn, hc]; rfl, h2, h3⟩
  · exact .inl (by rw [hn, List.count_eq_zero]; simpa [eq_comm] using hc)

/-- One more asker joins the freeze in hand. -/
theorem Books.joinFreeze (h : Books a b (.calm f) e.st) {q : FreezeAsker} (hq : q.Ready f e.st) {g : Drain → Drain}
    (hg : ∀ d, (g d).work = match d.work with | .refusing fs => .refusing (fs ++ [q]) | .holding c => .holding c) :
    Books a b {} (e.updVol v fun x => { x with drain := x.drain.map g }).st := by
  have hadd : ∀ n, (n = 0 ∨ f = true ∧ n = 1 ∧ e.st.ctl.executing.isSome = true ∧ e.st.ctl.part ≠ .recovering) →
      ((Volume.works { e.st.vol v with drain := (e.st.vol v).drain.map g }).map DrainWork.controlAsks).sum =
        ((e.st.vol v).works.map DrainWork.controlAsks).sum + n →
      (∀ c, .holding c ∈ Volume.works { e.st.vol v with drain := (e.st.vol v).drain.map g } → .holding c ∈ (e.st.vol v).works) →
      Books a b {} (e.updVol v fun x => { x with drain := x.drain.map g }).st := fun n hn hsum hin =>
    Good.addWork (L := e.st.ledger) h (y := { e.st.vol v with drain := (e.st.vol v).drain.map g }) rfl rfl id rfl hsum hn
      fun c j hc _ => .inl (hin c hc)
  cases hd : (e.st.vol v).drain with
  | none => exact hadd 0 (.inl rfl) (by simp [Volume.works, hd]) (by simp [Volume.works, hd])
  | some d =>
    cases hw : d.work with
    | holding c =>
      have hgd : (g d).work = .holding c := by rw [hg, hw]
      exact hadd 0 (.inl rfl) (by simp [Volume.works, hd, hgd, hw]) (by simp [Volume.works, hd, hgd, hw])
    | refusing fs =>
      have hgd : (g d).work = .refusing (fs ++ [q]) := by rw [hg, hw]
      refine hadd ([q].count .control) (hq.slot rfl) ?_ fun c hc => List.mem_append_right _ (by
        simpa [Volume.works, hd, hgd] using hc)
      simp only [Volume.works, hd, hgd, hw, Option.map_some, Option.toList_some, List.cons_append, List.nil_append,
        List.map_cons, List.sum_cons, DrainWork.controlAsks, List.count_append]
      omega

theorem Books.askFreeze (h : Books a b (.calm f) e.st) {q : FreezeAsker} (hq : q.Ready f e.st) :
    Books a b {} (askFreeze v q e).st := by
  have hans : ∀ code, Books a b {} (Machine.answerFreeze v code q e).st := fun code =>
    (h.answerFreeze v code rfl (fun _ => rfl) fun hc => (hq hc).1).strict
  unfold Machine.askFreeze
  split
  · exact hans _
  · exact hans _
  · exact hans _
  · exact h.joinFreeze hq fun _ => rfl
  · exact h.askDrain ⟨hq.slot rfl, fun _ _ hc => by cases hc⟩

theorem Books.thawVolume (h : Books a b (.calm f) e.st) (v : Nat) : Books a b (.calm f) (thawVolume v e).2.st := by
  unfold Machine.thawVolume
  split
  · exact h
  · exact h
  · exact h
  · exact Books.resumeFrozen (h.setVolState v (by simp)) v
  · exact h.finishDrain v .withdrawn

theorem Books.snapAction (h : Books a b {} e.st) (v : Nat) {c : CreateReq} {i k : Nat}
    (hc : c.asker = .schedule i k) : Books a b {} (snapAction v c e).st := by
  have hans : ∀ ans, Books a b {} (Machine.answerCreate v c ans e).st := fun ans =>
    h.answerCreate v ans rfl (fun _ => rfl) (by rw [CreateReq.Answerable, hc]; trivial)
  unfold Machine.snapAction
  dsimp only
  split
  · exact hans _
  · split
    · exact hans _
    · refine Books.askCreate (f := false) h ⟨.inl (by rw [DrainWork.controlAsks_holding, hc]), fun c' j hcc ha => ?_⟩
      cases hcc
      rw [hc] at ha
      cases ha

/-! ### The offsite engine's own creates (R127) -/

theorem Books.askRunCreate (h : Books a b (.calm f) e.st) (v : Nat) : Books a b {} (askRunCreate v e).st := by
  refine Books.askCreate (f := f) (e := e.updRun fun r => { r with asked := true }) h ⟨.inl rfl, fun c j hc ha => ?_⟩
  cases hc
  cases ha

theorem Books.beginFreezes (n : Nat) (h : Books a b {} e.st) : Books a b {} (beginFreezes n e).st := by
  induction n generalizing e with
  | zero => exact h
  | succ n ih =>
    unfold Machine.beginFreezes
    split
    · exact h
    · exact ih (Books.askRunCreate (f := false) h _)

theorem sendNext_ledger (v : Nat) : (sendNext v e).st.ledger = e.st.ledger := by
  have hprep : ∀ l, (prepareLcn v l e).st.ledger = e.st.ledger := fun l => by
    unfold Machine.prepareLcn
    split <;> rfl
  unfold Machine.sendNext
  dsimp only
  split_ifs
  · rfl
  · exact hprep _
  · rfl
  · rfl
  · split
    · exact hprep _
    · rfl

theorem Books.engineTurn (h : Books a b {} e.st) : Books a b {} (engineTurn e).st := by
  unfold Machine.engineTurn
  split
  · exact h
  · split
    · exact h
    · split_ifs
      · exact Books.askRunCreate (f := false) h _
      · exact h.of_ledger (sendNext_ledger _)
      · exact h

theorem Books.scanStep (h : Books a b m e.st) : Books a b m (scanStep e).st := by
  unfold Machine.scanStep
  split
  · exact h
  · rename_i v _
    dsimp only
    split
    · exact h
    have hsweep : Books a b m (e.updVol v fun y =>
        y.setEntry e.st.run.pos { (e.st.vol v).entry e.st.run.pos with stamp := none }).st :=
      h.likeVol v _ (.of_stamp (l := e.st.run.pos) (st := none) rfl rfl rfl rfl rfl rfl)
    split <;> split <;> split
    · exact h
    · exact h
    · exact hsweep
    · exact hsweep
    · exact h
    · exact h
    · exact hsweep
    · exact hsweep

/-! ### Acknowledgements (R132, R133, R150) -/



theorem Books.sealAcked (h : Books a b m e.st) : Books a b m (sealAcked e).st := by
  unfold Machine.sealAcked
  split
  · exact h
  · rename_i v _
    have h1 := h.plainVol v (fun x => { x with
      fullScan := x.fullScan && e.st.run.keep, overflow := x.overflow && !(e.st.run.fullScan && !x.activeIncomplete),
      everSealed := true, runList := [], runIncomplete := false }) (fun _ => rfl) (fun _ => rfl) (fun _ => rfl) (fun _ => rfl)
      (fun _ => rfl) (fun _ => rfl)
    dsimp only
    exact Books.nextVolume (Books.queueDeletion (e := (Event.note _ .runVolumeSealed v _ _).updRun _) h1 v 0)

theorem openPass_ledger : (openPass e).st.ledger = e.st.ledger := by
  unfold Machine.openPass readyFrame wakeEngine beginSequence
  rfl

theorem closeAcked_ledger : (closeAcked e).st.ledger = e.st.ledger := by
  unfold Machine.closeAcked
  dsimp only
  split
  · rfl
  · exact openPass_ledger.trans rfl

theorem Books.reportAcked (fs : List Frame) (h : Books a b m e.st) : Books a b m (reportAcked fs e).st := by
  refine foldl_keeps (Q := fun e => Books a b m e.st) (fun e f he => ?_) fs h
  split
  · exact he.sealAcked
  · exact he.of_ledger closeAcked_ledger
  · exact he

theorem Books.takeAck (h : Books a b m e.st) (n : Nat) : Books a b m (takeAck n e).st := by
  unfold Machine.takeAck
  dsimp only
  split
  · exact h
  · split_ifs
    · exact h
    · exact Books.reportAcked (e := e.updPort _) _ h

/-! ### The early end of a run (R138) -/

theorem Books.withdrawRunDrain (h : Books a b (.calm f) e.st) (v : Nat) : Books a b (.calm f) (withdrawRunDrain v e).st := by
  have h1 : Books a b (.calm f) (e.updVol v fun x => { x with waiting := x.waiting.filter fun w => !w.isRun }).st :=
    h.likeVol v _ (.of_same rfl rfl id (List.Subset.refl _)
      (List.Sublist.append (List.Sublist.refl _) List.filter_sublist) List.filter_sublist)
  unfold Machine.withdrawRunDrain
  split
  · split_ifs
    · exact h.finishDrain v .withdrawn
    · exact h1
  · exact h1

theorem Books.mergeBack (h : Books a b m e.st) (v : Nat) : Books a b m (mergeBack v e).st :=
  Books.queueDeletion ((h.logLcns v (e.st.vol v).runList).plainVol v (fun x => { x with runList := [], runIncomplete := false })
    (fun _ => rfl) (fun _ => rfl) (fun _ => rfl) (fun _ => rfl) (fun _ => rfl) (fun _ => rfl)) v 0

theorem Books.endRun (h : Books a b (.calm f) e.st) (r : RunResult) : Books a b (.calm f) (endRun r e).st := by
  have h1 : Books a b (.calm f) (match e.st.currentVol with
      | none => e
      | some v => if e.st.run.phase = Phase.freeze then Machine.withdrawRunDrain v e else Machine.mergeBack v e).st := by
    split
    · exact h
    · split_ifs
      · exact h.withdrawRunDrain _
      · exact h.mergeBack _
  unfold Machine.endRun
  have hend : ∀ (e' : Event) (g : Run → Run) (n d1 d2 : Nat), Books a b (.calm f) e'.st →
      Books a b (.calm f) (((emptyPort (Machine.reownSlots ofSend .dropped (Machine.withdrawCmds ofSend e'))).updRun g).note
        .runEnded n d1 d2).st := fun e' _ _ _ _ h' => (h'.withdrawCmds ofSend).reownSlots ofSend .dropped
  exact hend _ _ _ _ _ h1

theorem sendReadDone_ledger (data : List Block) : (sendReadDone data e).st.ledger = e.st.ledger := by
  unfold Machine.sendReadDone
  split <;> rfl

theorem sendReadError_ledger (cmd : ShelfCmd) (reset : Bool) : (sendReadError cmd reset e).st.ledger = e.st.ledger := by
  unfold Machine.sendReadError
  split
  · rfl
  · split_ifs <;> rfl

theorem Books.sendCmdEnd (h : Books a b (.calm f) e.st) (cmd : ShelfCmd) (data : Option (List Block)) (reset : Bool) :
    Books a b (.calm f) (sendCmdEnd cmd data reset e).st := by
  unfold Machine.sendCmdEnd
  split_ifs
  · exact h.endRun _
  · split
    · exact h.of_ledger (sendReadDone_ledger _)
    · exact h.of_ledger (sendReadError_ledger _ _)

/-! ### The offsite port -/

theorem linkLost_ledger (n : Nat) : (linkLost n e).st.ledger = e.st.ledger := by
  unfold Machine.linkLost Machine.engineLinkDown
  dsimp only
  split_ifs <;> rfl

theorem retryFrom_ledger (n : Nat) : (retryFrom n e).st.ledger = e.st.ledger := by
  unfold Machine.retryFrom
  dsimp only
  split_ifs
  · exact linkLost_ledger _
  · rfl

theorem portTurn_ledger : (portTurn e).st.ledger = e.st.ledger := by
  unfold Machine.portTurn
  dsimp only
  split
  · rfl
  · split
    · split <;> rfl
    · split
      · split_ifs <;> rfl
      · rfl

theorem takeNak_ledger (n : Nat) : (takeNak n e).st.ledger = e.st.ledger := by
  unfold Machine.takeNak
  split_ifs
  · exact retryFrom_ledger _
  · rfl

theorem takeHold_ledger : (takeHold e).st.ledger = e.st.ledger := by
  unfold Machine.takeHold
  split_ifs <;> rfl

theorem takeResume_ledger : (takeResume e).st.ledger = e.st.ledger := by
  unfold Machine.takeResume
  split_ifs <;> rfl

theorem carrierLost_ledger : (carrierLost e).st.ledger = e.st.ledger := by
  unfold Machine.carrierLost
  split_ifs
  · exact linkLost_ledger _
  · rfl

theorem ackTimerIn_ledger : (ackTimerIn e).st.ledger = e.st.ledger := by
  unfold Machine.ackTimerIn
  split
  · exact retryFrom_ledger _
  · rfl

theorem holdTimerIn_ledger : (holdTimerIn e).st.ledger = e.st.ledger := by
  unfold Machine.holdTimerIn
  split_ifs
  · exact linkLost_ledger _
  · rfl

theorem engineLinkUp_ledger : (engineLinkUp e).st.ledger = e.st.ledger := by
  unfold Machine.engineLinkUp
  split_ifs <;> rfl

end Sys2Proof.Machine
end

section
/-! PROOFS. The books as shelf commands end, and over the arbiter and the shelf link (R160 to R167). -/

namespace Sys2Proof.Machine

variable {a b : Prop} {m : Mode} {e : Event} {f : Bool} {v j : Nat}

/-! ### The end of a command leaves the control unit -/

theorem finishEntry_ctl (x : Entry) (code : Code) (blocks : Nat) (data : List Block) :
    (finishEntry x code blocks data e).st.ctl = e.st.ctl := by
  unfold Machine.finishEntry Machine.emitFront
  split_ifs <;> rfl

theorem logLcns_ctl (v : Nat) (ls : List Nat) : (logLcns v ls e).st.ctl = e.st.ctl := by
  obtain ⟨vs, on, h, -⟩ := logLcns_frame v ls e
  rw [h]

theorem commitChunk_ctl (v owner g : Nat) (p : ChunkPlan) : (commitChunk v owner g p e).st.ctl = e.st.ctl := by
  unfold Machine.commitChunk
  split
  · rfl
  · rfl
  · split
    · exact (SameWork.fileDisplaced (e := mapEntry ..) ..).ctl
    · rfl
  · rfl

theorem commitWrite_ctl (x : Entry) : (commitWrite x e).st.ctl = e.st.ctl := by
  have hfold := foldl_keeps (Q := fun u : Event => u.st.ctl = e.st.ctl)
    (f := fun u p => commitChunk x.req.vol x.req.owner x.gen p u) (fun u p hu => (commitChunk_ctl ..).trans hu) x.plan
    (e := e) rfl
  exact (finishEntry_ctl ..).trans ((logLcns_ctl ..).trans hfold)

theorem requestFail_ctl (x : Entry) : (requestFail x e).st.ctl = e.st.ctl :=
  (finishEntry_ctl ..).trans ((logLcns_ctl ..).trans ((SameWork.applyCharges ..).ctl.trans (SameWork.returnClaims ..).ctl))

theorem requestOver_ctl (x : Entry) : (requestOver x e).st.ctl = e.st.ctl := by
  unfold Machine.requestOver
  split_ifs
  · exact requestFail_ctl x
  · split
    · unfold Machine.completeRead
      split_ifs <;> exact finishEntry_ctl ..
    · exact commitWrite_ctl x
    · exact finishEntry_ctl ..
  · rfl

theorem requestCmdEnd_ctl (n lcn : Nat) (why : Purpose) (first : Nat) (data : Option (List Block)) :
    (requestCmdEnd n lcn why first data e).st.ctl = e.st.ctl := by
  unfold Machine.requestCmdEnd
  split
  · rfl
  · rename_i x _
    dsimp only
    split
    · rename_i d
      obtain ⟨p, hp⟩ := takeData_st (e := e) { x with left := x.left - 1 } lcn why first d
      exact (requestOver_ctl _).trans (show (takeData _ lcn why first d e).2.st.ctl = _ by rw [hp])
    · exact requestOver_ctl _

theorem failJob_ctl (j pcn : Nat) : (failJob j pcn e).st.ctl = e.st.ctl := by
  unfold Machine.failJob
  split
  · rfl
  · rename_i x hf
    split
    · rfl
    · rename_i c _
      obtain ⟨hj, -, hctl⟩ := abandonCopy_jobs (e := e) (j := j) (x := x) c
      have hf1 : tfind (abandonCopy j x c e).st.jobs j = some x := hj ▸ hf
      obtain ⟨e', he, -, hsame⟩ := endJob_steps (updJob_find hf1 fun y => { y with failedPcn := some pcn }) .failedShelf
      rw [he, (updJob_other _).2.1, hsame.ctl, (updJob_other _).2.1, hctl]

/-! ### The end of a command -/

/-- What the work in flight has to be for the end of a command: its restore job runs a visit, its abandoned PCN is
pending return. -/
def CmdReady (s : State) (c : ShelfCmd) : Prop :=
  (∀ j, c.owner = .restore j → s.ctl.part ≠ .recovering ∧ ∀ x y, tfind s.jobs j = some x → x.copy = some y →
    (∃ i ∈ s.busy, i.owner = .restore j) ∧ x.target.map Prod.fst = some y.lcn) ∧
  ∀ n, c.owner = .abandoned n → n ∈ s.returns

theorem Books.cmdEnd (h : Books a b {} e.st) {c : ShelfCmd} (hc : CmdReady e.st c) (data : Option (List Block))
    (reset : Bool) : Books a b {} (cmdEnd c data reset e).st := by
  unfold Machine.cmdEnd
  split
  · exact h.requestCmdEnd _ _ _ _ _
  · rename_i j hj
    obtain ⟨hrun, hvisit⟩ := hc.1 j hj
    exact h.restoreCmdEnd j c data hrun hvisit
  · rename_i n hn
    exact h.completeReturn (hc.2 n hn) rfl
  · exact Books.sendCmdEnd (f := false) h _ _ _
  · exact h

theorem Books.endSlot (h : Books a b {} e.st) {slot : Nat} {r : SlotRec} (hr : CmdReady e.st r.cmd)
    (result : Except Nat (List Block)) : Books a b {} (endSlot slot r result e).st := by
  unfold Machine.endSlot
  dsimp only
  split
  · exact Books.cmdEnd (e := { e.updShelf _ with todo := _ }) h hr _ _
  · exact Books.cmdEnd (e := noteShelfError _ _ { e.updShelf _ with todo := _ }) h hr _ _

/-- The commands in the slots can end. -/
def SlotsReady (s : State) : Prop := ∀ p ∈ s.shelf.slots, CmdReady s p.2.cmd

theorem Books.shelfReplyIn (h : Books a b {} e.st) (hs : SlotsReady e.st) (slot epoch use : Nat) (w : Bool)
    (r : ShelfResult) : Books a b {} (shelfReplyIn slot epoch use w r e).st := by
  unfold Machine.shelfReplyIn
  dsimp only
  split
  · exact h
  · rename_i r hr
    split_ifs
    · exact h.endSlot (hs _ (mem_of_tfind hr)) _
    · exact h

theorem Books.shelfTimeoutIn (h : Books a b {} e.st) (hs : SlotsReady e.st) (slot : Nat) :
    Books a b {} (shelfTimeoutIn slot e).st := by
  unfold Machine.shelfTimeoutIn
  split
  · exact h
  · rename_i r hr
    exact h.endSlot (hs _ (mem_of_tfind hr)) _

/-! ### The link goes DOWN (R166) -/

theorem Books.tellRequests (rs : List SlotRec) (h : Books a b {} e.st)
    (hr : ∀ r ∈ rs, ∃ n l w, r.cmd.owner = .request n l w) :
    Books a b {} (tellOwners rs e).st ∧ (tellOwners rs e).st.ctl = e.st.ctl := by
  induction rs generalizing e with
  | nil => exact ⟨h, rfl⟩
  | cons r rs ih =>
    obtain ⟨n, l, w, ho⟩ := hr r (List.mem_cons_self ..)
    have hstep : Machine.cmdEnd r.cmd none true e = Machine.requestCmdEnd n l w r.cmd.first none e := by
      rw [Machine.cmdEnd, ho]
    obtain ⟨h1, h2⟩ := ih (h.requestCmdEnd n l w r.cmd.first none) fun q hq => hr q (List.mem_cons_of_mem _ hq)
    rw [show tellOwners (r :: rs) e = tellOwners rs (Machine.cmdEnd r.cmd none true e) from rfl, hstep]
    exact ⟨h1, h2.trans (requestCmdEnd_ctl ..)⟩

theorem Books.tellJobs (rs : List SlotRec) (h : Books a b {} e.st) (hrun : rs ≠ [] → e.st.ctl.part ≠ .recovering)
    (hr : ∀ r ∈ rs, ∃ j, r.cmd.owner = .restore j) : Books a b {} (tellOwners rs e).st := by
  induction rs generalizing e with
  | nil => exact h
  | cons r rs ih =>
    obtain ⟨j, ho⟩ := hr r (List.mem_cons_self ..)
    have hrun := hrun (List.cons_ne_nil _ _)
    have hstep : Machine.cmdEnd r.cmd none true e = Machine.failJob j r.cmd.pcn e := by
      rw [Machine.cmdEnd, ho]
      rfl
    rw [show tellOwners (r :: rs) e = tellOwners rs (Machine.cmdEnd r.cmd none true e) from rfl, hstep]
    exact ih (h.failJob r.cmd.pcn hrun) (fun _ => by rwa [failJob_ctl]) fun q hq => hr q (List.mem_cons_of_mem _ hq)

theorem completeReturn_returns (n : Nat) : (completeReturn n e).st.returns = e.st.returns.erase n := by
  unfold Machine.completeReturn Machine.returnClaims
  rw [freePcns_st]
  rfl

theorem Books.completeReturns (l : List Nat) (h : Books a b {} e.st) (hl : ∀ n, l.count n ≤ e.st.returns.count n) :
    Books a b {} (l.foldl (fun e n => Machine.completeReturn n e) e).st := by
  induction l generalizing e with
  | nil => exact h
  | cons n l ih =>
    have hn : n ∈ e.st.returns := by
      have := hl n
      rw [List.count_cons_self] at this
      exact List.count_pos_iff.mp (by omega)
    refine ih (h.completeReturn hn rfl) fun k => ?_
    have hk := hl k
    rw [completeReturn_returns, List.count_erase]
    rw [List.count_cons] at hk
    by_cases hkn : n = k
    · simp only [hkn, beq_self_eq_true, if_true] at hk ⊢
      omega
    · simp only [beq_iff_eq, hkn, if_false] at hk ⊢
      omega

theorem Books.tellSends (rs : List SlotRec) (h : Books a b {} e.st) (hr : ∀ r ∈ rs, r.cmd.owner = .send) :
    Books a b {} (tellOwners rs e).st := by
  induction rs generalizing e with
  | nil => exact h
  | cons r rs ih =>
    have hstep : Machine.cmdEnd r.cmd none true e = Machine.sendCmdEnd r.cmd none true e := by
      rw [Machine.cmdEnd, hr r (List.mem_cons_self ..)]
    rw [show tellOwners (r :: rs) e = tellOwners rs (Machine.cmdEnd r.cmd none true e) from rfl, hstep]
    exact ih (Books.sendCmdEnd (f := false) h _ _ _) fun q hq => hr q (List.mem_cons_of_mem _ hq)

theorem Books.shelfDown (h : Books a b {} e.st) (hs : SlotsReady e.st) : Books a b {} (shelfDown e).st := by
  unfold Machine.shelfDown
  split
  · exact h
  · dsimp only
    obtain ⟨h1, hctl⟩ := Books.tellRequests (e := e.updShelf fun p => { p with up := false, slots := [] })
      (sortByKey (fun r => (arrivalOf r).getD 0) ((e.st.shelf.slots.map (·.2)).filter fun r => (arrivalOf r).isSome)) h
      fun r hr => by
        rw [(sortByKey_spec _ _).2.mem_iff, List.mem_filter, arrivalOf] at hr
        obtain ⟨-, hr⟩ := hr
        split at hr
        · exact ⟨_, _, _, ‹_›⟩
        · cases hr
    have hjobs : ∀ r ∈ jobCmds (e.st.shelf.slots.map (·.2)), r ∈ e.st.shelf.slots.map (·.2) ∧ ∃ j, r.cmd.owner = .restore j := by
      intro r hr
      rw [jobCmds, (sortByKey_spec _ _).2.mem_iff, List.mem_filter] at hr
      obtain ⟨hin, hr⟩ := hr
      split at hr
      · exact ⟨hin, _, ‹_›⟩
      · cases hr
    refine Books.tellSends _ (Books.completeReturns _ (Books.tellJobs _ h1 (fun hne => ?_) fun r hr => (hjobs r hr).2)
      fun n => ?_) fun r hr => ?_
    · obtain ⟨r, hr⟩ := List.exists_mem_of_ne_nil _ hne
      obtain ⟨hin, j, hj⟩ := hjobs r hr
      obtain ⟨p, hp, rfl⟩ := List.mem_map.mp hin
      rw [hctl]
      exact ((hs p hp).1 j hj).1
    · exact List.filter_sublist.count_le n
    · simpa using (List.mem_filter.mp hr).2

theorem Books.shelfUp (h : Books a b m e.st) : Books a b m (shelfUp e).st := by
  unfold Machine.shelfUp Machine.resumeShelf
  split_ifs <;> exact h

/-! ### The arbiter -/

theorem Books.markSlotted (h : Books a b m e.st) (c : ShelfCmd) : Books a b m (markSlotted c e).st := by
  unfold Machine.markSlotted
  split
  · rename_i n l _
    refine Good.mapEntries (L := e.st.ledger) h (g := fun x => if x.arrival = n then
      { x with plan := x.plan.map fun p => if p.lcn = l then { p with slotted := true } else p } else x) fun x _ => ?_
    split_ifs
    · refine .of_plan (f := fun p => if p.lcn = l then { p with slotted := true } else p) rfl rfl rfl rfl rfl rfl ?_ ?_ ?_ ?_
      all_goals
        intro p
        split_ifs <;> rfl
    · exact .refl x
  · exact h

theorem Books.grants (n : Nat) (h : Books a b m e.st) : Books a b m (grants n e).st := by
  induction n generalizing e with
  | zero => exact h
  | succ n ih =>
    unfold Machine.grants
    dsimp only
    split
    · exact h
    · split
      · split
        · exact ih (Books.markSlotted (e := e.updShelf _) h _)
        · exact h
      · exact h

end Sys2Proof.Machine
end

section
/-! PROOFS. The books over the evaluations, the reset and the recovery steps (R178, R181). -/

namespace Sys2Proof.Machine

variable {a b : Prop} {m : Mode} {L : Ledger} {e : Event} {f : Bool} {v j : Nat}

/-! ### The evaluations -/

/-- An account record is written with the same charge and the same reserved count. -/
theorem Books.setAcct_plain {s : State} (h : Books a b m s) (o : Nat) {x : Account} (hc : x.charge = (s.acct o).charge)
    (hr : x.reserved = (s.acct o).reserved) : Books a b m (s.setAcct o x) := by
  have hget : ∀ q, tget Account.fresh (tset Account.fresh o x s.accounts) q = if q = o then x else s.acct q := fun q => by
    split_ifs with hq
    · rw [hq, tget_tset_same]
    · rw [tget_tset_ne _ _ _ _ _ hq]
      rfl
  refine Books.setAcct (e := { st := s }) h (c := m.charge) (r := m.res) (fun _ q => ?_) fun hb q => ?_
  · rw [hget]
    split_ifs with hq
    · rw [hc, hq]
    · rfl
  · refine Books.reservedStands (e := { st := s }) h hb q ?_
    rw [hget]
    split_ifs with hq
    · rw [hr, hq]
    · rfl

theorem Books.reportAccount {s : State} (h : Books a b m s) (o : Nat) : Books a b m (reportAccount s o).1 := by
  unfold Machine.reportAccount
  split_ifs
  · exact h
  · exact h.setAcct_plain o rfl rfl

theorem Books.evaluateAccount {s : State} (h : Books a b m s) (o : Nat) : Books a b m (evaluateAccount s o).1 := by
  obtain ⟨x, q, l, hq⟩ := settleAccount_frame s o
  unfold Machine.evaluateAccount
  rw [hq]
  split_ifs
  · exact h
  · have h1 := h.setAcct_plain o (x := { s.acct o with expiry := x, queued := q }) rfl rfl
    refine Books.reportAccount ?_ o
    exact h1

theorem Books.evalAccounts {s : State} (h : Books a b m s) (c : Causes) : Books a b m (c.evalAccounts s).1 := by
  refine evalEach_keeps (fun s k hs => ?_) _ _ h
  split_ifs
  · exact hs.evaluateAccount k
  · exact hs.reportAccount k

theorem Books.settleAccounts (h : Books a b m e.st) : Books a b m e.settleAccounts.st := h.evalAccounts _

theorem Books.evalReserve {s : State} (h : Books a b m s) (v : Nat) : Books a b m (evalReserve s v).1 := by
  rcases evalReserve_frame s v with hr | ⟨q, hr⟩
  · rwa [hr]
  · rw [hr]
    exact Books.plainVol (e := { st := s }) h v (fun x => { x with reserveOver := q }) (fun _ => rfl) (fun _ => rfl)
      (fun _ => rfl) (fun _ => rfl) (fun _ => rfl) (fun _ => rfl)

theorem Books.evaluated (h : Books a b m e.st) : Books a b m e.evaluated := by
  have h1 : Books a b m (if e.all.pool then evalPool e.st else (e.st, [])).1 := by
    split_ifs
    · obtain ⟨q, hq⟩ := evalPool_frame e.st
      rw [hq]
      exact h
    · exact h
  exact evalEach_keeps (P := fun s => Books a b m s) (fun s k hs => Books.evalReserve hs k) _ _ (h1.evalAccounts _)

/-- The end of an event. -/
theorem Books.closeEvent (h : Books a b m e.st) : Books a b m (closeEvent e) := by
  have h1 := h.evaluated
  obtain ⟨ns, q, hr⟩ := completeReplies_ctl e.evaluated.frontUp e.evaluate.2 e.evaluated.ctl {} e.parts e.evaluated.out
  unfold Machine.closeEvent
  dsimp only
  rw [hr, foldl_offer]
  exact h1

/-! ### The reset (R178, R181) -/

theorem resetVolume_holds (x : Volume) (n : Nat) : (resetVolume x).holds n = x.holds n := by
  unfold Volume.holds Volume.retCount
  congr 1
  exact totalOf_map (f := fun d : Snap => (d.retained.map RetEntry.pcn).count n) (g := fun d : Snap => { d with inUse := 0 })
    fun _ _ => rfl

theorem resetVolume_bare {x : Volume} (h : x.bare) : (resetVolume x).bare := by
  refine ⟨h.1, fun p hp => ?_⟩
  obtain ⟨q, hq, rfl⟩ := List.mem_map.mp hp
  exact h.2 q hq

theorem resetVolume_absent {x : Volume} : (resetVolume x).state = .absent ↔ x.state = .absent := by
  unfold resetVolume
  dsimp only
  split_ifs with h
  · simp [h]
  · rfl

theorem resetJob_claims (x : Job) : (resetJob x).claims = x.claims := by
  simp [resetJob, Job.claims]

theorem Job.Sane.reset {x : Job} (h : x.Sane) : (resetJob x).Sane where
  visits := fun hv => h.visits (by
    simp only [Job.visiting, resetJob, Option.isSome_map, Bool.false_or] at hv
    simp [Job.visiting, hv])
  waits := by simp [resetJob]
  settled := h.settled
  counts := h.counts
  place := h.place
  left := fun he => by
    rw [resetJob_claims]
    exact h.left he

/-- What accepted requests will release is there, in every part state. -/
theorem Good.owed_le (h : Good a b m L) (hb : b) (hfin : m.fin = none) (o : Nat) :
    (L.mirror.map fun r => (- r.chargeOf o).toNat).sum ≤ L.mapped o := by
  by_cases hrec : L.part = .recovering
  · exact h.owed hb hrec o
  · have := h.releases_le hfin hrec o List.nodup_nil (by simp) (by simp)
    simpa using this

theorem Books.reset {s : State} (h : Books a b (.calm f) s) (hacc : Table.sorted s.accounts = true) (p : Bool) :
    Books a b {} (resetState p s) := by
  have hvol : ∀ w, (resetState p s).vol w = resetVolume (s.vol w) := tget_tmap rfl (Good.volsSorted h)
  have hworks : ∀ w, ((resetState p s).vol w).works = [] := fun w => by
    rw [hvol]
    rfl
  have hasking : ∀ w, (resetState p s).ledger.asking {} w = [] := fun w => by
    rw [Ledger.asking_calm]
    exact hworks w
  have hasks : ∀ w, (resetState p s).ledger.asks {} w = 0 := fun w => by
    rw [Ledger.asks, hasking]
    rfl
  have habsent : ∀ w, (s.vol w).state ≠ .absent → ((resetState p s).vol w).state ≠ .absent := fun w hw => by
    rw [hvol]
    exact fun hc => hw (resetVolume_absent.mp hc)
  have hacct : ∀ o, tget Account.fresh (tmap Account.fresh resetAccount s.accounts) o = resetAccount (s.acct o) :=
    tget_tmap rfl hacc
  have hmapped : ∀ o, (resetState p s).ledger.mapped o = s.ledger.mapped o := fun o =>
    totalOf_tmap (f := Volume.chargedTo o) (Volume.bare_absent.chargedTo o) fun _ => rfl
  have hcond : (resetFormat s.format).cond = .valid → s.format.cond = .valid ∧ resetFormat s.format = s.format ∧
      (if s.format.cond = .formatting then [] else s.free) = s.free := by
    unfold resetFormat
    split_ifs with hc
    · intro hv
      cases hv
    · exact fun hv => ⟨hv, rfl, rfl⟩
  refine
    { volsWf := wf_tmap (Good.volsSorted h)
      volWf := forall_tmap (Q := fun x : Volume => x.wf = true) fun q hq => resetVolume_wf (Good.volWf h q hq)
      jobsWf := (sorted_map_snd _ _).trans h.jobsWf
      bare := fun w hw => ?_
      count := fun ha => ?_
      places := fun ha hv n => ?_
      charged := fun hb o => ?_
      reserved := fun hb o => ?_
      arrivals := List.nodup_nil
      mirrored := h.mirrored
      entry := by simp [State.ledger, resetState]
      record := fun r hr => ?_
      hold := fun w n hn => ?_
      order := List.Pairwise.nil
      owners := List.nodup_nil
      item := by simp [State.ledger, resetState]
      placed := by simp [State.ledger, resetState]
      job := fun q hq => ?_
      asked := fun w c j hc => by simp [hasking] at hc
      one := fun w => by simp [hasks]
      alone := fun w u hw => absurd (hasks w) hw
      slot := fun _ w => hasks w
      idle := fun _ => ⟨rfl, rfl, fun q hq => ?_, le_rfl, Nat.le_of_ble_eq_true rfl,
        fun h2 => absurd (show 2 ≤ 1 from h2) (by decide), fun h3 => absurd (show 3 ≤ 1 from h3) (by decide)⟩
      owed := fun hb _ o => ?_ }
  · change ((resetState p s).vol w).state = .absent at hw
    change ((resetState p s).vol w).bare
    rw [hvol] at hw ⊢
    exact resetVolume_bare (h.bare w (resetVolume_absent.mp hw))
  · have h1 := h.count ha
    have h2 : totalOf Job.claims (resetState p s).jobs = totalOf Job.claims s.jobs :=
      totalOf_map (g := resetJob) fun q _ => resetJob_claims q.2
    show (s.claims : Int) = ((_ + totalOf Job.claims (resetState p s).jobs + _ : Nat) : Int) + 0
    rw [h2]
    exact h1
  · obtain ⟨hval, hfmt, hfree⟩ := hcond hv
    have h1 := h.places ha hval n
    have h2 : totalOf (Job.holds n) (resetState p s).jobs = totalOf (Job.holds n) s.jobs :=
      totalOf_map (g := resetJob) fun q _ => by simp [Job.holds, resetJob, Function.comp_def]
    have h3 : totalOf (Volume.holds n) (resetState p s).vols = totalOf (Volume.holds n) s.vols :=
      totalOf_tmap (Volume.bare_absent.holds n) fun x => resetVolume_holds x n
    show (((if s.format.cond = .formatting then [] else s.free).count n + totalOf (Volume.holds n) (resetState p s).vols + _ +
      totalOf (Job.holds n) (resetState p s).jobs + _ : Nat) : Int) + 0 = if n < (resetFormat s.format).pool then 1 else 0
    rw [hfree, hfmt, h2, h3]
    exact h1
  · have h1 := h.charged hb o
    have h2 : (resetState p s).ledger.copies o = s.ledger.copies o :=
      totalOf_map (g := resetJob) fun q _ => by simp [Job.copiesFor, resetJob]
    show ((tget Account.fresh (tmap Account.fresh resetAccount s.accounts) o).charge : Int) =
      (resetState p s).ledger.mapped o + s.ledger.pledged o + (resetState p s).ledger.copies o + 0
    rw [hacct, h2, hmapped]
    exact h1
  · show (tget Account.fresh (tmap Account.fresh resetAccount s.accounts) o).reserved = 0
    rw [hacct]
    rfl
  · obtain ⟨h1, h2, -⟩ := h.record r hr
    exact ⟨habsent _ h1, h2, fun hc => absurd rfl hc⟩
  · change n ∈ ((resetState p s).vol w).holdList at hn
    rw [hvol] at hn
    cases hn
  · obtain ⟨r, hr, rfl⟩ := List.mem_map.mp hq
    obtain ⟨h1, h2⟩ := Good.job h r hr
    exact ⟨h1.reset, fun he => habsent _ (h2 he)⟩
  · obtain ⟨q, -, rfl⟩ := List.mem_map.mp hq
    rfl
  · rw [hmapped]
    exact Good.owed_le h hb rfl o

/-! ### The steps of recovery pass (R178) -/

/-- Recovery goes on to its next step. -/
theorem Good.nextStep (h : Good a b m L) (hle : L.recStep ≤ 3)
    (hm : L.recStep = 1 → L.mirror = [])
    (hj : L.recStep = 2 → L.returns = [] ∧ ∀ p ∈ L.jobs, p.2.state.ended = true) :
    Good a b m { L with recStep := L.recStep + 1 } := by
  refine { h with idle := fun hrec => ?_ }
  obtain ⟨h1, h2, h3, h4, h5, h6, h7⟩ := h.idle hrec
  refine ⟨h1, h2, h3, by show 1 ≤ L.recStep + 1; omega, by show L.recStep + 1 ≤ 4; omega, fun hs => ?_, fun hs => ?_⟩
  · change 2 ≤ L.recStep + 1 at hs
    by_cases h8 : L.recStep = 1
    · exact hm h8
    · exact h6 (by omega)
  · change 3 ≤ L.recStep + 1 at hs
    by_cases h8 : L.recStep = 2
    · exact hj h8
    · exact h7 (by omega)

/-- Recovery is over. -/
theorem Good.recovered (h : Good a b (.calm f) L) (hrec : L.part = .recovering) (hstep : 3 ≤ L.recStep) (k : Nat) :
    Good a b (.calm f) { L with part := .standby, recStep := k } := by
  obtain ⟨hin, hbusy, hwait, -, -, hmir, hjobs⟩ := h.idle hrec
  have hmir := hmir (by omega)
  obtain ⟨-, hended⟩ := hjobs hstep
  refine { h with
    reserved := fun hb o => ?_
    entry := fun x hx => ?_
    record := fun r hr => ?_
    slot := fun _ => h.slot (.inr (.inr hrec))
    idle := fun hc => by cases hc
    owed := fun _ hc => by cases hc }
  · have h1 := h.reserved hb o
    rw [if_pos hrec] at h1
    have h2 : L.remaining o = 0 := totalOf_eq_zero fun p hp => by simp [Job.reservesFor, hended p hp]
    rw [if_neg (by simp)]
    show ((L.acct o).reserved : Int) = L.remaining o + 0
    rw [h1, h2]
    rfl
  · rw [show L.inflight = [] from hin] at hx
    cases hx
  · rw [show L.mirror = [] from hmir] at hr
    cases hr

theorem Books.endRecovery (h : Books a b (.calm f) e.st) (hrec : e.st.ctl.part = .recovering) (hstep : 3 ≤ e.st.ctl.recStep) :
    Books a b (.calm f) (endRecovery e).st := by
  have h1 : ∀ q, Books a b (.calm f)
      { e.st with poolLow := q, ctl := { e.st.ctl with part := .standby, recStep := 0 } } := fun _ =>
    Good.recovered (L := e.st.ledger) h hrec hstep 0
  unfold Machine.endRecovery
  dsimp only
  split_ifs <;> exact h1 _

theorem stepDone_iff {s : State} : (s.ctl.recStep = 1 → stepDone s = true → s.mirror = []) ∧
    (s.ctl.recStep = 2 → stepDone s = true → s.returns = [] ∧ ∀ p ∈ s.jobs, p.2.state.ended = true) := by
  refine ⟨fun h1 hd => ?_, fun h2 hd => ?_⟩
  · rw [stepDone, h1] at hd
    simpa using hd
  · rw [stepDone, h2] at hd
    simp only [Bool.and_eq_true, List.isEmpty_iff, Option.isNone_iff_eq_none, openJob, List.find?_eq_none] at hd
    exact ⟨hd.1, fun p hp => by simpa using hd.2 p hp⟩

theorem settleAccounts_ctl : e.settleAccounts.st.ctl = e.st.ctl := by
  refine evalEach_keeps (P := fun s => s.ctl = e.st.ctl) (fun s k hs => ?_) _ _ rfl
  rw [← hs]
  have hrep : ∀ s : State, (reportAccount s k).1.ctl = s.ctl := fun s => by
    unfold Machine.reportAccount
    split_ifs <;> rfl
  obtain ⟨x, q, l, hq⟩ := settleAccount_frame s k
  split_ifs
  · unfold Machine.evaluateAccount
    rw [hq]
    split_ifs
    · rfl
    · exact hrep _
  · exact hrep s

theorem Books.advanceRecovery (n : Nat) (h : Books a b (.calm f) e.st) (hrec : e.st.ctl.part = .recovering) :
    Books a b (.calm f) (advanceRecovery n e).st := by
  induction n generalizing e with
  | zero => exact h
  | succ n ih =>
    have h1 := h.settleAccounts
    have hrec1 : e.settleAccounts.st.ctl.part = .recovering := by rwa [settleAccounts_ctl]
    unfold Machine.advanceRecovery
    dsimp only
    split
    · exact h1
    rename_i hdone
    rw [not_not] at hdone
    split
    · exact h1.endRecovery hrec1 (by omega)
    · have h2 : Books a b (.calm f) (e.settleAccounts.updCtl fun c => { c with recStep := c.recStep + 1 }).st :=
        Good.nextStep (L := e.settleAccounts.st.ledger) h1
          (by show e.settleAccounts.st.ctl.recStep ≤ 3; omega)
          (fun hs => stepDone_iff.1 hs hdone) fun hs => stepDone_iff.2 hs hdone
      exact ih h2 hrec1

theorem Books.goOnRecovering (h : Books a b (.calm f) e.st) (hrec : e.st.ctl.part = .recovering) :
    Books a b (.calm f) (goOnRecovering e).st := h.advanceRecovery _ hrec

theorem Books.resetPart (h : Books a b (.calm f) e.st) (hacc : Table.sorted e.st.accounts = true) (p : Bool) :
    Books a b {} (resetPart p e).st :=
  Books.goOnRecovering (f := false) (e := { st := resetState p e.st }) (h.reset hacc p) rfl

theorem Books.endRunNow (h : Books a b (.calm f) e.st) (r : RunResult) : Books a b (.calm f) (endRunNow r e).st := by
  have h1 := h.endRun r
  unfold Machine.endRunNow
  dsimp only
  split_ifs with hs
  · exact h1.goOnRecovering (by simp only [inStep, Bool.and_eq_true, beq_iff_eq] at hs; exact hs.1)
  · exact h1

theorem Books.recoverRun (h : Books a b (.calm f) e.st) : Books a b (.calm f) (recoverRun e).st := by
  unfold Machine.recoverRun
  split_ifs
  · exact h.endRunNow _
  · exact h

theorem Books.testDeadline (h : Books a b (.calm f) e.st) : Books a b (.calm f) (testDeadline e).st := by
  unfold Machine.testDeadline
  split_ifs
  · exact h.endRunNow _
  · exact h

theorem Books.rebuildExpiry (h : Books a b (.calm f) e.st) : Books a b (.calm f) (rebuildExpiry e).st := by
  unfold Machine.rebuildExpiry
  split
  · exact h
  · rename_i hs
    simp only [not_not, inStep, Bool.and_eq_true, beq_iff_eq] at hs
    have h1 := foldl_keeps (Q := fun u : Event => Books a b (.calm f) u.st ∧ u.st.ctl = e.st.ctl)
      (f := fun u p => u.updAcct p.2 fun x => { x with queued := true })
      (fun u p hu => ⟨hu.1.updAcct_plain p.2 (f := fun x => { x with queued := true }) (fun _ => rfl) fun _ => rfl, hu.2⟩) (rebuiltQueue e.st.accounts)
      (e := e.upd fun s => { s with expiryQueue := rebuiltQueue e.st.accounts }) ⟨h, rfl⟩
    obtain ⟨h1, h2⟩ := h1
    exact h1.endRecovery (h2 ▸ hs.1) (by rw [h2, hs.2]; decide)

/-! ### The pieces of recovery work -/

/-- A record of the mirror is taken off in recovery. -/
theorem Good.dropRecord (h : Good a b m L) (hrec : L.part = .recovering) {r : MirrorRec} {rest : List MirrorRec}
    (hr : L.mirror = r :: rest) :
    Good a b { m with
        pcn := fun n => m.pcn n + r.claims.count n
        claims := m.claims + r.claims.length
        charge := fun o => m.charge o + netOf r.charges o } { L with mirror := rest } := by
  obtain ⟨hin, hbusy, hwait, h4, h5, hmir, hjobs⟩ := h.idle hrec
  refine { h with
    count := fun ha => ?_
    places := fun ha hv n => ?_
    charged := fun hb o => ?_
    mirrored := ?_
    entry := fun x hx => ?_
    record := fun q hq => ?_
    item := fun i hi => ?_
    idle := fun _ => ⟨hin, hbusy, hwait, h4, h5, fun h2 => ?_, hjobs⟩
    owed := fun hb hrec o => ?_ }
  · have h1 := h.count ha
    unfold Ledger.claimed at h1
    rw [hr, List.map_cons, List.sum_cons] at h1
    show (L.claims : Int) = (((rest.map fun r => r.claims.length).sum + totalOf Job.claims L.jobs + L.returns.length : Nat) : Int)
      + (m.claims + r.claims.length)
    omega
  · have h1 := h.places ha hv n
    unfold Ledger.holds at h1
    rw [hr, List.map_cons, List.sum_cons] at h1
    show ((L.free.count n + totalOf (Volume.holds n) L.vols + (rest.map fun r => r.claims.count n).sum +
      totalOf (Job.holds n) L.jobs + L.returns.count n : Nat) : Int) + (m.pcn n + r.claims.count n) = _
    rw [← h1]
    omega
  · have h1 := h.charged hb o
    unfold Ledger.pledged at h1
    rw [hr, List.map_cons, List.sum_cons, MirrorRec.chargeOf_eq] at h1
    show ((L.acct o).charge : Int) = L.mapped o + (rest.map fun r => r.chargeOf o).sum + L.copies o +
      (m.charge o + netOf r.charges o)
    omega
  · have h1 := h.mirrored
    rw [hr] at h1
    exact (List.nodup_cons.mp h1).2
  · rw [show L.inflight = [] from hin] at hx
    cases hx
  · exact h.record q (by rw [hr]; exact List.mem_cons_of_mem _ hq)
  · rw [show L.busy = [] from hbusy] at hi
    cases hi
  · rw [hmir h2] at hr
    cases hr
  · have h1 := h.owed hb hrec o
    rw [hr, List.map_cons, List.sum_cons] at h1
    exact (Nat.le_add_left _ _).trans h1

theorem Books.recoverMirror (h : Books a b {} e.st) : Books a b {} (recoverMirror e).st := by
  unfold Machine.recoverMirror
  split
  · exact h
  · rename_i r rest hr
    split
    · exact h
    · rename_i hs
      simp only [not_not, inStep, Bool.and_eq_true, beq_iff_eq] at hs
      have hmem : r ∈ e.st.ledger.mirror := by
        show r ∈ e.st.mirror
        rw [hr]
        exact List.mem_cons_self ..
      have h1 := h.returnClaims (ps := r.claims) fun ha => by
        have h1 := h.count ha
        unfold Ledger.claimed at h1
        have h2 : r.claims.length ≤ (e.st.mirror.map fun r => r.claims.length).sum :=
          List.single_le_sum (by simp) _ (List.mem_map.mpr ⟨r, hmem, rfl⟩)
        have h3 : (e.st.claims : Int) = (((e.st.mirror.map fun r => r.claims.length).sum + totalOf Job.claims e.st.jobs +
          e.st.returns.length : Nat) : Int) + 0 := h1
        omega
      have hacct : ∀ o, (Machine.returnClaims r.claims e).st.acct o = e.st.acct o := fun o => by
        unfold Machine.returnClaims
        rw [freePcns_st]
        rfl
      have h2 := h1.applyCharges (sign := -1) (l := r.charges) (h.record r hmem).2.1 fun hb o => by
        have h3 : ((e.st.acct o).charge : Int) = (e.st.ledger.mapped o : Nat) + e.st.ledger.pledged o +
          (e.st.ledger.copies o : Nat) + 0 := h.charged hb o
        have h4 := h.owed hb hs.1 o
        have h5 := pledged_without hmem o
        rw [MirrorRec.chargeOf_eq] at h5
        rw [hacct]
        omega
      have h3 := h2.logLcns r.vol r.inPlace
      have hctl : (Machine.logLcns r.vol r.inPlace (Machine.applyCharges (-1) r.charges
          (Machine.returnClaims r.claims e))).st.ctl = e.st.ctl :=
        (logLcns_ctl ..).trans ((SameWork.applyCharges ..).ctl.trans (SameWork.returnClaims ..).ctl)
      have hmir : (Machine.logLcns r.vol r.inPlace (Machine.applyCharges (-1) r.charges
          (Machine.returnClaims r.claims e))).st.mirror = r :: rest := by
        obtain ⟨vs, on, hl, -⟩ := logLcns_frame r.vol r.inPlace (Machine.applyCharges (-1) r.charges
          (Machine.returnClaims r.claims e))
        rw [hl, applyCharges_frame]
        unfold Machine.returnClaims
        rw [freePcns_st]
        exact hr
      have hrec : (Machine.logLcns r.vol r.inPlace (Machine.applyCharges (-1) r.charges
          (Machine.returnClaims r.claims e))).st.ctl.part = .recovering := by
        rw [hctl]
        exact hs.1
      have h4 := Good.dropRecord (L := State.ledger _) h3 hrec hmir
      refine Books.goOnRecovering (f := false) (Good.adjust h4 rfl rfl rfl rfl (fun n => ?_) ?_ (fun o => ?_) fun _ => rfl) hrec
      · show (0 : Int) = 0 - r.claims.count n + r.claims.count n
        omega
      · show (0 : Int) = 0 - r.claims.length + r.claims.length
        omega
      · show (0 : Int) = 0 + -1 * netOf r.charges o + netOf r.charges o
        omega

theorem Books.recoverReturn (h : Books a b {} e.st) : Books a b {} (recoverReturn e).st := by
  unfold Machine.recoverReturn
  split
  · exact h
  · rename_i p rest hr
    split
    · exact h
    · rename_i hs
      simp only [not_not, inStep, Bool.and_eq_true, beq_iff_eq] at hs
      have hret : e.st.ledger.returns = p :: rest := hr
      have h1 : Books a b { pcn := fun k => if p = k then 1 else 0, claims := 1 }
          (e.upd fun s => { s with returns := rest }).st := by
        refine Good.setReturns (L := e.st.ledger) h (fun _ k => ?_) (fun _ => ?_) fun _ hk => ?_
        · rw [hret, List.count_cons]
          by_cases hpk : p = k
          · simp [hpk]
          · simp [hpk]
        · rw [hret, List.length_cons]
          show (rest.length : Int) + 1 = ((rest.length + 1 : Nat) : Int) + 0
          omega
        · change 3 ≤ e.st.ctl.recStep at hk
          omega
      have h2 := h1.returnOne p fun ha => by
        have h3 : (e.st.claims : Int) = (((e.st.mirror.map fun r => r.claims.length).sum + totalOf Job.claims e.st.jobs +
          e.st.returns.length : Nat) : Int) + 0 := h.count ha
        rw [hr, List.length_cons] at h3
        show 1 ≤ e.st.claims
        omega
      refine Books.goOnRecovering (f := false) (Good.adjust h2 rfl rfl rfl rfl (fun n => ?_) ?_ (fun _ => rfl) fun _ => rfl) ?_
      · show (0 : Int) = (if p = n then 1 else 0) - if p = n then 1 else 0
        omega
      · rfl
      · rw [(SameWork.returnClaims ..).ctl]
        exact hs.1

/-- Nobody waits on a drain for a control reply in RECOVERING. -/
theorem Books.recovering_not_asked (h : Books a b m e.st) (hrec : e.st.ctl.part = .recovering) :
    ∀ v q, .holding q ∈ e.st.ledger.asking m v → q.asker ≠ .restore j := by
  intro v q hq ha
  have h0 := h.slot (.inr (.inr hrec)) v
  rw [Ledger.asks, List.sum_eq_zero_iff] at h0
  have := h0 _ (List.mem_map_of_mem hq)
  rw [DrainWork.controlAsks_holding, ha] at this
  cases this

/-- The copy of a job is given up in recovery: its claim and its charge go back. -/
theorem Books.giveUpCopy (h : Books a b {} e.st) {x : Job} (hf : tfind e.st.jobs j = some x) (hmir : e.st.mirror = []) :
    Books a b { pcn := fun n => - x.holds n, claims := - x.claims, charge := fun o => - x.copiesFor o }
        (match x.copy with
          | some c => Machine.uncharge x.owner (Machine.returnClaims [c.pcn] e)
          | none => e).st ∧
      SameWork e.st (match x.copy with
          | some c => Machine.uncharge x.owner (Machine.returnClaims [c.pcn] e)
          | none => e).st := by
  cases hc : x.copy with
  | none =>
    obtain ⟨h1, h2, h3⟩ := Job.bare_of_copy hc
    exact ⟨Good.adjust h rfl rfl rfl rfl (fun n => by simp [h2]) (by simp [h1]) (fun o => by simp [h3]) fun _ => rfl, .rfl'⟩
  | some c =>
    have hone : x.claims = 1 := by simp [Job.claims, hc]
    have h1 := h.returnOne c.pcn fun ha => by
      have h3 : (e.st.claims : Int) = (((e.st.mirror.map fun r => r.claims.length).sum + totalOf Job.claims e.st.jobs +
        e.st.returns.length : Nat) : Int) + 0 := h.count ha
      have h4 := le_totalOf (f := Job.claims) hf
      omega
    have hacct : ∀ o, (Machine.returnClaims [c.pcn] e).st.acct o = e.st.acct o := fun o => by
      unfold Machine.returnClaims
      rw [freePcns_st]
      rfl
    have h2 := h1.uncharge (o := x.owner) fun hb => by
      have h3 : ((e.st.acct x.owner).charge : Int) = (e.st.ledger.mapped x.owner : Nat) + e.st.ledger.pledged x.owner +
        (e.st.ledger.copies x.owner : Nat) + 0 := h.charged hb _
      have h4 : e.st.ledger.pledged x.owner = 0 := by
        show (e.st.mirror.map _).sum = 0
        rw [hmir]
        rfl
      have h5 : x.copiesFor x.owner ≤ e.st.ledger.copies x.owner := le_totalOf (f := Job.copiesFor x.owner) hf
      have h6 : x.copiesFor x.owner = 1 := by simp [Job.copiesFor, hc]
      rw [hacct]
      omega
    refine ⟨Good.adjust h2 rfl rfl rfl rfl (fun n => ?_) ?_ (fun o => ?_) fun _ => rfl,
      (SameWork.returnClaims ..).trans (SameWork.applyCharges ..)⟩
    · simp only [Job.holds, hc, Option.map_some, Option.some.injEq]
      split_ifs <;> simp
    · rw [hone]
      rfl
    · simp only [Job.copiesFor, hc, Option.isSome_some, Bool.true_and, beq_iff_eq]
      split_ifs <;> simp

/-- An open job that waits for nothing ends FAILED-INTERRUPTED once its copy is given up (R118). -/
theorem Books.interruptJob {x : Job}
    (h : Books a b { pcn := fun n => - x.holds n, claims := - x.claims, charge := fun o => - x.copiesFor o } e.st)
    (hf : tfind e.st.jobs j = some x) (hrec : e.st.ctl.part = .recovering) :
    Books a b {} (e.updJob j fun _ => { x with state := .failedInterrupted, remaining := 0, copy := none }).st := by
  obtain ⟨-, hbusy, hwait, -⟩ := h.idle hrec
  have hx : x.waiting = false := hwait (j, x) (mem_of_tfind hf)
  refine h.updJob hf (r := fun _ => 0) ?_ (fun hc => by cases hc)
    (.inr (by rw [show e.st.busy = [] from hbusy]; simp)) (fun v q hq ha => ?_)
    (fun _ => ⟨hx, rfl⟩) (fun _ n => ?_) (fun _ => ?_) (fun _ o => ?_) fun _ hc => absurd hrec hc
  · exact
      { visits := by simp [Job.visiting, hx]
        waits := fun _ => rfl
        settled := fun _ => rfl
        counts := fun hc => by cases hc
        place := fun hc => by cases hc
        left := fun hc => by cases hc }
  · exact absurd ha (h.recovering_not_asked hrec v q hq)
  · show (0 : Int) + ((0 : Nat) : Int) = - x.holds n + x.holds n
    omega
  · show (0 : Int) + ((0 : Nat) : Int) = - x.claims + x.claims
    omega
  · show (0 : Int) + ((Job.copiesFor o _ : Nat) : Int) = - x.copiesFor o + x.copiesFor o
    simp [Job.copiesFor]

theorem Books.recoverJob (h : Books a b {} e.st) : Books a b {} (recoverJob e).st := by
  unfold Machine.recoverJob
  split
  · exact h
  rename_i hs
  simp only [not_or, not_not, inStep, Bool.and_eq_true, beq_iff_eq] at hs
  obtain ⟨⟨hrec, hstep⟩, -⟩ := hs
  split
  · exact h
  rename_i j x hopen
  have hf : tfind e.st.jobs j = some x := tfind_of_mem h.jobsWf (List.mem_of_find?_eq_some hopen)
  obtain ⟨-, -, -, -, -, hmir, -⟩ := h.idle hrec
  have hmir : e.st.mirror = [] := hmir (by rw [show e.st.ledger.recStep = e.st.ctl.recStep from rfl, hstep])
  obtain ⟨h1, hsame⟩ := h.giveUpCopy hf hmir
  have hrec1 := congrArg Control.part hsame.ctl
  rw [hrec] at hrec1
  have h2 := h1.interruptJob (hsame.jobs.symm ▸ hf) hrec1
  refine Books.goOnRecovering (f := false) ?_ ?_
  · exact h2
  · exact (congrArg Control.part (updJob_other _).2.1).trans hrec1

end Sys2Proof.Machine
end

section
/-! PROOFS. The books over the clock and the schedule (R168 to R175), the partner's frames, the fill and the delete walk (R2,
R10). -/

namespace Sys2Proof.Machine

variable {a b : Prop} {m : Mode} {L : Ledger} {e : Event} {f : Bool} {v j : Nat}

/-! ### The schedule unit -/

theorem Books.fireFreeze (h : Books a b {} e.st) (i : Nat) (x : SchedEntry) : Books a b {} (fireFreeze i x e).st := by
  have hask : ∀ (e' : Event) (r : Option Nat), Books a b {} e'.st →
      Books a b {} (Machine.askFreeze x.volume (.schedule i r) e').st := fun e' r h' =>
    Books.askFreeze (f := false) h' fun hc => by cases hc
  unfold Machine.fireFreeze
  split_ifs
  · exact hask _ _ h
  · exact hask _ _ h
  · exact hask _ _ h

theorem Books.fireThaw (h : Books a b {} e.st) (i : Nat) (x : SchedEntry) : Books a b {} (fireThaw i x e).st := by
  have h1 : Books a b {} (Machine.thawVolume x.volume e).2.st := Books.thawVolume (f := false) h _
  unfold Machine.fireThaw
  dsimp only
  split_ifs <;> exact h1

theorem startRun_ledger (k : RunMode) (n : Nat) : (startRun k n e).st.ledger = e.st.ledger := openPass_ledger

theorem Books.fireRun (h : Books a b {} e.st) (i : Nat) (x : SchedEntry) : Books a b {} (fireRun i x e).st := by
  unfold Machine.fireRun
  split
  · exact h
  · exact Books.beginFreezes _ (h.of_ledger (startRun_ledger _ _))

theorem Books.fireEntry (h : Books a b {} e.st) (i : Nat) (x : SchedEntry) : Books a b {} (fireEntry i x e).st := by
  unfold Machine.fireEntry
  split
  · exact h.snapAction _ rfl
  · exact h.fireFreeze i x
  · exact h.fireThaw i x
  · exact h.fireRun i x
  · exact h
  · exact h

theorem midnightSwap_ledger : (midnightSwap e).st.ledger = e.st.ledger := by
  unfold Machine.midnightSwap
  split <;> rfl

theorem Books.minuteBoundary (h : Books a b {} e.st) : Books a b {} (minuteBoundary e).st := by
  have h1 : Books a b {} (if e.st.sched.clock % Config.daySeconds = 0 ∧ e.st.ctl.part ≠ .recovering then
      Machine.midnightSwap e else e).st := by
    split_ifs
    · exact h.of_ledger midnightSwap_ledger
    · exact h
  unfold Machine.minuteBoundary
  dsimp only
  generalize (if e.st.sched.clock % Config.daySeconds = 0 ∧ e.st.ctl.part ≠ .recovering then Machine.midnightSwap e
      else e) = e' at h1 ⊢
  split_ifs
  · exact foldl_keeps (Q := fun u => Books a b {} u.st) (fun _ p hu => hu.fireEntry p.1 p.2) _ h1
  · exact h1

theorem beginPass_ledger : (beginPass e).st.ledger = e.st.ledger := by
  unfold Machine.beginPass
  split_ifs <;> rfl

theorem Books.advanceClock (h : Books a b {} e.st) : Books a b {} (advanceClock e).st := by
  unfold Machine.advanceClock
  split
  · exact h
  · have h0 : Books a b {} (Machine.testDeadline (e.updSched fun d => { d with clock := d.clock + 1 })).st :=
      Books.testDeadline (f := false) (e := e.updSched fun d => { d with clock := d.clock + 1 }) h
    have h1 := h0.of_ledger beginPass_ledger
    dsimp only
    split_ifs
    · exact h1.minuteBoundary
    · exact h1

theorem Books.setClock (h : Books a b (.calm f) e.st) (n : Nat) : Books a b (.calm f) (setClock n e).st :=
  Books.testDeadline (Books.of_ledger (s := (e.updSched fun d => { d with clockSet := true, clock := n }).st) h
    beginPass_ledger)

theorem Books.fireExpiry (h : Books a b m e.st) : Books a b m (fireExpiry e).st := by
  unfold Machine.fireExpiry
  split
  · exact h
  · rename_i x tag rest _
    split_ifs
    · exact h
    · exact Books.touchAcct (Books.updAcct_plain (e := e.upd fun s => { s with expiryQueue := rest }) h tag
        (f := fun x => { x with queued := false }) (fun _ => rfl) fun _ => rfl) tag

/-! ### The partner's frames -/

theorem Books.takeHello (h : Books a b (.calm f) e.st) (site : Nat) : Books a b (.calm f) (takeHello site e).st := by
  have h1 : Books a b (.calm f) ((if ¬ e.st.port.up ∨ e.st.port.site ≠ some site then
      e.note .linkUp site (flag (site == e.st.ctl.config.partnerSite)) 0 else e).updPort fun p =>
        { p with up := true, site := some site }).st := by
    split_ifs <;> exact h
  unfold Machine.takeHello
  dsimp only
  generalize (if ¬ e.st.port.up = true ∨ e.st.port.site ≠ some site then
      e.note .linkUp site (flag (site == e.st.ctl.config.partnerSite)) 0 else e) = e' at h1 ⊢
  split
  · exact h1.of_ledger engineLinkUp_ledger
  · split
    · exact h1
    · exact h1.endRunNow _

theorem Books.partnerFrame (h : Books a b {} e.st) (p : Partner) : Books a b {} (partnerFrame p e).st := by
  unfold Machine.partnerFrame
  dsimp only
  split
  · exact Books.takeHello (f := false) h _
  all_goals split
  · exact h.of_ledger takeHold_ledger
  · exact h
  · exact h.of_ledger takeResume_ledger
  · exact h
  · exact h.takeAck _
  · exact h
  · exact h.of_ledger (takeNak_ledger _)
  · exact h

theorem Books.partnerBytes (h : Books a b {} e.st) (l : List Byte) : Books a b {} (partnerBytes l e).st := by
  unfold Machine.partnerBytes
  split
  · exact h.partnerFrame _
  · exact h

/-! ### A part without volumes -/

/-- Without a volume no request is in flight, no claim outstanding in the mirror, and no job open. -/
theorem Good.empty (h : Good a b m L) (hv : L.vols = []) : L.inflight = [] ∧ L.mirror = [] ∧
    ∀ p ∈ L.jobs, p.2.state.ended = true ∧ p.2.copy = none := by
  have hvol : ∀ w, (L.vol w).state = .absent := fun w => by
    rw [Ledger.vol, hv]
    rfl
  refine ⟨List.eq_nil_iff_forall_not_mem.mpr fun x hx => (h.entry x hx).2.1 (hvol _),
    List.eq_nil_iff_forall_not_mem.mpr fun r hr => (h.record r hr).1 (hvol _), fun p hp => ?_⟩
  obtain ⟨hsane, hst⟩ := h.job p hp
  have hend : p.2.state.ended = true := by
    by_contra hc
    exact hst (by simpa using hc) (hvol _)
  refine ⟨hend, ?_⟩
  by_contra hc
  have hrun := hsane.visits (by simp [Job.visiting, Option.isSome_iff_ne_none.mpr hc])
  rw [hrun] at hend
  cases hend

theorem Good.bare_of_empty (h : Good a b m L) (hv : L.vols = []) : (∀ n, totalOf (Volume.holds n) L.vols = 0) ∧
    (∀ n, totalOf (Job.holds n) L.jobs = 0) ∧ totalOf Job.claims L.jobs = 0 := by
  obtain ⟨-, -, hjobs⟩ := h.empty hv
  refine ⟨fun n => by rw [hv]; rfl, fun n => totalOf_eq_zero fun p hp => ?_, totalOf_eq_zero fun p hp => ?_⟩
  · exact (Job.bare_of_copy (hjobs p hp).2).2.1 n
  · exact (Job.bare_of_copy (hjobs p hp).2).1

/-- A new pool is taken where no volume stands (R1). -/
theorem Good.format (h : Good a b m L) (hv : L.vols = []) (hr : L.returns = []) (hc : m.claims = 0) (p k : Nat) :
    Good a b m { L with cond := .formatting, pool := p, k := k, free := [], claims := 0 } := by
  obtain ⟨hin, hmir, -⟩ := h.empty hv
  obtain ⟨-, -, hclaims⟩ := h.bare_of_empty hv
  refine { h with
    count := fun ha => ?_
    places := fun _ hc => by cases hc
    entry := fun x hx => ?_
    item := fun i hi => ?_ }
  · show ((0 : Nat) : Int) = (((L.mirror.map fun r => r.claims.length).sum + totalOf Job.claims L.jobs + L.returns.length : Nat) :
      Int) + m.claims
    rw [hmir, hclaims, hr, hc]
    rfl
  · rw [show L.inflight = [] from hin] at hx
    cases hx
  · have h1 := h.item i hi
    unfold BusyItem.Fits at h1 ⊢
    split at h1
    · obtain ⟨x, hx, -⟩ := h1
      rw [hin] at hx
      cases hx
    · exact h1

/-- The last PCN of the fill has its place: the pool is in balance (R2). -/
theorem Good.filled (h : Good a b m L) (hv : L.vols = []) (hr : L.returns = []) (hm : ∀ n, m.pcn n = 0)
    (hf : L.free = List.range L.pool) : Good a b m { L with cond := .valid } := by
  obtain ⟨-, hmir, -⟩ := h.empty hv
  obtain ⟨hvols, hjobs, -⟩ := h.bare_of_empty hv
  refine { h with places := fun _ _ n => ?_ }
  show ((L.free.count n + totalOf (Volume.holds n) L.vols + (L.mirror.map fun r => r.claims.count n).sum +
    totalOf (Job.holds n) L.jobs + L.returns.count n : Nat) : Int) + m.pcn n = if n < L.pool then 1 else 0
  rw [hvols, hjobs, hmir, hr, hf, hm, List.nodup_range.count]
  simp only [List.mem_range]
  split_ifs <;> simp

/-- What a fill in hand has placed so far. -/
def FillReady (s : State) : Prop :=
  s.format.cond = .formatting → s.vols = [] ∧ s.returns = [] ∧ s.free = List.range s.free.length ∧ s.free.length < s.format.pool

theorem Books.fillStep (h : Books a b {} e.st) (hfill : FillReady e.st) : Books a b {} (fillStep e).st := by
  unfold Machine.fillStep
  dsimp only
  split
  · exact h
  · rename_i hcond
    obtain ⟨hv, hr, hfree, hlt⟩ := hfill (not_not.mp hcond)
    have h1 : Books a b {} (Machine.freePcns [e.st.freeCount] e).st := by
      have h0 := h.freePcns [e.st.freeCount]
      rw [freePcns_st] at h0 ⊢
      refine { h0 with places := fun _ hc => ?_ }
      have : e.st.format.cond = .valid := hc
      rw [not_not.mp hcond] at this
      cases this
    split
    · exact h1
    · rename_i hlast
      have hst : (Machine.freePcns [e.st.freeCount] e).st = { e.st with free := List.range e.st.format.pool } := by
        have hpool : e.st.format.pool = e.st.free.length + 1 := by
          have : ¬ e.st.free.length + 1 < e.st.format.pool := hlast
          omega
        rw [freePcns_st, hpool, List.range_succ, ← hfree]
        rfl
      rw [hst] at h1
      show Books a b {} { (Machine.freePcns [e.st.freeCount] e).st with
        format := { e.st.format with cond := .valid }, poolLow := false }
      rw [hst]
      exact Good.filled (L := State.ledger _) h1 hv hr (fun _ => rfl) rfl

/-! ### The delete walk (R10) -/

/-- The snapshots of a volume change, with the PCNs that its retained sets hold. -/
theorem Books.setSnaps (h : Books a b m e.st) {v : Nat} (f : Volume → Volume) (hst : (e.st.vol v).state ≠ .absent)
    (hm : ∀ x, (f x).map = x.map) (hs : Table.sorted (f (e.st.vol v)).snaps = true) (hstate : ∀ x, (f x).state = x.state)
    (hh : ∀ x, (f x).holdList = x.holdList) (hw : ∀ x, (f x).works = x.works) (hwait : ∀ x, (f x).waiting = x.waiting) :
    Books a b { m with pcn := fun n => m.pcn n + (e.st.vol v).retCount n - (f (e.st.vol v)).retCount n }
      (e.updVol v f).st := by
  have hwf := h.volWf v
  have hsum : ∀ g, (f (e.st.vol v)).mapSum g = (e.st.vol v).mapSum g := fun g => by
    rw [Volume.mapSum, hm, Volume.mapSum]
  refine Good.setVol (L := e.st.ledger) h (y := f (e.st.vol v)) (c := m.charge)
    ⟨fun _ => ?_, ?_, ?_, ?_⟩ (fun n hn => ?_) (fun hy => ?_) (fun y _ _ _ _ q _ hfit => ?_) (fun _ n => ?_) (fun _ o => ?_)
    (fun _ _ o => ?_)
  · exact (Volume.wf_iff _).mpr ⟨by rw [hm]; exact ((Volume.wf_iff _).mp hwf).1, hs⟩
  · rw [hstate]
    exact id
  · rw [hw]
    exact List.Sublist.refl _
  · rw [hwait]
    exact List.Sublist.refl _
  · rw [hh] at hn
    exact h.hold v n hn
  · rw [hstate] at hy
    exact absurd hy hst
  · rw [ChunkPlan.Fits] at hfit ⊢
    rwa [Volume.entry, hm]
  · show (((f (e.st.vol v)).mapSum _ + (f (e.st.vol v)).retCount n : Nat) : Int) + _ =
      (((e.st.vol v).mapSum _ + (e.st.vol v).retCount n : Nat) : Int) + _
    rw [hsum]
    omega
  · show (((f (e.st.vol v)).mapSum _ : Nat) : Int) + _ = (((e.st.vol v).mapSum _ : Nat) : Int) + _
    rw [hsum]
  · exact (hsum _).ge

theorem Books.walkFree (h : Books a b m e.st) (v pcn : Nat) :
    Books a b { m with pcn := fun n => m.pcn n - if pcn = n then 1 else 0 } (walkFree v pcn e).st := by
  have h1 := h.plainVol v (fun x => { x with walkFreed := x.walkFreed + 1 }) (fun _ => rfl) (fun _ => rfl) (fun _ => rfl)
    (fun _ => rfl) (fun _ => rfl) (fun _ => rfl)
  exact Good.adjust (h1.freePcns [pcn]) rfl rfl rfl rfl (fun n => by simp [List.count_singleton]) rfl (fun _ => rfl)
    (fun _ => rfl)

theorem walkFree_acct (v pcn : Nat) (e : Event) (o : Nat) : (Machine.walkFree v pcn e).st.acct o = e.st.acct o := by
  unfold Machine.walkFree
  rw [freePcns_st]
  rfl

/-- The owner of the entry at the delete walk has it among its charges. -/
theorem Books.walk_charge (h : Books a b {} e.st) (hb : b) (hrun : e.st.ctl.part ≠ .recovering)
    (hnone : ∀ x ∈ e.st.inflight, x.req.vol ≠ v) {pcn born owner l : Nat}
    (hform : ((e.st.vol v).entry l).form = .mapped pcn born owner) : 1 ≤ (e.st.acct owner).charge := by
  have := h.charge_ge hb hrun rfl (o := owner) rfl (K := [(v, l)]) (List.nodup_singleton _)
    (fun k hk x hx _ hv => by
      rw [List.mem_singleton.mp hk] at hv
      exact absurd hv (hnone x hx))
    (fun k hk => by
      rw [List.mem_singleton.mp hk, hform]
      simp [Form.chargedTo])
  simpa using this

theorem Books.walkEntry (h : Books a b {} e.st) (hrun : e.st.ctl.part ≠ .recovering)
    (hnone : ∀ x ∈ e.st.inflight, x.req.vol ≠ v) : Books a b {} (walkEntry v e).st := by
  have hnext : ∀ {m : Mode} {e' : Event}, Books a b m e'.st →
      Books a b m (e'.updVol v fun y => { y with deletePos := y.deletePos + 1 }).st := fun h' =>
    h'.plainVol v (fun y => { y with deletePos := y.deletePos + 1 }) (fun _ => rfl) (fun _ => rfl) (fun _ => rfl)
      (fun _ => rfl) (fun _ => rfl) (fun _ => rfl)
  unfold Machine.walkEntry
  dsimp only
  split
  · exact hnext h
  · rename_i pcn born owner hform
    have hu : Untouched {} e.st v (e.st.vol v).deletePos := fun x hx _ hv => absurd hv (hnone x hx)
    have h1 := h.setForm (f := fun _ => .unmapped (e.st.vol v).gen) hu (.inr ⟨_, rfl⟩) hrun
    have h2 := (hnext h1).walkFree v pcn
    have h3 := h2.uncharge (o := owner) fun hb => (walkFree_acct ..).symm ▸ h.walk_charge hb hrun hnone hform
    refine Good.adjust h3 rfl rfl rfl rfl (fun n => ?_) rfl (fun o => ?_) fun _ => rfl
    · show (0 : Int) = 0 + (((e.st.vol v).entry (e.st.vol v).deletePos).form.pcnIs n : Nat) - 0 - if pcn = n then 1 else 0
      rw [hform, Form.pcnIs]
      split_ifs <;> rfl
    · show (0 : Int) = 0 + (((e.st.vol v).entry (e.st.vol v).deletePos).form.chargedTo o : Nat) - 0 - if owner = o then 1 else 0
      rw [hform, Form.chargedTo]
      split_ifs <;> rfl

/-- A volume that holds nothing and that no work names is removed. -/
theorem Good.removeVol (h : Good a b m L) (hbare : (L.vol v).bare) (hin : ∀ x ∈ L.inflight, x.req.vol ≠ v)
    (hmirror : ∀ r ∈ L.mirror, r.vol ≠ v) (hjobs : ∀ p ∈ L.jobs, p.2.state.ended = false → p.2.dstVol ≠ v) :
    Good a b m (L.setVol v Volume.absent) := by
  have hvol : ∀ {w}, w ≠ v → (L.setVol v Volume.absent).vol w = L.vol w := fun hw => Ledger.vol_setVol_ne _ _ hw
  have hasking : ∀ w, ((L.setVol v Volume.absent).asking m w).Sublist (L.asking m w) := by
    intro w
    unfold Ledger.asking
    by_cases hw : w = v
    · subst hw
      rw [Ledger.vol_setVol, show Volume.absent.waiting = [] from rfl, show Volume.absent.works = [] from rfl]
      split_ifs <;> exact List.nil_sublist _
    · rw [hvol hw]
  have hasks : ∀ w, (L.setVol v Volume.absent).asks m w ≤ L.asks m w := fun w => sum_sublist_le _ (hasking w)
  have hcharged : ∀ o, (L.setVol v Volume.absent).mapped o = L.mapped o := fun o => by
    have h1 := h.mapped_setVol v Volume.absent o
    rw [hbare.chargedTo, Volume.bare_absent.chargedTo] at h1
    omega
  refine { h with
    volsWf := wf_tset v Volume.absent h.volsWf
    volWf := forall_tset (Q := fun x : Volume => x.wf = true) (d := Volume.absent) (i := v) (v := Volume.absent) h.volWf rfl
    bare := fun w hw => ?_
    places := fun ha hv n => ?_
    charged := fun hb o => ?_
    entry := fun x hx => ?_
    record := fun r hr => ?_
    hold := fun w n hn => ?_
    job := fun p hp => ⟨(h.job p hp).1, fun he => ?_⟩
    asked := fun w q j hq => h.asked w q j ((hasking w).subset hq)
    one := fun w => (hasks w).trans (h.one w)
    alone := fun w u hw hu => h.alone w u (fun hc => hw (Nat.le_zero.mp ((hasks w).trans hc.le)))
      fun hc => hu (Nat.le_zero.mp ((hasks u).trans hc.le))
    slot := fun hf w => Nat.le_zero.mp ((hasks w).trans (h.slot hf w).le)
    owed := fun hb hr o => ?_ }
  · by_cases hwv : w = v
    · subst hwv
      rw [Ledger.vol_setVol]
      exact Volume.bare_absent
    · rw [hvol hwv] at hw ⊢
      exact h.bare w hw
  · have h1 := h.places ha hv n
    have h2 := h.holds_setVol v Volume.absent n
    rw [hbare.holds, Volume.bare_absent.holds] at h2
    show ((L.setVol v Volume.absent).holds n : Int) + m.pcn n = if n < L.pool then 1 else 0
    omega
  · have h1 := h.charged hb o
    rw [← hcharged] at h1
    exact h1
  · obtain ⟨h1, h2, h3⟩ := h.entry x hx
    have hw := hvol (hin x hx)
    refine ⟨h1, by rwa [hw], ?_⟩
    rw [hw]
    exact h3
  · obtain ⟨h1, h2⟩ := h.record r hr
    exact ⟨by rwa [hvol (hmirror r hr)], h2⟩
  · by_cases hwv : w = v
    · subst hwv
      rw [Ledger.vol_setVol] at hn
      cases hn
    · rw [hvol hwv] at hn
      exact h.hold w n hn
  · rw [hvol (hjobs p hp he)]
    exact (h.job p hp).2 he
  · rw [hcharged]
    exact h.owed hb hr o

/-- The lowest retained entry of a snapshot leaves it, and an emptied set its slot. -/
theorem retCount_dropRetained {x : Volume} (hwf : x.wf = true) {slot : Nat} {d : Snap} {r : RetEntry} {rest : List RetEntry}
    (hd : tfind x.snaps slot = some d) (hr : d.retained = r :: rest) (n : Nat) :
    x.retCount n = (if rest = [] then { x with snaps := tdel slot x.snaps }
      else x.setSnap slot { d with retained := rest }).retCount n + if r.pcn = n then 1 else 0 := by
  have hcons : (d.retained.map RetEntry.pcn).count n = (rest.map RetEntry.pcn).count n + if r.pcn = n then 1 else 0 := by
    rw [hr, List.map_cons, List.count_cons]
    simp
  by_cases hrest : rest = []
  · rw [if_pos hrest]
    have h1 := retCount_del (y := { x with snaps := tdel slot x.snaps }) hwf hd rfl n
    rw [hcons, hrest] at h1
    simp only [List.map_nil, List.count_nil] at h1
    omega
  · rw [if_neg hrest]
    have h1 := retCount_put (y := x.setSnap slot { d with retained := rest }) (d' := { d with retained := rest }) hwf hd rfl n
    rw [hcons] at h1
    simp only at h1
    omega

theorem Books.walkSnaps (h : Books a b {} e.st) (hst : (e.st.vol v).state ≠ .absent)
    (hnone : ∀ x ∈ e.st.inflight, x.req.vol ≠ v) (hmirror : ∀ r ∈ e.st.mirror, r.vol ≠ v)
    (hjobs : ∀ p ∈ e.st.jobs, p.2.state.ended = false → p.2.dstVol ≠ v)
    (hmap : ∀ p ∈ (e.st.vol v).map, ∃ c, p.2.form = .unmapped c) : Books a b {} (walkSnaps v e).st := by
  have hwf := h.volWf v
  unfold Machine.walkSnaps
  dsimp only
  split
  · rename_i hs
    exact Good.removeVol (L := e.st.ledger) h
      ⟨hmap, fun p hp => by rw [show (e.st.ledger.vol v).snaps = [] from hs] at hp; cases hp⟩ hnone hmirror hjobs
  · rename_i slot d t hs
    have hd : tfind (e.st.vol v).snaps slot = some d := by rw [hs, tfind, if_pos rfl]
    split
    · rename_i hr
      exact h.likeVol v (fun y => { y with snaps := tdel slot y.snaps }) (.of_unslot (i := slot)
        (fun d' hd' => by rw [hd] at hd'; cases hd'; exact hr) rfl rfl rfl rfl rfl rfl)
    · rename_i r rest hr
      have h1 := h.setSnaps (v := v) (fun y => if rest = [] then { y with snaps := tdel slot y.snaps }
        else y.setSnap slot { d with retained := rest }) hst ?_ ?_ ?_ ?_ ?_ ?_
      · refine Good.adjust (h1.walkFree v r.pcn) rfl rfl rfl rfl (fun n => ?_) rfl (fun _ => rfl) fun _ => rfl
        have h2 := retCount_dropRetained hwf hd hr n
        simp only
        split_ifs at h2 ⊢ <;> omega
      · intro x
        split_ifs <;> rfl
      · split_ifs
        · exact sorted_tdel slot (Volume.snapsSorted hwf)
        · exact sorted_tput slot _ (Volume.snapsSorted hwf)
      all_goals
        intro x
        split_ifs <;> rfl

/-- What the delete walk finds: no work on its volume, and past the last entry none MAPPED. -/
structure WalkReady (s : State) (v : Nat) : Prop where
  inflight : ∀ x ∈ s.inflight, x.req.vol ≠ v
  mirror : ∀ r ∈ s.mirror, r.vol ≠ v
  jobs : ∀ p ∈ s.jobs, p.2.state.ended = false → p.2.dstVol ≠ v
  map : (s.vol v).size ≤ (s.vol v).deletePos → ∀ p ∈ (s.vol v).map, ∃ c, p.2.form = .unmapped c

theorem Books.deleteWalkStep (h : Books a b {} e.st) (hw : (e.st.vol v).state = .deleting → WalkReady e.st v) :
    Books a b {} (deleteWalkStep v e).st := by
  unfold Machine.deleteWalkStep
  dsimp only
  split
  · exact h
  · rename_i hc
    simp only [not_or, not_not] at hc
    obtain ⟨hrun, hdel⟩ := hc
    have hw := hw hdel
    split_ifs with hpos
    · exact h.walkEntry (by rw [hrun]; simp) hw.inflight
    · exact h.walkSnaps (by rw [hdel]; simp) hw.inflight hw.mirror hw.jobs (hw.map (by omega))

end Sys2Proof.Machine
end

section
/-! PROOFS. The books over the control requests (Chapter 11): each executes with the slot taken and nobody waiting on a drain for
a control reply, and leaves them in balance. -/

namespace Sys2Proof.Machine

variable {a b : Prop} {m : Mode} {L : Ledger} {e : Event} {f : Bool} {v j : Nat}

/-- A request is answered. -/
theorem Books.answered (h : Books a b (.calm true) e.st) (code : Code) (result : List Nat) :
    Books a b {} (Machine.reply code result e).st := (h.reply rfl code result).strict

theorem Books.refuse (h : Books a b (.calm true) e.st) (code : Code) : Books a b {} (Machine.refuse code e).st := h.answered _ _

/-! ### Format, configuration, clock and state -/

theorem Books.doFormat (h : Books a b (.calm true) e.st) (k p floor low clear : Nat) :
    Books a b {} (doFormat k p floor low clear e).st := by
  unfold Machine.doFormat
  dsimp only
  split
  · exact h.refuse _
  · rename_i hc
    simp only [not_or, not_not] at hc
    obtain ⟨hv, -, hr⟩ := hc
    split
    · exact h.refuse _
    · refine Books.answered (e := e.upd _) ?_ _ _
      exact (Good.format (L := e.st.ledger) h hv hr rfl p k)

theorem Books.doConfigSet (h : Books a b (.calm true) e.st) (p : ConfigPatch) : Books a b {} (doConfigSet p e).st := by
  unfold Machine.doConfigSet
  split
  · exact h.refuse _
  · refine Books.answered (e := { e.upd (patchState p) with poolTouched := _, todo := _ }) ?_ _ _
    exact h

theorem Books.doTimeSet (h : Books a b (.calm true) e.st) (t : Nat) : Books a b {} (doTimeSet t e).st :=
  (h.setClock t).answered _ _

theorem Books.wakeWalks (h : Books a b m e.st) : Books a b m (wakeWalks e).st := by
  refine foldl_keeps (Q := fun u => Books a b m u.st) (fun u v hu => ?_) _ h
  split_ifs
  · exact hu.startHead _ _
  · exact hu

/-- The part goes from STANDBY to RUNNING. -/
theorem Good.run (h : Good a b m L) (hp : L.part ≠ .recovering) : Good a b m { L with part := .running } := by
  refine { h with
    reserved := fun hb o => ?_
    record := fun r hr => ?_
    slot := fun hs => h.slot (hs.imp_right fun hs => hs.imp_right fun hc => by cases hc)
    idle := fun hc => by cases hc
    owed := fun _ hc => by cases hc }
  · have h1 := h.reserved hb o
    rw [if_neg hp] at h1
    rw [if_neg (by simp)]
    exact h1
  · obtain ⟨h1, h2, h3⟩ := h.record r hr
    exact ⟨h1, h2, fun _ => h3 hp⟩

theorem Books.doGo (h : Books a b (.calm true) e.st) (hp : e.st.ctl.part ≠ .recovering) : Books a b {} (doGo e).st := by
  unfold Machine.doGo
  split
  · exact h.answered _ _
  · split
    · exact h.refuse _
    · have h1 : Books a b (.calm true) (e.updCtl fun c => { c with part := .running }).st := Good.run (L := e.st.ledger) h hp
      refine Books.answered (e := Machine.wakeJobs _) ?_ _ _
      exact h1.wakeWalks

theorem Books.doReset (h : Books a b (.calm true) e.st) (hwf : e.st.wf = true) : Books a b {} (doReset e).st := by
  unfold Machine.doReset
  split
  · exact h.strict
  · rename_i x _
    dsimp only
    have h1 := Books.evalAccounts (s := (emitControl x.number x.tag .ok [] e).st) h (emitControl x.number x.tag .ok [] e).all
    have hw : ((emitControl x.number x.tag .ok [] e).all.evalAccounts (emitControl x.number x.tag .ok [] e).st).1.wf = true :=
      whole_wf.toBase.evalAccounts _ (whole_wf.toBase.emitControl x.number x.tag .ok [] hwf)
    have hacc := ((State.wf_iff _).mp hw).2.2.1
    rw [Table.wf, Bool.and_eq_true] at hacc
    refine Books.resetPart (f := true) (e := Event.upd _ _) ?_ ?_ false
    · exact h1
    · exact hacc.1

/-! ### Volumes -/

theorem Books.newVolume (h : Books a b m e.st) (habs : (e.st.vol v).state = .absent) (size reserve : Nat) (o : Bool) (cap : Nat) :
    Books a b m (e.st.setVol v (Machine.newVolume size reserve o cap)) := by
  have hbare : (Machine.newVolume size reserve o cap).bare := Volume.bare_absent
  have hold : (e.st.vol v).bare := h.bare v habs
  refine Good.setVol (L := e.st.ledger) h (v := v) (y := Machine.newVolume size reserve o cap) (p := m.pcn) (c := m.charge)
    ⟨fun _ => rfl, fun _ => by simp [Machine.newVolume], List.nil_sublist _, List.nil_sublist _⟩
    (fun n hn => by cases hn) (fun hc => by cases hc) (fun x hx _ hv _ _ _ _ => ?_) (fun _ n => ?_) (fun _ o => ?_) fun _ _ o => ?_
  · exact absurd habs (hv ▸ Books.stands h hx)
  · rw [hbare.holds, show (e.st.ledger.vol v).holds n = 0 from hold.holds n]
  · rw [hbare.chargedTo, show (e.st.ledger.vol v).chargedTo o = 0 from hold.chargedTo o]
  · rw [show (e.st.ledger.vol v).chargedTo o = 0 from hold.chargedTo o]
    exact Nat.zero_le _

theorem Books.doVolumeCreate (h : Books a b (.calm true) e.st) (v size reserve : Nat) (o : Bool) (cap : Nat) :
    Books a b {} (doVolumeCreate v size reserve o cap e).st := by
  unfold Machine.doVolumeCreate
  split
  · exact h.refuse _
  · rename_i hc
    have habs : (e.st.vol v).state = .absent := by
      unfold createVolCheck at hc
      split_ifs at hc with _ _ h3
      exact not_not.mp h3
    refine Books.answered (e := e.upd _) ?_ _ _
    exact h.newVolume habs size reserve o cap

theorem Books.doVolumeDelete (h : Books a b (.calm true) e.st) (v : Nat) : Books a b {} (doVolumeDelete v e).st := by
  unfold Machine.doVolumeDelete
  split
  · exact h.refuse _
  · exact Books.answered (h.likeVol v (fun x => { x with state := .deleting, deleteQueue := [], deletePos := 0, walkFreed := 0 })
      (.of_same rfl rfl (by simp) (List.Subset.refl _) (List.Sublist.refl _) (List.Sublist.refl _))) _ _

theorem Books.doVolumeRead (h : Books a b (.calm true) e.st) (v : Nat) : Books a b {} (doVolumeRead v e).st := by
  unfold Machine.doVolumeRead
  split_ifs <;> exact h.answered _ _

theorem Books.doFreeze (h : Books a b (.calm true) e.st) (hex : e.st.ctl.executing.isSome = true)
    (hp : e.st.ctl.part ≠ .recovering) (v : Nat) : Books a b {} (doFreeze v e).st := by
  unfold Machine.doFreeze
  split_ifs
  · exact h.askFreeze fun _ => ⟨rfl, hex, hp⟩
  · exact h.refuse _

theorem Books.doThaw (h : Books a b (.calm true) e.st) (v : Nat) : Books a b {} (doThaw v e).st := by
  unfold Machine.doThaw
  split
  · exact h.refuse _
  · exact (h.thawVolume v).answered _ _

theorem Books.doSetFullScan (h : Books a b (.calm true) e.st) (v : Nat) : Books a b {} (doSetFullScan v e).st := by
  unfold Machine.doSetFullScan
  split
  · exact h.refuse _
  · split
    · exact h.refuse _
    · refine Books.answered (e := Event.updRun _ _) ?_ _ _
      exact h.plainVol v (fun x => { x with fullScan := true }) (fun _ => rfl) (fun _ => rfl) (fun _ => rfl) (fun _ => rfl)
        (fun _ => rfl) (fun _ => rfl)

/-! ### Accounts -/

theorem Books.doAccountSet (h : Books a b (.calm true) e.st) (tag soft hard : Nat) :
    Books a b {} (doAccountSet tag soft hard e).st := by
  unfold Machine.doAccountSet
  split
  · exact h.refuse _
  split
  · exact h.refuse _
  split
  · exact h.refuse _
  · exact Books.answered ((h.updAcct_plain tag (f := fun x => { x with soft := min soft hard, hard := hard }) (fun _ => rfl)
      fun _ => rfl).touchAcct tag) _ _

theorem Books.readAccount (h : Books a b (.calm true) e.st) (tag : Nat) : Books a b {} (readAccount tag e).st := by
  have h1 : Books a b (.calm true) (if e.all.accts.contains tag then e else e.touchAcct tag).st := by
    split_ifs
    · exact h
    · exact h.touchAcct _
  refine Books.answered (e := Event.updCtl _ _) ?_ _ _
  exact h1

theorem Books.doAccountRead (h : Books a b (.calm true) e.st) (tag : Nat) : Books a b {} (doAccountRead tag e).st := by
  unfold Machine.doAccountRead
  split_ifs
  · exact h.readAccount _
  · exact h.refuse _

/-! ### Snapshots -/

theorem Books.doSnapshotCreate (h : Books a b (.calm true) e.st) (hex : e.st.ctl.executing.isSome = true)
    (hp : e.st.ctl.part ≠ .recovering) (v kind label : Nat) (series : Option Nat) :
    Books a b {} (doSnapshotCreate v kind label series e).st := by
  unfold Machine.doSnapshotCreate
  split
  · exact h.refuse _
  · exact h.askCreate ⟨.inr ⟨rfl, rfl, hex, hp⟩, fun c j hc ha => by
      cases hc
      cases ha⟩

theorem Books.doSnapshotDelete (h : Books a b (.calm true) e.st) (v slot : Nat) :
    Books a b {} (doSnapshotDelete v slot e).st := by
  unfold Machine.doSnapshotDelete
  split
  · exact h.refuse _
  · split_ifs
    · exact h.refuse _
    · exact h.answered _ _
    · exact h.refuse _
    · exact h.refuse _
    · exact (h.queueDeletion _ _).answered _ _

theorem Books.setHeld (h : Books a b m e.st) {v slot : Nat} {d : Snap} (q : Bool) (hd : tfind (e.st.vol v).snaps slot = some d) :
    Books a b m (setHeld v slot d q e).st :=
  h.setSnap (d' := { d with held := q }) (fun x => x.setSnap slot { d with held := q }) hd rfl (fun _ => rfl) (fun _ => rfl)
    (fun _ => rfl) (fun _ => rfl) (fun _ => rfl) (fun _ => rfl)

theorem Books.doSnapshotHold (h : Books a b (.calm true) e.st) (v slot : Nat) : Books a b {} (doSnapshotHold v slot e).st := by
  unfold Machine.doSnapshotHold
  split
  · exact h.refuse _
  · rename_i d hd
    split_ifs
    · exact h.refuse _
    · exact (h.setHeld true (findSnap_ok hd)).answered _ _

theorem Books.doSnapshotRelease (h : Books a b (.calm true) e.st) (v slot : Nat) :
    Books a b {} (doSnapshotRelease v slot e).st := by
  unfold Machine.doSnapshotRelease
  split
  · exact h.refuse _
  · rename_i d hd
    exact (h.setHeld false (findSnap_ok hd)).answered _ _

theorem Books.doSnapshotList (h : Books a b (.calm true) e.st) (v : Nat) : Books a b {} (doSnapshotList v e).st := by
  unfold Machine.doSnapshotList
  split_ifs <;> exact h.answered _ _

/-! ### Restore jobs -/

/-- What the checks of a start leave of its ranges and its target. -/
theorem restoreCheck_none {s : State} {sv ss dv o : Nat} {d : Bool} {rs : List Range}
    (h : restoreCheck s sv ss dv o d rs = none) :
    (∀ r ∈ rs, 1 ≤ r.count) ∧ (freeJob s).isSome = true ∧ (s.vol dv).state ≠ .absent := by
  have hpass : ¬ (rs = [] ∨ 16 < rs.length ∨ (rs.any fun r => r.count == 0) = true) ∧ ¬ (freeJob s).isNone = true ∧
      (s.vol dv).usable = true := by
    unfold restoreCheck at h
    dsimp only at h
    split_ifs at h with h1 h2 _ h4 <;> exact ⟨h1, h2, h4.2⟩
  obtain ⟨hranges, hfree, hu⟩ := hpass
  simp only [not_or, Bool.not_eq_true, List.any_eq_false, beq_iff_eq] at hranges
  refine ⟨fun r hr => Nat.one_le_iff_ne_zero.mpr (hranges.2.2 r hr), by simpa [Option.isSome_iff_ne_none] using hfree, ?_⟩
  intro hc
  rw [Volume.usable, hc] at hu
  exact absurd hu (by decide)

theorem Job.sane_newJob {g sv ss dv o : Nat} {d : Bool} {rs : List Range} (hc : ∀ r ∈ rs, 1 ≤ r.count) :
    (newJob g sv ss dv o d rs).Sane where
  visits := fun hv => by cases hv
  waits := fun hw => by cases hw
  settled := fun he => by cases he
  counts := fun _ => hc
  place := fun _ => by
    show match rs[0]? with | some r => 0 < r.count | none => 0 = 0
    split
    · rename_i r hr
      exact hc r (List.mem_of_getElem? hr)
    · rfl
  left := fun _ => by simp [newJob, Job.claims, Job.toVisit, totalCount]

theorem SameWork.reserveChunks (o n : Nat) : SameWork e.st (reserveChunks o n e).st := by
  unfold Machine.reserveChunks
  rw [Event.touchAcct_st]
  exact ⟨rfl, rfl, rfl, rfl, rfl⟩

theorem Books.doRestoreStart (h : Books a b (.calm true) e.st) (hex : e.st.ctl.executing.isSome = true)
    (hp : e.st.ctl.part ≠ .recovering) (sv ss dv o : Nat) (d : Bool) (rs : List Range) :
    Books a b {} (doRestoreStart sv ss dv o d rs e).st := by
  unfold Machine.doRestoreStart
  split
  · exact h.refuse _
  · rename_i hcheck
    obtain ⟨hcount, hfree, hdst⟩ := restoreCheck_none hcheck
    obtain ⟨j, hj⟩ := Option.isSome_iff_exists.mp hfree
    have hnone : tfind e.st.jobs j = none := by
      have := List.find?_some hj
      simpa using this
    rw [hj, Option.getD_some]
    dsimp only
    generalize ((tfind (e.st.vol sv).snaps ss).map Snap.gen).getD 0 = g
    have h1 : Books a b { free := true, res := fun q => - if o = q then (totalCount rs : Int) else 0 }
        (e.upd fun s => { s with jobs := tput j (newJob g sv ss dv o d rs) s.jobs }).st := by
      refine Good.addJob (L := e.st.ledger) h hnone (Job.sane_newJob hcount) hdst rfl hp fun _ q => ?_
      simp only [Job.reservesFor, newJob, JobState.ended, Bool.not_false, Bool.true_and, beq_iff_eq]
      split_ifs <;> simp
    have h2 : Books a b (.calm true) (Machine.reserveChunks o (totalCount rs)
        (e.upd fun s => { s with jobs := tput j (newJob g sv ss dv o d rs) s.jobs })).st :=
      Good.adjust (h1.reserveChunks (o := o) (n := totalCount rs) hp) rfl rfl rfl rfl (fun _ => rfl) rfl (fun _ => rfl) fun q => by
        show (0 : Int) = (- if o = q then (totalCount rs : Int) else 0) + if o = q then (totalCount rs : Int) else 0
        omega
    have h3 := h2.pinSnap sv ss true
    have hsame := (SameWork.reserveChunks (e := e.upd fun s => { s with jobs := tput j (newJob g sv ss dv o d rs) s.jobs }) o
      (totalCount rs)).trans (SameWork.pinSnap sv ss true)
    refine h3.askCreate ⟨.inr ⟨rfl, rfl, ?_, ?_⟩, fun c j' hc ha => ?_⟩
    · rw [hsame.ctl]
      exact hex
    · rw [hsame.ctl]
      exact hp
    · cases hc
      cases ha
      refine ⟨newJob g sv ss dv o d rs, ?_, rfl, rfl⟩
      rw [hsame.jobs]
      exact tfind_tput_same ..

theorem tfind_of_findJob {s : State} {x : Job} (h : findJob s j = .ok x) : tfind s.jobs j = some x := by
  unfold findJob at h
  split_ifs at h
  split at h
  · rename_i y hy
    cases h
    exact hy
  · cases h

theorem tfind_of_findOpenJob {s : State} {x : Job} (h : findOpenJob s j = .ok x) : tfind s.jobs j = some x := by
  unfold findOpenJob at h
  split at h
  · cases h
  · rename_i y hy
    split_ifs at h
    cases h
    exact tfind_of_findJob hy

theorem Books.doRestoreSuspend (h : Books a b (.calm true) e.st) (j : Nat) : Books a b {} (doRestoreSuspend j e).st := by
  unfold Machine.doRestoreSuspend
  split
  · exact h.refuse _
  · rename_i x hx
    exact Books.strict ((h.suspendJob (tfind_of_findOpenJob hx)).answerWith rfl _ _ _)

theorem Books.doRestoreResume (h : Books a b (.calm true) e.st) (j : Nat) : Books a b {} (doRestoreResume j e).st := by
  unfold Machine.doRestoreResume
  split
  · exact h.refuse _
  · rename_i x hx
    exact Books.strict ((h.resumeJob (tfind_of_findOpenJob hx)).answerWith rfl _ _ _)

theorem Books.doRestoreAbort (h : Books a b (.calm true) e.st) (hp : e.st.ctl.part ≠ .recovering) (j : Nat) :
    Books a b {} (doRestoreAbort j e).st := by
  unfold Machine.doRestoreAbort
  split
  · exact h.refuse _
  · rename_i x hx
    exact (h.abortJob (tfind_of_findOpenJob hx) hp (.inr rfl)).answered _ _

theorem Books.doRestoreStatus (h : Books a b (.calm true) e.st) (j : Nat) : Books a b {} (doRestoreStatus j e).st := by
  unfold Machine.doRestoreStatus
  split
  · exact h.refuse _
  · exact h.answered _ _

theorem Books.doRestoreClear (h : Books a b (.calm true) e.st) (j : Nat) : Books a b {} (doRestoreClear j e).st := by
  unfold Machine.doRestoreClear
  split
  · exact h.refuse _
  · rename_i x hx
    split
    · exact h.refuse _
    · rename_i hend
      rw [not_not] at hend
      have hf := tfind_of_findJob hx
      have hv : x.visiting = false := by
        by_contra hc
        rw [(h.job hf).visits (by simpa using hc)] at hend
        cases hend
      have h1 : Books a b (.calm true) (e.upd fun s => { s with jobs := tdel j s.jobs }).st :=
        Good.dropJob (L := e.st.ledger) h hf (r := fun _ => 0) hv (by simp) (h.free_not_asked rfl) fun _ _ o => by
          simp [Job.reservesFor, hend]
      exact h1.answered _ _

/-! ### The run -/

theorem Books.doRunPlanSet (h : Books a b (.calm true) e.st) (vs : List Nat) : Books a b {} (doRunPlanSet vs e).st := by
  unfold Machine.doRunPlanSet
  split
  · exact h.refuse _
  split
  · exact h.refuse _
  split
  · exact h.refuse _
  · refine Books.answered (e := e.upd _) ?_ _ _
    exact h

theorem Books.doRunStart (h : Books a b (.calm true) e.st) (mode minute : Nat) : Books a b {} (doRunStart mode minute e).st := by
  unfold Machine.doRunStart
  split
  · exact h.refuse _
  split
  · exact h.refuse _
  split
  · exact h.refuse _
  split
  · exact h.answered _ _
  · exact Books.answered (h.of_ledger (startRun_ledger _ _)) _ _

theorem Books.doRunStop (h : Books a b (.calm true) e.st) : Books a b {} (doRunStop e).st := by
  unfold Machine.doRunStop
  dsimp only
  split
  · exact h.refuse _
  split
  · exact h.answered _ _
  split
  · refine Books.answered (e := e.updRun _) ?_ _ _
    exact h
  · exact (h.endRun _).answered _ _

theorem Books.doPlan (h : Books a b (.calm true) e.st) (minute : Nat) : Books a b {} (doPlan minute e).st := by
  unfold Machine.doPlan
  split
  · exact h.refuse _
  split
  · exact h.refuse _
  split
  · exact h.answered _ _
  · exact h.answered _ _

/-! ### The schedule -/

theorem Books.writeEntry (h : Books a b (.calm true) e.st) (q : Bool) (i : Nat) (x : SchedEntry) :
    Books a b {} (writeEntry q i x e).st := by
  refine Books.answered (e := Event.updCtl _ _) ?_ _ _
  exact h

theorem Books.doScheduleWrite (h : Books a b (.calm true) e.st) (bank i : Nat) (x : SchedEntry) :
    Books a b {} (doScheduleWrite bank i x e).st := by
  unfold Machine.doScheduleWrite
  split
  · exact h.refuse _
  split
  · exact h.refuse _
  · exact h.writeEntry _ _ _

theorem Books.doScheduleWriteNext (h : Books a b (.calm true) e.st) (x : SchedEntry) :
    Books a b {} (doScheduleWriteNext x e).st := by
  unfold Machine.doScheduleWriteNext
  dsimp only
  split
  · exact h.refuse _
  · exact h.writeEntry _ _ _

theorem Books.doScheduleRead (h : Books a b (.calm true) e.st) (bank i : Nat) : Books a b {} (doScheduleRead bank i e).st := by
  unfold Machine.doScheduleRead
  split
  · exact h.refuse _
  · exact h.answered _ _

/-! ### A request executes -/

theorem Books.perform (h : Books a b (.calm true) e.st) (hex : e.st.ctl.executing.isSome = true) (hwf : e.st.wf = true)
    (r : Request) : Books a b {} (perform r e).st := by
  by_cases hr : e.st.ctl.part = .recovering ∧ ¬ statusRead r.number
  · unfold Machine.perform
    rw [if_pos hr]
    exact h.refuse _
  have hp : statusRead r.number = false → e.st.ctl.part ≠ .recovering := fun hs hc => hr ⟨hc, by simp [hs]⟩
  unfold Machine.perform
  rw [if_neg hr]
  split
  · exact h.doFormat _ _ _ _ _
  · exact h.doConfigSet _
  · exact h.answered _ _
  · exact h.doTimeSet _
  · exact h.doGo (hp rfl)
  · exact h.doReset hwf
  · exact h.answered _ _
  · exact h.doVolumeCreate _ _ _ _ _
  · exact h.doVolumeDelete _
  · exact h.doVolumeRead _
  · exact h.doFreeze hex (hp rfl) _
  · exact h.doThaw _
  · exact h.doSetFullScan _
  · exact h.doAccountSet _ _ _
  · exact h.doAccountRead _
  · exact h.readAccount _
  · exact h.doSnapshotCreate hex (hp rfl) _ _ _ _
  · exact h.doSnapshotDelete _ _
  · exact h.doSnapshotHold _ _
  · exact h.doSnapshotRelease _ _
  · exact h.doSnapshotList _
  · exact h.doRestoreStart hex (hp rfl) _ _ _ _ _ _
  · exact h.doRestoreSuspend _
  · exact h.doRestoreResume _
  · exact h.doRestoreAbort (hp rfl) _
  · exact h.doRestoreStatus _
  · exact h.doRestoreClear _
  · exact h.doRunPlanSet _
  · exact h.doRunStart _ _
  · exact h.doRunStop
  · exact h.answered _ _
  · exact h.doPlan _
  · exact h.doScheduleWrite _ _ _
  · exact h.doScheduleWriteNext _
  · exact h.doScheduleRead _ _
  · refine Books.answered (e := e.updSched _) ?_ _ _
    exact h
  · refine Books.answered (e := e.updSched _) ?_ _ _
    exact h
  · exact h.answered _ _
  · exact h.refuse _

theorem Books.execute (h : Books a b {} e.st) (hwf : e.st.wf = true) (hex : e.st.ctl.executing = none) (q : ControlReq) :
    Books a b {} (execute q e).st := by
  have h0 : ∀ w, e.st.ledger.asks {} w = 0 := Good.slot h (.inr (.inl (by
    show e.st.ctl.executing.isSome = false
    rw [hex]
    rfl)))
  have h1 : Books a b (.calm true) (e.updCtl fun c =>
      { c with executing := some { tag := q.tag, number := q.req.number } }).st := { h with slot := fun _ => h0 }
  exact h1.perform rfl hwf _

theorem Books.executeHead (h : Books a b {} e.st) (hwf : e.st.wf = true) (hex : e.st.ctl.executing = none) :
    Books a b {} (executeHead e).st := by
  unfold Machine.executeHead
  split
  · exact h
  · rename_i q t _
    exact Books.execute (e := e.updCtl fun c => { c with queue := t }) h hwf hex q

theorem Books.controlArrive (h : Books a b {} e.st) (hwf : e.st.wf = true) (q : ControlReq) :
    Books a b {} (controlArrive q e).st := by
  unfold Machine.controlArrive
  split
  · exact h
  split
  · rename_i hc
    exact h.execute hwf hc.1 q
  split
  · exact h
  · exact h

theorem Books.controlBytes (h : Books a b {} e.st) (hwf : e.st.wf = true) (l : List Byte) :
    Books a b {} (controlBytes l e).st := by
  unfold Machine.controlBytes
  split
  · exact h.controlArrive hwf _
  · exact h

end Sys2Proof.Machine
end

section
/-! PROOFS. The books over a whole event, and the laws of the pool and of the accounts (R4, R51, R70) as what they say at its
two ends. -/

namespace Sys2Proof.Machine

variable {a b : Prop} {m : Mode} {L : Ledger} {e : Event} {f : Bool} {v j : Nat}

/-! ### The event as a whole -/

theorem Books.turn (h : Books a b {} e.st) (hwf : e.st.wf = true) {e' : Event} (ht : turn e = some e') : Books a b {} e'.st := by
  have hretest : Books a b {} (retestTurn e).st := by
    unfold retestTurn
    split
    · rename_i i hi
      exact h.proceed hi
    · exact h
  have hdrain : Books a b {} (drainTurn e).st := by
    unfold drainTurn
    split
    · exact Books.finishDrain (f := false) h _ _
    · exact h
  have hjob : Books a b {} (jobTurn e).st := by
    unfold jobTurn
    split
    · rename_i j x hx
      exact Books.beginVisit (f := false) h (tfind_of_mem h.jobsWf (List.mem_of_find?_eq_some hx)) (List.find?_some (p := fun p : Nat × Job => canVisit e.st p.2) hx)
    · exact h
  have hcontrol : Books a b {} (controlTurn e).st := by
    unfold controlTurn
    split
    · rename_i hc
      exact h.executeHead hwf hc.1
    · exact h
  unfold Machine.turn at ht
  dsimp only at ht
  split at ht
  · cases ht; exact hretest
  split at ht
  · cases ht; exact hdrain
  split at ht
  · cases ht; exact Books.testYield (f := false) (e := { e with todo := _ }) h
  split at ht
  · cases ht; exact Books.resumePool (e := { e with todo := _ }) h
  split at ht
  · cases ht; exact hjob
  split at ht
  · cases ht
    split
    · rename_i hd
      exact Books.beginNext (e := { e with todo := _ }) h hd
    · exact h
  split at ht
  · cases ht; exact Books.engineTurn (e := { e with todo := _ }) h
  split at ht
  · cases ht; exact Books.of_ledger (s := e.st) h (portTurn_ledger (e := { e with todo := _ }))
  split at ht
  · cases ht; exact h
  split at ht
  · cases ht; exact hcontrol
  split at ht
  · cases ht; exact Books.grants (e := { e with todo := _ }) _ h
  · cases ht

theorem Books.runTodo (n : Nat) (h : Books a b {} e.st) (hwf : e.st.wf = true) : Books a b {} (runTodo n e).st := by
  induction n generalizing e with
  | zero => exact h
  | succ n ih =>
    unfold Machine.runTodo
    split
    · exact h
    · rename_i e' ht
      exact ih (h.turn hwf ht) (whole_wf.turn ht hwf)

/-- What the work in flight has to be at the start of an event. -/
structure StartReady (s : State) : Prop where
  slots : SlotsReady s
  fill : FillReady s
  walk : ∀ v, (s.vol v).state = .deleting → WalkReady s v

/-- Every command leaves the books in balance. -/
theorem Books.exec {s t : State} (i : Instr) (hs : exec i s = .next t) (h : Books a b {} s) (hwf : s.wf = true)
    (hstart : StartReady s) : Books a b {} t := by
  have hrun : ∀ f : Event → Event, (∀ {e : Event}, e.st.wf = true → (f e).st.wf = true) →
      Books a b {} (f (openEvent s)).st → Machine.exec i s = .next (Machine.runEvent s f) → Books a b {} t := by
    intro f hfw hf he
    rw [he] at hs
    cases hs
    exact Books.closeEvent (hf.runTodo _ (hfw (e := openEvent s) hwf))
  have h0 : Books a b {} (openEvent s).st := h
  have hw0 : (openEvent s).st.wf = true := hwf
  have hwalk : ∀ v, ((openEvent s).st.vol v).state = .deleting → WalkReady (openEvent s).st v := fun v hv =>
    let hw := hstart.walk v hv
    ⟨hw.inflight, hw.mirror, hw.jobs, hw.map⟩
  have K := whole_wf
  cases i
  case powerOn =>
    have hacc := ((State.wf_iff _).mp hwf).2.2.1
    rw [Table.wf, Bool.and_eq_true] at hacc
    exact hrun _ (fun h => K.resetPart _ h) (Books.resetPart (f := false) h0 hacc.1 _) rfl
  case mirrorRecordRecovery => exact hrun _ (fun h => K.recoverMirror h) h0.recoverMirror rfl
  case pendingReturnRecovery => exact hrun _ (fun h => K.recoverReturn h) h0.recoverReturn rfl
  case restoreJobRecovery => exact hrun _ (fun h => K.recoverJob h) h0.recoverJob rfl
  case runRecovery => exact hrun _ (fun h => K.recoverRun h) (Books.recoverRun (f := false) h0) rfl
  case expiryQueueRebuild => exact hrun _ (fun h => K.rebuildExpiry h) (Books.rebuildExpiry (f := false) h0) rfl
  case frontLinkDown => exact hrun (fun e => e.upd fun s => { s with frontUp := false }) (fun h => h) h0 rfl
  case frontLinkUp => exact hrun (fun e => e.upd fun s => { s with frontUp := true }) (fun h => h) h0 rfl
  case frontFrameBadAddress => exact hrun _ (fun h => K.replyFront _ _ _ _ h) (h0.emitFront _) rfl
  case shortFrameDiscard => exact hrun _ (fun h => h) h0 rfl
  case read => exact hrun _ (fun h => K.frontArrive _ _ _ _ _ _ _ _ _ h) (h0.frontArrive _ _ _ _ _ _ _ _ _) rfl
  case write => exact hrun _ (fun h => K.frontArrive _ _ _ _ _ _ _ _ _ h) (h0.frontArrive _ _ _ _ _ _ _ _ _) rfl
  case discard => exact hrun _ (fun h => K.frontArrive _ _ _ _ _ _ _ _ _ h) (h0.frontArrive _ _ _ _ _ _ _ _ _) rfl
  case drainTimeout => exact hrun _ (fun h => K.finishDrain _ _ h) (Books.finishDrain (f := false) h0 _ _) rfl
  case controlRequestArrival => exact hrun _ (fun h => K.controlBytes _ h) (h0.controlBytes hw0 _) rfl
  case formatFillStep => exact hrun _ (fun h => K.fillStep h) (h0.fillStep hstart.fill) rfl
  case volumeDeleteWalkStep => exact hrun _ (fun h => K.deleteWalkStep _ h) (h0.deleteWalkStep (hwalk _)) rfl
  case mergeWalkStep => exact hrun _ (fun h => K.mergeStep _ h) (h0.mergeStep _) rfl
  case fullScanStep => exact hrun _ (fun h => K.scanStep h) h0.scanStep rfl
  case hello => exact hrun _ (fun h => K.partnerFrame _ h) (h0.partnerFrame _) rfl
  case ack => exact hrun _ (fun h => K.partnerFrame _ h) (h0.partnerFrame _) rfl
  case nak => exact hrun _ (fun h => K.partnerFrame _ h) (h0.partnerFrame _) rfl
  case hold => exact hrun _ (fun h => K.partnerFrame _ h) (h0.partnerFrame _) rfl
  case resume => exact hrun _ (fun h => K.partnerFrame _ h) (h0.partnerFrame _) rfl
  case offsiteFrameIgnored => exact hrun _ (fun h => K.partnerBytes _ h) (h0.partnerBytes _) rfl
  case offsiteCarrierLoss => exact hrun _ (fun h => K.carrierLost h) (h0.of_ledger carrierLost_ledger) rfl
  case ackTimerExpiry => exact hrun _ (fun h => K.ackTimerIn h) (h0.of_ledger ackTimerIn_ledger) rfl
  case holdTimerExpiry => exact hrun _ (fun h => K.holdTimerIn h) (h0.of_ledger holdTimerIn_ledger) rfl
  case pacingTimeReached => exact hrun _ (fun h => K.paceTo _ h) h0 rfl
  case shelfReply => exact hrun _ (fun h => K.shelfReplyIn _ _ _ _ _ h) (h0.shelfReplyIn hstart.slots _ _ _ _ _) rfl
  case shelfCommandTimeout => exact hrun _ (fun h => K.shelfTimeoutIn _ h) (h0.shelfTimeoutIn hstart.slots _) rfl
  case shelfLinkDown => exact hrun _ (fun h => K.shelfDown h) (h0.shelfDown hstart.slots) rfl
  case shelfLinkUp => exact hrun _ (fun h => K.shelfUp h) h0.shelfUp rfl
  case clockAdvance => exact hrun _ (fun h => K.advanceClock h) h0.advanceClock rfl
  case graceExpiryFire => exact hrun _ (fun h => K.fireExpiry h) h0.fireExpiry rfl
  case malformedRequestKind => exact hrun _ (fun h => K.replyFront _ _ _ _ h) (h0.emitFront _) rfl
  all_goals exact hrun _ (fun h => K.controlArrive _ h) (h0.controlArrive hw0 _) rfl

theorem Books.step {s t : State} (hs : step s = .next t) (h : Books a b {} s) (hwf : s.wf = true) (hstart : StartReady s) :
    Books a b {} t := by
  unfold Machine.step at hs
  split at hs
  · cases hs
    exact h
  · exact Books.exec (s := { s with pending := _ }) _ hs h hwf ⟨hstart.slots, hstart.fill, fun v hv =>
      let hw := hstart.walk v hv
      ⟨hw.inflight, hw.mirror, hw.jobs, hw.map⟩⟩

end Sys2Proof.Machine
end

section
/-! PROOFS. The figures of the books are those of the laws of the pool and of the accounts (R4, R51, R70). -/

namespace Sys2Proof.Machine

variable {a b : Prop} {s : State} {v : Nat}

/-! ### The figures as lengths and counts of lists -/

theorem length_filter_eq_sum {α : Type} (p : α → Bool) (f : α → Nat) (hf : ∀ x, f x = if p x then 1 else 0) (l : List α) :
    (l.filter p).length = (l.map f).sum := by
  induction l with
  | nil => rfl
  | cons x l ih =>
    rw [List.map_cons, List.sum_cons, ← ih, hf, List.filter_cons]
    split_ifs
    · rw [List.length_cons, Nat.add_comm]
    · rw [Nat.zero_add]

theorem sum_filter_eq_sum {α : Type} (p : α → Bool) (f g : α → Nat) (hg : ∀ x, g x = if p x then f x else 0) (l : List α) :
    ((l.filter p).map f).sum = (l.map g).sum := by
  induction l with
  | nil => rfl
  | cons x l ih =>
    rw [List.map_cons, List.sum_cons, ← ih, hg, List.filter_cons]
    split_ifs
    · rw [List.map_cons, List.sum_cons]
    · rw [Nat.zero_add]

theorem mappedPcns_count (x : Volume) (n : Nat) : x.mappedPcns.count n = x.mapSum (Form.pcnIs n) := by
  unfold Volume.mappedPcns Volume.mapSum totalOf
  induction x.map with
  | nil => rfl
  | cons p t ih =>
    rw [List.map_cons, List.sum_cons, ← ih, List.filterMap_cons]
    obtain ⟨k, form, g⟩ := p
    cases form with
    | mapped q g o =>
      simp only [Form.pcnIs, List.count_cons, beq_iff_eq]
      exact Nat.add_comm _ _
    | unmapped c => simp [Form.pcnIs]

theorem mappedPcns_length (x : Volume) : x.mappedPcns.length = x.mappedCount := by
  unfold Volume.mappedPcns Volume.mappedCount
  induction x.map with
  | nil => rfl
  | cons p t ih =>
    rw [List.filterMap_cons, List.filter_cons]
    cases hf : p.2.form with
    | mapped q g o => simpa using ih
    | unmapped c => simpa using ih

theorem retainedPcns_count (x : Volume) (n : Nat) : x.retainedPcns.count n = x.retCount n := by
  rw [Volume.retainedPcns, List.count_flatMap]
  rfl

theorem retainedPcns_length (x : Volume) : x.retainedPcns.length = x.reserveUsage := by
  rw [Volume.retainedPcns, List.length_flatMap, Volume.reserveUsage]
  simp [Snap.retainedCount]

theorem copyPcns_count (t : Table Job) (n : Nat) :
    (t.filterMap fun p => p.2.copy.map Copy.pcn).count n = totalOf (Job.holds n) t := by
  induction t with
  | nil => rfl
  | cons p t ih =>
    simp only [totalOf] at ih ⊢
    rw [List.map_cons, List.sum_cons, ← ih, List.filterMap_cons, Job.holds]
    cases p.2.copy.map Copy.pcn with
    | none => simp
    | some q => simp [List.count_cons, Nat.add_comm]

theorem copyPcns_length (t : Table Job) :
    (t.filterMap fun p => p.2.copy.map Copy.pcn).length = totalOf Job.claims t := by
  induction t with
  | nil => rfl
  | cons p t ih =>
    simp only [totalOf] at ih ⊢
    rw [List.map_cons, List.sum_cons, ← ih, List.filterMap_cons, Job.claims]
    cases p.2.copy with
    | none => simp
    | some q => simp [Nat.add_comm]

theorem claimedPcns_length (s : State) : s.claimedPcns.length = s.ledger.claimed := by
  rw [State.claimedPcns, List.length_append, List.length_append, List.length_flatMap, copyPcns_length]
  rfl

theorem totalOf_add {α : Type} (f g : α → Nat) (t : Table α) : totalOf (fun x => f x + g x) t = totalOf f t + totalOf g t := by
  induction t with
  | nil => rfl
  | cons p t ih =>
    simp only [totalOf, List.map_cons, List.sum_cons] at ih ⊢
    omega

theorem allPcns_count (s : State) (n : Nat) : s.allPcns.count n = s.ledger.holds n := by
  have hm : (s.vols.flatMap fun p => p.2.mappedPcns).count n = totalOf (Volume.mapSum (Form.pcnIs n)) s.vols := by
    rw [List.count_flatMap]
    exact congrArg List.sum (List.map_congr_left fun p _ => mappedPcns_count p.2 n)
  have hr : (s.vols.flatMap fun p => p.2.retainedPcns).count n = totalOf (Volume.retCount n) s.vols := by
    rw [List.count_flatMap]
    exact congrArg List.sum (List.map_congr_left fun p _ => retainedPcns_count p.2 n)
  have hv : totalOf (Volume.holds n) s.vols
      = totalOf (Volume.mapSum (Form.pcnIs n)) s.vols + totalOf (Volume.retCount n) s.vols := totalOf_add _ _ _
  have hc : (s.mirror.flatMap MirrorRec.claims).count n = (s.mirror.map fun r => r.claims.count n).sum := List.count_flatMap ..
  simp only [State.allPcns, State.claimedPcns, List.count_append, hm, hr, hc, copyPcns_count]
  show _ = s.free.count n + totalOf (Volume.holds n) s.vols + (s.mirror.map fun r => r.claims.count n).sum
    + totalOf (Job.holds n) s.jobs + s.returns.count n
  omega

theorem allPcns_length (s : State) : s.allPcns.length = s.free.length + (s.vols.map fun p => p.2.mappedCount).sum
    + (s.vols.map fun p => p.2.reserveUsage).sum + s.claimedPcns.length := by
  simp only [State.allPcns, List.length_append, List.length_flatMap, mappedPcns_length, retainedPcns_length]

theorem mappedOf_eq (s : State) (o : Nat) : s.mappedOf o = s.ledger.mapped o := by
  refine congrArg List.sum (List.map_congr_left fun p _ => length_filter_eq_sum _ _ (fun q => ?_) _)
  obtain ⟨k, form, g⟩ := q
  cases form with
  | mapped n g x => simp [Form.chargedTo]
  | unmapped c => rfl

theorem copies_eq (s : State) (o : Nat) :
    (s.jobs.filter fun p => p.2.copy.isSome && p.2.owner == o).length = s.ledger.copies o :=
  length_filter_eq_sum _ _ (fun _ => rfl) _

theorem remaining_eq (s : State) (o : Nat) :
    ((s.jobs.filter fun p => !p.2.state.ended && p.2.owner == o).map fun p => p.2.remaining).sum = s.ledger.remaining o :=
  sum_filter_eq_sum _ _ _ (fun _ => rfl) _

/-! ### The laws from the books -/

theorem Books.poolLaw (h : Books True b {} s) : poolLaw s := by
  have hclaims : s.claims = s.claimedPcns.length := by
    have h1 : (s.claims : Int) = s.ledger.claimed + 0 := Good.count h trivial
    rw [claimedPcns_length]
    omega
  refine ⟨hclaims, fun hvalid => ?_⟩
  have hperm : s.allPcns.Perm (List.range s.format.pool) := List.perm_iff_count.mpr fun n => by
    have h1 : ((s.ledger.holds n : Nat) : Int) + 0 = if n < s.format.pool then 1 else 0 := Good.places h trivial hvalid n
    rw [allPcns_count, List.Nodup.count List.nodup_range]
    simp only [List.mem_range]
    split_ifs at h1 ⊢ <;> omega
  refine ⟨hperm, ?_⟩
  rw [hclaims, ← allPcns_length, hperm.length_eq, List.length_range]

theorem Books.chargeLaw (h : Books a True {} s) (o : Nat) : chargeLaw s o := by
  have h1 : ((s.acct o).charge : Int) = s.ledger.mapped o + s.ledger.pledged o + s.ledger.copies o + 0 := Good.charged h trivial o
  refine ⟨?_, ?_⟩
  · rw [mappedOf_eq, copies_eq, h1, Int.add_zero]
    rfl
  · rw [mappedOf_eq]
    exact Good.owed_le h trivial rfl o

theorem Books.reservationLaw (h : Books a True {} s) (o : Nat) : reservationLaw s o := by
  have h1 : if s.ctl.part = .recovering then (s.acct o).reserved = 0
      else ((s.acct o).reserved : Int) = s.ledger.remaining o + 0 := Good.reserved h trivial o
  unfold Machine.reservationLaw
  rw [remaining_eq]
  split_ifs at h1 ⊢
  · exact h1
  · omega

end Sys2Proof.Machine
end

section
/-! PROOFS. A state with the laws of the work in flight has its books in balance, and every step keeps the laws of the pool
and of the accounts (R4, R51, R70). -/

namespace Sys2Proof.Machine

variable {a b : Prop} {s t : State} {v w : Nat}



/-! ### The parts of the law of the work in flight -/

theorem entryLaw.fits (h : entryLaw s) (hpart : s.inflight ≠ [] → s.ctl.part ≠ .recovering) {x : Entry}
    (hx : x ∈ s.inflight) : x.Fits {} s.ledger := by
  obtain ⟨harr, -, hin, hmir, -⟩ := h
  obtain ⟨hlt, huse, -, -, hw⟩ := hin x hx
  refine ⟨hlt, ((usable_iff _).mp huse).1, ?_⟩
  split_ifs at hw ⊢ with hwr
  · obtain ⟨⟨hnd, hplan, hcl, hch⟩, r, hr, h1, -, h2, h3⟩ := hw
    exact ⟨fun _ => ⟨hnd, hplan, hcl, hch⟩, r, hr, h1, h2, h3⟩
  · obtain ⟨h1, h2, h3⟩ := hw
    refine ⟨h1, h2, h3, fun r hr heq => ?_⟩
    obtain ⟨-, -, hwriter⟩ := hmir r hr
    obtain ⟨y, hy, hyw, hya⟩ := hwriter (hpart (List.ne_nil_of_mem hx))
    obtain rfl : y = x := List.inj_on_of_nodup_map harr hy hx (hya.trans heq)
    exact hwr hyw

theorem entryLaw.record (h : entryLaw s) {r : MirrorRec} (hr : r ∈ s.mirror) : r.Fits s.ledger := by
  obtain ⟨-, -, -, hmir, -⟩ := h
  obtain ⟨huse, hnd, hwriter⟩ := hmir r hr
  exact ⟨((usable_iff _).mp huse).1, hnd, hwriter⟩

theorem entryLaw.hold (h : entryLaw s) (v : Nat) : ∀ n ∈ (s.vol v).holdList,
    n < s.nextArrival ∧ ∀ x ∈ s.inflight, x.arrival = n → x.state = .held := by
  obtain ⟨-, -, -, -, hhold⟩ := h
  refine tget_of_forall (Q := fun x : Volume => ∀ n ∈ x.holdList,
    n < s.nextArrival ∧ ∀ y ∈ s.inflight, y.arrival = n → y.state = .held) (by simp [Volume.absent]) (fun p hp n hn => ?_) v
  obtain ⟨-, hn'⟩ := hhold p hp
  obtain ⟨hlt, hheld⟩ := hn' n hn
  exact ⟨hlt, fun x hx hxn => (hheld x hx hxn).1⟩

theorem busyLaw.fits (h : busyLaw s) (hjob : jobLaw s) (hsort : Table.sorted s.jobs = true) {i : BusyItem} (hi : i ∈ s.busy) :
    i.Fits {} s.ledger := by
  obtain ⟨-, -, hitem, -, -⟩ := h
  have hi := hitem i hi
  unfold BusyItem.Fits
  cases howner : i.owner with
  | front n =>
    rw [howner] at hi
    obtain ⟨x, hx, hxa, hheld, heq⟩ := hi
    refine ⟨x, hx, hxa, hheld, fun h => absurd h (by simp), heq.trans ?_⟩
    simp [State.ledger]
  | restore j =>
    rw [howner] at hi
    obtain ⟨⟨j', x⟩, hp, rfl, hvol, hch, hstep⟩ := hi
    refine Or.inr ⟨x, tfind_of_mem hsort hp, hvol, hch, ?_⟩
    obtain ⟨-, hwait, -⟩ := hjob _ hp
    split_ifs at hstep ⊢
    · exact hstep
    · exact ⟨hstep.1, hwait hstep.1, hstep.2⟩

theorem jobLaw.sane (h : jobLaw s) {p : Nat × Job} (hp : p ∈ s.jobs) :
    p.2.Sane ∧ (p.2.state.ended = false → (s.vol p.2.dstVol).usable = true) := by
  obtain ⟨hrun, hwait, -, hend⟩ := h p hp
  refine ⟨⟨fun hv => hrun ?_, hwait, fun he => ?_, fun he => ?_, fun he => ?_, fun he => ?_⟩, fun he => ?_⟩
  · simp only [Job.visiting, Bool.or_eq_true, Option.isSome_iff_ne_none] at hv
    exact hv.symm
  · rwa [if_pos he] at hend
  all_goals
    rw [if_neg (by simp [he])] at hend
    obtain ⟨-, hdst, hranges, hplace, hleft⟩ := hend
  · exact fun r hr => (hranges r hr).1
  · exact hplace
  · exact hleft
  · exact hdst

/-! ### Who waits on the drains -/

/-- How many of a volume's drains wait for a control reply. -/
def Volume.asks (x : Volume) : Nat := (x.works.map DrainWork.controlAsks).sum

theorem controlAsks_total (s : State) : (s.works.map fun p => p.2.controlAsks).sum = totalOf Volume.asks s.vols := by
  unfold State.works totalOf
  induction s.vols with
  | nil => rfl
  | cons p t ih =>
    rw [List.flatMap_cons, List.map_append, List.sum_append, ih, List.map_cons, List.sum_cons, List.map_map]
    rfl

theorem asks_eq (s : State) (v : Nat) : s.ledger.asks {} v = (s.vol v).asks := rfl

theorem asks_le_total (s : State) (v : Nat) : (s.vol v).asks ≤ totalOf Volume.asks s.vols := by
  unfold State.vol tget
  cases hf : tfind s.vols v with
  | none => exact Nat.zero_le _
  | some x => exact le_totalOf hf

theorem asks_pair_le_total (hs : Table.sorted s.vols = true) (hvw : v ≠ w) :
    (s.vol v).asks + (s.vol w).asks ≤ totalOf Volume.asks s.vols := by
  cases hf : tfind s.vols v with
  | none =>
    have hv : (s.vol v).asks = 0 := by
      rw [State.vol, tget, hf]
      rfl
    rw [hv, Nat.zero_add]
    exact asks_le_total s w
  | some x =>
    have hv : s.vol v = x := by rw [State.vol, tget, hf, Option.getD_some]
    have hdel := totalOf_tdel_some (f := Volume.asks) hf hs
    have hw : (s.vol w).asks ≤ totalOf Volume.asks (tdel v s.vols) := by
      unfold State.vol tget
      rw [← tfind_tdel_ne v w s.vols hvw.symm]
      cases hg : tfind (tdel v s.vols) w with
      | none => exact Nat.zero_le _
      | some y => exact le_totalOf hg
    rw [hv]
    omega

theorem mem_restoreAsks {c : CreateReq} {j : Nat} (hc : .holding c ∈ (s.vol v).works) (hj : c.asker = .restore j) :
    (v, j) ∈ s.restoreAsks := by
  cases hf : tfind s.vols v with
  | none =>
    rw [State.vol, tget, hf] at hc
    simp [Volume.works, Volume.absent] at hc
  | some x =>
    rw [State.vol, tget, hf, Option.getD_some] at hc
    have hw : (v, .holding c) ∈ s.works := List.mem_flatMap.mpr ⟨_, mem_of_tfind hf, List.mem_map.mpr ⟨_, hc, rfl⟩⟩
    exact List.mem_filterMap.mpr ⟨_, hw, by simp [hj]⟩

/-! ### The books and the work at the start of an event -/

/-- A state whose work agrees with its volumes and that has the laws of the pool or of the accounts has its books in
balance. -/
theorem books_of_laws (hwf : s.wf = true) (hwork : workLaw s) (ha : a → poolLaw s)
    (hb : b → ∀ o, chargeLaw s o ∧ reservationLaw s o) : Books a b {} s := by
  obtain ⟨hvols, hvol, -, hjobs, -⟩ := (State.wf_iff s).mp hwf
  have hsorted : Table.sorted s.vols = true := by
    rw [Table.wf, Bool.and_eq_true] at hvols
    exact hvols.1
  obtain ⟨hentry, hbusy, hjob, -, ⟨-, -, hvolume, -⟩, ⟨hasks, hrestore, -⟩, -, hrec⟩ := hwork
  have hpart : s.inflight ≠ [] → s.ctl.part ≠ .recovering := fun hne hr => hne (hrec hr).1
  have htotal : totalOf Volume.asks s.vols = if s.ctl.executing.isSome then 1 else 0 := by
    rw [← controlAsks_total, hasks]
  have htotal1 : totalOf Volume.asks s.vols ≤ 1 := by
    rw [htotal]
    split_ifs <;> omega
  exact {
    volsWf := hvols
    volWf := hvol
    jobsWf := hjobs
    bare := fun v => tget_of_forall (Q := fun x : Volume => x.state = .absent → x.bare) (fun _ => Volume.bare_absent)
      (fun p hp habs => absurd habs (hvolume p hp).1) v
    count := fun h => by
      have h1 : (s.claims : Int) = s.ledger.claimed := by rw [(ha h).1, claimedPcns_length]
      exact h1.trans (Int.add_zero _).symm
    places := fun h hvalid n => by
      have hperm := ((ha h).2 hvalid).1.count_eq n
      rw [allPcns_count, List.Nodup.count List.nodup_range] at hperm
      simp only [List.mem_range] at hperm
      rw [hperm]
      exact (Int.add_zero _).trans (Nat.cast_ite ..)
    charged := fun h o => by
      have h1 := (hb h o).1.1
      rw [mappedOf_eq, copies_eq] at h1
      exact h1.trans (Int.add_zero _).symm
    reserved := fun h o => by
      have h1 := (hb h o).2
      unfold reservationLaw at h1
      rw [remaining_eq] at h1
      split_ifs at h1 with hr
      · exact (if_pos hr).mpr h1
      · exact (if_neg hr).mpr ((congrArg Nat.cast h1).trans (Int.add_zero _).symm)
    arrivals := hentry.1
    mirrored := hentry.2.1
    entry := fun x hx => hentry.fits hpart hx
    record := fun r hr => hentry.record hr
    hold := hentry.hold
    order := hbusy.1
    owners := hbusy.2.1
    item := fun i hi => hbusy.fits hjob hjobs hi
    placed := hbusy.2.2.2.1
    job := fun p hp => ⟨(hjob.sane hp).1, fun he => ((usable_iff _).mp ((hjob.sane hp).2 he)).1⟩
    asked := fun v c j hc hj => by
      obtain ⟨p, hp, h1, h2, h3⟩ := hrestore _ (mem_restoreAsks hc hj)
      obtain rfl : p.1 = j := h1
      exact ⟨p.2, tfind_of_mem hjobs hp, h2, h3⟩
    one := fun v => (asks_le_total s v).trans htotal1
    alone := fun v w hv hw => by
      by_contra hvw
      have h1 := asks_pair_le_total hsorted hvw
      rw [asks_eq] at hv hw
      omega
    slot := fun h v => by
      have hidle : s.ctl.executing.isSome = false := by
        rcases h with h | h | h
        · cases h
        · exact h
        · rw [(hrec h).2.2.2.2.1]
          rfl
      have h1 := asks_le_total s v
      rw [htotal, hidle] at h1
      exact Nat.le_zero.mp h1
    idle := fun h => by
      obtain ⟨h1, h2, -, -, -, h3, h4, h5, h6, h7, -⟩ := hrec h
      exact ⟨h1, h2, h3, h4, h5, h6, h7⟩
    owed := fun h _ o => by
      have h1 := (hb h o).1.2
      rwa [mappedOf_eq] at h1 }

theorem startReady_of_laws (hwf : s.wf = true) (hwork : workLaw s) : StartReady s := by
  obtain ⟨-, -, -, hjobs, -⟩ := (State.wf_iff s).mp hwf
  obtain ⟨⟨-, -, hin, hmir, -⟩, ⟨-, -, -, -, hvisit⟩, hjob, ⟨-, -, hback⟩, ⟨hnone, hfill, hvolume, -⟩, -, -, hrec⟩ := hwork
  refine ⟨fun p hp => ?_, fun hcond => ?_, fun v hdel => ?_⟩
  · have hcmd : p.2.cmd ∈ s.shelf.cmds := List.mem_append_right _ (List.mem_map_of_mem hp)
    have hrun : s.ctl.part ≠ .recovering := fun hr => by
      obtain ⟨-, -, hnocmd, -⟩ := hrec hr
      rw [hnocmd] at hcmd
      exact absurd hcmd List.not_mem_nil
    refine ⟨fun j hj => ⟨hrun, fun x y hx hy => ?_⟩, fun n hn => ?_⟩
    · have hmem := mem_of_tfind hx
      obtain ⟨-, -, htarget, -⟩ := hjob _ hmem
      exact ⟨hvisit hrun _ hmem (by simp [Job.visiting, hy]), htarget y hy⟩
    · have hab : n ∈ s.shelf.abandoned := List.mem_filterMap.mpr ⟨_, hcmd, by rw [hn]⟩
      exact List.count_pos_iff.mp ((List.count_pos_iff.mpr hab).trans_le (hback n hab))
  · obtain ⟨h1, h2, h3⟩ := hfill hcond
    exact ⟨hnone (by simp [hcond]), h3, h1, h2⟩
  · have hnot : ∀ u, (s.vol u).usable = true → u ≠ v := by
      rintro u hu rfl
      exact ((usable_iff _).mp hu).2 hdel
    refine ⟨fun x hx => hnot _ (hin x hx).2.1, fun r hr => hnot _ (hmir r hr).1, fun p hp he => hnot _ ((jobLaw.sane hjob hp).2 he),
      ?_⟩
    refine tget_of_forall (Q := fun x : Volume => x.state = .deleting → x.size ≤ x.deletePos →
      ∀ p ∈ x.map, ∃ c, p.2.form = .unmapped c) (by simp [Volume.absent]) (fun p hp hd hpos q hq => ?_) v hdel
    obtain ⟨-, -, -, hmap⟩ := hvolume p hp
    have hq := hmap q hq
    split at hq
    · exact absurd (hq.2 hd) (by omega)
    · rename_i c hc
      exact ⟨c, hc⟩

/-! ### The obligations -/

/-- Settles O9: a state with the law of the pool and of the work in flight has its books in balance; every operation of every
event keeps them; and balanced books at the end of the event are the law. -/
theorem stepKeepsPoolLaw : Obligations.StepKeepsPoolLaw := by
  intro s t hwf _ _ hwork hpool hs
  have hbooks : Books True False {} s := books_of_laws hwf hwork (fun _ => hpool) False.elim
  exact (hbooks.step hs hwf (startReady_of_laws hwf hwork)).poolLaw

/-- Settles O10, in the same way as the law of the pool, with the laws of charges and reservations among the books. -/
theorem stepKeepsChargeLaws : Obligations.StepKeepsChargeLaws := by
  intro s t hwf _ _ hwork hlaws hs o
  have hbooks : Books False True {} s := books_of_laws hwf hwork False.elim (fun _ => hlaws)
  have hend := hbooks.step hs hwf (startReady_of_laws hwf hwork)
  exact ⟨hend.chargeLaw o, hend.reservationLaw o⟩

end Sys2Proof.Machine
end
